-- ==== Sys2Proof/Word.lean ====
section
/-! DEFINITION. The word types of the TLX4896 and the sparse store its arrays are held in. -/

namespace Sys2Proof

/-- A register of BAR0 or one 32-bit word of the BAR2 window (`00_scope.md`, Registers; R56). -/
abbrev W32 := BitVec 32

/-- An instruction word of a program bank (R102). -/
abbrev W64 := BitVec 64

/-- One octet of a canvas (R31). -/
abbrev Octet := BitVec 8

/-- A sparse array: strictly rising keys, each with its entry. What an unlisted key reads as is the
default that the reader names (`Sparse.get` in Machine/Sparse.lean). -/
abbrev Sparse (α : Type) := List (Nat × α)

end Sys2Proof
end

