-- ==== Sys2Proof/Syntax.lean ====
section
/-! DEFINITION. The commands of the block: one constructor of `Instr` per row of
`spec/opcode_table.json`, with the operands the spec gives that step. A step that the outside world
brings about (a line, a partner, a pin, a timer) carries what was received or measured; a step that
the host brings about carries the write. -/

namespace Sys2Proof

/-- A serial lane, 0-47 (R269). -/
abbrev Lane := Fin 48
/-- A path ID (R56: 262,144 entries). -/
abbrev PathId := BitVec 18
/-- An E1/T1 termination, 0-8191 (R84). -/
abbrev TermId := BitVec 13
/-- An AU number n of a lane, 0-63 (R64). -/
abbrev AuNo := BitVec 6
/-- A device of a fabric by device_id (R214). -/
abbrev Peer := Fin 8

/-- One received or emitted octet with the two flags of its slot word (R35, R129). -/
structure Cell where
  octet : Octet
  con   : Bool
  seq   : Bool
  deriving DecidableEq, Repr

/-- One canvas row by payload column: the listed columns, and one cell for every other column. -/
structure Row where
  dflt  : Cell
  cells : Sparse Cell
  deriving DecidableEq, Repr

/-- A row of an SDH lane as it was received and descrambled (R59, R66-R68). -/
structure SdhRow where
  /-- Its number in the received frame, and where it begins: in 1/46,080 row from a quarter row before the arrival
  period that begins next (log entry 78). -/
  number   : Fin 9
  phase    : Nat
  /-- Its octets, by payload column. -/
  content  : Row
  /-- Row 3: the H3 octets, each under the payload column of the octet that follows it in its VC when the pointer is
  not decremented, that is at the first offset of its AU. -/
  h3       : Row
  /-- Row 3: H1 and H2 by AU number. -/
  pointers : List (AuNo × BitVec 16)
  deriving DecidableEq, Repr

/-- The framing pattern as the framer found it at one bit offset of a frame. On an Amenamin lane `number` is the
frame number of row 0 words 12 and 13 that follow it there (R51, R52); an SDH framer does not use it (R59). -/
structure Sight where
  offset : Nat
  /-- Bits that differ, of 216 or of 48. -/
  differ : Nat
  number : BitVec 32
  deriving DecidableEq, Repr

/-- What a lane group hands over with one received row (R39, R59-R69, R221, R281, R282, R287). -/
structure IngressRow where
  /-- Octets of an Amenamin lane by payload column, with the received CON and SEQ bits. -/
  content   : Row
  /-- The rows of an SDH lane received since the last INGRESS_ROW: one, but none or two where the lane's frame
  drifts across the marks. -/
  sdh       : List SdhRow
  /-- Payload columns of words that failed the parity check on an island crossing (R13, R386). -/
  parityBad : List Nat
  /-- With the row that completes the pattern (and number) of a frame: what the framer found at every offset but
  those whose pattern failed (R51, R52, R59). -/
  framing   : Option (List Sight)
  /-- K1 and K2, in the row that completes them (R63). -/
  kBytes    : Option (Octet × Octet)
  /-- B1 and B2 bit errors found (R62). -/
  b1        : Nat
  b2        : Nat
  /-- The M1 octet, in the row that carries it (R62). -/
  m1        : Option Octet
  /-- Bits of BIP-8 and BIP-2 that disagree with the row they cover (R282). -/
  bip8      : Nat
  bip2      : Nat
  /-- B3 bit errors and the raw G1 REI value of an AU (R71). -/
  b3Rei     : List (AuNo × Nat × Nat)
  /-- The multiframe phase of an AU's VC, from its H4 (R73). -/
  mfPhase   : List (AuNo × BitVec 2)
  /-- Errored blocks of a path that ended in this row: near end, far end (R287). -/
  blocks    : List (PathId × Nat × Nat)
  /-- Fabric offset sigma in ns (R221). -/
  sigma     : Int
  /-- Alignment wait in ns (R281). -/
  wait      : BitVec 14
  deriving DecidableEq, Repr

/-- The header group of one frame of an Amenamin lane (R48), rows 0-2, as far as the fields of the
flip messages have no row of their own. The first three fields are the CON bits of row 0 words 12-15, of
row 1 word 4 and of row 2 words 0-3, first word first (R47). -/
structure Header where
  con0        : BitVec 4
  con1        : Bool
  con2        : BitVec 4
  frameNumber : BitVec 32
  deviceId    : BitVec 3
  laneRole    : BitVec 3
  side        : Bool
  timingMaster : Bool
  fabricId    : BitVec 8
  ql          : BitVec 4
  colBank     : Bool
  octBank     : Bool
  heartbeat   : BitVec 8
  coordId     : BitVec 3
  mateState   : BitVec 3
  epochCommit : Bool
  epoch       : BitVec 32
  mirrorSeq   : BitVec 16
  deriving DecidableEq, Repr

/-- The capability block: words 0-5 of header row 3 as received, with CON in bit 17 (R47, R48, R274). -/
structure CapsBlock where
  w0 : BitVec 18
  w1 : BitVec 18
  w2 : BitVec 18
  w3 : BitVec 18
  w4 : BitVec 18
  w5 : BitVec 18
  deriving DecidableEq, Repr

/-- A mirror record but for its kind, with the CRC-16 of its word 7 (R235). -/
structure MirrorRec where
  region : BitVec 4
  seq    : BitVec 16
  offset : W32
  data   : W32
  be     : BitVec 4
  crc    : BitVec 16
  deriving DecidableEq, Repr

/-- The first 32 bytes of one copy of the store's anchor (R307). -/
structure Anchor where
  format   : W32
  seq      : W32
  head     : BitVec 64
  ringLen  : W32
  erases   : W32
  reserved : W32
  crc      : W32
  deriving DecidableEq, Repr

/-- What initialising the drive found (R305-R307, R315, R316). -/
structure DriveInfo where
  /-- The requirements of R305 and R306 other than the current format. -/
  usable     : Bool
  /-- The current LBA format is 4,096-byte data without metadata. -/
  formatOk   : Bool
  /-- Namespace size in LBAs. -/
  size       : Nat
  /-- LBAs 0 and 1. -/
  anchorA    : Anchor
  anchorB    : Anchor
  /-- Identify reports support of cryptographic erase. -/
  crypto     : Bool
  critWarn   : BitVec 8
  usedPct    : BitVec 8
  deriving DecidableEq, Repr

/-- A flip proposal as received (R48, R184). -/
structure Proposal where
  /-- CON of one of the words of the message (R47). -/
  con    : Bool
  txn    : BitVec 16
  target : BitVec 32
  bank   : Bool
  col    : Bool
  oct    : Bool
  src    : BitVec 3
  deriving DecidableEq, Repr

/-- A housekeeping requester or crossbar master, in port order (R345, R351). -/
inductive Master where
  | host | dma | mirror | recorder | dump | cumin | debug
  deriving DecidableEq, Repr

/-- A crossbar target, in lock rank order (R351). -/
inductive Target where
  | otp | regs | store | sram | lanectl
  deriving DecidableEq, Repr

/-- An engine of either plane (R98). -/
inductive Engine where
  | col (d : Fin 56)
  | oct (d : Fin 16)
  deriving DecidableEq, Repr

/-- The plane of a bank (R102). -/
inductive Plane where
  | column | octet
  deriving DecidableEq, Repr

/-- What carries a lower-order pointer interpreter (R72, R88). -/
inductive TuRef where
  | path (p : PathId)
  | term (t : TermId)
  deriving DecidableEq, Repr

/-- A resource of the energy planner (R326). -/
inductive Resource where
  | engine (e : Engine)
  | bank (b : Fin 388)
  | termination
  deriving DecidableEq, Repr

/-- A sleep state of R326. -/
inductive Sleep where
  | clockGated | powerGated | retain
  deriving DecidableEq, Repr

/-- Fields of MOVC (R132). -/
structure MovcF where
  forceCon : Bool
  checkSeq : Bool
  digestExcl : Bool
  srcLane : BitVec 6
  srcCol : BitVec 16
  dstCol : BitVec 16
  lenM1 : BitVec 16
  deriving DecidableEq, Repr

/-- Fields of MOVCS (R134). -/
structure MovcsF where
  forceCon : Bool
  checkSeq : Bool
  srcLane : BitVec 6
  srcCol : BitVec 16
  dstCol : BitVec 16
  countM1 : BitVec 6
  strideM1 : BitVec 7
  smode : BitVec 2
  scale : Bool
  deriving DecidableEq, Repr

/-- Fields of FILC (R136). -/
structure FilcF where
  pattern : BitVec 4
  dstCol : BitVec 16
  lenM1 : BitVec 16
  deriving DecidableEq, Repr

/-- Fields of SELC (R139). -/
structure SelcF where
  wLane : BitVec 6
  wCol : BitVec 16
  dstCol : BitVec 16
  path : PathId
  pLane : BitVec 6
  pCol : BitVec 16
  lenM1 : BitVec 16
  deriving DecidableEq, Repr

/-- Fields of MOVO (R142). -/
structure MovoF where
  forceCon : Bool
  digestExcl : Bool
  lenM1 : BitVec 11
  src : BitVec 22
  dst : BitVec 22
  deriving DecidableEq, Repr

/-- Fields of MOVOS (R144). -/
structure MovosF where
  countM1 : BitVec 4
  sstrideM1 : BitVec 5
  dstrideM1 : BitVec 5
  src : BitVec 22
  dst : BitVec 22
  deriving DecidableEq, Repr

/-- Fields of FILO (R145). -/
structure FiloF where
  lenM1 : BitVec 11
  pattern : BitVec 4
  dst : BitVec 22
  deriving DecidableEq, Repr

/-- Fields of SELO (R146). -/
structure SeloF where
  lenM1 : BitVec 11
  wSrc : BitVec 22
  dst : BitVec 22
  pSrc : BitVec 22
  path : PathId
  deriving DecidableEq, Repr

/-- Fields of MIX and MIXP (R148); `sources` holds the k 16-bit source fields of R149 in order,
`sc` is the scratch word of MIXP and reserved in MIX. -/
structure MixF where
  law : Bool
  sc : BitVec 6
  sources : List (BitVec 16)
  anchor : BitVec 22
  deriving DecidableEq, Repr

/-- Fields of GAIN (R152). -/
structure GainF where
  nM1 : BitVec 4
  gain : BitVec 8
  lawIn : Bool
  lawOut : Bool
  src : BitVec 22
  dst : BitVec 22
  deriving DecidableEq, Repr

/-- Fields of TONE (R153). -/
structure ToneF where
  tone : BitVec 8
  phase : BitVec 16
  nM1 : BitVec 4
  pstep : BitVec 8
  dst : BitVec 22
  deriving DecidableEq, Repr

/-- Fields of PRBS without its mode bit (R154). -/
structure PrbsF where
  poly : BitVec 2
  chan : BitVec 10
  nM1 : BitVec 11
  addr : BitVec 22
  deriving DecidableEq, Repr

/-- Fields of CASX (R156). -/
structure CasxF where
  term : TermId
  chan : BitVec 5
  dst : BitVec 22
  deriving DecidableEq, Repr

/-- Fields of CASI (R157). -/
structure CasiF where
  term : TermId
  src : BitVec 22
  dst : BitVec 22
  deriving DecidableEq, Repr

/-- One command of the block. Each constructor names its row of the opcode table and its rule: first the
commands with operands, then those without. -/
inductive Instr where
  /-- FRAME_MARK (R18). The sync block issues the 8 kHz frame mark, carrying the 32-bit frame number, to every island. `late`: engines that miss the deadline of row 8, as in ROW_MARK. -/
  | frameMark (late : List (Nat × Nat)) (parity : List (Nat × Nat))
  /-- ROW_MARK (R18). The sync block issues the 72 kHz row mark, carrying the row number 0-8, which begins a row period and ends the previous one. -/
  | rowMark (late : List (Nat × Nat)) (laneBitErrors : List (Nat × Nat)) (parity : List (Nat × Nat))
  /-- ISLAND_HANG (R17). A handshake is still unanswered 2 µs after its request, so the watchdog declares a hang and resets the island that failed to answer. -/
  | islandHang (island : Fin 84) (emitted : Nat)
  /-- INGRESS_ROW (R39). A received row is assigned to its arrival period, written into the row buffers, and given word flags from the lane, AU and path conditions. -/
  | ingressRow (lane : Lane) (r : IngressRow)
  /-- HEADER_ROW0_RECEIVED (R48). The row 0 header group of an Amenamin lane is received whole, carrying frame number, identity, ql, live banks and heartbeat. -/
  | headerRow0Received (lane : Lane) (h : Header)
  /-- AMENAMIN_IN_FRAME (R52). A candidate offset qualifies on its third consecutive frame with a present pattern and continuous frame numbers, and the framer enters IN_FRAME. -/
  | amenaminInFrame (lane : Lane)
  /-- AMENAMIN_OOF (R52). There have been 4 consecutive failed framing patterns or 2 consecutive discontinuous frame numbers, so the framer enters OOF and hunts again. -/
  | amenaminOof (lane : Lane)
  /-- AMENAMIN_LOF_DECLARE (R53). The framer has been out of IN_FRAME for 24 consecutive frames, so LOF is declared. -/
  | amenaminLofDeclare (lane : Lane)
  /-- AMENAMIN_LOF_CLEAR (R53). The framer has been in IN_FRAME for 24 consecutive frames, so LOF is cleared. -/
  | amenaminLofClear (lane : Lane)
  /-- PATH_ENTRY_WRITE (R57). The host writes a path table entry; writes that would change locked fields while valid is set are refused with PATH_WRITE_REJECT. -/
  | pathEntryWrite (path : PathId) (word : Fin 8) (be : BitVec 4) (v : W32)
  /-- SDH_OOF (R59). An SDH lane has received 5 consecutive errored A1/A2 patterns, so OOF is declared and the framer hunts at every bit offset. -/
  | sdhOof (lane : Lane)
  /-- SDH_IN_FRAME (R59). An SDH lane has received 2 consecutive correct patterns at one offset, so the framer returns to IN_FRAME. -/
  | sdhInFrame (lane : Lane)
  /-- SDH_LOF_DECLARE (R59). OOF has persisted for 24 frames on an SDH lane, so LOF is declared. -/
  | sdhLofDeclare (lane : Lane)
  /-- SDH_LOF_CLEAR (R59). IN_FRAME has persisted for 24 frames on an SDH lane, so LOF is cleared. -/
  | sdhLofClear (lane : Lane)
  /-- LOS_DECLARE (R60). An SDH lane has had no transition for los_us, or its module is absent, so LOS is declared. -/
  | losDeclare (lane : Lane)
  /-- LOS_CLEAR (R60). Transitions have been present with no gap of los_us for 250 µs and the module is present, so LOS clears. -/
  | losClear (lane : Lane)
  /-- MS_AIS_CHANGE (R60). K2 bits 6-8 have been 0b111 (or have not been) in 3 in-frame frames, so MS-AIS is declared or cleared. -/
  | msAisChange (lane : Lane) (present : Bool)
  /-- MS_RDI_CHANGE (R60). K2 bits 6-8 have been 0b110 (or have not been) in 3 in-frame frames, so MS-RDI is declared or cleared. -/
  | msRdiChange (lane : Lane) (present : Bool)
  /-- B2_WINDOW_END (R61). A B2 error window of MS-EXC or MS-DEG ends, and its count is compared with the threshold to declare or clear the defect. -/
  | b2WindowEnd (lane : Lane) (degrade : Bool) (errors : Nat)
  /-- J0_ACCEPT (R62). The same J0 trace has been received in 3 consecutive trace periods, so it is accepted and RS-TIM is evaluated. -/
  | j0Accept (lane : Lane) (trace : List Octet)
  /-- K_INCONSISTENT (R63). 12 consecutive readable frames have passed without a confirmation of K1/K2, so K_INCONSISTENT is declared. -/
  | kInconsistent (lane : Lane)
  /-- S1_ACCEPT (R63). S1 bits 5-8 have been identical in 8 consecutive frames, so the value is accepted and passed to the sync block. -/
  | s1Accept (lane : Lane) (s1 : BitVec 4)
  /-- LTM_CFG_WRITE (R64). The host writes LTM_CFG; a write of au3 = 1 on an STM-64 lane is discarded with SDH_CFG_REJECT. -/
  | ltmCfgWrite (lane : Lane) (be : BitVec 4) (v : W32)
  /-- LTM_AU_CFG_WRITE (R65). The host writes an AU entry; unlawful structures are discarded with SDH_CFG_REJECT, and lawful ones take effect from the next frame. -/
  | ltmAuCfgWrite (lane : Lane) (n : AuNo) (be : BitVec 4) (v : W32)
  /-- AU_PTR_NORM (R66). An AU pointer interpreter enters NORM after 3 identical valid pointers or an enabled NDF, and the aligner acquires its delay. -/
  | auPtrNorm (lane : Lane) (n : AuNo)
  /-- AU_AIS (R66). H1 and H2 have been all-ones in 3 consecutive frames, so the interpreter enters AIS. -/
  | auAis (lane : Lane) (n : AuNo)
  /-- AU_LOP (R66). There have been 8 consecutive invalid pointers or enabled NDFs, so the interpreter enters LOP. -/
  | auLop (lane : Lane) (n : AuNo)
  /-- C2_ACCEPT (R71). C2 has been identical in 5 consecutive frames, so it is accepted and HP-PLM is evaluated. -/
  | c2Accept (lane : Lane) (n : AuNo) (c2 : Octet)
  /-- J1_ACCEPT (R71). A J1 trace is accepted after 3 identical periods, and HP-TIM is evaluated and TRACE_CHANGE raised. -/
  | j1Accept (lane : Lane) (n : AuNo) (trace : List Octet)
  /-- HP_UNEQ_CHANGE (R71). C2 has been zero (or non-zero) in 5 frames, so HP-UNEQ is declared or cleared. -/
  | hpUneqChange (lane : Lane) (n : AuNo) (present : Bool)
  /-- HP_RDI_CHANGE (R71). G1 bit 5 has been set (or clear) in 5 frames, so HP-RDI is declared or cleared. -/
  | hpRdiChange (lane : Lane) (n : AuNo) (present : Bool)
  /-- TU_PTR_CHANGE (R72). A TU pointer interpreter changes among NORM, AIS and LOP after its pointer-occurrence count. -/
  | tuPtrChange (tu : TuRef) (state : BitVec 2)
  /-- LOM_CHANGE (R72). The H4 sequence has been wrong (or correct) in 8 consecutive frames, so LOM is declared or cleared. -/
  | lomChange (lane : Lane) (n : AuNo) (present : Bool)
  /-- LP_LABEL_ACCEPT (R72). A lower-order signal label is accepted after 5 identical multiframes, and LP-UNEQ and LP-PLM are evaluated. -/
  | lpLabelAccept (path : PathId) (label : Octet)
  /-- J2_ACCEPT (R72). A lower-order trace is accepted, and LP-TIM is evaluated. -/
  | j2Accept (path : PathId) (trace : List Octet)
  /-- LP_RDI_CHANGE (R72). V5 bit 8 has been set (or clear) in 5 multiframes, so LP-RDI is declared or cleared. -/
  | lpRdiChange (path : PathId) (present : Bool)
  /-- TERMINATION_ENTRY_WRITE (R96). The host writes an E1/T1 termination entry; an enable is checked under R85, and changes while enabled are refused with TRB_CFG_REJECT. -/
  | terminationEntryWrite (term : TermId) (word : Fin 8) (be : BitVec 4) (v : W32)
  /-- TRB_FEED_FRAME (R89). A termination receives one feed frame, checks its framing and CRC, and writes it into the slip buffer. -/
  | trbFeedFrame (term : TermId)
  /-- TRB_OOF (R89). An E1 or T1 termination's framing errors reach the OOF entry count, so OOF is declared. -/
  | trbOof (term : TermId)
  /-- TRB_IN_FRAME (R89). The exit sequence of R89 completes, so the termination regains frame alignment and its slip buffer fill is set to 1.0. -/
  | trbInFrame (term : TermId)
  /-- TRB_LOF_CHANGE (R89). OOF has persisted for 24 frames (or the termination has been in frame for 24), so LOF is declared or cleared. -/
  | trbLofChange (term : TermId) (present : Bool)
  /-- TRB_MF_LOSS (R89). CRC-4 MFAS is not found within 8 ms, or 915 errored blocks occur in 1,000, so mf_loss is declared. -/
  | trbMfLoss (term : TermId)
  /-- TRB_CRC4_OFF (R89). mf_loss has persisted for 400 ms with CRC-4 interworking, so crc4_off is set. -/
  | trbCrc4Off (term : TermId)
  /-- TRB_CAS_LOSS (R89). TS16 MFAS has been errored, or TS16 all zeros, for the entry count, so cas_loss is declared. -/
  | trbCasLoss (term : TermId)
  /-- TRB_AIS_CHANGE (R89). The zero count has been low (or restored) in 2 consecutive periods, so the termination's ais is declared or cleared. -/
  | trbAisChange (term : TermId) (present : Bool)
  /-- TRB_RAI_CHANGE (R89). The remote alarm indication has persisted (or been absent) for its count, so rai or mrai is declared or cleared. -/
  | trbRaiChange (term : TermId) (multiframe : Bool) (present : Bool)
  /-- CAS_ACCEPT (R169). A channel's signalling has been identical in 2 consecutive multiframes, so it is accepted. -/
  | casAccept (term : TermId) (chan : BitVec 5)
  /-- RUN_AHEAD (R107). A fetch unit that has finished its program row early starts the next program row under the same bank. -/
  | runAhead (d : Fin 56)
  /-- RUN_AHEAD_V_READ (R107). A run-ahead read of a V-output source that has waited resumes at the row mark that completes the row. -/
  | runAheadVRead (d : Fin 56)
  /-- PROGRAM_ROW_END (R121). A column program row completes; the digest is compared and the row is masked with CON on a mismatch. -/
  | programRowEnd (d : Fin 56)
  /-- OCTET_DIGEST_CHECK (R122). At the end of row 8's instructions, the octet engine compares its digest and masks the next frame on a mismatch. -/
  | octetDigestCheck (d : Fin 16) (unitsDiffer : Bool)
  /-- BANK_WORD_WRITE (R105). A master writes a program bank word; writes to the live bank are discarded, and shadow writes cancel an uncommitted flip. -/
  | bankWordWrite (m : Master) (plane : Plane) (bank : Bool) (word : BitVec 19) (high : Bool) (be : BitVec 4) (v : W32)
  /-- START_WRITE (R105). A master writes START_A or START_B; live writes are discarded, and shadow writes clear that destination's REH valid and cancel an uncommitted flip. -/
  | startWrite (m : Master) (e : Engine) (bank : Bool) (be : BitVec 4) (v : W32)
  /-- MOVC (R133). Copies a contiguous run of source columns to destination positions. -/
  | movc (d : Fin 56) (f : MovcF)
  /-- MOVCS (R135). Copies up to 64 columns at a fixed, optionally interleave-scaled, stride. -/
  | movcs (d : Fin 56) (f : MovcsF)
  /-- FILC (R137). Fills a run of column positions from the COL fill pattern table, with CON. -/
  | filc (d : Fin 56) (f : FilcF)
  /-- SELC (R140). Fetches a working and a protect column run, and commits one side in the emission period. -/
  | selc (d : Fin 56) (f : SelcF)
  /-- MOVO (R143). Copies a run of octets from the completed octet frame to V-output positions. -/
  | movo (d : Fin 16) (f : MovoF)
  /-- MOVOS (R144). Copies up to 16 octets with source and destination strides. -/
  | movos (d : Fin 16) (f : MovosF)
  /-- FILO (R145). Fills a run of octet positions from the OCT fill pattern table, with CON. -/
  | filo (d : Fin 16) (f : FiloF)
  /-- SELO (R147). Writes an octet run from the working or protect source according to the selector state read at issue. -/
  | selo (d : Fin 16) (f : SeloF)
  /-- MIX (R151). Writes one position with the saturated, gained linear sum of up to 8 sources that carry no CON. -/
  | mix (d : Fin 16) (f : MixF)
  /-- MIXP (R151). Computes the same sum as MIX into a scratch word of the engine. -/
  | mixp (d : Fin 16) (f : MixF)
  /-- GAIN (R152). Applies a gain and law conversion to up to 16 octets. -/
  | gain (d : Fin 16) (f : GainF)
  /-- TONE (R153). Writes tone table samples indexed by frame number, phase and step. -/
  | tone (d : Fin 16) (f : ToneF)
  /-- PRBS_GENERATE (R155). Writes the next 8n bits of a PRBS channel's sequence into positions. -/
  | prbsGenerate (d : Fin 16) (f : PrbsF)
  /-- PRBS_CHECK (R168). Compares octets with a channel's expected sequence, synchronising the checker and counting errors. -/
  | prbsCheck (d : Fin 16) (f : PrbsF)
  /-- CASX (R156). Writes a channel's accepted signalling value from a termination into one position. -/
  | casx (d : Fin 16) (f : CasxF)
  /-- CASI (R157). Inserts signalling into a return position for the termination's egress multiframe position. -/
  | casi (d : Fin 16) (f : CasiF)
  /-- END (R158). Ends the program. -/
  | endI (e : Engine)
  /-- NOP (R158). Spends one cycle. -/
  | nop (e : Engine)
  /-- MARK (R159). Folds the cycles charged so far into the digest as a checkpoint. -/
  | mark (e : Engine) (tag : BitVec 16)
  /-- TONE_DATA_ACCESS (R171). A read or write of OCT_TONE_DATA accesses four tone samples and advances OCT_TONE_ADDR. -/
  | toneDataAccess (write : Option (BitVec 4 × W32))
  /-- TONE_LEN_WRITE (R166). A write of OCT_TONE_LEN commits a whole tone directory entry with its staged base. -/
  | toneLenWrite (e : BitVec 8) (be : BitVec 4) (v : W32)
  /-- PRBS_RESTART (R171). A write of PRBS_STAT.restart sets a generator to all ones, or makes a checker reload. -/
  | prbsRestart (chan : BitVec 10)
  /-- PRBS_BITS_LO_READ (R171). A read of PRBS_BITS_LO latches bits 47:32 for the next read of PRBS_BITS_HI. -/
  | prbsBitsLoRead (chan : BitVec 10)
  /-- PROPOSE_RECEIVED (R184). A member receives PROPOSE for a new transaction, and arms or answers NACK. -/
  | proposeReceived (peer : Peer) (p : Proposal)
  /-- READY_RECEIVED (R183). The coordinator records a member's READY for the transaction. -/
  | readyReceived (peer : Peer) (con : Bool) (txn : BitVec 16)
  /-- NACK_RECEIVED (R183). The coordinator receives a NACK, aborts, and sends ABORT. -/
  | nackReceived (peer : Peer) (con : Bool) (txn : BitVec 16) (reason : BitVec 8)
  /-- COMMIT_RECEIVED (R186). A READY or uncertain member receives COMMIT and enters COMMITTED. -/
  | commitReceived (peer : Peer) (con : Bool) (txn : BitVec 16)
  /-- ABORT_RECEIVED (R186). A member receives ABORT for the transaction and enters ABORTED. -/
  | abortReceived (peer : Peer) (con : Bool) (txn : BitVec 16)
  /-- FLP_FAB_CFG_WRITE (R189). A write of FLP_FAB_CFG or FLP_FAB_RANK is applied, or is discarded with FLIP_REJECT (BUSY) during a flip. -/
  | flpFabCfgWrite (rank : Bool) (be : BitVec 4) (v : W32)
  /-- SEL_COMMAND (R198). A host write of byte 3 of path word 6 gives an SNCP command, which is accepted or refused at the next evaluation. -/
  | selCommand (path : PathId) (be : BitVec 4) (v : W32)
  /-- SEL_HOLDOFF_EXPIRY (R196). A selector's hold-off timer expires, and an SF or SD that is still present becomes a request. -/
  | selHoldoffExpiry (path : PathId) (protect : Bool)
  /-- SEL_WTR_EXPIRY (R197). Wait-to-restore expires, so the request becomes NR and the side returns to working. -/
  | selWtrExpiry (path : PathId)
  /-- CON_FAIL_EXIT (R192). A side has not been CON-dense for 72 program rows or 8 execution frames, so it leaves CON-fail. -/
  | conFailExit (path : PathId) (protect : Bool)
  /-- HOLD_WINDOW_END (R202). A hold window closes after 18 emission periods or 2 execution frames, and PRT_CNT_HOLD is updated. -/
  | holdWindowEnd (path : PathId)
  /-- PATH_SD_WINDOW_END (R194). A path's sd error window ends, and sd is declared or cleared against its threshold. -/
  | pathSdWindowEnd (path : PathId) (errors : Nat) (bits : Nat)
  /-- PATH_SF_CLEAR (R194). 8 consecutive frames have passed without received CON on the path's grains, so sf clears. -/
  | pathSfClear (path : PathId)
  /-- APS_CFG_WRITE (R204). A write of APS_CFG enables a controller after the checks, or is discarded with MSP_CFG_REJECT. -/
  | apsCfgWrite (g : Fin 24) (be : BitVec 4) (v : W32)
  /-- APS_COMMAND (R207). A write of APS_CMD gives LO, FS, MS or clear to a linear MSP controller. -/
  | apsCommand (g : Fin 24) (be : BitVec 4) (v : W32)
  /-- APS_HOLDOFF_EXPIRY (R206). A controller's hold-off for a lane's SF or SD expires. -/
  | apsHoldoffExpiry (g : Fin 24) (chan : BitVec 4)
  /-- APS_WTR_EXPIRY (R207). A controller's wait-to-restore expires, and it reverts. -/
  | apsWtrExpiry (g : Fin 24)
  /-- MSP_FOP_CHANNEL (R209). Accepted K2 has mismatched the channel sent for 400 frames, so FOP cause 3 is declared. -/
  | mspFopChannel (g : Fin 24)
  /-- PROT_COMMAND (R369). A host command writes an SNCP ext_cmd or APS_CMD, and completes after the accepting or refusing evaluation. -/
  | protCommand (r : Fin 4)
  /-- FAB_CFG_WRITE (R216). A write of the device or fabric identity is applied, or is discarded with FAB_CFG_REJECT while fabric or mate lanes are beyond DETECT. -/
  | fabCfgWrite (be : BitVec 4) (v : W32)
  /-- FAB_LANE_WRITE (R216). A write of FAB_LANE peer is applied, or is discarded with FAB_CFG_REJECT if the lane is beyond DETECT. -/
  | fabLaneWrite (lane : Lane) (be : BitVec 4) (v : W32)
  /-- FAB_ALIGN_STEP (R224). At the frame mark of N+2, a follower steps its frame number and marks to the master's, with CON on every lane for that frame. -/
  | fabAlignStep
  /-- FAB_PEER_FAIL (R225). Every lane from a peer has delivered only bad rows for 9 row periods, so the peer is declared failed. -/
  | fabPeerFail (peer : Peer)
  /-- FAB_PEER_OK (R225). A peer has delivered good rows for 8 frames, so it is declared recovered. -/
  | fabPeerOk (peer : Peer)
  /-- MATE_HB_CHANNEL (R230). One heartbeat channel only has had no good beat for 8 frames. -/
  | mateHbChannel (pin : Bool)
  /-- MATE_ENABLE_WRITE (R231). A write of MAT_CTL.en enables the mate function or moves the device to ALONE. -/
  | mateEnableWrite (be : BitVec 4) (v : W32)
  /-- MIRROR_WRITE_RECORD (R236). The standby receives a write record and applies it in seq order, or discards it. -/
  | mirrorWriteRecord (r : MirrorRec)
  /-- MIRROR_EPOCH_RECORD (R239). The standby receives and stages an epoch record. -/
  | mirrorEpochRecord (r : MirrorRec)
  /-- MIRROR_IMAGE_RECORD (R241). A SYNCING device receives and applies an image record. -/
  | mirrorImageRecord (r : MirrorRec)
  /-- RESYNC_START_RECORD (R241). The mate receives a resync start record and enters SYNCING. -/
  | resyncStartRecord (r : MirrorRec)
  /-- IMAGE_END_RECORD (R241). A SYNCING device receives the image end record naming the active's live banks. -/
  | imageEndRecord (r : MirrorRec)
  /-- RESYNC_DONE (R242). At the first frame mark at which the image and the prior writes are applied and the active's flip is idle, the device enters STANDBY. -/
  | resyncDone (activeFlipIdle : Bool)
  /-- OSC_TEMP_READ (R249). Every 100 ms, the oscillator temperature θ is read and judged valid or invalid. -/
  | oscTempRead (ohms : Option Nat)
  /-- REFIN_SIGNAL_LOSS (R247). An external input has had no rising edge for 3 nominal periods, so it loses signal. -/
  | refinSignalLoss (input : Fin 5)
  /-- REF_OFFSET_UPDATE (R252). Each second, a slot's averaged modelled offset is updated and checked against the hard limit, the soft limit and drift. -/
  | refOffsetUpdate (slot : Fin 12) (ofs1 : Int) (ofs10 : Int)
  /-- REF_QUALIFY (R252). A slot's conditions have held for ref_wtr, so it becomes qualified. -/
  | refQualify (slot : Fin 12)
  /-- REF_DISQUALIFY (R252). A slot's signal fails, so it is disqualified in that row and the DPLL freezes its frequency. -/
  | refDisqualify (slot : Fin 12)
  /-- REF_SUSPECT (R254). Two equal slots have disagreed for 10 s (or agreed again for 10 s), so SUSPECT is set or cleared. -/
  | refSuspect (slot : Fin 12) (other : Fin 12) (disagree : Bool)
  /-- MINUTE_RECORD (R263). Each minute, a record of the mean offset, θ and age is stored in the history. -/
  | minuteRecord (offset : Int) (theta : Int) (wholeMinute : Bool)
  /-- TMG_PHASE_STEP_WRITE (R261). A write of TMG_PHASE_STEP adds to the pending phase, or is discarded with TMG_STEP_REJECT. -/
  | tmgPhaseStepWrite (v : W32)
  /-- LANE_CFG_WRITE (R269). A write of SDS_CFG stores the lane's role, rate and options, or is discarded with LANE_CFG_REJECT. -/
  | laneCfgWrite (lane : Lane) (be : BitVec 4) (v : W32)
  /-- RX_DETECT_PROBE (R272). A receiver-detect probe (or an SDH mod_present read) moves the lane to TRAIN or LOCK, or counts a failure. -/
  | rxDetectProbe (lane : Lane) (found : Bool)
  /-- LANE_TRAINED (R272). The PRBS31 checker has seen 2^20 consecutive correct bits, so the lane enters LOCK. -/
  | laneTrained (lane : Lane)
  /-- LANE_RETRAIN (R272). PRBS31 has been recognised from the partner for 1 µs in LOCK or CAPS, so the lane returns to TRAIN. -/
  | laneRetrain (lane : Lane)
  /-- CAPS_BLOCK_RECEIVED (R274). A capability block with a correct CRC is accepted and judged for agreement. -/
  | capsBlockReceived (lane : Lane) (c : CapsBlock)
  /-- CAPS_TIMEOUT (R272). 8 frames have passed in CAPS without agreement, which is a bring-up failure. -/
  | capsTimeout (lane : Lane)
  /-- TRAIN_TIMEOUT (R272). 50 ms have passed since entry into TRAIN without reaching CAPS, which is a failure. -/
  | trainTimeout (lane : Lane)
  /-- BACKOFF_RETRY (R275). Every second in BACKOFF, the lane leaves DEEP and makes one detection. -/
  | backoffRetry (lane : Lane) (found : Bool)
  /-- LANE_RETRY (R275). A write of SDS_CTL.retry ends BACKOFF and returns the lane to DETECT. -/
  | laneRetry (lane : Lane)
  /-- DENSITY_WINDOW (R277). A 1 µs transition-density window ends, freezing or thawing the loops and counting toward Amenamin LOS. -/
  | densityWindow (lane : Lane) (low : Bool)
  /-- LANE_LOS_CLEAR (R277). 250 µs have passed without a run of 20 frozen windows, so Amenamin LOS clears. -/
  | laneLosClear (lane : Lane)
  /-- IDLE_OK_EXPIRY (R277). One second after LOS with idle_ok, the lane goes to DETECT if LOS or LOF is still declared. -/
  | idleOkExpiry (lane : Lane)
  /-- LANE_POWER_REQUEST (R278). A write of SDS_CTL.pwr requests ACTIVE, STANDBY or DEEP for the lane. -/
  | lanePowerRequest (lane : Lane) (pwr : BitVec 2)
  /-- DEEP_POINT_OF_NO_RETURN (R280). The PLL stops 10 µs after the transmitter went idle, and the DEEP entry can no longer be cancelled. -/
  | deepPointOfNoReturn (lane : Lane)
  /-- DEEP_EXIT_DONE (R280). The 400 µs exit from DEEP completes, and the lane resumes at LOCK, TRAIN or DETECT. -/
  | deepExitDone (lane : Lane)
  /-- LANE_WAKE (R280). With wake_rx set, the lane has seen received activity for 10 µs, so pwr is set to ACTIVE. -/
  | laneWake (lane : Lane)
  /-- LANE_TEST (R283). A write of SDS_CTL.test enters TEST at the next frame mark, or returns the lane to DETECT. -/
  | laneTest (lane : Lane) (on : Bool)
  /-- LANE_PRBS_INJECT (R283). A write of SDS_PRBS.inject inverts one transmitted bit. -/
  | lanePrbsInject (lane : Lane)
  /-- SDS_PRBS_BITS_LO_READ (R283). A read of SDS_PRBS_BITS_LO latches the high bits for the next read of SDS_PRBS_BITS_HI. -/
  | sdsPrbsBitsLoRead (lane : Lane)
  /-- PMN_TAI_WRITE (R286). A write of PMN_TAI sets the TAI value of the next PM second, closing the bins on a step. -/
  | pmnTaiWrite (be : BitVec 4) (v : W32)
  /-- PMN_BIN_SEL_WRITE (R295). A write of PMN_BIN_SEL copies the named bin into PMN_BIN_DATA in one step. -/
  | pmnBinSelWrite (be : BitVec 4) (v : W32)
  /-- CNT_LO_READ (R299). A read of CNT_LO latches bits 47:32 and ovf for the next CNT_HI read. -/
  | cntLoRead (k : Fin 195)
  /-- CNT_HI_WRITE (R299). A write of CNT_HI stages the high bits and optionally clears ovf. -/
  | cntHiWrite (k : Fin 195) (be : BitVec 4) (v : W32)
  /-- CNT_LO_WRITE (R299). A write of CNT_LO commits the staged high bits and the written low bits. -/
  | cntLoWrite (k : Fin 195) (be : BitVec 4) (v : W32)
  /-- STORE_LINK_UP (R311). The store link trains, and INIT starts. -/
  | storeLinkUp (rate : BitVec 3)
  /-- STORE_INIT_DONE (R311). Identify, queue creation, SMART read and anchor adoption complete. -/
  | storeInitDone (d : DriveInfo)
  /-- NVME_COMPLETION (R311). An NVMe completion entry arrives, advancing the store operation or failing it on error status. -/
  | nvmeCompletion (ok : Bool)
  /-- STORE_ERASE_DONE (R315). The store erase completes, and STORE_ERASED is raised. -/
  | storeEraseDone
  /-- PLANNER_SLEEP (R326). At a gap before a resource's next known event, the planner places it in the deepest state that fits. -/
  | plannerSleep (r : Resource) (st : Sleep) (gapNs : Nat)
  /-- RESOURCE_WAKE_DONE (R328). A sleeping resource's exit completes and it resumes work. -/
  | resourceWakeDone (r : Resource)
  /-- SENSOR_READ (R329). Every 10 ms, the die sensors are read, Tj_max is formed, and the ledger and THERM_N are updated. -/
  | sensorRead (temps : List (Option Int)) (vcoreMv : BitVec 16)
  /-- OTP_BURN_CHECK (R382). An OTP burn is read back; it is retried once on failure, and OTP_BURN_FAIL is raised. -/
  | otpBurnCheck (ok : Bool)
  /-- SCRUB_SLOT (R341). In a bank's scrub slot, one word is read and checked, and a correction is scheduled. -/
  | scrubSlot (bank : Fin 389) (word : BitVec 15)
  /-- SCRUB_WRITEBACK (R341). In the bank's next housekeeping cycle, a corrected word is written back unless a write intervened. -/
  | scrubWriteback (bank : Fin 389)
  /-- HK_REQUEST (R345). A housekeeping requester raises a request for one bank and one beat. -/
  | hkRequest (m : Master) (bank : Fin 388) (locked : Bool)
  /-- HK_GRANT (R345). In the bank's housekeeping cycle, the arbiter grants the highest-ranked request and gives turn estimates. -/
  | hkGrant (bank : Fin 388)
  /-- HK_WITHDRAW (R348). A requester withdraws its request after its grant, leaving the cycle unused. -/
  | hkWithdraw (m : Master)
  /-- XBR_TRANSACTION (R351). A master's crossbar transaction is served, or gets an error under the lock order. -/
  | xbrTransaction (m : Fin 6) (t : Target) (addr : BitVec 26) (write : Option (BitVec 4 × W32)) (release : Bool)
  /-- XBR_LOCK (R352). A master locks a crossbar target, or is denied. -/
  | xbrLock (m : Fin 6) (t : Target)
  /-- XBR_LEASE_EXPIRY (R354). A lock's 4,096-cycle lease expires, and the master's locks are released. -/
  | xbrLeaseExpiry (m : Fin 6)
  /-- XBR_ABANDON (R355). A master is reset in mid-burst, so the burst is abandoned and its locks released. -/
  | xbrAbandon (m : Fin 6) (t : Target)
  /-- SWEEP_SLOT_START (R358). A bank's 37.5 s sweep slot begins, and copying to a free spare starts. -/
  | sweepSlotStart (bank : Fin 388)
  /-- SWEEP_MARCH_DONE (R359). The March C- pass on a borrowed bank completes. -/
  | sweepMarchDone (pass : Bool)
  /-- SWEEP_RETENTION_EXPIRY (R359). A 100 ms retention hold ends, and the bank is woken and read back. -/
  | sweepRetentionExpiry (pass : Bool)
  /-- CRING_CFG_WRITE (R367). A write of a command ring configuration enables it and resets its indexes. -/
  | cringCfgWrite (r : Fin 4) (be : BitVec 4) (v : W32)
  /-- CRING_TAIL_WRITE (R367). A doorbell write of HIF_CRING_TAIL makes entries available, or faults the ring. -/
  | cringTailWrite (r : Fin 4) (be : BitVec 4) (v : W32)
  /-- COMMAND_FETCH (R367). The device fetches command entries up to the tail and advances the head. -/
  | commandFetch (r : Fin 4) (entries : List (List W32)) (ok : Bool)
  /-- ERING_CFG_WRITE (R367). A write of an event ring configuration enables it and resets its indexes. -/
  | eringCfgWrite (e : Fin 2) (be : BitVec 4) (v : W32)
  /-- ERING_HEAD_WRITE (R367). The host writes HIF_ERING_HEAD, freeing ring space. -/
  | eringHeadWrite (e : Fin 2) (be : BitVec 4) (v : W32)
  /-- EVENT_WRITE (R372). A staged event is written into its ring once the ring has room. -/
  | eventWrite (e : Fin 2)
  /-- EVENT_COALESCE_EXPIRY (R374). coal_us has passed since the first unsignalled entry, so MSI-X is signalled. -/
  | eventCoalesceExpiry (e : Fin 2)
  /-- DMA_TIMEOUT (R363). A DMA read issued by the device has not completed within 50 ms. -/
  | dmaTimeout (r : Fin 4)
  /-- LOAD_BANK (R369). Command that writes words and start values into a shadow bank. -/
  | loadBank (r : Fin 4) (words : List W64) (starts : List W32) (ok : Bool)
  /-- ARM_FLIP (R369). Command that writes the flip request and arms it. -/
  | armFlip (r : Fin 4)
  /-- CANCEL_FLIP (R369). Command that writes FLP_CMD.cancel. -/
  | cancelFlip (r : Fin 4)
  /-- SNAPSHOT (R369). Command that takes a snapshot and optionally DMAs the counters. -/
  | snapshot (r : Fin 4)
  /-- DUMP_CONFIG (R369). Command that writes the dump and window registers. -/
  | dumpConfig (r : Fin 4)
  /-- STORE_READ (R312). Command that DMAs history records from staging or the drive to the host. -/
  | storeRead (r : Fin 4)
  /-- STORE_MARK (R313). Command that stages a marker record and completes once it is stored. -/
  | storeMark (r : Fin 4)
  /-- MATE_RESYNC (R369). Command that starts a resync and completes at MATE_RESYNC_DONE. -/
  | mateResync (r : Fin 4)
  /-- LIFECYCLE_ADVANCE (R407). Command that runs a life-cycle transition with its wipe, burn, store erase and soft reset. -/
  | lifecycleAdvance (r : Fin 4)
  /-- COMMAND_BAD_OPCODE (R369). A command with an unknown opcode completes with BAD_OPCODE. -/
  | commandBadOpcode (r : Fin 4)
  /-- HOST_LINK_UP (R376). The host link returns, and HIF_LINK_UP is raised. -/
  | hostLinkUp (rate : BitVec 3) (width : BitVec 3)
  /-- BUS_MASTER_CHANGE (R366). Bus Master Enable or the D-state changes, pausing or resuming all DMA. -/
  | busMasterChange (bme : Bool) (d3hot : Bool)
  /-- RAIL_DROOP (R388). A rail stays below its low level for 200 ns; core or SRAM droop masks every output. -/
  | railDroop (rail : Fin 6) (mv : Nat)
  /-- RAIL_DROOP_CLEAR (R388). A rail has been above its clear level for 10 µs, so the droop clears. -/
  | railDroopClear (rail : Fin 6)
  /-- FAULT_INJECT (R393). A write of FLT_INJECT with injection enabled creates one fault of the chosen kind. -/
  | faultInject (be : BitVec 4) (v : W32)
  /-- POWER_ON_RESET (R395). The internal power-on reset is entered, or released after every rail has been at its clear level for 1 ms. -/
  | powerOnReset (entered : Bool)
  /-- RESET_N_CHANGE (R396). RESET_N is asserted or released through its filter. -/
  | resetNChange (low : Bool)
  /-- PERST_N_CHANGE (R396). PERST_N is asserted or released through its filter. -/
  | perstNChange (low : Bool)
  /-- BOOT (R398). On release of all resets, the device loads OTP, wipes SRAM, starts the islands and opens configuration space. -/
  | boot (otpOk : Bool) (sideB : Bool) (testMode : Bool)
  /-- ISLAND_RESET (R403). A write of RST_CTL.island resets one island. -/
  | islandReset (island : BitVec 7)
  /-- DEBUG_UNLOCK (R408). A write of RST_DBG.unlock opens or closes the DEBUG master in FIELD. -/
  | debugUnlock (on : Bool)
  /-- DEBUG_TRANSACTION (R408). The test access port issues a DEBUG transaction, which is served or denied. -/
  | debugTransaction (t : Target) (addr : BitVec 26) (write : Option (BitVec 4 × W32))
  /-- REGISTER_WRITE (R6). A host write to a register field with no row of its own acts according to its access code. -/
  | registerWrite (addr : BitVec 22) (be : BitVec 4) (v : W32)
  /-- REFIN_SIGNAL_RETURN (R247). A rising edge arrives on a REFIN input or FRAME_IN that had no signal, so the input has signal again and the slot's ref_wtr can start. -/
  | refinSignalReturn (input : Fin 5)
  /-- SDS_PRBS_IN_SYNC (R283). In TEST, the lane PRBS checker has made 256 consecutive correct predictions and sets in_sync, after which it counts bits and errors. -/
  | sdsPrbsInSync (lane : Lane)
  /-- SDS_PRBS_SYNC_LOST (R283). A 1,024-bit block with 256 or more errors clears in_sync of the lane PRBS checker, sets sync_lost and restarts loading. -/
  | sdsPrbsSyncLost (lane : Lane) (errors : Nat)
  /-- RETAINED_BANK_SCRUB_BURST (R341). Once per scrub pass, a bank that has been in RETAIN throughout is woken, read in 32,768 consecutive cycles ahead of every housekeeping requester, and returned to RETAIN. -/
  | retainedBankScrubBurst (bank : Fin 388)
  /-- OSCIN_STOP (R21). OSCIN stops; within 10 µs the sync block continues the marks from the backup oscillator and the timing state goes to LOST. -/
  | oscinStop
  /-- OSCIN_RETURN (R248). OSCIN has shown edges at the detected frequency for 1 s and is declared present again. -/
  | oscinReturn (freq : Fin 5)
  /-- FLIP_ARM (R173). A write of FLP_CMD.arm submits a flip request, which is accepted into ARMED or rejected with FLIP_REJECT. -/
  | flipArm
  /-- FLIP_CANCEL (R175). A write of FLP_CMD.cancel aborts an uncommitted flip, or raises FLIP_CANCEL_LATE if it is COMMITTED. -/
  | flipCancel
  /-- REHEARSAL_END (R178). The rehearsal frame ends; the flip goes to READY or to ABORTED, and REH, DIG, COVER and FLP_FAIL are written. -/
  | rehearsalEnd
  /-- COORD_LEASE (R188). The lease holder has been silent for 16 frames, so the next-ranked device takes the lease at the next frame mark. -/
  | coordLease
  /-- TM_CLAIM (R222). A device has had an ACTIVE fabric lane for 16 frames with no claim received, ranks first, and claims the timing master role. -/
  | tmClaim
  /-- TM_WITHDRAW (R222). A device that received a claim from an earlier-ranked device withdraws at the next frame mark and becomes a follower. -/
  | tmWithdraw
  /-- TM_TAKEOVER (R222). The master has failed, so the earliest-ranked remaining device claims the role at the next frame mark. -/
  | tmTakeover
  /-- FAB_ALIGNED (R223). σ has been within target ±0.5 µs for 8 frames, so the follower sets aligned. -/
  | fabAligned
  /-- MATE_HB_EDGE (R229). An edge is detected on MATE_HB_IN, which is a good beat on the pin channel. -/
  | mateHbEdge
  /-- MATE_FAIL (R230). Neither heartbeat channel has had a good beat for 8 frames, so the mate is declared failed and takeover applies. -/
  | mateFail
  /-- MATE_REACHABLE (R230). There have been 8 consecutive frames with good header beats, so the mate is declared reachable. -/
  | mateReachable
  /-- MATE_RESYNC_REQUEST (R241). A write of MAT_CTL.resync on an ACTIVE device starts a resync. -/
  | mateResyncRequest
  /-- MATE_RELEASE (R240). A write of MAT_CTL.release clears image_bad. -/
  | mateRelease
  /-- MIRROR_RECORD_SEND (R236). A queued mirror record is sent on the mirror lane. -/
  | mirrorRecordSend
  /-- MIRROR_RESEND (R236). The standby's mirror_seq has not advanced for 2 frames, so the active resends the outstanding records. -/
  | mirrorResend
  /-- EPOCH_COMMIT_SEND (R238). The last record of a snapshot has been sent, so the active starts sending the commit marker. -/
  | epochCommitSend
  /-- EPOCH_APPLY (R239). At the first frame mark after the marker and all its records have arrived, the standby applies the epoch in one step. -/
  | epochApply
  /-- DPLL_LOCK (R258). Phase and frequency criteria have held for 1 s, so the DPLL enters LOCKED. -/
  | dpllLock
  /-- DPLL_LOCK_LOSS (R258). The phase error exceeds ±10 µs, so the DPLL returns to ACQUIRING at 25 Hz. -/
  | dpllLockLoss
  /-- DPLL_BW_STEP (R259). The lock criteria have held for the dwell, so the loop bandwidth steps down. -/
  | dpllBwStep
  /-- HOLDOVER_UPDATE (R263). Each second in HOLDOVER, the DPLL value and predicted error are recomputed, and LOST may be entered. -/
  | holdoverUpdate
  /-- DRIFT_CLEAR (R264). The drift difference has been below half the threshold for 30 minutes, so drift clears. -/
  | driftClear
  /-- MODEL_REFIT_HOURLY (R265). Once an hour, c0-c3 are refitted, TMG_TRANGE is updated and TMG_AGE_HOURS advances. -/
  | modelRefitHourly
  /-- MODEL_REFIT_DAILY (R265). Once a day, the ageing model a, b and τ is refitted. -/
  | modelRefitDaily
  /-- CLEAR_LEARN (R265). A write of TMG_CTL.clear_learn empties the temperature bins and TMG_TRANGE. -/
  | clearLearn
  /-- PPS_ALIGN_STEP (R262). At the frame mark of N+2, the device aligns its frame mark in one step to a 1 PPS or FRAME_IN edge. -/
  | ppsAlignStep (away : Int)
  /-- PMN_BIN_CLEAR (R295). A write of PMN_BIN_CTL.clear zeroes the current bins of the selected path and flags them cleared. -/
  | pmnBinClear
  /-- PFC_WINDOW_END (R298). A speed-counter window ends, and every window value is latched. -/
  | pfcWindowEnd
  /-- SNAP_REQUEST (R300). A write of PFC_SNAP.snap requests a snapshot at the next frame mark. -/
  | snapRequest
  /-- DUMP_DUE (R301). A periodic counter dump falls due and is started, or is skipped with PFC_CNT_SKIP. -/
  | dumpDue
  /-- DUMP_DONE (R302). A counter dump to host memory completes. -/
  | dumpDone
  /-- PM_RECORD_WALK (R309). The recorder forms PM interval records from the previous-bin copies, resuming once staging has room. -/
  | pmRecordWalk
  /-- FLUSH_DUE (R311). A flush falls due by time, fill, marker or HST_CTL.flush, starting POWERING or FLUSHING. -/
  | flushDue
  /-- STORE_PERST_RELEASE (R311). on_ms after power-up, ST_PERST_N is released and link training starts. -/
  | storePerstRelease
  /-- STORE_LINK_TIMEOUT (R311). No link within 1 s of release, so the store is FAILED. -/
  | storeLinkTimeout
  /-- STORE_READY_TIMEOUT (R311). CSTS.RDY has not been set within ready_ms, so the store is FAILED. -/
  | storeReadyTimeout
  /-- STORE_CMD_TIMEOUT (R311). An NVMe command has not completed within 1 s (600 s for Format), so the store is FAILED. -/
  | storeCmdTimeout
  /-- STORE_LINK_LOSS (R311). The store link is lost while powered, so the store is FAILED. -/
  | storeLinkLoss
  /-- STORE_FLUSH_DONE (R311). A flush with its anchor write completes, and the records count as stored. -/
  | storeFlushDone
  /-- STORE_SHUTDOWN_DONE (R311). CSTS.SHST completes or 1 s passes, and the store goes OFF. -/
  | storeShutdownDone
  /-- STORE_RETRY_TIMER (R311). retry_s after failure, the store port leaves FAILED for POWERING. -/
  | storeRetryTimer
  /-- STORE_RETRY (R311). A write of HST_CTL.retry leaves FAILED at once. -/
  | storeRetry
  /-- STORE_ERASE_REQUEST (R315). A write of HST_CTL.erase with erase_en set requests a store erase. -/
  | storeEraseRequest
  /-- STORE_FLUSH_REQUEST (R311). A write of HST_CTL.flush makes a flush due now. -/
  | storeFlushRequest
  /-- BUDGET_RESTORE (R320). Power has stayed at or below 90 % of the budget for restore_s, so the demand falls by 1. -/
  | budgetRestore
  /-- PFAIL_FALL (R321). PFAIL_N falls through its filter, putting the floor demand in force and stopping the store. -/
  | pfailFall
  /-- PFAIL_RISE (R321). PFAIL_N returns high, and the floor hold starts. -/
  | pfailRise
  /-- FLOOR_HOLD_EXPIRY (R321). hold_s after PFAIL_N returned high, the floor demand ends. -/
  | floorHoldExpiry
  /-- THERMAL_RISE (R330). Tj_max has exceeded the effective cap for 1 s, so the thermal demand rises. -/
  | thermalRise
  /-- THERMAL_FALL (R330). Tj_max has stayed below cap minus hysteresis for restore_s, so the thermal demand falls. -/
  | thermalFall
  /-- SERVICE_HOUR (R334). Every whole service hour, LIFE_LEDGER is raised and the derating is recomputed. -/
  | serviceHour
  /-- SWEEP_COPY_DONE (R359). The copy of a bank to its spare, or back, completes. -/
  | sweepCopyDone
  /-- HOST_LINK_DOWN (R376). The host link leaves L0 abnormally, so the rings are disabled and commands stop. -/
  | hostLinkDown
  /-- PCIE_FLR (R377). A PCIe function-level reset resets the HIF and EVT state, or acts as a soft reset when flr_full is set. -/
  | pcieFlr
  /-- REG_SCRUB (R387). Every millisecond, register parity is checked, and REG_PARITY is raised on a mismatch. -/
  | regScrub
  /-- SOFT_RESET (R402). A write of RST_CTL.soft requests a soft reset, taking effect at the next frame mark. -/
  | softReset
  /-- SOFT_RESET_DONE (R402). The soft-reset wipe ends, busy clears, and RST_DONE is raised. -/
  | softResetDone
  /-- CSTS_CFS (R311). The drive reports CSTS.CFS (controller fatal status), and the store port goes to FAILED and raises STORE_FAIL. -/
  | cstsCfs
  deriving DecidableEq, Repr

end Sys2Proof
end

