-- ==== Sys2Proof/Decode.lean ====
section
/-! DEFINITION. The decoder of command words. The opcode table gives none of its rows a bit: every
command of the block is an event or an access, and no word spells one. -/

namespace Sys2Proof

/-- The command that an instruction word of the opcode table spells: none, since no row of the table
has bits (log entry 1). -/
def decodeTableWord (_nbits _w : Nat) : Option Instr := none

end Sys2Proof
end

