-- ==== Sys2Proof/Config.lean ====
section
/-! DEFINITION. What the spec leaves open: constants with no body, so that nothing can be proved of
their values. Each is named in the assumption log. -/

namespace Sys2Proof

/-- Values that the spec leaves undefined, by the number of values drawn before (log entry 3). -/
opaque Config.free : Nat → W32

/-- The SEQ of a word that a read replaces by all-ones with CON, by arrival period, source and column:
the spec gives the word no SEQ (log entry 7). -/
opaque Config.missSeq : Nat → Nat → Nat → Bool

/-- The word of the row-buffer banks that holds a payload column of a held row: the spec gives the banks
(R337) and no places in them (log entry 71). Arguments: the row buffer and the column. -/
opaque Config.rowPlace : Nat → Nat → Nat

/-- What the epoch state consists of (R234): a selector, a controller, the timing, and the monitor of a path, of the
paths that were never evaluated, and of the whole device. -/
inductive EpochItem where
  | selector (path : Nat)
  | aps (g : Nat)
  | timing
  | monitor (path : Nat)
  | idleMonitor
  | seconds
  deriving DecidableEq, Repr

/-- A word of the counter memory (R336): the halves of a speed counter, and a counter of a current bin of a path, bin 0
of 15 minutes and bin 2 of 24 hours, counters 0-7 in the order of R292. -/
inductive CounterWord where
  | speedLo (i : Nat)
  | speedHi (i : Nat)
  | bin (path bin counter : Nat)
  deriving DecidableEq, Repr

/-- The place of a word in the counter memory, which the spec does not give (R336, log entry 71). -/
opaque Config.counterPlace : CounterWord → Nat

/-- The offset of a word of an item in the epoch region, whose layout the silicon revision fixes and the spec does
not give (R235, log entry 4). -/
opaque Config.epochOffset : EpochItem → Nat → W32

/-- Whether a quotient or a root that is no whole number takes the one above it or the one below: R263 and R265
give exact values and no rounding (log entry 5). Arguments: what is divided, and by what. -/
opaque Config.roundUp : Int → Nat → Bool

/-- Whether the standard deviation of R263 divides by one less than the number of the offsets (log entry 5). -/
opaque Config.sampleDeviation : Bool

/-- The daily refit of the ageing model (R265): a, b and tau, numbers 0 to 2, from the times and values of the daily
means. The spec does not say what the fit minimises (log entry 5). -/
opaque Config.ageFit : Nat → List (Int × Int) → Int

/-- The code that TMG_REF_STAT.ql shows for QL-INV, which R251 does not give (log entry 31). -/
opaque Config.qlInv : BitVec 4

/-- The position in the staging window that the recorder gives a record, by its number: R415 gives the
window but no positions (log entry 53). -/
opaque Config.stagingSlot : Nat → Nat

end Sys2Proof
end

