-- ==== Sys2Proof/Machine/Events.lean ====
section
/-! DEFINITION. The events of the device: block code, index and severity of each (R375, R394, R410).
The two engine planes share their events; the block code is 0x07 for columns, 0x08 for octets. -/

namespace Sys2Proof.Machine

/-- An event: block code, index in its block, severity 0-3 (R371, R375). -/
structure EvName where
  block : Nat
  index : Nat
  sev   : Nat
  deriving DecidableEq, Repr

namespace Ev

abbrev pathBadType : EvName := ⟨0x00, 0, 1⟩
abbrev pathBadAddr : EvName := ⟨0x00, 1, 1⟩
abbrev pathWriteReject : EvName := ⟨0x00, 2, 1⟩
abbrev tmgState : EvName := ⟨0x03, 0, 2⟩
abbrev tmgRefSwitch : EvName := ⟨0x03, 1, 2⟩
abbrev tmgSoftLimit : EvName := ⟨0x03, 2, 1⟩
abbrev tmgSuspect : EvName := ⟨0x03, 3, 2⟩
abbrev tmgDrift : EvName := ⟨0x03, 4, 2⟩
abbrev tmgStepReject : EvName := ⟨0x03, 5, 1⟩
abbrev tmgEvent : EvName := ⟨0x03, 6, 2⟩
abbrev laneUp : EvName := ⟨0x04, 0, 1⟩
abbrev laneDown : EvName := ⟨0x04, 1, 3⟩
abbrev laneBackoff : EvName := ⟨0x04, 2, 2⟩
abbrev laneCapsMismatch : EvName := ⟨0x04, 3, 2⟩
abbrev laneLowDensity : EvName := ⟨0x04, 4, 1⟩
abbrev laneWake : EvName := ⟨0x04, 5, 1⟩
abbrev laneCfgReject : EvName := ⟨0x04, 6, 1⟩
abbrev laneEvent : EvName := ⟨0x04, 7, 2⟩
abbrev ltmDefect : EvName := ⟨0x05, 0, 3⟩
abbrev auSlip : EvName := ⟨0x05, 1, 2⟩
abbrev traceChange : EvName := ⟨0x05, 2, 1⟩
abbrev sdhCfgReject : EvName := ⟨0x05, 3, 1⟩
abbrev kInconsistent : EvName := ⟨0x05, 4, 2⟩
abbrev trbDefect : EvName := ⟨0x06, 0, 3⟩
abbrev trbSlip : EvName := ⟨0x06, 1, 2⟩
abbrev trbCfgReject : EvName := ⟨0x06, 2, 1⟩
abbrev engineLate (octet : Bool) : EvName := ⟨if octet then 0x08 else 0x07, 0, 3⟩
abbrev engineDigest (octet : Bool) : EvName := ⟨if octet then 0x08 else 0x07, 1, 3⟩
abbrev progEcc (octet : Bool) : EvName := ⟨if octet then 0x08 else 0x07, 2, 3⟩
abbrev progUnwritten (octet : Bool) : EvName := ⟨if octet then 0x08 else 0x07, 3, 2⟩
abbrev progDoubleWrite (octet : Bool) : EvName := ⟨if octet then 0x08 else 0x07, 4, 2⟩
abbrev progWriteReject (octet : Bool) : EvName := ⟨if octet then 0x08 else 0x07, 5, 1⟩
abbrev selPathBad (octet : Bool) : EvName := ⟨if octet then 0x08 else 0x07, 6, 2⟩
abbrev flipDone : EvName := ⟨0x09, 0, 1⟩
abbrev flipAbort : EvName := ⟨0x09, 1, 2⟩
abbrev flipReject : EvName := ⟨0x09, 2, 1⟩
abbrev flipCancelLate : EvName := ⟨0x09, 3, 1⟩
abbrev flipSplit : EvName := ⟨0x09, 4, 3⟩
abbrev coordLease : EvName := ⟨0x09, 5, 2⟩
abbrev selSwitch : EvName := ⟨0x0A, 0, 2⟩
abbrev selCmdReject : EvName := ⟨0x0A, 1, 1⟩
abbrev apsSwitch : EvName := ⟨0x0A, 2, 2⟩
abbrev mspFop : EvName := ⟨0x0A, 3, 3⟩
abbrev mspCfgReject : EvName := ⟨0x0A, 4, 1⟩
abbrev mspCmdReject : EvName := ⟨0x0A, 5, 1⟩
abbrev fabPeerFail : EvName := ⟨0x0B, 0, 3⟩
abbrev fabPeerOk : EvName := ⟨0x0B, 1, 2⟩
abbrev fabFpe : EvName := ⟨0x0B, 2, 2⟩
abbrev fabTmChange : EvName := ⟨0x0B, 3, 2⟩
abbrev fabAlignStep : EvName := ⟨0x0B, 4, 3⟩
abbrev fabCfgReject : EvName := ⟨0x0B, 5, 1⟩
abbrev mateFail : EvName := ⟨0x0C, 0, 3⟩
abbrev mateTakeover : EvName := ⟨0x0C, 1, 3⟩
abbrev mateTakeoverFail : EvName := ⟨0x0C, 2, 3⟩
abbrev mateResyncDone : EvName := ⟨0x0C, 3, 2⟩
abbrev mateDiverge : EvName := ⟨0x0C, 4, 2⟩
abbrev mateEpochLate : EvName := ⟨0x0C, 5, 1⟩
abbrev mateHbChannel : EvName := ⟨0x0C, 6, 2⟩
abbrev mateSideConflict : EvName := ⟨0x0C, 7, 2⟩
abbrev mateWriteReject : EvName := ⟨0x0C, 8, 1⟩
abbrev pmTca : EvName := ⟨0x0D, 0, 2⟩
abbrev pfcDumpDone : EvName := ⟨0x0E, 0, 0⟩
abbrev storeFail : EvName := ⟨0x0F, 0, 3⟩
abbrev storeHealth : EvName := ⟨0x0F, 1, 2⟩
abbrev storeErased : EvName := ⟨0x0F, 2, 2⟩
abbrev nrgPfail : EvName := ⟨0x10, 0, 3⟩
abbrev nrgShed : EvName := ⟨0x10, 1, 3⟩
abbrev nrgLevel : EvName := ⟨0x10, 2, 2⟩
abbrev nrgOver : EvName := ⟨0x10, 3, 2⟩
abbrev nrgTrip : EvName := ⟨0x10, 4, 3⟩
abbrev nrgSensorBad : EvName := ⟨0x10, 5, 2⟩
abbrev lifeLedger : EvName := ⟨0x10, 6, 2⟩
abbrev lifeAhead : EvName := ⟨0x10, 7, 2⟩
abbrev lifeSpent : EvName := ⟨0x10, 8, 3⟩
abbrev memUe : EvName := ⟨0x11, 0, 3⟩
abbrev memCe : EvName := ⟨0x11, 1, 1⟩
abbrev memRetire : EvName := ⟨0x11, 2, 2⟩
abbrev memSweepNospare : EvName := ⟨0x11, 3, 1⟩
abbrev xbrLease : EvName := ⟨0x12, 0, 2⟩
abbrev xbrAbandon : EvName := ⟨0x12, 1, 2⟩
abbrev cmdDone : EvName := ⟨0x13, 0, 0⟩
abbrev hifCmdFault : EvName := ⟨0x13, 1, 2⟩
abbrev hifLinkDown : EvName := ⟨0x13, 2, 3⟩
abbrev hifLinkUp : EvName := ⟨0x13, 3, 1⟩
abbrev rstBoot : EvName := ⟨0x02, 0, 1⟩
abbrev rstDone : EvName := ⟨0x02, 1, 1⟩
abbrev lifecycleDone : EvName := ⟨0x02, 2, 2⟩
abbrev debugUnlock : EvName := ⟨0x02, 3, 2⟩
abbrev debugDenied : EvName := ⟨0x02, 4, 1⟩
abbrev testPin : EvName := ⟨0x02, 5, 2⟩
abbrev islandHang : EvName := ⟨0x14, 0, 3⟩
abbrev busParity : EvName := ⟨0x14, 1, 3⟩
abbrev regParity : EvName := ⟨0x14, 2, 3⟩
abbrev railDroop : EvName := ⟨0x14, 3, 3⟩
abbrev otpBurnFail : EvName := ⟨0x14, 4, 2⟩
abbrev faultInjected : EvName := ⟨0x14, 5, 1⟩

end Ev

end Sys2Proof.Machine
end

