-- ==== Sys2Proof/Machine/Regs.lean ====
section
/-! DEFINITION. The register map of BAR0 (`21_register_map.md` and the register tables of every chapter):
the offset of each register, the bits of each field, and for every register the access of its bits
and its reset value. GENERATED ONCE from the field tables of the spec's chapters, then kept by hand. -/

namespace Sys2Proof

/-- One row of the register map: the offsets `base + s1*i + s2*j` for `i < n1`, `j < n2`, the reset
value, and the bits that a host write sets (RW, RWS, RWL), clears by ones (W1C) or acts on (WO).
Every other bit is RO or reserved (R6, R7). -/
structure RegRow where
  base  : Nat
  n1    : Nat := 1
  s1    : Nat := 4
  n2    : Nat := 1
  s2    : Nat := 4
  reset : W32 := 0
  rw    : W32 := 0
  w1c   : W32 := 0
  wo    : W32 := 0
  rws   : W32 := 0
  rwl   : W32 := 0
  deriving DecidableEq, Repr

/-- A field: the offset of its register and its highest and lowest bit. -/
structure Fld where
  reg : Nat
  hi  : Nat
  lo  : Nat
  deriving DecidableEq, Repr

/-! ### Offsets -/
namespace Reg

/-- Offset of GLB_ID. -/
abbrev glbId : Nat := 0x0
/-- Offset of GLB_SERIAL_LO. -/
abbrev glbSerialLo : Nat := 0x4
/-- Offset of GLB_SERIAL_HI. -/
abbrev glbSerialHi : Nat := 0x8
/-- Offset of GLB_SCRATCH. -/
abbrev glbScratch : Nat := 0xc
/-- Offset of EVT_CFG. -/
abbrev evtCfg : Nat := 0x4000
/-- Offset of EVT_STAT. -/
abbrev evtStat : Nat := 0x4004
/-- Offset of EVT_CNT_DROP. -/
abbrev evtCntDrop : Nat := 0x4008
/-- Offset of EVT_MASK. -/
abbrev evtMask (i : Nat) : Nat := 0x4100 + 0x4 * i
/-- Offset of RST_CTL. -/
abbrev rstCtl : Nat := 0x8000
/-- Offset of RST_CFG. -/
abbrev rstCfg : Nat := 0x8004
/-- Offset of RST_STAT. -/
abbrev rstStat : Nat := 0x8008
/-- Offset of RST_DBG. -/
abbrev rstDbg : Nat := 0x800c
/-- Offset of RST_CNT_DBG. -/
abbrev rstCntDbg : Nat := 0x8010
/-- Offset of TMG_CFG. -/
abbrev tmgCfg : Nat := 0x10000
/-- Offset of TMG_SEL. -/
abbrev tmgSel : Nat := 0x10004
/-- Offset of TMG_STAT. -/
abbrev tmgStat : Nat := 0x10008
/-- Offset of TMG_STICKY. -/
abbrev tmgSticky : Nat := 0x1000c
/-- Offset of TMG_INT_EN. -/
abbrev tmgIntEn : Nat := 0x10010
/-- Offset of TMG_DPLL. -/
abbrev tmgDpll : Nat := 0x10014
/-- Offset of TMG_PHASE_STEP. -/
abbrev tmgPhaseStep : Nat := 0x10018
/-- Offset of TMG_PHASE_PEND. -/
abbrev tmgPhasePend : Nat := 0x1001c
/-- Offset of TMG_HO. -/
abbrev tmgHo : Nat := 0x10020
/-- Offset of TMG_LIMITS. -/
abbrev tmgLimits : Nat := 0x10024
/-- Offset of TMG_REFIN. -/
abbrev tmgRefin : Nat := 0x10028
/-- Offset of TMG_OSC_TEMP. -/
abbrev tmgOscTemp : Nat := 0x1002c
/-- Offset of TMG_NTC. -/
abbrev tmgNtc : Nat := 0x10030
/-- Offset of TMG_TRANGE. -/
abbrev tmgTrange : Nat := 0x10034
/-- Offset of TMG_CTL. -/
abbrev tmgCtl : Nat := 0x10038
/-- Offset of TMG_PPS_OFS. -/
abbrev tmgPpsOfs : Nat := 0x1003c
/-- Offset of TMG_TC. -/
abbrev tmgTc (i : Nat) : Nat := 0x10040 + 0x4 * i
/-- Offset of TMG_AGE_A. -/
abbrev tmgAgeA : Nat := 0x10050
/-- Offset of TMG_AGE_B. -/
abbrev tmgAgeB : Nat := 0x10054
/-- Offset of TMG_AGE_TAU. -/
abbrev tmgAgeTau : Nat := 0x10058
/-- Offset of TMG_AGE_HOURS. -/
abbrev tmgAgeHours : Nat := 0x1005c
/-- Offset of TMG_FREQ. -/
abbrev tmgFreq : Nat := 0x10060
/-- Offset of TMG_HO_VALUE. -/
abbrev tmgHoValue : Nat := 0x10064
/-- Offset of TMG_HO_ERR. -/
abbrev tmgHoErr : Nat := 0x10068
/-- Offset of TMG_HO_K. -/
abbrev tmgHoK : Nat := 0x1006c
/-- Offset of TMG_SYNCOUT. -/
abbrev tmgSyncout (i : Nat) : Nat := 0x10070 + 0x4 * i
/-- Offset of TMG_FRAME_OUT. -/
abbrev tmgFrameOut : Nat := 0x10080
/-- Offset of TMG_REF_CFG. -/
abbrev tmgRefCfg (i : Nat) : Nat := 0x10100 + 0x10 * i
/-- Offset of TMG_REF_STAT. -/
abbrev tmgRefStat (i : Nat) : Nat := 0x10104 + 0x10 * i
/-- Offset of TMG_REF_OFS. -/
abbrev tmgRefOfs (i : Nat) : Nat := 0x10108 + 0x10 * i
/-- Offset of TMG_REF_OFS10. -/
abbrev tmgRefOfs10 (i : Nat) : Nat := 0x1010c + 0x10 * i
/-- Offset of SDS_CFG. -/
abbrev sdsCfg (i : Nat) : Nat := 0x20000 + 0x400 * i
/-- Offset of SDS_CTL. -/
abbrev sdsCtl (i : Nat) : Nat := 0x20004 + 0x400 * i
/-- Offset of SDS_STAT. -/
abbrev sdsStat (i : Nat) : Nat := 0x20008 + 0x400 * i
/-- Offset of SDS_STICKY. -/
abbrev sdsSticky (i : Nat) : Nat := 0x2000c + 0x400 * i
/-- Offset of SDS_INT_EN. -/
abbrev sdsIntEn (i : Nat) : Nat := 0x20010 + 0x400 * i
/-- Offset of SDS_ALIGN. -/
abbrev sdsAlign (i : Nat) : Nat := 0x20014 + 0x400 * i
/-- Offset of SDS_LAT. -/
abbrev sdsLat (i : Nat) : Nat := 0x20018 + 0x400 * i
/-- Offset of SDS_CAPS_RX. -/
abbrev sdsCapsRx (i : Nat) : Nat := 0x2001c + 0x400 * i
/-- Offset of SDS_PRBS. -/
abbrev sdsPrbs (i : Nat) : Nat := 0x20040 + 0x400 * i
/-- Offset of SDS_PRBS_BITS_LO. -/
abbrev sdsPrbsBitsLo (i : Nat) : Nat := 0x20044 + 0x400 * i
/-- Offset of SDS_PRBS_BITS_HI. -/
abbrev sdsPrbsBitsHi (i : Nat) : Nat := 0x20048 + 0x400 * i
/-- Offset of SDS_PRBS_ERR. -/
abbrev sdsPrbsErr (i : Nat) : Nat := 0x2004c + 0x400 * i
/-- Offset of SDS_CNT_BIP8. -/
abbrev sdsCntBip8 (i : Nat) : Nat := 0x20020 + 0x400 * i
/-- Offset of SDS_CNT_BIP2. -/
abbrev sdsCntBip2 (i : Nat) : Nat := 0x20024 + 0x400 * i
/-- Offset of SDS_CNT_FAIL. -/
abbrev sdsCntFail (i : Nat) : Nat := 0x20028 + 0x400 * i
/-- Offset of SDS_CNT_UP. -/
abbrev sdsCntUp (i : Nat) : Nat := 0x2002c + 0x400 * i
/-- Offset of SDS_CNT_FREEZE. -/
abbrev sdsCntFreeze (i : Nat) : Nat := 0x20030 + 0x400 * i
/-- Offset of SDS_CNT_OOF. -/
abbrev sdsCntOof (i : Nat) : Nat := 0x20034 + 0x400 * i
/-- Offset of SDS_PROF0. -/
abbrev sdsProf0 (i : Nat) : Nat := 0x2c000 + 0x8 * i
/-- Offset of SDS_PROF1. -/
abbrev sdsProf1 (i : Nat) : Nat := 0x2c004 + 0x8 * i
/-- Offset of LTM_CFG. -/
abbrev ltmCfg (i : Nat) : Nat := 0x40000 + 0x1000 * i
/-- Offset of LTM_STAT. -/
abbrev ltmStat (i : Nat) : Nat := 0x40004 + 0x1000 * i
/-- Offset of LTM_STICKY. -/
abbrev ltmSticky (i : Nat) : Nat := 0x40008 + 0x1000 * i
/-- Offset of LTM_INT_EN. -/
abbrev ltmIntEn (i : Nat) : Nat := 0x4000c + 0x1000 * i
/-- Offset of LTM_OH_RX. -/
abbrev ltmOhRx (i : Nat) : Nat := 0x40010 + 0x1000 * i
/-- Offset of LTM_OH_TX. -/
abbrev ltmOhTx (i : Nat) : Nat := 0x40014 + 0x1000 * i
/-- Offset of LTM_B1_CNT. -/
abbrev ltmB1Cnt (i : Nat) : Nat := 0x40020 + 0x1000 * i
/-- Offset of LTM_B2_CNT. -/
abbrev ltmB2Cnt (i : Nat) : Nat := 0x40024 + 0x1000 * i
/-- Offset of LTM_MSREI_CNT. -/
abbrev ltmMsreiCnt (i : Nat) : Nat := 0x40028 + 0x1000 * i
/-- Offset of LTM_OOF_CNT. -/
abbrev ltmOofCnt (i : Nat) : Nat := 0x4002c + 0x1000 * i
/-- Offset of LTM_AU_CFG. -/
abbrev ltmAuCfg (i : Nat) (j : Nat) : Nat := 0x40100 + 0x1000 * i + 0x4 * j
/-- Offset of LTM_AU_STAT. -/
abbrev ltmAuStat (i : Nat) (j : Nat) : Nat := 0x40200 + 0x1000 * i + 0x4 * j
/-- Offset of LTM_AU_DLY. -/
abbrev ltmAuDly (i : Nat) (j : Nat) : Nat := 0x40300 + 0x1000 * i + 0x4 * j
/-- Offset of LTM_AU_B3. -/
abbrev ltmAuB3 (i : Nat) (j : Nat) : Nat := 0x40400 + 0x1000 * i + 0x4 * j
/-- Offset of LTM_AU_REI. -/
abbrev ltmAuRei (i : Nat) (j : Nat) : Nat := 0x40500 + 0x1000 * i + 0x4 * j
/-- Offset of TRB_ACTIVE. -/
abbrev trbActive : Nat := 0x80000
/-- Offset of TRB_FAIL_SUM. -/
abbrev trbFailSum (i : Nat) : Nat := 0x80100 + 0x4 * i
/-- Offset of TRB_STICKY_SUM. -/
abbrev trbStickySum (i : Nat) : Nat := 0x80500 + 0x4 * i
/-- Offset of COL_CTL. -/
abbrev colCtl : Nat := 0xa0000
/-- Offset of COL_BANK. -/
abbrev colBank : Nat := 0xa0004
/-- Offset of COL_FILL0. -/
abbrev colFill0 : Nat := 0xa0040
/-- Offset of COL_FILL1. -/
abbrev colFill1 : Nat := 0xa0044
/-- Offset of COL_FILL2. -/
abbrev colFill2 : Nat := 0xa0048
/-- Offset of COL_FILL. -/
abbrev colFill (i : Nat) : Nat := 0xa004c + 0x4 * i
/-- Offset of COL_START_A. -/
abbrev colStartA (i : Nat) : Nat := 0xa1000 + 0x40 * i
/-- Offset of COL_START_B. -/
abbrev colStartB (i : Nat) : Nat := 0xa1004 + 0x40 * i
/-- Offset of COL_REH_A. -/
abbrev colRehA (i : Nat) : Nat := 0xa1008 + 0x40 * i
/-- Offset of COL_REH_B. -/
abbrev colRehB (i : Nat) : Nat := 0xa100c + 0x40 * i
/-- Offset of COL_DIG_A. -/
abbrev colDigA (i : Nat) : Nat := 0xa1010 + 0x40 * i
/-- Offset of COL_DIG_B. -/
abbrev colDigB (i : Nat) : Nat := 0xa1014 + 0x40 * i
/-- Offset of COL_COVER_A. -/
abbrev colCoverA (i : Nat) : Nat := 0xa1018 + 0x40 * i
/-- Offset of COL_COVER_B. -/
abbrev colCoverB (i : Nat) : Nat := 0xa101c + 0x40 * i
/-- Offset of COL_DIG_LIVE. -/
abbrev colDigLive (i : Nat) : Nat := 0xa1020 + 0x40 * i
/-- Offset of COL_CNT_UNWR. -/
abbrev colCntUnwr (i : Nat) : Nat := 0xa1024 + 0x40 * i
/-- Offset of COL_CNT_LATE. -/
abbrev colCntLate (i : Nat) : Nat := 0xa1028 + 0x40 * i
/-- Offset of COL_CNT_SEQ. -/
abbrev colCntSeq (i : Nat) : Nat := 0xa102c + 0x40 * i
/-- Offset of COL_CNT_DIG. -/
abbrev colCntDig (i : Nat) : Nat := 0xa1030 + 0x40 * i
/-- Offset of COL_CNT_ECC. -/
abbrev colCntEcc (i : Nat) : Nat := 0xa1034 + 0x40 * i
/-- Offset of COL_STAT. -/
abbrev colStat (i : Nat) : Nat := 0xa1038 + 0x40 * i
/-- Offset of OCT_CTL. -/
abbrev octCtl : Nat := 0xb0000
/-- Offset of OCT_BANK. -/
abbrev octBank : Nat := 0xb0004
/-- Offset of OCT_FILL0. -/
abbrev octFill0 : Nat := 0xb0040
/-- Offset of OCT_FILL1. -/
abbrev octFill1 : Nat := 0xb0044
/-- Offset of OCT_FILL2. -/
abbrev octFill2 : Nat := 0xb0048
/-- Offset of OCT_FILL. -/
abbrev octFill (i : Nat) : Nat := 0xb004c + 0x4 * i
/-- Offset of OCT_START_A. -/
abbrev octStartA (i : Nat) : Nat := 0xb1000 + 0x40 * i
/-- Offset of OCT_START_B. -/
abbrev octStartB (i : Nat) : Nat := 0xb1004 + 0x40 * i
/-- Offset of OCT_REH_A. -/
abbrev octRehA (i : Nat) : Nat := 0xb1008 + 0x40 * i
/-- Offset of OCT_REH_B. -/
abbrev octRehB (i : Nat) : Nat := 0xb100c + 0x40 * i
/-- Offset of OCT_DIG_A. -/
abbrev octDigA (i : Nat) : Nat := 0xb1010 + 0x40 * i
/-- Offset of OCT_DIG_B. -/
abbrev octDigB (i : Nat) : Nat := 0xb1014 + 0x40 * i
/-- Offset of OCT_COVER_A. -/
abbrev octCoverA (i : Nat) : Nat := 0xb1018 + 0x40 * i
/-- Offset of OCT_COVER_B. -/
abbrev octCoverB (i : Nat) : Nat := 0xb101c + 0x40 * i
/-- Offset of OCT_DIG_LIVE. -/
abbrev octDigLive (i : Nat) : Nat := 0xb1020 + 0x40 * i
/-- Offset of OCT_CNT_UNWR. -/
abbrev octCntUnwr (i : Nat) : Nat := 0xb1024 + 0x40 * i
/-- Offset of OCT_CNT_LATE. -/
abbrev octCntLate (i : Nat) : Nat := 0xb1028 + 0x40 * i
/-- Offset of OCT_CNT_SEQ. -/
abbrev octCntSeq (i : Nat) : Nat := 0xb102c + 0x40 * i
/-- Offset of OCT_CNT_DIG. -/
abbrev octCntDig (i : Nat) : Nat := 0xb1030 + 0x40 * i
/-- Offset of OCT_CNT_ECC. -/
abbrev octCntEcc (i : Nat) : Nat := 0xb1034 + 0x40 * i
/-- Offset of OCT_STAT. -/
abbrev octStat (i : Nat) : Nat := 0xb1038 + 0x40 * i
/-- Offset of OCT_CNT_CLIP. -/
abbrev octCntClip (i : Nat) : Nat := 0xb103c + 0x40 * i
/-- Offset of OCT_TONE_ADDR. -/
abbrev octToneAddr : Nat := 0xb0080
/-- Offset of OCT_TONE_DATA. -/
abbrev octToneData : Nat := 0xb0084
/-- Offset of OCT_TONE_BASE. -/
abbrev octToneBase (i : Nat) : Nat := 0xb2000 + 0x8 * i
/-- Offset of OCT_TONE_LEN. -/
abbrev octToneLen (i : Nat) : Nat := 0xb2004 + 0x8 * i
/-- Offset of PRBS_STAT. -/
abbrev prbsStat (i : Nat) : Nat := 0xb4000 + 0x10 * i
/-- Offset of PRBS_BITS_LO. -/
abbrev prbsBitsLo (i : Nat) : Nat := 0xb4004 + 0x10 * i
/-- Offset of PRBS_BITS_HI. -/
abbrev prbsBitsHi (i : Nat) : Nat := 0xb4008 + 0x10 * i
/-- Offset of PRBS_ERR. -/
abbrev prbsErr (i : Nat) : Nat := 0xb400c + 0x10 * i
/-- Offset of FLP_REQ. -/
abbrev flpReq : Nat := 0xc0000
/-- Offset of FLP_TARGET. -/
abbrev flpTarget : Nat := 0xc0004
/-- Offset of FLP_CMD. -/
abbrev flpCmd : Nat := 0xc0008
/-- Offset of FLP_STAT. -/
abbrev flpStat : Nat := 0xc000c
/-- Offset of FLP_FAIL. -/
abbrev flpFail : Nat := 0xc0018
/-- Offset of FLP_FAIL_TAG. -/
abbrev flpFailTag : Nat := 0xc001c
/-- Offset of FLP_FAB_CFG. -/
abbrev flpFabCfg : Nat := 0xc0030
/-- Offset of FLP_FAB_RANK. -/
abbrev flpFabRank : Nat := 0xc0034
/-- Offset of FLP_COORD. -/
abbrev flpCoord : Nat := 0xc0038
/-- Offset of FLP_FRAME. -/
abbrev flpFrame : Nat := 0xc0010
/-- Offset of FLP_ARMED_AT. -/
abbrev flpArmedAt : Nat := 0xc0014
/-- Offset of FLP_FAIL_MAP. -/
abbrev flpFailMap (i : Nat) : Nat := 0xc0020 + 0x4 * i
/-- Offset of FLP_PEER. -/
abbrev flpPeer (i : Nat) : Nat := 0xc0040 + 0x4 * i
/-- Offset of FLP_CNT_DONE. -/
abbrev flpCntDone : Nat := 0xc0060
/-- Offset of FLP_CNT_ABORT. -/
abbrev flpCntAbort : Nat := 0xc0064
/-- Offset of FLP_CNT_SPLIT. -/
abbrev flpCntSplit : Nat := 0xc0068
/-- Offset of PRT_CFG. -/
abbrev prtCfg : Nat := 0xd0000
/-- Offset of PRT_CNT_COL. -/
abbrev prtCntCol : Nat := 0xd0004
/-- Offset of PRT_CNT_OCT. -/
abbrev prtCntOct : Nat := 0xd0008
/-- Offset of PRT_CNT_HOLD. -/
abbrev prtCntHold : Nat := 0xd000c
/-- Offset of PRT_CNT_REJ. -/
abbrev prtCntRej : Nat := 0xd0010
/-- Offset of APS_CFG. -/
abbrev apsCfg (i : Nat) : Nat := 0xd1000 + 0x40 * i
/-- Offset of APS_WL. -/
abbrev apsWl (i : Nat) (j : Nat) : Nat := 0xd1004 + 0x40 * i + 0x4 * j
/-- Offset of APS_WL2. -/
abbrev apsWl2 (i : Nat) : Nat := 0xd100c + 0x40 * i
/-- Offset of APS_CMD. -/
abbrev apsCmd (i : Nat) : Nat := 0xd1010 + 0x40 * i
/-- Offset of APS_STAT. -/
abbrev apsStat (i : Nat) : Nat := 0xd1014 + 0x40 * i
/-- Offset of APS_KTX. -/
abbrev apsKtx (i : Nat) : Nat := 0xd1018 + 0x40 * i
/-- Offset of APS_CNT_SW. -/
abbrev apsCntSw (i : Nat) : Nat := 0xd101c + 0x40 * i
/-- Offset of APS_CNT_FOP. -/
abbrev apsCntFop (i : Nat) : Nat := 0xd1020 + 0x40 * i
/-- Offset of FAB_CFG. -/
abbrev fabCfg : Nat := 0xe0000
/-- Offset of FAB_TM_RANK. -/
abbrev fabTmRank : Nat := 0xe0004
/-- Offset of FAB_LOOP. -/
abbrev fabLoop : Nat := 0xe0008
/-- Offset of FAB_ALIGN. -/
abbrev fabAlign : Nat := 0xe000c
/-- Offset of FAB_STAT. -/
abbrev fabStat : Nat := 0xe0010
/-- Offset of FAB_CNT_FPE. -/
abbrev fabCntFpe : Nat := 0xe0014
/-- Offset of FAB_CNT_STEP. -/
abbrev fabCntStep : Nat := 0xe0018
/-- Offset of FAB_CNT_PFAIL. -/
abbrev fabCntPfail : Nat := 0xe001c
/-- Offset of FAB_LANE. -/
abbrev fabLane (i : Nat) : Nat := 0xe0100 + 0x4 * i
/-- Offset of FAB_PEER. -/
abbrev fabPeer (i : Nat) : Nat := 0xe0200 + 0x4 * i
/-- Offset of MAT_CTL. -/
abbrev matCtl : Nat := 0xe8000
/-- Offset of MAT_STAT. -/
abbrev matStat : Nat := 0xe8004
/-- Offset of MAT_EPOCH. -/
abbrev matEpoch : Nat := 0xe8008
/-- Offset of MAT_COMMIT. -/
abbrev matCommit : Nat := 0xe800c
/-- Offset of MAT_MIR. -/
abbrev matMir : Nat := 0xe8010
/-- Offset of MAT_RESYNC. -/
abbrev matResync : Nat := 0xe8014
/-- Offset of MAT_CNT_TAKE. -/
abbrev matCntTake : Nat := 0xe8018
/-- Offset of MAT_CNT_RESYNC. -/
abbrev matCntResync : Nat := 0xe801c
/-- Offset of MAT_CNT_LATE. -/
abbrev matCntLate : Nat := 0xe8020
/-- Offset of MAT_CNT_RESEND. -/
abbrev matCntResend : Nat := 0xe8024
/-- Offset of MAT_CNT_REJ. -/
abbrev matCntRej : Nat := 0xe8028
/-- Offset of PMN_CFG. -/
abbrev pmnCfg : Nat := 0xf0000
/-- Offset of PMN_TAI. -/
abbrev pmnTai : Nat := 0xf0004
/-- Offset of PMN_STAT. -/
abbrev pmnStat : Nat := 0xf0008
/-- Offset of PMN_BIN_SEL. -/
abbrev pmnBinSel : Nat := 0xf0010
/-- Offset of PMN_BIN_CTL. -/
abbrev pmnBinCtl : Nat := 0xf0014
/-- Offset of PMN_BIN_DATA. -/
abbrev pmnBinData (i : Nat) : Nat := 0xf0020 + 0x4 * i
/-- Offset of PMN_TCA. -/
abbrev pmnTca (i : Nat) : Nat := 0xf0080 + 0x4 * i
/-- Offset of PMN_CNT_TCA. -/
abbrev pmnCntTca : Nat := 0xf00a0
/-- Offset of PMN_CNT_SAT. -/
abbrev pmnCntSat : Nat := 0xf00a4
/-- Offset of PFC_WIN. -/
abbrev pfcWin : Nat := 0xf8000
/-- Offset of PFC_SNAP. -/
abbrev pfcSnap : Nat := 0xf8004
/-- Offset of PFC_DUMP_CTL. -/
abbrev pfcDumpCtl : Nat := 0xf8008
/-- Offset of PFC_DUMP_ADDR_LO. -/
abbrev pfcDumpAddrLo : Nat := 0xf800c
/-- Offset of PFC_DUMP_ADDR_HI. -/
abbrev pfcDumpAddrHi : Nat := 0xf8010
/-- Offset of PFC_DUMP_STAT. -/
abbrev pfcDumpStat : Nat := 0xf8014
/-- Offset of PFC_CNT_SKIP. -/
abbrev pfcCntSkip : Nat := 0xf8018
/-- Offset of CNT_LO. -/
abbrev cntLo (i : Nat) : Nat := 0xf9000 + 0x10 * i
/-- Offset of CNT_HI. -/
abbrev cntHi (i : Nat) : Nat := 0xf9004 + 0x10 * i
/-- Offset of CNT_WIN. -/
abbrev cntWin (i : Nat) : Nat := 0xf9008 + 0x10 * i
/-- Offset of HST_CFG. -/
abbrev hstCfg : Nat := 0x100000
/-- Offset of HST_CTL. -/
abbrev hstCtl : Nat := 0x100004
/-- Offset of HST_STAT. -/
abbrev hstStat : Nat := 0x100008
/-- Offset of HST_FLUSH. -/
abbrev hstFlush : Nat := 0x10000c
/-- Offset of HST_PWR. -/
abbrev hstPwr : Nat := 0x100010
/-- Offset of HST_STAGED. -/
abbrev hstStaged : Nat := 0x100028
/-- Offset of HST_SMART. -/
abbrev hstSmart : Nat := 0x10002c
/-- Offset of HST_HEAD_LO. -/
abbrev hstHeadLo : Nat := 0x100014
/-- Offset of HST_HEAD_HI. -/
abbrev hstHeadHi : Nat := 0x100018
/-- Offset of HST_OLDEST_LO. -/
abbrev hstOldestLo : Nat := 0x10001c
/-- Offset of HST_OLDEST_HI. -/
abbrev hstOldestHi : Nat := 0x100020
/-- Offset of HST_RING. -/
abbrev hstRing : Nat := 0x100024
/-- Offset of HST_CNT_DROP. -/
abbrev hstCntDrop : Nat := 0x100030
/-- Offset of HST_CNT_MISS. -/
abbrev hstCntMiss : Nat := 0x100034
/-- Offset of HST_CNT_FLUSH. -/
abbrev hstCntFlush : Nat := 0x100038
/-- Offset of HST_CNT_FAIL. -/
abbrev hstCntFail : Nat := 0x10003c
/-- Offset of NRG_CFG. -/
abbrev nrgCfg : Nat := 0x108000
/-- Offset of NRG_BUDGET. -/
abbrev nrgBudget : Nat := 0x108004
/-- Offset of NRG_FLOOR. -/
abbrev nrgFloor : Nat := 0x108008
/-- Offset of NRG_CORR. -/
abbrev nrgCorr : Nat := 0x10800c
/-- Offset of NRG_STAT. -/
abbrev nrgStat : Nat := 0x108010
/-- Offset of NRG_POWER. -/
abbrev nrgPower : Nat := 0x108014
/-- Offset of NRG_ENERGY_LO. -/
abbrev nrgEnergyLo : Nat := 0x108018
/-- Offset of NRG_ENERGY_HI. -/
abbrev nrgEnergyHi : Nat := 0x10801c
/-- Offset of NRG_LANE_MASK0. -/
abbrev nrgLaneMask0 : Nat := 0x108020
/-- Offset of NRG_LANE_MASK1. -/
abbrev nrgLaneMask1 : Nat := 0x108024
/-- Offset of NRG_THERM. -/
abbrev nrgTherm : Nat := 0x108030
/-- Offset of NRG_TJ. -/
abbrev nrgTj : Nat := 0x108034
/-- Offset of NRG_LEDGER. -/
abbrev nrgLedger : Nat := 0x108060
/-- Offset of NRG_SVC_HOURS. -/
abbrev nrgSvcHours : Nat := 0x108064
/-- Offset of NRG_LIFE. -/
abbrev nrgLife : Nat := 0x108068
/-- Offset of NRG_OTP. -/
abbrev nrgOtp : Nat := 0x10806c
/-- Offset of NRG_VCORE. -/
abbrev nrgVcore : Nat := 0x108070
/-- Offset of NRG_SENSOR. -/
abbrev nrgSensor (i : Nat) : Nat := 0x108040 + 0x4 * i
/-- Offset of NRG_EST. -/
abbrev nrgEst (i : Nat) : Nat := 0x108080 + 0x4 * i
/-- Offset of NRG_CNT_LEVEL. -/
abbrev nrgCntLevel : Nat := 0x1080c0
/-- Offset of NRG_CNT_PFAIL. -/
abbrev nrgCntPfail : Nat := 0x1080c4
/-- Offset of MEM_RANK. -/
abbrev memRank : Nat := 0x110000
/-- Offset of MEM_ARB. -/
abbrev memArb : Nat := 0x110004
/-- Offset of MEM_STAT. -/
abbrev memStat : Nat := 0x110008
/-- Offset of MEM_SWEEP. -/
abbrev memSweep : Nat := 0x11000c
/-- Offset of MEM_OFF. -/
abbrev memOff : Nat := 0x110010
/-- Offset of MEM_UE_ADDR. -/
abbrev memUeAddr : Nat := 0x110014
/-- Offset of MEM_CE_ADDR. -/
abbrev memCeAddr : Nat := 0x110018
/-- Offset of MEM_CNT_CE. -/
abbrev memCntCe : Nat := 0x110020
/-- Offset of MEM_CNT_UE. -/
abbrev memCntUe : Nat := 0x110024
/-- Offset of MEM_CNT_COLL. -/
abbrev memCntColl : Nat := 0x110028
/-- Offset of MEM_CNT_DEAD. -/
abbrev memCntDead : Nat := 0x11002c
/-- Offset of MEM_CNT_SWEEP. -/
abbrev memCntSweep : Nat := 0x110030
/-- Offset of MEM_RETIRE. -/
abbrev memRetire (i : Nat) : Nat := 0x110040 + 0x4 * i
/-- Offset of MEM_BSTATE. -/
abbrev memBstate (i : Nat) : Nat := 0x110080 + 0x4 * i
/-- Offset of XBR_LOCKS. -/
abbrev xbrLocks : Nat := 0x118000
/-- Offset of XBR_ERR. -/
abbrev xbrErr : Nat := 0x118004
/-- Offset of XBR_CNT_ORDER. -/
abbrev xbrCntOrder : Nat := 0x118010
/-- Offset of XBR_CNT_LEASE. -/
abbrev xbrCntLease : Nat := 0x118014
/-- Offset of XBR_CNT_ABANDON. -/
abbrev xbrCntAbandon : Nat := 0x118018
/-- Offset of HIF_STAT. -/
abbrev hifStat : Nat := 0x120000
/-- Offset of HIF_CNT_CMD. -/
abbrev hifCntCmd : Nat := 0x120010
/-- Offset of HIF_CNT_DMAERR. -/
abbrev hifCntDmaerr : Nat := 0x120014
/-- Offset of HIF_CRING_BASE_LO. -/
abbrev hifCringBaseLo (i : Nat) : Nat := 0x120100 + 0x20 * i
/-- Offset of HIF_CRING_BASE_HI. -/
abbrev hifCringBaseHi (i : Nat) : Nat := 0x120104 + 0x20 * i
/-- Offset of HIF_CRING_CFG. -/
abbrev hifCringCfg (i : Nat) : Nat := 0x120108 + 0x20 * i
/-- Offset of HIF_CRING_TAIL. -/
abbrev hifCringTail (i : Nat) : Nat := 0x12010c + 0x20 * i
/-- Offset of HIF_CRING_HEAD. -/
abbrev hifCringHead (i : Nat) : Nat := 0x120110 + 0x20 * i
/-- Offset of HIF_ERING_BASE_LO. -/
abbrev hifEringBaseLo (i : Nat) : Nat := 0x120200 + 0x20 * i
/-- Offset of HIF_ERING_BASE_HI. -/
abbrev hifEringBaseHi (i : Nat) : Nat := 0x120204 + 0x20 * i
/-- Offset of HIF_ERING_CFG. -/
abbrev hifEringCfg (i : Nat) : Nat := 0x120208 + 0x20 * i
/-- Offset of HIF_ERING_HEAD. -/
abbrev hifEringHead (i : Nat) : Nat := 0x12020c + 0x20 * i
/-- Offset of HIF_ERING_TAIL. -/
abbrev hifEringTail (i : Nat) : Nat := 0x120210 + 0x20 * i
/-- Offset of HIF_MSIX_TABLE. -/
abbrev hifMsixTable (i : Nat) : Nat := 0x121000 + 0x4 * i
/-- Offset of HIF_MSIX_PBA. -/
abbrev hifMsixPba (i : Nat) : Nat := 0x121800 + 0x4 * i
/-- Offset of FLT_CFG. -/
abbrev fltCfg : Nat := 0x128000
/-- Offset of FLT_STAT. -/
abbrev fltStat : Nat := 0x128004
/-- Offset of FLT_LAST. -/
abbrev fltLast : Nat := 0x128008
/-- Offset of FLT_INJECT. -/
abbrev fltInject : Nat := 0x12800c
/-- Offset of FLT_CNT_HANG. -/
abbrev fltCntHang : Nat := 0x128010
/-- Offset of FLT_CNT_PARITY. -/
abbrev fltCntParity : Nat := 0x128014
/-- Offset of FLT_CNT_DROOP. -/
abbrev fltCntDroop : Nat := 0x128018
/-- Offset of FLT_CNT_REG. -/
abbrev fltCntReg : Nat := 0x12801c
end Reg

/-! ### Fields -/
namespace F

/-- GLB_ID.device, RO. -/
abbrev glbId_device : Fld := ⟨Reg.glbId, 31, 16⟩
/-- GLB_ID.revision, RO. -/
abbrev glbId_revision : Fld := ⟨Reg.glbId, 15, 8⟩
/-- GLB_ID.grade, RO. -/
abbrev glbId_grade : Fld := ⟨Reg.glbId, 7, 4⟩
/-- GLB_SERIAL_LO.serial_lo, RO. -/
abbrev glbSerialLo_serialLo : Fld := ⟨Reg.glbSerialLo, 31, 0⟩
/-- GLB_SERIAL_HI.serial_hi, RO. -/
abbrev glbSerialHi_serialHi : Fld := ⟨Reg.glbSerialHi, 31, 0⟩
/-- GLB_SCRATCH.scratch, RW. -/
abbrev glbScratch_scratch : Fld := ⟨Reg.glbScratch, 31, 0⟩
/-- EVT_CFG.deliver, RW. -/
abbrev evtCfg_deliver : Fld := ⟨Reg.evtCfg, 7, 4⟩
/-- EVT_CFG.ring, RW. -/
abbrev evtCfg_ring : Fld := ⟨Reg.evtCfg, 3, 0⟩
/-- EVT_STAT.staged, RO. -/
abbrev evtStat_staged : Fld := ⟨Reg.evtStat, 14, 0⟩
/-- EVT_CNT_DROP.count, RW. -/
abbrev evtCntDrop_count : Fld := ⟨Reg.evtCntDrop, 31, 0⟩
/-- EVT_MASK.mask, RW. -/
abbrev evtMask_mask (i : Nat) : Fld := ⟨(Reg.evtMask i), 31, 0⟩
/-- RST_CTL.soft, WO. -/
abbrev rstCtl_soft : Fld := ⟨Reg.rstCtl, 31, 31⟩
/-- RST_CTL.island, WO. -/
abbrev rstCtl_island : Fld := ⟨Reg.rstCtl, 30, 30⟩
/-- RST_CTL.island_no, WO. -/
abbrev rstCtl_islandNo : Fld := ⟨Reg.rstCtl, 29, 23⟩
/-- RST_CFG.flr_full, RWS. -/
abbrev rstCfg_flrFull : Fld := ⟨Reg.rstCfg, 31, 31⟩
/-- RST_STAT.cause, RO. -/
abbrev rstStat_cause : Fld := ⟨Reg.rstStat, 31, 29⟩
/-- RST_STAT.lc_state, RO. -/
abbrev rstStat_lcState : Fld := ⟨Reg.rstStat, 28, 27⟩
/-- RST_STAT.busy, RO. -/
abbrev rstStat_busy : Fld := ⟨Reg.rstStat, 26, 26⟩
/-- RST_STAT.dbg_open, RO. -/
abbrev rstStat_dbgOpen : Fld := ⟨Reg.rstStat, 25, 25⟩
/-- RST_STAT.erase_pending, RO. -/
abbrev rstStat_erasePending : Fld := ⟨Reg.rstStat, 24, 24⟩
/-- RST_STAT.lc_used, RO. -/
abbrev rstStat_lcUsed : Fld := ⟨Reg.rstStat, 23, 18⟩
/-- RST_STAT.test_mode, RO. -/
abbrev rstStat_testMode : Fld := ⟨Reg.rstStat, 17, 17⟩
/-- RST_DBG.unlock, RW. -/
abbrev rstDbg_unlock : Fld := ⟨Reg.rstDbg, 31, 31⟩
/-- RST_CNT_DBG.count, RW. -/
abbrev rstCntDbg_count : Fld := ⟨Reg.rstCntDbg, 31, 0⟩
/-- TMG_CFG.opt2, RW. -/
abbrev tmgCfg_opt2 : Fld := ⟨Reg.tmgCfg, 31, 31⟩
/-- TMG_CFG.ql_en, RW. -/
abbrev tmgCfg_qlEn : Fld := ⟨Reg.tmgCfg, 30, 30⟩
/-- TMG_CFG.revertive, RW. -/
abbrev tmgCfg_revertive : Fld := ⟨Reg.tmgCfg, 29, 29⟩
/-- TMG_CFG.learn_en, RW. -/
abbrev tmgCfg_learnEn : Fld := ⟨Reg.tmgCfg, 28, 28⟩
/-- TMG_CFG.pps_phase, RW. -/
abbrev tmgCfg_ppsPhase : Fld := ⟨Reg.tmgCfg, 27, 27⟩
/-- TMG_CFG.own_ql, RW. -/
abbrev tmgCfg_ownQl : Fld := ⟨Reg.tmgCfg, 26, 23⟩
/-- TMG_CFG.learn_ql, RW. -/
abbrev tmgCfg_learnQl : Fld := ⟨Reg.tmgCfg, 22, 19⟩
/-- TMG_CFG.ref_wtr, RW. -/
abbrev tmgCfg_refWtr : Fld := ⟨Reg.tmgCfg, 18, 8⟩
/-- TMG_SEL.manual, RW. -/
abbrev tmgSel_manual : Fld := ⟨Reg.tmgSel, 31, 31⟩
/-- TMG_SEL.ref, RW. -/
abbrev tmgSel_ref : Fld := ⟨Reg.tmgSel, 3, 0⟩
/-- TMG_STAT.state, RO. -/
abbrev tmgStat_state : Fld := ⟨Reg.tmgStat, 31, 29⟩
/-- TMG_STAT.sel, RO. -/
abbrev tmgStat_sel : Fld := ⟨Reg.tmgStat, 28, 25⟩
/-- TMG_STAT.bw, RO. -/
abbrev tmgStat_bw : Fld := ⟨Reg.tmgStat, 24, 22⟩
/-- TMG_STAT.egress_ql, RO. -/
abbrev tmgStat_egressQl : Fld := ⟨Reg.tmgStat, 21, 18⟩
/-- TMG_STAT.osc_fail, RO. -/
abbrev tmgStat_oscFail : Fld := ⟨Reg.tmgStat, 17, 17⟩
/-- TMG_STAT.temp_bad, RO. -/
abbrev tmgStat_tempBad : Fld := ⟨Reg.tmgStat, 16, 16⟩
/-- TMG_STAT.drift, RO. -/
abbrev tmgStat_drift : Fld := ⟨Reg.tmgStat, 15, 15⟩
/-- TMG_STAT.osc_freq, RO. -/
abbrev tmgStat_oscFreq : Fld := ⟨Reg.tmgStat, 14, 12⟩
/-- TMG_STICKY.history, W1C. -/
abbrev tmgSticky_history : Fld := ⟨Reg.tmgSticky, 9, 0⟩
/-- TMG_INT_EN.history, RW. -/
abbrev tmgIntEn_history : Fld := ⟨Reg.tmgIntEn, 9, 0⟩
/-- TMG_DPLL.pbo, RW. -/
abbrev tmgDpll_pbo : Fld := ⟨Reg.tmgDpll, 31, 31⟩
/-- TMG_DPLL.final_bw, RW. -/
abbrev tmgDpll_finalBw : Fld := ⟨Reg.tmgDpll, 30, 28⟩
/-- TMG_DPLL.slope, RW. -/
abbrev tmgDpll_slope : Fld := ⟨Reg.tmgDpll, 15, 0⟩
/-- TMG_PHASE_STEP.step, WO. -/
abbrev tmgPhaseStep_step : Fld := ⟨Reg.tmgPhaseStep, 31, 0⟩
/-- TMG_HO.ho_limit, RW. -/
abbrev tmgHo_hoLimit : Fld := ⟨Reg.tmgHo, 31, 19⟩
/-- TMG_HO.drift_thr, RW. -/
abbrev tmgHo_driftThr : Fld := ⟨Reg.tmgHo, 18, 10⟩
/-- TMG_HO.dis_thr, RW. -/
abbrev tmgHo_disThr : Fld := ⟨Reg.tmgHo, 9, 0⟩
/-- TMG_LIMITS.hard, RW. -/
abbrev tmgLimits_hard : Fld := ⟨Reg.tmgLimits, 31, 16⟩
/-- TMG_LIMITS.soft, RW. -/
abbrev tmgLimits_soft : Fld := ⟨Reg.tmgLimits, 15, 0⟩
/-- TMG_REFIN.fin_en, RW. -/
abbrev tmgRefin_finEn : Fld := ⟨Reg.tmgRefin, 16, 16⟩
/-- TMG_REFIN.freq, RW. -/
abbrev tmgRefin_freq : Fld := ⟨Reg.tmgRefin, 15, 0⟩
/-- TMG_OSC_TEMP.valid, RO. -/
abbrev tmgOscTemp_valid : Fld := ⟨Reg.tmgOscTemp, 31, 31⟩
/-- TMG_OSC_TEMP.theta, RO. -/
abbrev tmgOscTemp_theta : Fld := ⟨Reg.tmgOscTemp, 15, 0⟩
/-- TMG_NTC.use_die, RW. -/
abbrev tmgNtc_useDie : Fld := ⟨Reg.tmgNtc, 31, 31⟩
/-- TMG_NTC.beta, RW. -/
abbrev tmgNtc_beta : Fld := ⟨Reg.tmgNtc, 15, 0⟩
/-- TMG_TRANGE.t_max, RWS. -/
abbrev tmgTrange_tMax : Fld := ⟨Reg.tmgTrange, 31, 16⟩
/-- TMG_TRANGE.t_min, RWS. -/
abbrev tmgTrange_tMin : Fld := ⟨Reg.tmgTrange, 15, 0⟩
/-- TMG_CTL.clear_learn, WO. -/
abbrev tmgCtl_clearLearn : Fld := ⟨Reg.tmgCtl, 0, 0⟩
/-- TMG_AGE_TAU.tau, RWS. -/
abbrev tmgAgeTau_tau : Fld := ⟨Reg.tmgAgeTau, 15, 0⟩
/-- TMG_HO_K.k_t, RW. -/
abbrev tmgHoK_kT : Fld := ⟨Reg.tmgHoK, 31, 16⟩
/-- TMG_HO_K.k_a, RW. -/
abbrev tmgHoK_kA : Fld := ⟨Reg.tmgHoK, 15, 0⟩
/-- TMG_SYNCOUT.en, RW. -/
abbrev tmgSyncout_en (i : Nat) : Fld := ⟨(Reg.tmgSyncout i), 31, 31⟩
/-- TMG_SYNCOUT.freq, RW. -/
abbrev tmgSyncout_freq (i : Nat) : Fld := ⟨(Reg.tmgSyncout i), 30, 28⟩
/-- TMG_SYNCOUT.src, RW. -/
abbrev tmgSyncout_src (i : Nat) : Fld := ⟨(Reg.tmgSyncout i), 27, 27⟩
/-- TMG_SYNCOUT.slot, RW. -/
abbrev tmgSyncout_slot (i : Nat) : Fld := ⟨(Reg.tmgSyncout i), 26, 23⟩
/-- TMG_SYNCOUT.sq_ql, RW. -/
abbrev tmgSyncout_sqQl (i : Nat) : Fld := ⟨(Reg.tmgSyncout i), 22, 19⟩
/-- TMG_FRAME_OUT.en, RW. -/
abbrev tmgFrameOut_en : Fld := ⟨Reg.tmgFrameOut, 31, 31⟩
/-- TMG_FRAME_OUT.pps, RW. -/
abbrev tmgFrameOut_pps : Fld := ⟨Reg.tmgFrameOut, 30, 30⟩
/-- TMG_REF_CFG.src, RW. -/
abbrev tmgRefCfg_src (i : Nat) : Fld := ⟨(Reg.tmgRefCfg i), 31, 26⟩
/-- TMG_REF_CFG.prio, RW. -/
abbrev tmgRefCfg_prio (i : Nat) : Fld := ⟨(Reg.tmgRefCfg i), 25, 22⟩
/-- TMG_REF_CFG.ql_force, RW. -/
abbrev tmgRefCfg_qlForce (i : Nat) : Fld := ⟨(Reg.tmgRefCfg i), 21, 21⟩
/-- TMG_REF_CFG.ql, RW. -/
abbrev tmgRefCfg_ql (i : Nat) : Fld := ⟨(Reg.tmgRefCfg i), 20, 17⟩
/-- TMG_REF_STAT.qualified, RO. -/
abbrev tmgRefStat_qualified (i : Nat) : Fld := ⟨(Reg.tmgRefStat i), 31, 31⟩
/-- TMG_REF_STAT.sig_ok, RO. -/
abbrev tmgRefStat_sigOk (i : Nat) : Fld := ⟨(Reg.tmgRefStat i), 30, 30⟩
/-- TMG_REF_STAT.in_limit, RO. -/
abbrev tmgRefStat_inLimit (i : Nat) : Fld := ⟨(Reg.tmgRefStat i), 29, 29⟩
/-- TMG_REF_STAT.soft, RO. -/
abbrev tmgRefStat_soft (i : Nat) : Fld := ⟨(Reg.tmgRefStat i), 28, 28⟩
/-- TMG_REF_STAT.suspect, RO. -/
abbrev tmgRefStat_suspect (i : Nat) : Fld := ⟨(Reg.tmgRefStat i), 27, 27⟩
/-- TMG_REF_STAT.wtr_run, RO. -/
abbrev tmgRefStat_wtrRun (i : Nat) : Fld := ⟨(Reg.tmgRefStat i), 26, 26⟩
/-- TMG_REF_STAT.ql, RO. -/
abbrev tmgRefStat_ql (i : Nat) : Fld := ⟨(Reg.tmgRefStat i), 25, 22⟩
/-- SDS_CFG.role, RWS. -/
abbrev sdsCfg_role (i : Nat) : Fld := ⟨(Reg.sdsCfg i), 31, 29⟩
/-- SDS_CFG.rate, RWS. -/
abbrev sdsCfg_rate (i : Nat) : Fld := ⟨(Reg.sdsCfg i), 28, 26⟩
/-- SDS_CFG.prof, RWS. -/
abbrev sdsCfg_prof (i : Nat) : Fld := ⟨(Reg.sdsCfg i), 25, 22⟩
/-- SDS_CFG.mod_present, RWS. -/
abbrev sdsCfg_modPresent (i : Nat) : Fld := ⟨(Reg.sdsCfg i), 21, 21⟩
/-- SDS_CFG.wake_rx, RWS. -/
abbrev sdsCfg_wakeRx (i : Nat) : Fld := ⟨(Reg.sdsCfg i), 20, 20⟩
/-- SDS_CFG.idle_ok, RWS. -/
abbrev sdsCfg_idleOk (i : Nat) : Fld := ⟨(Reg.sdsCfg i), 19, 19⟩
/-- SDS_CFG.tx_invert, RWS. -/
abbrev sdsCfg_txInvert (i : Nat) : Fld := ⟨(Reg.sdsCfg i), 18, 18⟩
/-- SDS_CFG.rx_invert, RWS. -/
abbrev sdsCfg_rxInvert (i : Nat) : Fld := ⟨(Reg.sdsCfg i), 17, 17⟩
/-- SDS_CTL.pwr, RWS. -/
abbrev sdsCtl_pwr (i : Nat) : Fld := ⟨(Reg.sdsCtl i), 31, 30⟩
/-- SDS_CTL.test, RWS. -/
abbrev sdsCtl_test (i : Nat) : Fld := ⟨(Reg.sdsCtl i), 29, 29⟩
/-- SDS_CTL.retry, WO. -/
abbrev sdsCtl_retry (i : Nat) : Fld := ⟨(Reg.sdsCtl i), 28, 28⟩
/-- SDS_STAT.stage, RO. -/
abbrev sdsStat_stage (i : Nat) : Fld := ⟨(Reg.sdsStat i), 31, 28⟩
/-- SDS_STAT.pwr, RO. -/
abbrev sdsStat_pwr (i : Nat) : Fld := ⟨(Reg.sdsStat i), 27, 26⟩
/-- SDS_STAT.pending_enable, RO. -/
abbrev sdsStat_pendingEnable (i : Nat) : Fld := ⟨(Reg.sdsStat i), 25, 25⟩
/-- SDS_STAT.frozen, RO. -/
abbrev sdsStat_frozen (i : Nat) : Fld := ⟨(Reg.sdsStat i), 24, 24⟩
/-- SDS_STAT.los, RO. -/
abbrev sdsStat_los (i : Nat) : Fld := ⟨(Reg.sdsStat i), 23, 23⟩
/-- SDS_STAT.cdr_lock, RO. -/
abbrev sdsStat_cdrLock (i : Nat) : Fld := ⟨(Reg.sdsStat i), 22, 22⟩
/-- SDS_STAT.fail_cnt, RO. -/
abbrev sdsStat_failCnt (i : Nat) : Fld := ⟨(Reg.sdsStat i), 21, 18⟩
/-- SDS_STAT.caps_why, RO. -/
abbrev sdsStat_capsWhy (i : Nat) : Fld := ⟨(Reg.sdsStat i), 17, 14⟩
/-- SDS_STICKY.history, W1C. -/
abbrev sdsSticky_history (i : Nat) : Fld := ⟨(Reg.sdsSticky i), 6, 0⟩
/-- SDS_INT_EN.enable, RW. -/
abbrev sdsIntEn_enable (i : Nat) : Fld := ⟨(Reg.sdsIntEn i), 6, 0⟩
/-- SDS_ALIGN.valid, RO. -/
abbrev sdsAlign_valid (i : Nat) : Fld := ⟨(Reg.sdsAlign i), 31, 31⟩
/-- SDS_ALIGN.wait, RO. -/
abbrev sdsAlign_wait (i : Nat) : Fld := ⟨(Reg.sdsAlign i), 13, 0⟩
/-- SDS_LAT.rx_ns, RO. -/
abbrev sdsLat_rxNs (i : Nat) : Fld := ⟨(Reg.sdsLat i), 26, 16⟩
/-- SDS_LAT.tx_ns, RO. -/
abbrev sdsLat_txNs (i : Nat) : Fld := ⟨(Reg.sdsLat i), 10, 0⟩
/-- SDS_CAPS_RX.role, RO. -/
abbrev sdsCapsRx_role (i : Nat) : Fld := ⟨(Reg.sdsCapsRx i), 31, 29⟩
/-- SDS_CAPS_RX.device_id, RO. -/
abbrev sdsCapsRx_deviceId (i : Nat) : Fld := ⟨(Reg.sdsCapsRx i), 28, 26⟩
/-- SDS_CAPS_RX.side, RO. -/
abbrev sdsCapsRx_side (i : Nat) : Fld := ⟨(Reg.sdsCapsRx i), 25, 25⟩
/-- SDS_CAPS_RX.caps_agree, RO. -/
abbrev sdsCapsRx_capsAgree (i : Nat) : Fld := ⟨(Reg.sdsCapsRx i), 24, 24⟩
/-- SDS_CAPS_RX.fabric_id, RO. -/
abbrev sdsCapsRx_fabricId (i : Nat) : Fld := ⟨(Reg.sdsCapsRx i), 23, 16⟩
/-- SDS_CAPS_RX.revision, RO. -/
abbrev sdsCapsRx_revision (i : Nat) : Fld := ⟨(Reg.sdsCapsRx i), 15, 8⟩
/-- SDS_CAPS_RX.rates, RO. -/
abbrev sdsCapsRx_rates (i : Nat) : Fld := ⟨(Reg.sdsCapsRx i), 7, 5⟩
/-- SDS_CAPS_RX.rate, RO. -/
abbrev sdsCapsRx_rate (i : Nat) : Fld := ⟨(Reg.sdsCapsRx i), 4, 3⟩
/-- SDS_PRBS.tx_en, RW. -/
abbrev sdsPrbs_txEn (i : Nat) : Fld := ⟨(Reg.sdsPrbs i), 31, 31⟩
/-- SDS_PRBS.rx_en, RW. -/
abbrev sdsPrbs_rxEn (i : Nat) : Fld := ⟨(Reg.sdsPrbs i), 30, 30⟩
/-- SDS_PRBS.poly, RW. -/
abbrev sdsPrbs_poly (i : Nat) : Fld := ⟨(Reg.sdsPrbs i), 29, 28⟩
/-- SDS_PRBS.invert, RW. -/
abbrev sdsPrbs_invert (i : Nat) : Fld := ⟨(Reg.sdsPrbs i), 27, 27⟩
/-- SDS_PRBS.inject, WO. -/
abbrev sdsPrbs_inject (i : Nat) : Fld := ⟨(Reg.sdsPrbs i), 26, 26⟩
/-- SDS_PRBS.in_sync, RO. -/
abbrev sdsPrbs_inSync (i : Nat) : Fld := ⟨(Reg.sdsPrbs i), 25, 25⟩
/-- SDS_PRBS.sync_lost, W1C. -/
abbrev sdsPrbs_syncLost (i : Nat) : Fld := ⟨(Reg.sdsPrbs i), 24, 24⟩
/-- SDS_PRBS_BITS_LO.bits_lo, RW. -/
abbrev sdsPrbsBitsLo_bitsLo (i : Nat) : Fld := ⟨(Reg.sdsPrbsBitsLo i), 31, 0⟩
/-- SDS_PRBS_BITS_HI.bits_hi, RW. -/
abbrev sdsPrbsBitsHi_bitsHi (i : Nat) : Fld := ⟨(Reg.sdsPrbsBitsHi i), 15, 0⟩
/-- SDS_PRBS_ERR.errors, RW. -/
abbrev sdsPrbsErr_errors (i : Nat) : Fld := ⟨(Reg.sdsPrbsErr i), 31, 0⟩
/-- SDS_PROF0.tx_pre, RWS. -/
abbrev sdsProf0_txPre (i : Nat) : Fld := ⟨(Reg.sdsProf0 i), 31, 28⟩
/-- SDS_PROF0.tx_post, RWS. -/
abbrev sdsProf0_txPost (i : Nat) : Fld := ⟨(Reg.sdsProf0 i), 27, 23⟩
/-- SDS_PROF0.swing, RWS. -/
abbrev sdsProf0_swing (i : Nat) : Fld := ⟨(Reg.sdsProf0 i), 22, 18⟩
/-- SDS_PROF1.ctle_peak, RWS. -/
abbrev sdsProf1_ctlePeak (i : Nat) : Fld := ⟨(Reg.sdsProf1 i), 31, 28⟩
/-- SDS_PROF1.ctle_dc, RWS. -/
abbrev sdsProf1_ctleDc (i : Nat) : Fld := ⟨(Reg.sdsProf1 i), 27, 25⟩
/-- LTM_CFG.sonet, RW. -/
abbrev ltmCfg_sonet (i : Nat) : Fld := ⟨(Reg.ltmCfg i), 31, 31⟩
/-- LTM_CFG.au3, RW. -/
abbrev ltmCfg_au3 (i : Nat) : Fld := ⟨(Reg.ltmCfg i), 30, 30⟩
/-- LTM_CFG.j0_len64, RW. -/
abbrev ltmCfg_j0Len64 (i : Nat) : Fld := ⟨(Reg.ltmCfg i), 29, 29⟩
/-- LTM_CFG.j0_tim_en, RW. -/
abbrev ltmCfg_j0TimEn (i : Nat) : Fld := ⟨(Reg.ltmCfg i), 28, 28⟩
/-- LTM_CFG.exc_thr, RW. -/
abbrev ltmCfg_excThr (i : Nat) : Fld := ⟨(Reg.ltmCfg i), 27, 26⟩
/-- LTM_CFG.deg_thr, RW. -/
abbrev ltmCfg_degThr (i : Nat) : Fld := ⟨(Reg.ltmCfg i), 25, 23⟩
/-- LTM_CFG.los_us, RW. -/
abbrev ltmCfg_losUs (i : Nat) : Fld := ⟨(Reg.ltmCfg i), 22, 16⟩
/-- LTM_CFG.ss_check, RW. -/
abbrev ltmCfg_ssCheck (i : Nat) : Fld := ⟨(Reg.ltmCfg i), 15, 15⟩
/-- LTM_CFG.force_ms_ais, RW. -/
abbrev ltmCfg_forceMsAis (i : Nat) : Fld := ⟨(Reg.ltmCfg i), 14, 14⟩
/-- LTM_STAT.au_any, RO. -/
abbrev ltmStat_auAny (i : Nat) : Fld := ⟨(Reg.ltmStat i), 9, 9⟩
/-- LTM_STAT.k_incons, RO. -/
abbrev ltmStat_kIncons (i : Nat) : Fld := ⟨(Reg.ltmStat i), 8, 8⟩
/-- LTM_STAT.ms_deg, RO. -/
abbrev ltmStat_msDeg (i : Nat) : Fld := ⟨(Reg.ltmStat i), 7, 7⟩
/-- LTM_STAT.ms_exc, RO. -/
abbrev ltmStat_msExc (i : Nat) : Fld := ⟨(Reg.ltmStat i), 6, 6⟩
/-- LTM_STAT.ms_rdi, RO. -/
abbrev ltmStat_msRdi (i : Nat) : Fld := ⟨(Reg.ltmStat i), 5, 5⟩
/-- LTM_STAT.ms_ais, RO. -/
abbrev ltmStat_msAis (i : Nat) : Fld := ⟨(Reg.ltmStat i), 4, 4⟩
/-- LTM_STAT.rs_tim, RO. -/
abbrev ltmStat_rsTim (i : Nat) : Fld := ⟨(Reg.ltmStat i), 3, 3⟩
/-- LTM_STAT.lof, RO. -/
abbrev ltmStat_lof (i : Nat) : Fld := ⟨(Reg.ltmStat i), 2, 2⟩
/-- LTM_STAT.oof, RO. -/
abbrev ltmStat_oof (i : Nat) : Fld := ⟨(Reg.ltmStat i), 1, 1⟩
/-- LTM_STAT.los, RO. -/
abbrev ltmStat_los (i : Nat) : Fld := ⟨(Reg.ltmStat i), 0, 0⟩
/-- LTM_STICKY.au_any, W1C. -/
abbrev ltmSticky_auAny (i : Nat) : Fld := ⟨(Reg.ltmSticky i), 9, 9⟩
/-- LTM_STICKY.k_incons, W1C. -/
abbrev ltmSticky_kIncons (i : Nat) : Fld := ⟨(Reg.ltmSticky i), 8, 8⟩
/-- LTM_STICKY.ms_deg, W1C. -/
abbrev ltmSticky_msDeg (i : Nat) : Fld := ⟨(Reg.ltmSticky i), 7, 7⟩
/-- LTM_STICKY.ms_exc, W1C. -/
abbrev ltmSticky_msExc (i : Nat) : Fld := ⟨(Reg.ltmSticky i), 6, 6⟩
/-- LTM_STICKY.ms_rdi, W1C. -/
abbrev ltmSticky_msRdi (i : Nat) : Fld := ⟨(Reg.ltmSticky i), 5, 5⟩
/-- LTM_STICKY.ms_ais, W1C. -/
abbrev ltmSticky_msAis (i : Nat) : Fld := ⟨(Reg.ltmSticky i), 4, 4⟩
/-- LTM_STICKY.rs_tim, W1C. -/
abbrev ltmSticky_rsTim (i : Nat) : Fld := ⟨(Reg.ltmSticky i), 3, 3⟩
/-- LTM_STICKY.lof, W1C. -/
abbrev ltmSticky_lof (i : Nat) : Fld := ⟨(Reg.ltmSticky i), 2, 2⟩
/-- LTM_STICKY.oof, W1C. -/
abbrev ltmSticky_oof (i : Nat) : Fld := ⟨(Reg.ltmSticky i), 1, 1⟩
/-- LTM_STICKY.los, W1C. -/
abbrev ltmSticky_los (i : Nat) : Fld := ⟨(Reg.ltmSticky i), 0, 0⟩
/-- LTM_INT_EN.au_any, RW. -/
abbrev ltmIntEn_auAny (i : Nat) : Fld := ⟨(Reg.ltmIntEn i), 9, 9⟩
/-- LTM_INT_EN.k_incons, RW. -/
abbrev ltmIntEn_kIncons (i : Nat) : Fld := ⟨(Reg.ltmIntEn i), 8, 8⟩
/-- LTM_INT_EN.ms_deg, RW. -/
abbrev ltmIntEn_msDeg (i : Nat) : Fld := ⟨(Reg.ltmIntEn i), 7, 7⟩
/-- LTM_INT_EN.ms_exc, RW. -/
abbrev ltmIntEn_msExc (i : Nat) : Fld := ⟨(Reg.ltmIntEn i), 6, 6⟩
/-- LTM_INT_EN.ms_rdi, RW. -/
abbrev ltmIntEn_msRdi (i : Nat) : Fld := ⟨(Reg.ltmIntEn i), 5, 5⟩
/-- LTM_INT_EN.ms_ais, RW. -/
abbrev ltmIntEn_msAis (i : Nat) : Fld := ⟨(Reg.ltmIntEn i), 4, 4⟩
/-- LTM_INT_EN.rs_tim, RW. -/
abbrev ltmIntEn_rsTim (i : Nat) : Fld := ⟨(Reg.ltmIntEn i), 3, 3⟩
/-- LTM_INT_EN.lof, RW. -/
abbrev ltmIntEn_lof (i : Nat) : Fld := ⟨(Reg.ltmIntEn i), 2, 2⟩
/-- LTM_INT_EN.oof, RW. -/
abbrev ltmIntEn_oof (i : Nat) : Fld := ⟨(Reg.ltmIntEn i), 1, 1⟩
/-- LTM_INT_EN.los, RW. -/
abbrev ltmIntEn_los (i : Nat) : Fld := ⟨(Reg.ltmIntEn i), 0, 0⟩
/-- LTM_OH_RX.k1, RO. -/
abbrev ltmOhRx_k1 (i : Nat) : Fld := ⟨(Reg.ltmOhRx i), 31, 24⟩
/-- LTM_OH_RX.k2, RO. -/
abbrev ltmOhRx_k2 (i : Nat) : Fld := ⟨(Reg.ltmOhRx i), 23, 16⟩
/-- LTM_OH_RX.s1, RO. -/
abbrev ltmOhRx_s1 (i : Nat) : Fld := ⟨(Reg.ltmOhRx i), 15, 12⟩
/-- LTM_OH_RX.k_valid, RO. -/
abbrev ltmOhRx_kValid (i : Nat) : Fld := ⟨(Reg.ltmOhRx i), 11, 11⟩
/-- LTM_OH_RX.s1_valid, RO. -/
abbrev ltmOhRx_s1Valid (i : Nat) : Fld := ⟨(Reg.ltmOhRx i), 10, 10⟩
/-- LTM_OH_TX.k1_tx, RW. -/
abbrev ltmOhTx_k1Tx (i : Nat) : Fld := ⟨(Reg.ltmOhTx i), 31, 24⟩
/-- LTM_OH_TX.k2_tx, RW. -/
abbrev ltmOhTx_k2Tx (i : Nat) : Fld := ⟨(Reg.ltmOhTx i), 23, 16⟩
/-- LTM_AU_CFG.au_type, RW. -/
abbrev ltmAuCfg_auType (i : Nat) (j : Nat) : Fld := ⟨(Reg.ltmAuCfg i j), 31, 30⟩
/-- LTM_AU_CFG.nc, RW. -/
abbrev ltmAuCfg_nc (i : Nat) (j : Nat) : Fld := ⟨(Reg.ltmAuCfg i j), 29, 28⟩
/-- LTM_AU_CFG.poh_gen, RW. -/
abbrev ltmAuCfg_pohGen (i : Nat) (j : Nat) : Fld := ⟨(Reg.ltmAuCfg i j), 27, 27⟩
/-- LTM_AU_CFG.tx_j1_row, RW. -/
abbrev ltmAuCfg_txJ1Row (i : Nat) (j : Nat) : Fld := ⟨(Reg.ltmAuCfg i j), 26, 23⟩
/-- LTM_AU_CFG.peer_lane, RW. -/
abbrev ltmAuCfg_peerLane (i : Nat) (j : Nat) : Fld := ⟨(Reg.ltmAuCfg i j), 22, 17⟩
/-- LTM_AU_CFG.peer_n, RW. -/
abbrev ltmAuCfg_peerN (i : Nat) (j : Nat) : Fld := ⟨(Reg.ltmAuCfg i j), 16, 11⟩
/-- LTM_AU_CFG.c2, RW. -/
abbrev ltmAuCfg_c2 (i : Nat) (j : Nat) : Fld := ⟨(Reg.ltmAuCfg i j), 10, 3⟩
/-- LTM_AU_CFG.j1_len64, RW. -/
abbrev ltmAuCfg_j1Len64 (i : Nat) (j : Nat) : Fld := ⟨(Reg.ltmAuCfg i j), 2, 2⟩
/-- LTM_AU_STAT.ptr_state, RO. -/
abbrev ltmAuStat_ptrState (i : Nat) (j : Nat) : Fld := ⟨(Reg.ltmAuStat i j), 31, 30⟩
/-- LTM_AU_STAT.ptr, RO. -/
abbrev ltmAuStat_ptr (i : Nat) (j : Nat) : Fld := ⟨(Reg.ltmAuStat i j), 29, 20⟩
/-- LTM_AU_STAT.hp_tim, RO. -/
abbrev ltmAuStat_hpTim (i : Nat) (j : Nat) : Fld := ⟨(Reg.ltmAuStat i j), 19, 19⟩
/-- LTM_AU_STAT.hp_uneq, RO. -/
abbrev ltmAuStat_hpUneq (i : Nat) (j : Nat) : Fld := ⟨(Reg.ltmAuStat i j), 18, 18⟩
/-- LTM_AU_STAT.hp_plm, RO. -/
abbrev ltmAuStat_hpPlm (i : Nat) (j : Nat) : Fld := ⟨(Reg.ltmAuStat i j), 17, 17⟩
/-- LTM_AU_STAT.hp_rdi, RO. -/
abbrev ltmAuStat_hpRdi (i : Nat) (j : Nat) : Fld := ⟨(Reg.ltmAuStat i j), 16, 16⟩
/-- LTM_AU_STAT.mf_phase, RO. -/
abbrev ltmAuStat_mfPhase (i : Nat) (j : Nat) : Fld := ⟨(Reg.ltmAuStat i j), 15, 14⟩
/-- LTM_AU_STAT.c2_acc, RO. -/
abbrev ltmAuStat_c2Acc (i : Nat) (j : Nat) : Fld := ⟨(Reg.ltmAuStat i j), 13, 6⟩
/-- LTM_AU_DLY.delay, RO. -/
abbrev ltmAuDly_delay (i : Nat) (j : Nat) : Fld := ⟨(Reg.ltmAuDly i j), 31, 16⟩
/-- LTM_AU_DLY.slip_cnt, RO. -/
abbrev ltmAuDly_slipCnt (i : Nat) (j : Nat) : Fld := ⟨(Reg.ltmAuDly i j), 15, 8⟩
/-- LTM_AU_DLY.just_cnt, RO. -/
abbrev ltmAuDly_justCnt (i : Nat) (j : Nat) : Fld := ⟨(Reg.ltmAuDly i j), 7, 0⟩
/-- TRB_ACTIVE.active, RO. -/
abbrev trbActive_active : Fld := ⟨Reg.trbActive, 13, 0⟩
/-- TRB_STICKY_SUM.sticky, W1C. -/
abbrev trbStickySum_sticky (i : Nat) : Fld := ⟨(Reg.trbStickySum i), 31, 0⟩
/-- COL_CTL.cover_strict, RW. -/
abbrev colCtl_coverStrict : Fld := ⟨Reg.colCtl, 0, 0⟩
/-- COL_BANK.shadow_wr, RO. -/
abbrev colBank_shadowWr : Fld := ⟨Reg.colBank, 1, 1⟩
/-- COL_BANK.live, RO. -/
abbrev colBank_live : Fld := ⟨Reg.colBank, 0, 0⟩
/-- COL_START_A.en, RW. -/
abbrev colStartA_en (i : Nat) : Fld := ⟨(Reg.colStartA i), 31, 31⟩
/-- COL_START_A.start, RW. -/
abbrev colStartA_start (i : Nat) : Fld := ⟨(Reg.colStartA i), 18, 0⟩
/-- COL_START_B.en, RW. -/
abbrev colStartB_en (i : Nat) : Fld := ⟨(Reg.colStartB i), 31, 31⟩
/-- COL_START_B.start, RW. -/
abbrev colStartB_start (i : Nat) : Fld := ⟨(Reg.colStartB i), 18, 0⟩
/-- COL_REH_A.valid, RO. -/
abbrev colRehA_valid (i : Nat) : Fld := ⟨(Reg.colRehA i), 31, 31⟩
/-- COL_REH_A.cycles, RO. -/
abbrev colRehA_cycles (i : Nat) : Fld := ⟨(Reg.colRehA i), 15, 0⟩
/-- COL_REH_B.valid, RO. -/
abbrev colRehB_valid (i : Nat) : Fld := ⟨(Reg.colRehB i), 31, 31⟩
/-- COL_REH_B.cycles, RO. -/
abbrev colRehB_cycles (i : Nat) : Fld := ⟨(Reg.colRehB i), 15, 0⟩
/-- COL_COVER_A.unwritten, RO. -/
abbrev colCoverA_unwritten (i : Nat) : Fld := ⟨(Reg.colCoverA i), 17, 0⟩
/-- COL_COVER_B.unwritten, RO. -/
abbrev colCoverB_unwritten (i : Nat) : Fld := ⟨(Reg.colCoverB i), 17, 0⟩
/-- COL_STAT.dig_bad, RO. -/
abbrev colStat_digBad (i : Nat) : Fld := ⟨(Reg.colStat i), 31, 31⟩
/-- COL_STAT.ecc_sub, RO. -/
abbrev colStat_eccSub (i : Nat) : Fld := ⟨(Reg.colStat i), 30, 30⟩
/-- COL_STAT.late, RO. -/
abbrev colStat_late (i : Nat) : Fld := ⟨(Reg.colStat i), 29, 29⟩
/-- COL_STAT.running, RO. -/
abbrev colStat_running (i : Nat) : Fld := ⟨(Reg.colStat i), 28, 28⟩
/-- OCT_CTL.cover_strict, RW. -/
abbrev octCtl_coverStrict : Fld := ⟨Reg.octCtl, 0, 0⟩
/-- OCT_BANK.shadow_wr, RO. -/
abbrev octBank_shadowWr : Fld := ⟨Reg.octBank, 1, 1⟩
/-- OCT_BANK.live, RO. -/
abbrev octBank_live : Fld := ⟨Reg.octBank, 0, 0⟩
/-- OCT_START_A.en, RW. -/
abbrev octStartA_en (i : Nat) : Fld := ⟨(Reg.octStartA i), 31, 31⟩
/-- OCT_START_A.start, RW. -/
abbrev octStartA_start (i : Nat) : Fld := ⟨(Reg.octStartA i), 18, 0⟩
/-- OCT_START_B.en, RW. -/
abbrev octStartB_en (i : Nat) : Fld := ⟨(Reg.octStartB i), 31, 31⟩
/-- OCT_START_B.start, RW. -/
abbrev octStartB_start (i : Nat) : Fld := ⟨(Reg.octStartB i), 18, 0⟩
/-- OCT_REH_A.valid, RO. -/
abbrev octRehA_valid (i : Nat) : Fld := ⟨(Reg.octRehA i), 31, 31⟩
/-- OCT_REH_A.cycles, RO. -/
abbrev octRehA_cycles (i : Nat) : Fld := ⟨(Reg.octRehA i), 15, 0⟩
/-- OCT_REH_B.valid, RO. -/
abbrev octRehB_valid (i : Nat) : Fld := ⟨(Reg.octRehB i), 31, 31⟩
/-- OCT_REH_B.cycles, RO. -/
abbrev octRehB_cycles (i : Nat) : Fld := ⟨(Reg.octRehB i), 15, 0⟩
/-- OCT_COVER_A.unwritten, RO. -/
abbrev octCoverA_unwritten (i : Nat) : Fld := ⟨(Reg.octCoverA i), 17, 0⟩
/-- OCT_COVER_B.unwritten, RO. -/
abbrev octCoverB_unwritten (i : Nat) : Fld := ⟨(Reg.octCoverB i), 17, 0⟩
/-- OCT_STAT.dig_bad, RO. -/
abbrev octStat_digBad (i : Nat) : Fld := ⟨(Reg.octStat i), 31, 31⟩
/-- OCT_STAT.ecc_sub, RO. -/
abbrev octStat_eccSub (i : Nat) : Fld := ⟨(Reg.octStat i), 30, 30⟩
/-- OCT_STAT.late, RO. -/
abbrev octStat_late (i : Nat) : Fld := ⟨(Reg.octStat i), 29, 29⟩
/-- OCT_STAT.running, RO. -/
abbrev octStat_running (i : Nat) : Fld := ⟨(Reg.octStat i), 28, 28⟩
/-- OCT_TONE_ADDR.addr, RW. -/
abbrev octToneAddr_addr : Fld := ⟨Reg.octToneAddr, 19, 2⟩
/-- OCT_TONE_DATA.samples, RW. -/
abbrev octToneData_samples : Fld := ⟨Reg.octToneData, 31, 0⟩
/-- OCT_TONE_BASE.base, RW. -/
abbrev octToneBase_base (i : Nat) : Fld := ⟨(Reg.octToneBase i), 19, 0⟩
/-- OCT_TONE_LEN.law, RW. -/
abbrev octToneLen_law (i : Nat) : Fld := ⟨(Reg.octToneLen i), 31, 31⟩
/-- OCT_TONE_LEN.length, RW. -/
abbrev octToneLen_length (i : Nat) : Fld := ⟨(Reg.octToneLen i), 20, 0⟩
/-- PRBS_STAT.in_sync, RO. -/
abbrev prbsStat_inSync (i : Nat) : Fld := ⟨(Reg.prbsStat i), 31, 31⟩
/-- PRBS_STAT.sync_lost, W1C. -/
abbrev prbsStat_syncLost (i : Nat) : Fld := ⟨(Reg.prbsStat i), 30, 30⟩
/-- PRBS_STAT.restart, WO. -/
abbrev prbsStat_restart (i : Nat) : Fld := ⟨(Reg.prbsStat i), 29, 29⟩
/-- PRBS_BITS_LO.bits_lo, RW. -/
abbrev prbsBitsLo_bitsLo (i : Nat) : Fld := ⟨(Reg.prbsBitsLo i), 31, 0⟩
/-- PRBS_BITS_HI.bits_hi, RW. -/
abbrev prbsBitsHi_bitsHi (i : Nat) : Fld := ⟨(Reg.prbsBitsHi i), 15, 0⟩
/-- PRBS_ERR.errors, RW. -/
abbrev prbsErr_errors (i : Nat) : Fld := ⟨(Reg.prbsErr i), 31, 0⟩
/-- FLP_REQ.fabric, RW. -/
abbrev flpReq_fabric : Fld := ⟨Reg.flpReq, 3, 3⟩
/-- FLP_REQ.oct, RW. -/
abbrev flpReq_oct : Fld := ⟨Reg.flpReq, 2, 2⟩
/-- FLP_REQ.col, RW. -/
abbrev flpReq_col : Fld := ⟨Reg.flpReq, 1, 1⟩
/-- FLP_REQ.bank, RW. -/
abbrev flpReq_bank : Fld := ⟨Reg.flpReq, 0, 0⟩
/-- FLP_TARGET.target, RW. -/
abbrev flpTarget_target : Fld := ⟨Reg.flpTarget, 31, 0⟩
/-- FLP_CMD.cancel, WO. -/
abbrev flpCmd_cancel : Fld := ⟨Reg.flpCmd, 1, 1⟩
/-- FLP_CMD.arm, WO. -/
abbrev flpCmd_arm : Fld := ⟨Reg.flpCmd, 0, 0⟩
/-- FLP_STAT.state, RO. -/
abbrev flpStat_state : Fld := ⟨Reg.flpStat, 31, 29⟩
/-- FLP_STAT.uncertain, RO. -/
abbrev flpStat_uncertain : Fld := ⟨Reg.flpStat, 28, 28⟩
/-- FLP_STAT.catch_up, RO. -/
abbrev flpStat_catchUp : Fld := ⟨Reg.flpStat, 27, 27⟩
/-- FLP_STAT.reason, RO. -/
abbrev flpStat_reason : Fld := ⟨Reg.flpStat, 23, 16⟩
/-- FLP_STAT.txn, RO. -/
abbrev flpStat_txn : Fld := ⟨Reg.flpStat, 15, 0⟩
/-- FLP_FAIL.valid, RO. -/
abbrev flpFail_valid : Fld := ⟨Reg.flpFail, 31, 31⟩
/-- FLP_FAIL.plane, RO. -/
abbrev flpFail_plane : Fld := ⟨Reg.flpFail, 30, 30⟩
/-- FLP_FAIL.dest, RO. -/
abbrev flpFail_dest : Fld := ⟨Reg.flpFail, 29, 24⟩
/-- FLP_FAIL.rule, RO. -/
abbrev flpFail_rule : Fld := ⟨Reg.flpFail, 23, 20⟩
/-- FLP_FAIL.word, RO. -/
abbrev flpFail_word : Fld := ⟨Reg.flpFail, 18, 0⟩
/-- FLP_FAIL_TAG.tag, RO. -/
abbrev flpFailTag_tag : Fld := ⟨Reg.flpFailTag, 15, 0⟩
/-- FLP_FAB_CFG.members, RW. -/
abbrev flpFabCfg_members : Fld := ⟨Reg.flpFabCfg, 7, 0⟩
/-- FLP_FAB_RANK.rank, RW. -/
abbrev flpFabRank_rank : Fld := ⟨Reg.flpFabRank, 23, 0⟩
/-- FLP_COORD.last_txn, RO. -/
abbrev flpCoord_lastTxn : Fld := ⟨Reg.flpCoord, 31, 16⟩
/-- FLP_COORD.self, RO. -/
abbrev flpCoord_self : Fld := ⟨Reg.flpCoord, 3, 3⟩
/-- FLP_COORD.coord_id, RO. -/
abbrev flpCoord_coordId : Fld := ⟨Reg.flpCoord, 2, 0⟩
/-- FLP_PEER.ready, RO. -/
abbrev flpPeer_ready (i : Nat) : Fld := ⟨(Reg.flpPeer i), 31, 31⟩
/-- FLP_PEER.nack, RO. -/
abbrev flpPeer_nack (i : Nat) : Fld := ⟨(Reg.flpPeer i), 30, 30⟩
/-- FLP_PEER.split, RO. -/
abbrev flpPeer_split (i : Nat) : Fld := ⟨(Reg.flpPeer i), 29, 29⟩
/-- FLP_PEER.col_bank, RO. -/
abbrev flpPeer_colBank (i : Nat) : Fld := ⟨(Reg.flpPeer i), 28, 28⟩
/-- FLP_PEER.oct_bank, RO. -/
abbrev flpPeer_octBank (i : Nat) : Fld := ⟨(Reg.flpPeer i), 27, 27⟩
/-- FLP_PEER.nack_reason, RO. -/
abbrev flpPeer_nackReason (i : Nat) : Fld := ⟨(Reg.flpPeer i), 15, 8⟩
/-- FLP_PEER.silent, RO. -/
abbrev flpPeer_silent (i : Nat) : Fld := ⟨(Reg.flpPeer i), 7, 0⟩
/-- PRT_CFG.wtr_def, RW. -/
abbrev prtCfg_wtrDef : Fld := ⟨Reg.prtCfg, 9, 0⟩
/-- APS_CFG.en, RW. -/
abbrev apsCfg_en (i : Nat) : Fld := ⟨(Reg.apsCfg i), 31, 31⟩
/-- APS_CFG.arch, RW. -/
abbrev apsCfg_arch (i : Nat) : Fld := ⟨(Reg.apsCfg i), 30, 29⟩
/-- APS_CFG.revertive, RW. -/
abbrev apsCfg_revertive (i : Nat) : Fld := ⟨(Reg.apsCfg i), 28, 28⟩
/-- APS_CFG.extra, RW. -/
abbrev apsCfg_extra (i : Nat) : Fld := ⟨(Reg.apsCfg i), 27, 27⟩
/-- APS_CFG.prot_lane, RW. -/
abbrev apsCfg_protLane (i : Nat) : Fld := ⟨(Reg.apsCfg i), 26, 21⟩
/-- APS_CFG.n, RW. -/
abbrev apsCfg_n (i : Nat) : Fld := ⟨(Reg.apsCfg i), 20, 17⟩
/-- APS_CFG.holdoff, RW. -/
abbrev apsCfg_holdoff (i : Nat) : Fld := ⟨(Reg.apsCfg i), 16, 10⟩
/-- APS_CFG.wtr, RW. -/
abbrev apsCfg_wtr (i : Nat) : Fld := ⟨(Reg.apsCfg i), 9, 0⟩
/-- APS_WL.lanes, RW. -/
abbrev apsWl_lanes (i : Nat) (j : Nat) : Fld := ⟨(Reg.apsWl i j), 29, 0⟩
/-- APS_WL2.lanes, RW. -/
abbrev apsWl2_lanes (i : Nat) : Fld := ⟨(Reg.apsWl2 i), 23, 0⟩
/-- APS_CMD.cmd, RW. -/
abbrev apsCmd_cmd (i : Nat) : Fld := ⟨(Reg.apsCmd i), 6, 4⟩
/-- APS_CMD.chan, RW. -/
abbrev apsCmd_chan (i : Nat) : Fld := ⟨(Reg.apsCmd i), 3, 0⟩
/-- APS_STAT.req_local, RO. -/
abbrev apsStat_reqLocal (i : Nat) : Fld := ⟨(Reg.apsStat i), 31, 28⟩
/-- APS_STAT.chan_local, RO. -/
abbrev apsStat_chanLocal (i : Nat) : Fld := ⟨(Reg.apsStat i), 27, 24⟩
/-- APS_STAT.req_remote, RO. -/
abbrev apsStat_reqRemote (i : Nat) : Fld := ⟨(Reg.apsStat i), 23, 20⟩
/-- APS_STAT.chan_remote, RO. -/
abbrev apsStat_chanRemote (i : Nat) : Fld := ⟨(Reg.apsStat i), 19, 16⟩
/-- APS_STAT.selected, RO. -/
abbrev apsStat_selected (i : Nat) : Fld := ⟨(Reg.apsStat i), 15, 12⟩
/-- APS_STAT.bridged, RO. -/
abbrev apsStat_bridged (i : Nat) : Fld := ⟨(Reg.apsStat i), 11, 8⟩
/-- APS_STAT.fop, RO. -/
abbrev apsStat_fop (i : Nat) : Fld := ⟨(Reg.apsStat i), 7, 7⟩
/-- APS_STAT.wtr_run, RO. -/
abbrev apsStat_wtrRun (i : Nat) : Fld := ⟨(Reg.apsStat i), 6, 6⟩
/-- APS_STAT.holdoff_run, RO. -/
abbrev apsStat_holdoffRun (i : Nat) : Fld := ⟨(Reg.apsStat i), 5, 5⟩
/-- APS_STAT.cmd_rej, RO. -/
abbrev apsStat_cmdRej (i : Nat) : Fld := ⟨(Reg.apsStat i), 4, 4⟩
/-- APS_STAT.fop_cause, RO. -/
abbrev apsStat_fopCause (i : Nat) : Fld := ⟨(Reg.apsStat i), 3, 0⟩
/-- APS_KTX.k1, RO. -/
abbrev apsKtx_k1 (i : Nat) : Fld := ⟨(Reg.apsKtx i), 31, 24⟩
/-- APS_KTX.k2, RO. -/
abbrev apsKtx_k2 (i : Nat) : Fld := ⟨(Reg.apsKtx i), 23, 16⟩
/-- FAB_CFG.en, RW. -/
abbrev fabCfg_en : Fld := ⟨Reg.fabCfg, 31, 31⟩
/-- FAB_CFG.device_id, RW. -/
abbrev fabCfg_deviceId : Fld := ⟨Reg.fabCfg, 30, 28⟩
/-- FAB_CFG.fabric_id, RW. -/
abbrev fabCfg_fabricId : Fld := ⟨Reg.fabCfg, 27, 20⟩
/-- FAB_TM_RANK.rank, RW. -/
abbrev fabTmRank_rank : Fld := ⟨Reg.fabTmRank, 23, 0⟩
/-- FAB_LOOP.loop_live, RO. -/
abbrev fabLoop_loopLive : Fld := ⟨Reg.fabLoop, 15, 8⟩
/-- FAB_LOOP.loop, RW. -/
abbrev fabLoop_loop : Fld := ⟨Reg.fabLoop, 7, 0⟩
/-- FAB_ALIGN.target, RW. -/
abbrev fabAlign_target : Fld := ⟨Reg.fabAlign, 13, 0⟩
/-- FAB_STAT.tm_role, RO. -/
abbrev fabStat_tmRole : Fld := ⟨Reg.fabStat, 31, 30⟩
/-- FAB_STAT.tm_id, RO. -/
abbrev fabStat_tmId : Fld := ⟨Reg.fabStat, 29, 27⟩
/-- FAB_STAT.aligned, RO. -/
abbrev fabStat_aligned : Fld := ⟨Reg.fabStat, 26, 26⟩
/-- FAB_STAT.ref_lane, RO. -/
abbrev fabStat_refLane : Fld := ⟨Reg.fabStat, 25, 20⟩
/-- FAB_LANE.peer, RW. -/
abbrev fabLane_peer (i : Nat) : Fld := ⟨(Reg.fabLane i), 30, 28⟩
/-- FAB_LANE.fpe, W1C. -/
abbrev fabLane_fpe (i : Nat) : Fld := ⟨(Reg.fabLane i), 27, 27⟩
/-- FAB_LANE.fpe_now, RO. -/
abbrev fabLane_fpeNow (i : Nat) : Fld := ⟨(Reg.fabLane i), 26, 26⟩
/-- FAB_LANE.sigma, RO. -/
abbrev fabLane_sigma (i : Nat) : Fld := ⟨(Reg.fabLane i), 15, 0⟩
/-- FAB_PEER.failed, RO. -/
abbrev fabPeer_failed (i : Nat) : Fld := ⟨(Reg.fabPeer i), 31, 31⟩
/-- FAB_PEER.tm_claim, RO. -/
abbrev fabPeer_tmClaim (i : Nat) : Fld := ⟨(Reg.fabPeer i), 30, 30⟩
/-- FAB_PEER.lanes_ok, RO. -/
abbrev fabPeer_lanesOk (i : Nat) : Fld := ⟨(Reg.fabPeer i), 29, 24⟩
/-- FAB_PEER.heartbeat, RO. -/
abbrev fabPeer_heartbeat (i : Nat) : Fld := ⟨(Reg.fabPeer i), 15, 8⟩
/-- MAT_CTL.en, RWS. -/
abbrev matCtl_en : Fld := ⟨Reg.matCtl, 31, 31⟩
/-- MAT_CTL.resync, WO. -/
abbrev matCtl_resync : Fld := ⟨Reg.matCtl, 30, 30⟩
/-- MAT_CTL.release, WO. -/
abbrev matCtl_release : Fld := ⟨Reg.matCtl, 29, 29⟩
/-- MAT_STAT.state, RO. -/
abbrev matStat_state : Fld := ⟨Reg.matStat, 31, 29⟩
/-- MAT_STAT.side, RO. -/
abbrev matStat_side : Fld := ⟨Reg.matStat, 28, 28⟩
/-- MAT_STAT.mate_ok, RO. -/
abbrev matStat_mateOk : Fld := ⟨Reg.matStat, 27, 27⟩
/-- MAT_STAT.hb_lane, RO. -/
abbrev matStat_hbLane : Fld := ⟨Reg.matStat, 26, 26⟩
/-- MAT_STAT.hb_pin, RO. -/
abbrev matStat_hbPin : Fld := ⟨Reg.matStat, 25, 25⟩
/-- MAT_STAT.mirror_broken, RO. -/
abbrev matStat_mirrorBroken : Fld := ⟨Reg.matStat, 24, 24⟩
/-- MAT_STAT.image_bad, RO. -/
abbrev matStat_imageBad : Fld := ⟨Reg.matStat, 23, 23⟩
/-- MAT_STAT.side_conflict, RO. -/
abbrev matStat_sideConflict : Fld := ⟨Reg.matStat, 22, 22⟩
/-- MAT_STAT.mirror_lane, RO. -/
abbrev matStat_mirrorLane : Fld := ⟨Reg.matStat, 21, 16⟩
/-- MAT_EPOCH.epoch, RO. -/
abbrev matEpoch_epoch : Fld := ⟨Reg.matEpoch, 31, 0⟩
/-- MAT_COMMIT.epoch, RO. -/
abbrev matCommit_epoch : Fld := ⟨Reg.matCommit, 31, 0⟩
/-- MAT_MIR.sent_seq, RO. -/
abbrev matMir_sentSeq : Fld := ⟨Reg.matMir, 31, 16⟩
/-- MAT_MIR.applied_seq, RO. -/
abbrev matMir_appliedSeq : Fld := ⟨Reg.matMir, 15, 0⟩
/-- MAT_RESYNC.running, RO. -/
abbrev matResync_running : Fld := ⟨Reg.matResync, 31, 31⟩
/-- MAT_RESYNC.done_kib, RO. -/
abbrev matResync_doneKib : Fld := ⟨Reg.matResync, 14, 0⟩
/-- PMN_CFG.day_ofs, RWS. -/
abbrev pmnCfg_dayOfs : Fld := ⟨Reg.pmnCfg, 6, 0⟩
/-- PMN_TAI.sec, RWS. -/
abbrev pmnTai_sec : Fld := ⟨Reg.pmnTai, 31, 0⟩
/-- PMN_STAT.tai_valid, RO. -/
abbrev pmnStat_taiValid : Fld := ⟨Reg.pmnStat, 31, 31⟩
/-- PMN_STAT.committed, RO. -/
abbrev pmnStat_committed : Fld := ⟨Reg.pmnStat, 30, 0⟩
/-- PMN_BIN_SEL.bin, RW. -/
abbrev pmnBinSel_bin : Fld := ⟨Reg.pmnBinSel, 19, 18⟩
/-- PMN_BIN_SEL.path, RW. -/
abbrev pmnBinSel_path : Fld := ⟨Reg.pmnBinSel, 17, 0⟩
/-- PMN_BIN_CTL.clear, WO. -/
abbrev pmnBinCtl_clear : Fld := ⟨Reg.pmnBinCtl, 0, 0⟩
/-- PMN_TCA.es_thr, RW. -/
abbrev pmnTca_esThr (i : Nat) : Fld := ⟨(Reg.pmnTca i), 31, 16⟩
/-- PMN_TCA.ses_thr, RW. -/
abbrev pmnTca_sesThr (i : Nat) : Fld := ⟨(Reg.pmnTca i), 15, 0⟩
/-- PFC_WIN.frames, RW. -/
abbrev pfcWin_frames : Fld := ⟨Reg.pfcWin, 15, 0⟩
/-- PFC_SNAP.snap, WO. -/
abbrev pfcSnap_snap : Fld := ⟨Reg.pfcSnap, 31, 31⟩
/-- PFC_SNAP.view, RW. -/
abbrev pfcSnap_view : Fld := ⟨Reg.pfcSnap, 30, 30⟩
/-- PFC_SNAP.pending, RO. -/
abbrev pfcSnap_pending : Fld := ⟨Reg.pfcSnap, 29, 29⟩
/-- PFC_SNAP.seq, RO. -/
abbrev pfcSnap_seq : Fld := ⟨Reg.pfcSnap, 15, 0⟩
/-- PFC_DUMP_CTL.en, RW. -/
abbrev pfcDumpCtl_en : Fld := ⟨Reg.pfcDumpCtl, 31, 31⟩
/-- PFC_DUMP_CTL.evt, RW. -/
abbrev pfcDumpCtl_evt : Fld := ⟨Reg.pfcDumpCtl, 30, 30⟩
/-- PFC_DUMP_CTL.nbuf, RW. -/
abbrev pfcDumpCtl_nbuf : Fld := ⟨Reg.pfcDumpCtl, 19, 16⟩
/-- PFC_DUMP_CTL.every, RW. -/
abbrev pfcDumpCtl_every : Fld := ⟨Reg.pfcDumpCtl, 15, 0⟩
/-- PFC_DUMP_ADDR_LO.addr, RW. -/
abbrev pfcDumpAddrLo_addr : Fld := ⟨Reg.pfcDumpAddrLo, 31, 12⟩
/-- PFC_DUMP_ADDR_HI.addr, RW. -/
abbrev pfcDumpAddrHi_addr : Fld := ⟨Reg.pfcDumpAddrHi, 31, 0⟩
/-- PFC_DUMP_STAT.busy, RO. -/
abbrev pfcDumpStat_busy : Fld := ⟨Reg.pfcDumpStat, 31, 31⟩
/-- PFC_DUMP_STAT.buf, RO. -/
abbrev pfcDumpStat_buf : Fld := ⟨Reg.pfcDumpStat, 19, 16⟩
/-- PFC_DUMP_STAT.seq, RO. -/
abbrev pfcDumpStat_seq : Fld := ⟨Reg.pfcDumpStat, 15, 0⟩
/-- CNT_LO.lo, RW. -/
abbrev cntLo_lo (i : Nat) : Fld := ⟨(Reg.cntLo i), 31, 0⟩
/-- CNT_HI.ovf, W1C. -/
abbrev cntHi_ovf (i : Nat) : Fld := ⟨(Reg.cntHi i), 31, 31⟩
/-- CNT_HI.hi, RW. -/
abbrev cntHi_hi (i : Nat) : Fld := ⟨(Reg.cntHi i), 15, 0⟩
/-- CNT_WIN.win, RO. -/
abbrev cntWin_win (i : Nat) : Fld := ⟨(Reg.cntWin i), 31, 0⟩
/-- HST_CFG.en, RWS. -/
abbrev hstCfg_en : Fld := ⟨Reg.hstCfg, 31, 31⟩
/-- HST_CFG.pwr_cut, RWS. -/
abbrev hstCfg_pwrCut : Fld := ⟨Reg.hstCfg, 30, 30⟩
/-- HST_CFG.auto_fmt, RWS. -/
abbrev hstCfg_autoFmt : Fld := ⟨Reg.hstCfg, 29, 29⟩
/-- HST_CFG.erase_en, RWS. -/
abbrev hstCfg_eraseEn : Fld := ⟨Reg.hstCfg, 28, 28⟩
/-- HST_CFG.snap_rec, RWS. -/
abbrev hstCfg_snapRec : Fld := ⟨Reg.hstCfg, 27, 27⟩
/-- HST_CFG.evt_sev, RWS. -/
abbrev hstCfg_evtSev : Fld := ⟨Reg.hstCfg, 26, 25⟩
/-- HST_CFG.retry_s, RWS. -/
abbrev hstCfg_retryS : Fld := ⟨Reg.hstCfg, 16, 0⟩
/-- HST_CTL.erase, WO. -/
abbrev hstCtl_erase : Fld := ⟨Reg.hstCtl, 2, 2⟩
/-- HST_CTL.retry, WO. -/
abbrev hstCtl_retry : Fld := ⟨Reg.hstCtl, 1, 1⟩
/-- HST_CTL.flush, WO. -/
abbrev hstCtl_flush : Fld := ⟨Reg.hstCtl, 0, 0⟩
/-- HST_STAT.state, RO. -/
abbrev hstStat_state : Fld := ⟨Reg.hstStat, 31, 29⟩
/-- HST_STAT.anchor_ok, RO. -/
abbrev hstStat_anchorOk : Fld := ⟨Reg.hstStat, 28, 28⟩
/-- HST_STAT.erase_kind, RO. -/
abbrev hstStat_eraseKind : Fld := ⟨Reg.hstStat, 27, 27⟩
/-- HST_STAT.link_rate, RO. -/
abbrev hstStat_linkRate : Fld := ⟨Reg.hstStat, 26, 24⟩
/-- HST_STAT.fail_why, RO. -/
abbrev hstStat_failWhy : Fld := ⟨Reg.hstStat, 23, 16⟩
/-- HST_FLUSH.level, RWS. -/
abbrev hstFlush_level : Fld := ⟨Reg.hstFlush, 31, 28⟩
/-- HST_FLUSH.max_s, RWS. -/
abbrev hstFlush_maxS : Fld := ⟨Reg.hstFlush, 16, 0⟩
/-- HST_PWR.on_ms, RWS. -/
abbrev hstPwr_onMs : Fld := ⟨Reg.hstPwr, 27, 16⟩
/-- HST_PWR.ready_ms, RWS. -/
abbrev hstPwr_readyMs : Fld := ⟨Reg.hstPwr, 15, 0⟩
/-- HST_STAGED.count, RO. -/
abbrev hstStaged_count : Fld := ⟨Reg.hstStaged, 16, 0⟩
/-- HST_SMART.crit_warn, RO. -/
abbrev hstSmart_critWarn : Fld := ⟨Reg.hstSmart, 31, 24⟩
/-- HST_SMART.used_pct, RO. -/
abbrev hstSmart_usedPct : Fld := ⟨Reg.hstSmart, 23, 16⟩
/-- NRG_CFG.en, RWS. -/
abbrev nrgCfg_en : Fld := ⟨Reg.nrgCfg, 31, 31⟩
/-- NRG_CFG.lane_deep, RWS. -/
abbrev nrgCfg_laneDeep : Fld := ⟨Reg.nrgCfg, 30, 30⟩
/-- NRG_CFG.max_level, RWS. -/
abbrev nrgCfg_maxLevel : Fld := ⟨Reg.nrgCfg, 29, 27⟩
/-- NRG_CFG.margin, RWS. -/
abbrev nrgCfg_margin : Fld := ⟨Reg.nrgCfg, 26, 16⟩
/-- NRG_CFG.restore_s, RWS. -/
abbrev nrgCfg_restoreS : Fld := ⟨Reg.nrgCfg, 15, 0⟩
/-- NRG_BUDGET.budget, RWS. -/
abbrev nrgBudget_budget : Fld := ⟨Reg.nrgBudget, 15, 0⟩
/-- NRG_FLOOR.finish_flush, RWS. -/
abbrev nrgFloor_finishFlush : Fld := ⟨Reg.nrgFloor, 31, 31⟩
/-- NRG_FLOOR.level, RWS. -/
abbrev nrgFloor_level : Fld := ⟨Reg.nrgFloor, 30, 28⟩
/-- NRG_FLOOR.hold_s, RWS. -/
abbrev nrgFloor_holdS : Fld := ⟨Reg.nrgFloor, 15, 0⟩
/-- NRG_CORR.corr, RWS. -/
abbrev nrgCorr_corr : Fld := ⟨Reg.nrgCorr, 12, 0⟩
/-- NRG_STAT.level, RO. -/
abbrev nrgStat_level : Fld := ⟨Reg.nrgStat, 31, 29⟩
/-- NRG_STAT.budget_lvl, RO. -/
abbrev nrgStat_budgetLvl : Fld := ⟨Reg.nrgStat, 28, 26⟩
/-- NRG_STAT.therm_lvl, RO. -/
abbrev nrgStat_thermLvl : Fld := ⟨Reg.nrgStat, 25, 23⟩
/-- NRG_STAT.pfail, RO. -/
abbrev nrgStat_pfail : Fld := ⟨Reg.nrgStat, 22, 22⟩
/-- NRG_STAT.floor, RO. -/
abbrev nrgStat_floor : Fld := ⟨Reg.nrgStat, 21, 21⟩
/-- NRG_STAT.pending_enable, RO. -/
abbrev nrgStat_pendingEnable : Fld := ⟨Reg.nrgStat, 20, 20⟩
/-- NRG_STAT.over, RO. -/
abbrev nrgStat_over : Fld := ⟨Reg.nrgStat, 19, 19⟩
/-- NRG_STAT.sensors, RO. -/
abbrev nrgStat_sensors : Fld := ⟨Reg.nrgStat, 11, 8⟩
/-- NRG_POWER.mw, RO. -/
abbrev nrgPower_mw : Fld := ⟨Reg.nrgPower, 15, 0⟩
/-- NRG_ENERGY_LO.lo, RO. -/
abbrev nrgEnergyLo_lo : Fld := ⟨Reg.nrgEnergyLo, 31, 0⟩
/-- NRG_ENERGY_HI.hi, RO. -/
abbrev nrgEnergyHi_hi : Fld := ⟨Reg.nrgEnergyHi, 15, 0⟩
/-- NRG_LANE_MASK0.lanes, RWS. -/
abbrev nrgLaneMask0_lanes : Fld := ⟨Reg.nrgLaneMask0, 31, 0⟩
/-- NRG_LANE_MASK1.lanes, RWS. -/
abbrev nrgLaneMask1_lanes : Fld := ⟨Reg.nrgLaneMask1, 15, 0⟩
/-- NRG_THERM.cap, RWS. -/
abbrev nrgTherm_cap : Fld := ⟨Reg.nrgTherm, 31, 24⟩
/-- NRG_THERM.trip, RWS. -/
abbrev nrgTherm_trip : Fld := ⟨Reg.nrgTherm, 23, 16⟩
/-- NRG_THERM.hyst, RWS. -/
abbrev nrgTherm_hyst : Fld := ⟨Reg.nrgTherm, 15, 8⟩
/-- NRG_TJ.tj_max, RO. -/
abbrev nrgTj_tjMax : Fld := ⟨Reg.nrgTj, 31, 16⟩
/-- NRG_TJ.cap_eff, RO. -/
abbrev nrgTj_capEff : Fld := ⟨Reg.nrgTj, 15, 8⟩
/-- NRG_TJ.derate, RO. -/
abbrev nrgTj_derate : Fld := ⟨Reg.nrgTj, 7, 0⟩
/-- NRG_LEDGER.hours, RWS. -/
abbrev nrgLedger_hours : Fld := ⟨Reg.nrgLedger, 31, 0⟩
/-- NRG_SVC_HOURS.hours, RWS. -/
abbrev nrgSvcHours_hours : Fld := ⟨Reg.nrgSvcHours, 31, 0⟩
/-- NRG_LIFE.step_h, RWS. -/
abbrev nrgLife_stepH : Fld := ⟨Reg.nrgLife, 31, 16⟩
/-- NRG_LIFE.derate_max, RWS. -/
abbrev nrgLife_derateMax : Fld := ⟨Reg.nrgLife, 7, 0⟩
/-- NRG_OTP.svc_k, RO. -/
abbrev nrgOtp_svcK : Fld := ⟨Reg.nrgOtp, 25, 16⟩
/-- NRG_OTP.ledger_k, RO. -/
abbrev nrgOtp_ledgerK : Fld := ⟨Reg.nrgOtp, 9, 0⟩
/-- NRG_VCORE.mv, RO. -/
abbrev nrgVcore_mv : Fld := ⟨Reg.nrgVcore, 15, 0⟩
/-- NRG_SENSOR.valid, RO. -/
abbrev nrgSensor_valid (i : Nat) : Fld := ⟨(Reg.nrgSensor i), 31, 31⟩
/-- NRG_SENSOR.excluded, RO. -/
abbrev nrgSensor_excluded (i : Nat) : Fld := ⟨(Reg.nrgSensor i), 30, 30⟩
/-- NRG_SENSOR.temp, RO. -/
abbrev nrgSensor_temp (i : Nat) : Fld := ⟨(Reg.nrgSensor i), 15, 0⟩
/-- NRG_EST.mw, RO. -/
abbrev nrgEst_mw (i : Nat) : Fld := ⟨(Reg.nrgEst i), 15, 0⟩
/-- MEM_RANK.rank, RWS. -/
abbrev memRank_rank : Fld := ⟨Reg.memRank, 20, 0⟩
/-- MEM_ARB.conf, RWS. -/
abbrev memArb_conf : Fld := ⟨Reg.memArb, 1, 0⟩
/-- MEM_STAT.phase, RO. -/
abbrev memStat_phase : Fld := ⟨Reg.memStat, 31, 29⟩
/-- MEM_STAT.bank, RO. -/
abbrev memStat_bank : Fld := ⟨Reg.memStat, 28, 20⟩
/-- MEM_STAT.spares_free, RO. -/
abbrev memStat_sparesFree : Fld := ⟨Reg.memStat, 19, 17⟩
/-- MEM_STAT.fs_exec, RO. -/
abbrev memStat_fsExec : Fld := ⟨Reg.memStat, 16, 15⟩
/-- MEM_SWEEP.en, RWS. -/
abbrev memSweep_en : Fld := ⟨Reg.memSweep, 31, 31⟩
/-- MEM_OFF.off, RO. -/
abbrev memOff_off : Fld := ⟨Reg.memOff, 10, 8⟩
/-- MEM_OFF.req, RW. -/
abbrev memOff_req : Fld := ⟨Reg.memOff, 2, 0⟩
/-- MEM_UE_ADDR.valid, RO. -/
abbrev memUeAddr_valid : Fld := ⟨Reg.memUeAddr, 31, 31⟩
/-- MEM_UE_ADDR.bank, RO. -/
abbrev memUeAddr_bank : Fld := ⟨Reg.memUeAddr, 24, 16⟩
/-- MEM_UE_ADDR.word, RO. -/
abbrev memUeAddr_word : Fld := ⟨Reg.memUeAddr, 14, 0⟩
/-- MEM_CE_ADDR.valid, RO. -/
abbrev memCeAddr_valid : Fld := ⟨Reg.memCeAddr, 31, 31⟩
/-- MEM_CE_ADDR.bank, RO. -/
abbrev memCeAddr_bank : Fld := ⟨Reg.memCeAddr, 24, 16⟩
/-- MEM_CE_ADDR.word, RO. -/
abbrev memCeAddr_word : Fld := ⟨Reg.memCeAddr, 14, 0⟩
/-- MEM_RETIRE.valid, RO. -/
abbrev memRetire_valid (i : Nat) : Fld := ⟨(Reg.memRetire i), 31, 31⟩
/-- MEM_RETIRE.spare, RO. -/
abbrev memRetire_spare (i : Nat) : Fld := ⟨(Reg.memRetire i), 18, 16⟩
/-- MEM_RETIRE.bank, RO. -/
abbrev memRetire_bank (i : Nat) : Fld := ⟨(Reg.memRetire i), 8, 0⟩
/-- MEM_BSTATE.state, RO. -/
abbrev memBstate_state (i : Nat) : Fld := ⟨(Reg.memBstate i), 31, 0⟩
/-- XBR_LOCKS.held, RO. -/
abbrev xbrLocks_held : Fld := ⟨Reg.xbrLocks, 29, 0⟩
/-- XBR_ERR.valid, RO. -/
abbrev xbrErr_valid : Fld := ⟨Reg.xbrErr, 31, 31⟩
/-- XBR_ERR.master, RO. -/
abbrev xbrErr_master : Fld := ⟨Reg.xbrErr, 30, 28⟩
/-- XBR_ERR.target, RO. -/
abbrev xbrErr_target : Fld := ⟨Reg.xbrErr, 27, 25⟩
/-- XBR_ERR.cause, RO. -/
abbrev xbrErr_cause : Fld := ⟨Reg.xbrErr, 24, 22⟩
/-- HIF_STAT.link_lost, W1C. -/
abbrev hifStat_linkLost : Fld := ⟨Reg.hifStat, 31, 31⟩
/-- HIF_STAT.rate, RO. -/
abbrev hifStat_rate : Fld := ⟨Reg.hifStat, 30, 28⟩
/-- HIF_STAT.width, RO. -/
abbrev hifStat_width : Fld := ⟨Reg.hifStat, 27, 25⟩
/-- HIF_STAT.bme, RO. -/
abbrev hifStat_bme : Fld := ⟨Reg.hifStat, 24, 24⟩
/-- HIF_CRING_CFG.en, RW. -/
abbrev hifCringCfg_en (i : Nat) : Fld := ⟨(Reg.hifCringCfg i), 31, 31⟩
/-- HIF_CRING_CFG.fault, RO. -/
abbrev hifCringCfg_fault (i : Nat) : Fld := ⟨(Reg.hifCringCfg i), 30, 30⟩
/-- HIF_CRING_CFG.size, RW. -/
abbrev hifCringCfg_size (i : Nat) : Fld := ⟨(Reg.hifCringCfg i), 3, 0⟩
/-- HIF_CRING_TAIL.index, RW. -/
abbrev hifCringTail_index (i : Nat) : Fld := ⟨(Reg.hifCringTail i), 15, 0⟩
/-- HIF_CRING_HEAD.index, RO. -/
abbrev hifCringHead_index (i : Nat) : Fld := ⟨(Reg.hifCringHead i), 15, 0⟩
/-- HIF_ERING_CFG.en, RW. -/
abbrev hifEringCfg_en (i : Nat) : Fld := ⟨(Reg.hifEringCfg i), 31, 31⟩
/-- HIF_ERING_CFG.pin_en, RW. -/
abbrev hifEringCfg_pinEn (i : Nat) : Fld := ⟨(Reg.hifEringCfg i), 30, 30⟩
/-- HIF_ERING_CFG.vec, RW. -/
abbrev hifEringCfg_vec (i : Nat) : Fld := ⟨(Reg.hifEringCfg i), 29, 24⟩
/-- HIF_ERING_CFG.coal_cnt, RW. -/
abbrev hifEringCfg_coalCnt (i : Nat) : Fld := ⟨(Reg.hifEringCfg i), 23, 16⟩
/-- HIF_ERING_CFG.coal_us, RW. -/
abbrev hifEringCfg_coalUs (i : Nat) : Fld := ⟨(Reg.hifEringCfg i), 15, 6⟩
/-- HIF_ERING_CFG.size, RW. -/
abbrev hifEringCfg_size (i : Nat) : Fld := ⟨(Reg.hifEringCfg i), 3, 0⟩
/-- HIF_ERING_HEAD.index, RW. -/
abbrev hifEringHead_index (i : Nat) : Fld := ⟨(Reg.hifEringHead i), 15, 0⟩
/-- HIF_ERING_TAIL.index, RO. -/
abbrev hifEringTail_index (i : Nat) : Fld := ⟨(Reg.hifEringTail i), 15, 0⟩
/-- FLT_CFG.inj_en, RWL. -/
abbrev fltCfg_injEn : Fld := ⟨Reg.fltCfg, 31, 31⟩
/-- FLT_STAT.otp_bad, RO. -/
abbrev fltStat_otpBad : Fld := ⟨Reg.fltStat, 31, 31⟩
/-- FLT_STAT.droop_now, RO. -/
abbrev fltStat_droopNow : Fld := ⟨Reg.fltStat, 30, 30⟩
/-- FLT_STAT.rails_low, RO. -/
abbrev fltStat_railsLow : Fld := ⟨Reg.fltStat, 29, 24⟩
/-- FLT_STAT.last_valid, RO. -/
abbrev fltStat_lastValid : Fld := ⟨Reg.fltStat, 23, 23⟩
/-- FLT_LAST.code, RO. -/
abbrev fltLast_code : Fld := ⟨Reg.fltLast, 31, 16⟩
/-- FLT_LAST.instance, RO. -/
abbrev fltLast_instance : Fld := ⟨Reg.fltLast, 15, 0⟩
/-- FLT_INJECT.kind, WO. -/
abbrev fltInject_kind : Fld := ⟨Reg.fltInject, 31, 28⟩
/-- FLT_INJECT.bank, WO. -/
abbrev fltInject_bank : Fld := ⟨Reg.fltInject, 24, 16⟩
/-- FLT_INJECT.target, WO. -/
abbrev fltInject_target : Fld := ⟨Reg.fltInject, 14, 0⟩
end F

/-! ### The map, block by block (R411) -/

/-- Registers of the GLB block, 0x0-0x3fff. -/
def regsGlb : List RegRow :=
  [ { base := 0x0, reset := 0x4896b000 },
    { base := 0x4 },
    { base := 0x8 },
    { base := 0xc, rw := 0xffffffff } ]

/-- Registers of the EVT block, 0x4000-0x7fff. -/
def regsEvt : List RegRow :=
  [ { base := 0x4000, reset := 0xf0, rw := 0xff },
    { base := 0x4004 },
    { base := 0x4008, rw := 0xffffffff },
    { base := 0x4100, n1 := 21, s1 := 0x4, rw := 0xffffffff } ]

/-- Registers of the RST block, 0x8000-0xffff. -/
def regsRst : List RegRow :=
  [ { base := 0x8000, wo := 0xff800000 },
    { base := 0x8004, rws := 0x80000000 },
    { base := 0x8008 },
    { base := 0x800c, rw := 0x80000000 },
    { base := 0x8010, rw := 0xffffffff } ]

/-- Registers of the TMG block, 0x10000-0x1ffff. -/
def regsTmg : List RegRow :=
  [ { base := 0x10000, reset := 0x55a12c00, rw := 0xffffff00 },
    { base := 0x10004, rw := 0x8000000f },
    { base := 0x10008, reset := 0x1e2c0000 },
    { base := 0x1000c, w1c := 0x3ff },
    { base := 0x10010, rw := 0x3ff },
    { base := 0x10014, reset := 0xb00002ee, rw := 0xf000ffff },
    { base := 0x10018, wo := 0xffffffff },
    { base := 0x1001c },
    { base := 0x10020, reset := 0xb9050c8, rw := 0xffffffff },
    { base := 0x10024, reset := 0x39801cc, rw := 0xffffffff },
    { base := 0x10028, rw := 0x1ffff },
    { base := 0x1002c },
    { base := 0x10030, reset := 0xd6b, rw := 0x8000ffff },
    { base := 0x10034, reset := 0x80007fff, rws := 0xffffffff },
    { base := 0x10038, wo := 0x1 },
    { base := 0x1003c, rw := 0xffffffff },
    { base := 0x10040, n1 := 4, s1 := 0x4, rws := 0xffffffff },
    { base := 0x10050, rws := 0xffffffff },
    { base := 0x10054, rws := 0xffffffff },
    { base := 0x10058, reset := 0x64, rws := 0xffff },
    { base := 0x1005c, rws := 0xffffffff },
    { base := 0x10060 },
    { base := 0x10064 },
    { base := 0x10068 },
    { base := 0x1006c, reset := 0x7d003e8, rw := 0xffffffff },
    { base := 0x10070, n1 := 4, s1 := 0x4, reset := 0x780000, rw := 0xfff80000 },
    { base := 0x10080, rw := 0xc0000000 },
    { base := 0x10100, n1 := 12, s1 := 0x10, reset := 0xfc1e0000, rw := 0xfffe0000 },
    { base := 0x10104, n1 := 12, s1 := 0x10 },
    { base := 0x10108, n1 := 12, s1 := 0x10 },
    { base := 0x1010c, n1 := 12, s1 := 0x10 } ]

/-- Registers of the SDS block, 0x20000-0x3ffff. -/
def regsSds : List RegRow :=
  [ { base := 0x20000, n1 := 48, s1 := 0x400, reset := 0x100000, rws := 0xfffe0000 },
    { base := 0x20004, n1 := 48, s1 := 0x400, wo := 0x10000000, rws := 0xe0000000 },
    { base := 0x20008, n1 := 48, s1 := 0x400, reset := 0xc000000 },
    { base := 0x2000c, n1 := 48, s1 := 0x400, w1c := 0x7f },
    { base := 0x20010, n1 := 48, s1 := 0x400, rw := 0x7f },
    { base := 0x20014, n1 := 48, s1 := 0x400 },
    { base := 0x20018, n1 := 48, s1 := 0x400 },
    { base := 0x2001c, n1 := 48, s1 := 0x400 },
    { base := 0x20040, n1 := 48, s1 := 0x400, rw := 0xf8000000, w1c := 0x1000000, wo := 0x4000000 },
    { base := 0x20044, n1 := 48, s1 := 0x400, rw := 0xffffffff },
    { base := 0x20048, n1 := 48, s1 := 0x400, rw := 0xffff },
    { base := 0x2004c, n1 := 48, s1 := 0x400, rw := 0xffffffff },
    { base := 0x20020, n1 := 48, s1 := 0x400, rw := 0xffffffff },
    { base := 0x20024, n1 := 48, s1 := 0x400, rw := 0xffffffff },
    { base := 0x20028, n1 := 48, s1 := 0x400, rw := 0xffffffff },
    { base := 0x2002c, n1 := 48, s1 := 0x400, rw := 0xffffffff },
    { base := 0x20030, n1 := 48, s1 := 0x400, rw := 0xffffffff },
    { base := 0x20034, n1 := 48, s1 := 0x400, rw := 0xffffffff },
    { base := 0x2c000, n1 := 16, s1 := 0x8, reset := 0x4300000, rws := 0xfffc0000 },
    { base := 0x2c004, n1 := 16, s1 := 0x8, reset := 0x60000000, rws := 0xfe000000 } ]

/-- Registers of the LTM block, 0x40000-0x7ffff. -/
def regsLtm : List RegRow :=
  [ { base := 0x40000, n1 := 48, s1 := 0x1000, reset := 0xb20000, rw := 0xffffc000 },
    { base := 0x40004, n1 := 48, s1 := 0x1000 },
    { base := 0x40008, n1 := 48, s1 := 0x1000, w1c := 0x3ff },
    { base := 0x4000c, n1 := 48, s1 := 0x1000, rw := 0x3ff },
    { base := 0x40010, n1 := 48, s1 := 0x1000, reset := 0xf000 },
    { base := 0x40014, n1 := 48, s1 := 0x1000, rw := 0xffff0000 },
    { base := 0x40020, n1 := 48, s1 := 0x1000 },
    { base := 0x40024, n1 := 48, s1 := 0x1000 },
    { base := 0x40028, n1 := 48, s1 := 0x1000 },
    { base := 0x4002c, n1 := 48, s1 := 0x1000 },
    { base := 0x40100, n1 := 48, s1 := 0x1000, n2 := 64, s2 := 0x4, reset := 0x2800008, rw := 0xfffffffc },
    { base := 0x40200, n1 := 48, s1 := 0x1000, n2 := 64, s2 := 0x4, reset := 0x80000000 },
    { base := 0x40300, n1 := 48, s1 := 0x1000, n2 := 64, s2 := 0x4 },
    { base := 0x40400, n1 := 48, s1 := 0x1000, n2 := 64, s2 := 0x4 },
    { base := 0x40500, n1 := 48, s1 := 0x1000, n2 := 64, s2 := 0x4 } ]

/-- Registers of the TRB block, 0x80000-0x9ffff. -/
def regsTrb : List RegRow :=
  [ { base := 0x80000 },
    { base := 0x80100, n1 := 256, s1 := 0x4 },
    { base := 0x80500, n1 := 256, s1 := 0x4, w1c := 0xffffffff } ]

/-- Registers of the COL block, 0xa0000-0xaffff. -/
def regsCol : List RegRow :=
  [ { base := 0xa0000, rw := 0x1 },
    { base := 0xa0004, reset := 0x2 },
    { base := 0xa0040, reset := 0xffff },
    { base := 0xa0044 },
    { base := 0xa0048, reset := 0xd5d5, rw := 0xffff },
    { base := 0xa004c, n1 := 13, s1 := 0x4, rw := 0xffff },
    { base := 0xa1000, n1 := 56, s1 := 0x40, rw := 0x8007ffff },
    { base := 0xa1004, n1 := 56, s1 := 0x40, rw := 0x8007ffff },
    { base := 0xa1008, n1 := 56, s1 := 0x40 },
    { base := 0xa100c, n1 := 56, s1 := 0x40 },
    { base := 0xa1010, n1 := 56, s1 := 0x40 },
    { base := 0xa1014, n1 := 56, s1 := 0x40 },
    { base := 0xa1018, n1 := 56, s1 := 0x40 },
    { base := 0xa101c, n1 := 56, s1 := 0x40 },
    { base := 0xa1020, n1 := 56, s1 := 0x40 },
    { base := 0xa1024, n1 := 56, s1 := 0x40, rw := 0xffffffff },
    { base := 0xa1028, n1 := 56, s1 := 0x40, rw := 0xffffffff },
    { base := 0xa102c, n1 := 56, s1 := 0x40, rw := 0xffffffff },
    { base := 0xa1030, n1 := 56, s1 := 0x40, rw := 0xffffffff },
    { base := 0xa1034, n1 := 56, s1 := 0x40, rw := 0xffffffff },
    { base := 0xa1038, n1 := 56, s1 := 0x40 } ]

/-- Registers of the OCT block, 0xb0000-0xbffff. -/
def regsOct : List RegRow :=
  [ { base := 0xb0000, rw := 0x1 },
    { base := 0xb0004, reset := 0x2 },
    { base := 0xb0040, reset := 0xffff },
    { base := 0xb0044 },
    { base := 0xb0048, reset := 0xd5d5, rw := 0xffff },
    { base := 0xb004c, n1 := 13, s1 := 0x4, rw := 0xffff },
    { base := 0xb1000, n1 := 16, s1 := 0x40, rw := 0x8007ffff },
    { base := 0xb1004, n1 := 16, s1 := 0x40, rw := 0x8007ffff },
    { base := 0xb1008, n1 := 16, s1 := 0x40 },
    { base := 0xb100c, n1 := 16, s1 := 0x40 },
    { base := 0xb1010, n1 := 16, s1 := 0x40 },
    { base := 0xb1014, n1 := 16, s1 := 0x40 },
    { base := 0xb1018, n1 := 16, s1 := 0x40 },
    { base := 0xb101c, n1 := 16, s1 := 0x40 },
    { base := 0xb1020, n1 := 16, s1 := 0x40 },
    { base := 0xb1024, n1 := 16, s1 := 0x40, rw := 0xffffffff },
    { base := 0xb1028, n1 := 16, s1 := 0x40, rw := 0xffffffff },
    { base := 0xb102c, n1 := 16, s1 := 0x40, rw := 0xffffffff },
    { base := 0xb1030, n1 := 16, s1 := 0x40, rw := 0xffffffff },
    { base := 0xb1034, n1 := 16, s1 := 0x40, rw := 0xffffffff },
    { base := 0xb1038, n1 := 16, s1 := 0x40 },
    { base := 0xb103c, n1 := 16, s1 := 0x40, rw := 0xffffffff },
    { base := 0xb0080, rw := 0xffffc },
    { base := 0xb0084, rw := 0xffffffff },
    { base := 0xb2000, n1 := 256, s1 := 0x8, rw := 0xfffff },
    { base := 0xb2004, n1 := 256, s1 := 0x8, rw := 0x801fffff },
    { base := 0xb4000, n1 := 1024, s1 := 0x10, w1c := 0x40000000, wo := 0x20000000 },
    { base := 0xb4004, n1 := 1024, s1 := 0x10, rw := 0xffffffff },
    { base := 0xb4008, n1 := 1024, s1 := 0x10, rw := 0xffff },
    { base := 0xb400c, n1 := 1024, s1 := 0x10, rw := 0xffffffff } ]

/-- Registers of the FLP block, 0xc0000-0xcffff. -/
def regsFlp : List RegRow :=
  [ { base := 0xc0000, rw := 0xf },
    { base := 0xc0004, rw := 0xffffffff },
    { base := 0xc0008, wo := 0x3 },
    { base := 0xc000c },
    { base := 0xc0018 },
    { base := 0xc001c },
    { base := 0xc0030, rw := 0xff },
    { base := 0xc0034, reset := 0xfac688, rw := 0xffffff },
    { base := 0xc0038 },
    { base := 0xc0010 },
    { base := 0xc0014 },
    { base := 0xc0020, n1 := 3, s1 := 0x4 },
    { base := 0xc0040, n1 := 8, s1 := 0x4 },
    { base := 0xc0060, rw := 0xffffffff },
    { base := 0xc0064, rw := 0xffffffff },
    { base := 0xc0068, rw := 0xffffffff } ]

/-- Registers of the PRT block, 0xd0000-0xdffff. -/
def regsPrt : List RegRow :=
  [ { base := 0xd0000, reset := 0x12c, rw := 0x3ff },
    { base := 0xd0004, rw := 0xffffffff },
    { base := 0xd0008, rw := 0xffffffff },
    { base := 0xd000c, rw := 0xffffffff },
    { base := 0xd0010, rw := 0xffffffff },
    { base := 0xd1000, n1 := 24, s1 := 0x40, reset := 0x20000, rw := 0xffffffff },
    { base := 0xd1004, n1 := 24, s1 := 0x40, n2 := 2, s2 := 0x4, rw := 0x3fffffff },
    { base := 0xd100c, n1 := 24, s1 := 0x40, rw := 0xffffff },
    { base := 0xd1010, n1 := 24, s1 := 0x40, rw := 0x7f },
    { base := 0xd1014, n1 := 24, s1 := 0x40 },
    { base := 0xd1018, n1 := 24, s1 := 0x40 },
    { base := 0xd101c, n1 := 24, s1 := 0x40, rw := 0xffffffff },
    { base := 0xd1020, n1 := 24, s1 := 0x40, rw := 0xffffffff } ]

/-- Registers of the FAB block, 0xe0000-0xe7fff. -/
def regsFab : List RegRow :=
  [ { base := 0xe0000, rw := 0xfff00000 },
    { base := 0xe0004, reset := 0xfac688, rw := 0xffffff },
    { base := 0xe0008, rw := 0xff },
    { base := 0xe000c, reset := 0x640, rw := 0x3fff },
    { base := 0xe0010 },
    { base := 0xe0014, rw := 0xffffffff },
    { base := 0xe0018, rw := 0xffffffff },
    { base := 0xe001c, rw := 0xffffffff },
    { base := 0xe0100, n1 := 48, s1 := 0x4, rw := 0x70000000, w1c := 0x8000000 },
    { base := 0xe0200, n1 := 8, s1 := 0x4 } ]

/-- Registers of the MAT block, 0xe8000-0xeffff. -/
def regsMat : List RegRow :=
  [ { base := 0xe8000, wo := 0x60000000, rws := 0x80000000 },
    { base := 0xe8004, reset := 0x3f0000 },
    { base := 0xe8008 },
    { base := 0xe800c },
    { base := 0xe8010 },
    { base := 0xe8014 },
    { base := 0xe8018, rw := 0xffffffff },
    { base := 0xe801c, rw := 0xffffffff },
    { base := 0xe8020, rw := 0xffffffff },
    { base := 0xe8024, rw := 0xffffffff },
    { base := 0xe8028, rw := 0xffffffff } ]

/-- Registers of the PMN block, 0xf0000-0xf7fff. -/
def regsPmn : List RegRow :=
  [ { base := 0xf0000, rws := 0x7f },
    { base := 0xf0004, rws := 0xffffffff },
    { base := 0xf0008 },
    { base := 0xf0010, rw := 0xfffff },
    { base := 0xf0014, wo := 0x1 },
    { base := 0xf0020, n1 := 10, s1 := 0x4 },
    { base := 0xf0080, n1 := 8, s1 := 0x4, rw := 0xffffffff },
    { base := 0xf00a0, rw := 0xffffffff },
    { base := 0xf00a4, rw := 0xffffffff } ]

/-- Registers of the PFC block, 0xf8000-0xfffff. -/
def regsPfc : List RegRow :=
  [ { base := 0xf8000, reset := 0x1f3f, rw := 0xffff },
    { base := 0xf8004, rw := 0x40000000, wo := 0x80000000 },
    { base := 0xf8008, reset := 0x1f3f, rw := 0xc00fffff },
    { base := 0xf800c, rw := 0xfffff000 },
    { base := 0xf8010, rw := 0xffffffff },
    { base := 0xf8014 },
    { base := 0xf8018, rw := 0xffffffff },
    { base := 0xf9000, n1 := 195, s1 := 0x10, rw := 0xffffffff },
    { base := 0xf9004, n1 := 195, s1 := 0x10, rw := 0xffff, w1c := 0x80000000 },
    { base := 0xf9008, n1 := 195, s1 := 0x10 } ]

/-- Registers of the HST block, 0x100000-0x107fff. -/
def regsHst : List RegRow :=
  [ { base := 0x100000, reset := 0x4400003c, rws := 0xfe01ffff },
    { base := 0x100004, wo := 0x7 },
    { base := 0x100008 },
    { base := 0x10000c, reset := 0x80000384, rws := 0xf001ffff },
    { base := 0x100010, reset := 0x641388, rws := 0xfffffff },
    { base := 0x100028 },
    { base := 0x10002c },
    { base := 0x100014 },
    { base := 0x100018 },
    { base := 0x10001c },
    { base := 0x100020 },
    { base := 0x100024 },
    { base := 0x100030, rw := 0xffffffff },
    { base := 0x100034, rw := 0xffffffff },
    { base := 0x100038, rw := 0xffffffff },
    { base := 0x10003c, rw := 0xffffffff } ]

/-- Registers of the NRG block, 0x108000-0x10ffff. -/
def regsNrg : List RegRow :=
  [ { base := 0x108000, reset := 0xb1f4003c, rws := 0xffffffff },
    { base := 0x108004, rws := 0xffff },
    { base := 0x108008, reset := 0x6000000a, rws := 0xf000ffff },
    { base := 0x10800c, reset := 0x1000, rws := 0x1fff },
    { base := 0x108010 },
    { base := 0x108014 },
    { base := 0x108018 },
    { base := 0x10801c },
    { base := 0x108020, rws := 0xffffffff },
    { base := 0x108024, rws := 0xffff },
    { base := 0x108030, reset := 0x64690500, rws := 0xffffff00 },
    { base := 0x108034 },
    { base := 0x108060, rws := 0xffffffff },
    { base := 0x108064, rws := 0xffffffff },
    { base := 0x108068, reset := 0x7d00014, rws := 0xffff00ff },
    { base := 0x10806c },
    { base := 0x108070 },
    { base := 0x108040, n1 := 8, s1 := 0x4 },
    { base := 0x108080, n1 := 10, s1 := 0x4 },
    { base := 0x1080c0, rw := 0xffffffff },
    { base := 0x1080c4, rw := 0xffffffff } ]

/-- Registers of the MEM block, 0x110000-0x117fff. -/
def regsMem : List RegRow :=
  [ { base := 0x110000, reset := 0x1ca72e, rws := 0x1fffff },
    { base := 0x110004, reset := 0x1, rws := 0x3 },
    { base := 0x110008, reset := 0x80000 },
    { base := 0x11000c, reset := 0x80000000, rws := 0x80000000 },
    { base := 0x110010, rw := 0x7 },
    { base := 0x110014 },
    { base := 0x110018 },
    { base := 0x110020, rw := 0xffffffff },
    { base := 0x110024, rw := 0xffffffff },
    { base := 0x110028, rw := 0xffffffff },
    { base := 0x11002c, rw := 0xffffffff },
    { base := 0x110030, rw := 0xffffffff },
    { base := 0x110040, n1 := 4, s1 := 0x4 },
    { base := 0x110080, n1 := 25, s1 := 0x4 } ]

/-- Registers of the XBR block, 0x118000-0x11ffff. -/
def regsXbr : List RegRow :=
  [ { base := 0x118000 },
    { base := 0x118004 },
    { base := 0x118010, rw := 0xffffffff },
    { base := 0x118014, rw := 0xffffffff },
    { base := 0x118018, rw := 0xffffffff } ]

/-- Registers of the HIF block, 0x120000-0x127fff. -/
def regsHif : List RegRow :=
  [ { base := 0x120000, w1c := 0x80000000 },
    { base := 0x120010, rw := 0xffffffff },
    { base := 0x120014, rw := 0xffffffff },
    { base := 0x120100, n1 := 4, s1 := 0x20, rw := 0xffffffff },
    { base := 0x120104, n1 := 4, s1 := 0x20, rw := 0xffffffff },
    { base := 0x120108, n1 := 4, s1 := 0x20, reset := 0x6, rw := 0x8000000f },
    { base := 0x12010c, n1 := 4, s1 := 0x20, rw := 0xffff },
    { base := 0x120110, n1 := 4, s1 := 0x20 },
    { base := 0x120200, n1 := 2, s1 := 0x20, rw := 0xffffffff },
    { base := 0x120204, n1 := 2, s1 := 0x20, rw := 0xffffffff },
    { base := 0x120208, n1 := 2, s1 := 0x20, reset := 0x6, rw := 0xffffffcf },
    { base := 0x12020c, n1 := 2, s1 := 0x20, rw := 0xffff },
    { base := 0x120210, n1 := 2, s1 := 0x20 },
    { base := 0x121000, n1 := 64, s1 := 0x10, rw := 0xfffffffc },
    { base := 0x121004, n1 := 64, s1 := 0x10, rw := 0xffffffff },
    { base := 0x121008, n1 := 64, s1 := 0x10, rw := 0xffffffff },
    { base := 0x12100c, n1 := 64, s1 := 0x10, reset := 0x1, rw := 0x1 },
    { base := 0x121800, n1 := 2, s1 := 0x4 } ]

/-- Registers of the FLT block, 0x128000-0x12ffff. -/
def regsFlt : List RegRow :=
  [ { base := 0x128000, rwl := 0x80000000 },
    { base := 0x128004 },
    { base := 0x128008 },
    { base := 0x12800c, wo := 0xf1ff7fff },
    { base := 0x128010, rw := 0xffffffff },
    { base := 0x128014, rw := 0xffffffff },
    { base := 0x128018, rw := 0xffffffff },
    { base := 0x12801c, rw := 0xffffffff } ]

/-- The registers of the block that an offset lies in (R411); none beyond 0x12_FFFF (R8). -/
def blockRows (a : Nat) : List RegRow :=
  if a < 0x4000 then regsGlb else
  if a < 0x8000 then regsEvt else
  if a < 0x10000 then regsRst else
  if a < 0x20000 then regsTmg else
  if a < 0x40000 then regsSds else
  if a < 0x80000 then regsLtm else
  if a < 0xa0000 then regsTrb else
  if a < 0xb0000 then regsCol else
  if a < 0xc0000 then regsOct else
  if a < 0xd0000 then regsFlp else
  if a < 0xe0000 then regsPrt else
  if a < 0xe8000 then regsFab else
  if a < 0xf0000 then regsMat else
  if a < 0xf8000 then regsPmn else
  if a < 0x100000 then regsPfc else
  if a < 0x108000 then regsHst else
  if a < 0x110000 then regsNrg else
  if a < 0x118000 then regsMem else
  if a < 0x120000 then regsXbr else
  if a < 0x128000 then regsHif else
  if a < 0x130000 then regsFlt else
  []

/-- The offset `a` is one of the row's registers. -/
def RegRow.covers (r : RegRow) (a : Nat) : Bool :=
  if a < r.base then false
  else
    let d := a - r.base
    if r.n1 = 1 then d % r.s2 = 0 && d / r.s2 < r.n2
    else d / r.s1 < r.n1 && (d % r.s1) % r.s2 = 0 && (d % r.s1) / r.s2 < r.n2

/-- The row of the map for a register offset; none for a reserved offset (R8, R412). -/
def regRow? (a : Nat) : Option RegRow := (blockRows a).find? (·.covers a)

/-- The reset value of the register at an offset (R399); reserved offsets read 0 (R8). -/
def regReset (a : Nat) : W32 :=
  match regRow? a with
  | some r => r.reset
  | none => 0

end Sys2Proof
end

