-- ==== Sys2Proof/Machine/Sparse.lean ====
section
/-! DEFINITION. Reading and writing the sparse arrays of the state. An entry equal to the default is
not listed, so equal arrays are equal data. -/

namespace Sys2Proof

/-- What the array reads as at `k`; the default `d` where nothing is listed. -/
def Sparse.get {α : Type} (d : α) : Sparse α → Nat → α
  | [], _ => d
  | (j, v) :: r, k => if j = k then v else Sparse.get d r k

/-- Lists `v` at `k`, in key order. -/
def Sparse.insert {α : Type} (k : Nat) (v : α) : Sparse α → Sparse α
  | [] => [(k, v)]
  | (j, w) :: r =>
    if k < j then (k, v) :: (j, w) :: r
    else if k = j then (k, v) :: r
    else (j, w) :: Sparse.insert k v r

/-- Unlists `k`. -/
def Sparse.erase {α : Type} (k : Nat) : Sparse α → Sparse α
  | [] => []
  | (j, w) :: r => if j = k then Sparse.erase k r else (j, w) :: Sparse.erase k r

/-- Writes `v` at `k`; writing the default unlists the entry. -/
def Sparse.put {α : Type} [DecidableEq α] (d : α) (m : Sparse α) (k : Nat) (v : α) : Sparse α :=
  if v = d then Sparse.erase k m else Sparse.insert k v m

/-- Writes a run of values from `k` on. -/
def Sparse.putRun {α : Type} [DecidableEq α] (d : α) (m : Sparse α) (k : Nat) (vs : List α) : Sparse α :=
  m.filter (fun p => p.1 < k) ++
    ((List.zip (List.range' k vs.length) vs).filter fun p => p.2 ≠ d) ++
      m.filter fun p => k + vs.length ≤ p.1

/-- Every key lies above `k`, and the keys rise. -/
def Sparse.rising {α : Type} : Option Nat → Sparse α → Bool
  | _, [] => true
  | none, (j, _) :: r => Sparse.rising (some j) r
  | some i, (j, _) :: r => i < j && Sparse.rising (some j) r

/-- The canonical form: keys strictly rising, no entry equal to the default. -/
def Sparse.wf {α : Type} [DecidableEq α] (d : α) (m : Sparse α) : Bool :=
  Sparse.rising none m && m.all (fun p => p.2 ≠ d)

/-- The canonical form of a memory whose unlisted bytes read as the zero of the wipe (R400). -/
def Machine.Memory.wf (m : List Host.Cell) : Bool := Sparse.wf (0 : BitVec 8) m

end Sys2Proof
end

