-- ==== Sys2Proof/Machine/State.lean ====
section
/-! DEFINITION. The state of one TLX4896, as plain data: every register of BAR0, the memory behind
BAR2, and every piece of state behind the registers that the spec gives the device. Registers are
held by their BAR0 offset (Machine/Regs.lean names offsets and fields); an offset that is not listed
holds its reset value. Arrays are sparse (`Sparse`): an entry that is not listed holds the initial
value of its type, which stands beside the type as `init`. -/

namespace Sys2Proof.Machine

/-- The block stops with no fault: the spec gives every condition it detects an effect (an event, a
status bit, CON, a reset), so this type has no constructor and no meaning raises one. -/
inductive Fault
  deriving DecidableEq, Repr

/-- Why a command has no meaning. -/
inductive Refusal where
  /-- Raised by the dispatch alone, for a command whose meaning is not written yet. Safe: the run
  stops where the hardware goes on. -/
  | notModelled (mnemonic : String)
  deriving DecidableEq, Repr

/-- The number that an alignment step gives the frame which it begins: that of the master's frame (R224), a multiple
of 8,000 (R262), or the next one (R262). -/
inductive StepTo where
  | master
  | number (n : BitVec 32)
  | next
  deriving DecidableEq, Repr

/-- The marks of the sync block (R18, R21, R22, R224, R262). -/
structure Clock where
  /-- Number of the current frame (FLP_FRAME reads it). -/
  frame     : BitVec 32
  /-- Row of the current row period, 0-8. -/
  row       : Nat
  /-- Row periods begun since the marks started: the arrival period now running. -/
  period    : Nat
  /-- Frames begun since the marks started. -/
  frames    : Nat
  /-- The first frame mark after boot has been issued. -/
  started   : Bool
  /-- A frame mark has been issued and the row mark of its row 0 is still to come. -/
  frameDue  : Bool
  /-- The work of the current row period has been completed. -/
  ended     : Bool
  /-- The marks come from the backup oscillator (R21). -/
  backup    : Bool
  /-- An alignment step that has been decided: the frame marks up to and with its own, and the number that it sets
  (R224, R262). -/
  step      : Option (Nat × StepTo)
  /-- Row periods of the step frame left, in which every lane carries CON (R224, R262). -/
  stepCon   : Nat
  deriving DecidableEq, Repr

/-- The marks come from the backup oscillator until OSCIN is detected (R395). -/
def Clock.init : Clock := ⟨0, 0, 0, 0, false, false, false, true, none, 0⟩

/-- Resets, pins and life cycle (R388, R389, R395-R410). -/
structure Power where
  /-- Power-on reset held; RESET_N low; PERST_N low (R396). -/
  por       : Bool
  resetN    : Bool
  perstN    : Bool
  /-- The cause that the next boot reports (RST_STAT.cause). -/
  cause     : BitVec 3
  /-- PFAIL_N is low (R321, R422). -/
  pfailLow  : Bool
  /-- Boot has reached the frame mark of R399. -/
  booted    : Bool
  /-- The safe halt of R389. -/
  safeHalt  : Bool
  /-- A soft reset waits for its frame mark; R377 is to be added (an FLR). -/
  softDue   : Bool
  softFlr   : Bool
  /-- The wipe of a soft reset is running (R402). -/
  wiping    : Bool
  /-- Frames begun when the last wipe of a soft reset or of a transition began (R400). -/
  wipeFrom  : Nat
  /-- A life-cycle transition: the target, and its step under R407. -/
  lcTarget  : Option (BitVec 2)
  lcStep    : Nat
  /-- The rest of the period after a droop of VDD_CORE or VDD_SRAM still carries CON (R388). -/
  droopTail : Nat
  /-- RST_BOOT has been raised since boot (R398). -/
  bootSaid  : Bool
  /-- DEBUG_DENIED already raised in this second (R408). -/
  denySaid  : Bool
  deriving DecidableEq, Repr

def Power.init : Power :=
  { por := false, resetN := false, perstN := false, pfailLow := false, cause := 0, booted := true, safeHalt := false,
    softDue := false, softFlr := false, wiping := false, wipeFrom := 0, lcTarget := none, lcStep := 0,
    droopTail := 0, bootSaid := false, denySaid := false }

/-- What an OTP burn writes (R333, R360, R407). -/
inductive Burn where
  | ledger
  | service
  | retire (bank : Nat) (spare : Nat)
  | lifeCycle (target : BitVec 2)
  | eraseDone
  deriving DecidableEq, Repr

/-- OTP content that the device reads or burns (R333, R360, R398, R406, R414). -/
structure Otp where
  gradeW     : Bool
  serial     : BitVec 64
  /-- Life-cycle records burnt, in order: target and erase_done (R406). -/
  records    : List (BitVec 2 × Bool)
  /-- Retirement records: bank and spare; spare 7 retires a spare (R360). -/
  retired    : List (Nat × Nat)
  /-- Burnt bits of the two ledger counts (R333). -/
  ledgerBits : Nat
  svcBits    : Nat
  /-- Burns whose read-back is due, the first being retried (R382). -/
  burns      : List Burn
  retried    : Bool
  deriving DecidableEq, Repr

/-- A part as it leaves the factory: BOUND (R404). -/
def Otp.init : Otp :=
  { gradeW := false, serial := 0, records := [(1, true)], retired := [], ledgerBits := 0,
    svcBits := 0, burns := [], retried := false }

/-- The framer of an Amenamin lane (R52). -/
inductive Framer where
  | hunt | confirm | inFrame | oof
  deriving DecidableEq, Repr

/-- A candidate of the framer's hunt (R51, R52). -/
structure Cand where
  offset : Nat
  /-- Consecutive frames in which it has qualified, the first included. -/
  run    : Nat
  /-- The last accepted frame number and the frames since it was accepted. -/
  last   : BitVec 32
  age    : Nat
  deriving DecidableEq, Repr

/-- Progress of a lane into and out of DEEP (R280). -/
inductive DeepPhase where
  | none | requested | idle | stopped | exiting
  deriving DecidableEq, Repr

/-- State of a lane behind its registers (R48-R54, R60-R63, R269-R283). -/
structure LaneSt where
  /-- Role and rate in force (R270). -/
  role       : BitVec 3
  rate       : BitVec 3
  framer     : Framer
  lof        : Bool
  /-- The candidates of the hunt; the bit offset of IN_FRAME (R52). -/
  cands      : List Cand
  align      : Nat
  /-- IN_FRAME: the last accepted frame number and the frames since, and the runs of failed patterns and
  of discontinuous numbers (R51, R52). -/
  lastNum    : BitVec 32
  numAge     : Nat
  patBad     : Nat
  numBad     : Nat
  /-- Frames since the framer last entered OOF or IN_FRAME (R53, R59). -/
  frameRun   : Nat
  /-- The header fields and the capability block received last (R47). -/
  hdr        : Header
  caps       : CapsBlock
  /-- The framer reached IN_FRAME in LOCK: the stage changes at the next frame mark (R272). -/
  inFrameNow : Bool
  /-- caps_seen and caps_agree sent, and agreement on both ends seen (R272, R274). -/
  capsSeen   : Bool
  capsAgree  : Bool
  bothAgree  : Bool
  /-- caps_seen as sent in this frame (R274). -/
  capsSent   : Bool
  /-- Frame marks since the entry into TRAIN, CAPS or BACKOFF, or since a failed probe in DETECT (R272, R275). -/
  timer      : Option Nat
  /-- The settings of the profile in force (R271): SDS_PROF0 and SDS_PROF1 as at the last frame mark. -/
  eq         : W32 × W32
  /-- Generator of the pattern sent in TRAIN and TEST, s[1] at bit 0 (R276, R283). -/
  txPrbs     : BitVec 31
  /-- Consecutive frozen windows; windows since a run of 20 of them, up to 250; the second of idle_ok and the frame
  marks in it (R277). -/
  lowRun     : Nat
  losClean   : Nat
  idleRun    : Bool
  idleAge    : Nat
  deep       : DeepPhase
  /-- Stage to resume at after DEEP (R280). -/
  resume     : BitVec 4
  /-- Deepened by the planner (R325). -/
  shedDeep   : Bool
  /-- A test request for the next frame mark (R283). -/
  testDue    : Option Bool
  /-- Transmitted bits to invert (R283). -/
  injected   : Nat
  /-- Last header received: heartbeat; header beat run (R229, R225). -/
  heartbeat  : Option (BitVec 8)
  /-- QL received: last value, run length, accepted value (R251). -/
  qlLast     : BitVec 4
  qlRun      : Nat
  qlAcc      : Option (BitVec 4)
  /-- A header has been received since the last frame mark. -/
  headed     : Bool
  /-- Readable K1/K2 pairs kept for confirmation, newest first, and the run without one (R63). -/
  kHist      : List (Octet × Octet)
  kMiss      : Nat
  /-- Rows received for periods to come, with the flags of the lane and its AUs, but not of its paths (R205, R210). -/
  raw        : List (Nat × Row)
  /-- A bad row of R225 has arrived in this frame; in this row period a row, and a bad one. -/
  badRow     : Bool
  rowNow     : Bool
  badNow     : Bool
  /-- A frame-phase error in this frame so far, and in the last one (R223). -/
  fpeRow     : Bool
  fpeLast    : Bool
  /-- Rows of this frame whose offset was accepted: one at all, and one away from the target (R223). -/
  sigSeen    : Bool
  sigAway    : Bool
  /-- S1 and J0 accepted since ACTIVE are in the registers; B2 errors of the last frame (R77). -/
  b2Last     : Nat
  b2Now      : Nat
  /-- The J0 trace of this trace period and the octet of it that comes next (R74, R77). -/
  j0Tx       : List Octet
  j0Pos      : Nat
  /-- Start of the received SDH frame after the system frame mark, in 1/46,080 row, once a row has come (R68). -/
  rxAt       : Option Nat
  /-- The aligner stores of the lane's AUs: octet `o` of offset `i` of received VC frame `f` at key
  (783·f + i)·3N + o (R68; log entry 78). -/
  store      : Sparse (BitVec 8)
  /-- B1 and B2 of the frame being sent, and those of the one before, which are sent (R77). -/
  b1Acc      : Octet
  b1Send     : Octet
  b2Acc      : List Octet
  b2Send     : List Octet
  deriving DecidableEq, Repr

/-- A header and a capability block of zeros: what the fields hold before one is received. -/
def noHeader : Header :=
  { con0 := 0, con1 := false, con2 := 0, frameNumber := 0, deviceId := 0, laneRole := 0, side := false,
    timingMaster := false, fabricId := 0, ql := 0, colBank := false, octBank := false, heartbeat := 0,
    coordId := 0, mateState := 0, epochCommit := false, epoch := 0, mirrorSeq := 0 }
def noCaps : CapsBlock := ⟨0, 0, 0, 0, 0, 0⟩

def LaneSt.init : LaneSt :=
  { role := 0, rate := 0, framer := .hunt, lof := false, cands := [], align := 0, lastNum := 0,
    numAge := 0, patBad := 0, numBad := 0, frameRun := 0, hdr := noHeader, caps := noCaps, inFrameNow := false, capsSeen := false,
    capsAgree := false, bothAgree := false, capsSent := false, timer := none, eq := (0x04300000, 0x60000000)
    txPrbs := BitVec.allOnes 31, lowRun := 0, losClean := 0, idleRun := false, idleAge := 0, deep := .none,
    resume := 1, shedDeep := false, testDue := none, injected := 0, heartbeat := none, qlLast := 0,
    qlRun := 0, qlAcc := none, headed := false, kHist := [], kMiss := 0, raw := [], badRow := false,
    rowNow := false, badNow := false, fpeRow := false, fpeLast := false, sigSeen := false, sigAway := false,
    b2Last := 0, b2Now := 0, j0Tx := [], j0Pos := 0, rxAt := none, store := [], b1Acc := 0, b1Send := 0,
    b2Acc := [], b2Send := [] }

/-- What a pointer interpreter counts, in pointers (R66, R72): the pointer received last, the runs of identical
valid pointers, of invalid ones, of enabled NDFs and of all-ones, and the pointers since the last accepted change,
up to 3. -/
structure PtrSt where
  last  : BitVec 16
  same  : Nat
  wrong : Nat
  ndfs  : Nat
  ones  : Nat
  gap   : Nat
  deriving DecidableEq, Repr

def PtrSt.init : PtrSt := ⟨0, 0, 0, 0, 0, 3⟩

/-- State of an AU behind its registers (R65-R69, R76, R78-R81). -/
structure AuSt where
  /-- LTM_AU_CFG as in force since the last frame mark (R81). -/
  cfg      : W32
  /-- The entry breaks R65 after a later change, and acts as unequipped; a change has made it lawful again, and it
  acts from the next frame. -/
  unlawful : Bool
  mend     : Bool
  /-- The counts of the interpreter; frames of a member without its indication (R66). -/
  ptr      : PtrSt
  noConc   : Nat
  /-- The justification of the pointer received last: one offset fewer or more in its row (R66). -/
  just     : Int
  /-- Canvas rows that still carry CON after a defect (R76). -/
  tail     : Nat
  /-- Nine rows of CON from the next row 3 are due, and those still to come (R68, R69). -/
  from3    : Bool
  nine     : Nat
  /-- A wrong H4 sequence: LOM (R72). -/
  lom      : Bool
  /-- The aligner has an A to keep, and A in 1/46,080 row (R68): 512 to an offset time, 45 to the
  unit of LTM_AU_DLY. -/
  aligned  : Bool
  a        : Nat
  /-- The aligner store, by VC frame modulo 3: the frame being written and the one being read; the reader is to
  find its frame from A; VC frames by which it moves on at the next row 3 (R68, R69; log entry 78). -/
  written  : Nat
  reading  : Nat
  seek     : Bool
  advance  : Nat
  /-- Egress: NDF goes with the next pointer; the last row 3 was sent as AU-AIS (R78, R79). -/
  ndf      : Bool
  aisSent  : Bool
  /-- Pointer last sent: offset, NDF enabled, all-ones (R78, R79). -/
  txPtr    : BitVec 10
  txNdf    : Bool
  txAis    : Bool
  /-- Generated POH (R80): BIP-8 of the VC frame being sent and of the one before, the J1 trace of
  this trace period and the octet of it that comes next (R74). -/
  b3Acc    : Octet
  b3Send   : Octet
  j1Tx     : List Octet
  j1Pos    : Nat
  /-- Ingress: B3 errors of the frame before and of this one, which a peer egress sends as REI (R80). -/
  rei      : Nat
  reiNow   : Nat
  deriving DecidableEq, Repr

def AuSt.init : AuSt :=
  { cfg := 0x02800008, unlawful := false, mend := false, ptr := .init, noConc := 0, just := 0, tail := 0, from3 := false, nine := 0, lom := false,
    aligned := false, a := 0, written := 0, reading := 0, seek := false, advance := 1, ndf := false, aisSent := false, txPtr := 174, txNdf := false,
    txAis := false, b3Acc := 0, b3Send := 0, j1Tx := [], j1Pos := 0, rei := 0, reiNow := 0 }

/-- The hold-off timer of one side of a selector or one lane of an MSP group (R196, R206). -/
structure HoldOff where
  /-- Evaluations left while the timer runs. -/
  left    : Option Nat
  /-- The timer has expired since the side was last free of SF and SD. -/
  expired : Bool
  deriving DecidableEq, Repr

def HoldOff.init : HoldOff := ⟨none, false⟩

/-- A selector behind words 5 and 6 of its entry (R192-R202, R435). -/
structure SelSt where
  /-- CON-fail and the run of evaluations without density, per side (R192). -/
  wFail  : Bool
  wClean : Nat
  pFail  : Bool
  pClean : Nat
  wHold  : HoldOff
  pHold  : HoldOff
  /-- Evaluations of wait-to-restore left (R197). -/
  wtr    : Option Nat
  /-- A command written since the last evaluation (R198). -/
  cmdNew : Bool
  /-- Emission periods or frames of the hold window left; a committed word with CON in the one under way (R202). -/
  window : Nat
  winCon : Bool
  /-- SEL_PATH_BAD raised since the last flip (R131). -/
  badSaid : Bool
  deriving DecidableEq, Repr

def SelSt.init : SelSt :=
  { wFail := false, wClean := 0, pFail := false,
    pClean := 0, wHold := .init, pHold := .init, wtr := none, cmdNew := false, window := 0,
    winCon := false, badSaid := false }

/-- A path behind its table entry (R55-R58, R72, R194, R383). -/
structure PathSt where
  /-- Words 0-2 of a valid entry with a type of R55, as applied at the last frame mark (R57). -/
  applied : Option (W32 × W32 × W32)
  /-- The same while the entry is in range, none while R58 treats it as unused. -/
  entry  : Option (W32 × W32 × W32)
  /-- Words 0-2 changed and are applied at the next frame mark (R57). -/
  dirty  : Bool
  /-- Lower-order pointer state: 0 NORM, 1 AIS, 2 LOP (R72). -/
  tu     : BitVec 2
  /-- Canvas rows that still carry CON after a defect of the path (R76). -/
  tail   : Nat
  /-- A write has cleared an uncorrectable word: the entry is applied again at the next frame mark (R383). -/
  again  : Bool
  sel    : SelSt
  deriving DecidableEq, Repr

def PathSt.init : PathSt := ⟨none, none, false, 2, 0, false, .init⟩

/-- One PM second of one direction (R289). -/
structure Second where
  es  : Bool
  ses : Bool
  bbe : Nat
  deriving DecidableEq, Repr

/-- A PM bin (R292, R293). -/
structure Bin where
  start   : W32
  seconds : Nat
  flags   : BitVec 5
  ne      : List Nat
  fe      : List Nat
  /-- PM_TCA already raised for ne_es, ne_ses, fe_es, fe_ses (R296). -/
  tca     : List Bool
  deriving DecidableEq, Repr

def Bin.init : Bin := ⟨0, 0, 0, [0, 0, 0, 0], [0, 0, 0, 0], [false, false, false, false]⟩

/-- Counter memory of one path (R288-R293). -/
structure PmPath where
  /-- Second now running: defects seen and errored blocks, near and far. -/
  neDef  : Bool
  feDef  : Bool
  neErr  : Nat
  feErr  : Nat
  /-- The path was evaluated throughout the second. -/
  live   : Bool
  /-- Classified seconds not yet committed, oldest first: near, far, evaluated (R291). -/
  queue  : List (Second × Second × Bool)
  /-- Unavailable at the last commit: near end, far end (R290). -/
  ne     : Bool
  fe     : Bool
  cur15  : Bin
  prev15 : Bin
  cur24  : Bin
  prev24 : Bin
  deriving DecidableEq, Repr

def PmPath.init : PmPath :=
  { neDef := false, feDef := false, neErr := 0, feErr := 0, live := false, queue := [],
    ne := false, fe := false, cur15 := .init, prev15 := .init, cur24 := .init,
    prev24 := .init }

/-- The TU of an asynchronously mapped feed (R88): its pointer interpreter and the VC taken from it. -/
structure TuSt where
  /-- 0 NORM, 1 AIS, 2 LOP; the counts; V1 received last; the accepted offset, and the justification of this
  multiframe. -/
  state  : BitVec 2
  ptr    : PtrSt
  v1     : Octet
  offset : Nat
  just   : Int
  /-- BIP-2 of the VC since its V5, once a V5 has come, and the C1 and C2 bits of the multiframe that are 1. -/
  bip    : Option (BitVec 2)
  c1     : Nat
  c2     : Nat
  deriving DecidableEq, Repr

/-- It starts in LOP (log entry 55). -/
def TuSt.init : TuSt := ⟨2, .init, 0, 0, 0, none, 0, 0⟩

/-- What the framer of a termination holds (R89, R169). -/
structure RxSt where
  /-- The bits received last, oldest first, in which alignment is searched for, and the bits that no frame has taken
  yet at the present alignment. -/
  hist     : List Bool
  bits     : List Bool
  /-- A search runs beside the present alignment after a loss of the CRC-4 multiframe. -/
  hunt     : Bool
  /-- The in-frame flag of a byte-synchronous sender. -/
  inFlag   : Bool
  /-- Frames since OOF last changed, and since alignment was reached. -/
  run      : Nat
  aligned  : Nat
  /-- E1: the next frame is a FAS frame; errored FAS frames in a row; first bits of NFAS frames, newest first. -/
  fas      : Bool
  fasBad   : Nat
  nfas     : List Bool
  /-- T1: the last four Ft or FPS bits, newest first, errored or not. -/
  ftBad    : List Bool
  /-- Position of the last frame in the CRC-4 multiframe, in the SF or in the ESF, once it is known. -/
  mfPos    : Option Nat
  /-- CRC of the block received so far, none while its start was missed, of the block before it, and the check bits
  of the block received so far. -/
  crcAcc   : Option (BitVec 6)
  crcPrev  : Option (BitVec 6)
  crcBits  : List Bool
  /-- CRC-4 blocks and errored ones of the 1,000 that run, and frames with mf_loss. -/
  blocks   : Nat
  errored  : Nat
  lossRun  : Nat
  /-- Position in the CAS multiframe, once it is known; frames without it; errored MFAS in a row; TS16 of zeros in a
  row; the last TS16. -/
  casPos   : Option Nat
  casWait  : Nat
  casBad   : Nat
  zeroTs16 : Nat
  ts16     : Octet
  /-- Bits and zeros of the AIS period that runs; periods in a row with fewer than 3 zeros, and with 3 or more. -/
  aisBits  : Nat
  aisZeros : Nat
  aisLow   : Nat
  aisOk    : Nat
  /-- Indications in a row with and without rai, and with and without mrai; bits of the data link interval that runs
  and the last intervals, newest first. -/
  raiOn    : Nat
  raiOff   : Nat
  mraiOn   : Nat
  mraiOff  : Nat
  link     : List Bool
  linkHits : List Bool
  /-- Signalling by channel, plus 16: of the multiframe that runs, of the last and of the one before. -/
  sigPart  : Sparse Nat
  sigNow   : Sparse Nat
  sigPrev  : Sparse Nat
  deriving DecidableEq, Repr

def RxSt.init : RxSt :=
  { hist := [], bits := [], hunt := false, inFlag := false, run := 0, aligned := 0, fas := false, fasBad := 0
    nfas := [], ftBad := [], mfPos := none, crcAcc := none, crcPrev := none, crcBits := [], blocks := 0, errored := 0
    lossRun := 0, casPos := none, casWait := 0, casBad := 0, zeroTs16 := 0, ts16 := 0, aisBits := 0, aisZeros := 0
    aisLow := 0, aisOk := 0, raiOn := 0, raiOff := 0, mraiOn := 0, mraiOff := 0, link := [], linkHits := []
    sigPart := [], sigNow := [], sigPrev := [] }

/-- A termination behind its entries (R84-R97, R169, R170). -/
structure TermSt where
  /-- The configuration in force (words 0-5), none while disabled; applied at frame marks (R96). -/
  cfg      : List W32
  dirty    : Bool
  /-- Changes of status flags since the write that is to be applied (R96). -/
  since    : List (Nat × Bool)
  tu       : TuSt
  rx       : RxSt
  /-- The frame, as a count of frames begun, in which a feed frame was last received. -/
  fedAt    : Nat
  /-- Slip buffer centred since enable or OOF (R90). -/
  centred  : Bool
  /-- Fill of the slip buffer in bits of the signal: a frame more than R91 measures between the feed and the read of
  a frame. Its frames, oldest first, with their multiframe positions; the position of the frame delivered last (R91,
  R92). -/
  fill     : Nat
  frames   : List (Nat × List Octet)
  outPos   : Nat
  /-- Multiframe position of the next egress frame (R157). -/
  txPos    : Nat
  /-- Accepted signalling by channel, plus 16; 0 while nothing has been accepted (R169); and as CASX reads it in this
  execution frame (R170). -/
  cas      : Sparse Nat
  casNow   : Sparse Nat
  /-- Cells built for the emit positions of this execution frame and of the one before, and whether every emit word
  of this frame carries CON (R93, R95). -/
  emit     : List Cell
  emitPrev : List Cell
  emitCon  : Bool
  /-- CRC blocks and V5 errors of the ingress still to be reported by E-bits and REI (R93, R94). -/
  crcDue   : Nat
  reiDue   : Nat
  /-- Egress CRC over the block being sent and of the block before; V5 BIP-2 likewise (R93, R94). -/
  crcAcc   : BitVec 6
  crcSend  : BitVec 6
  bipAcc   : BitVec 2
  bipSend  : BitVec 2
  /-- PROG_DOUBLE_WRITE raised since enable (R113). -/
  dblSaid  : Bool
  deriving DecidableEq, Repr

def TermSt.init : TermSt :=
  { cfg := [], dirty := false, since := [], tu := .init, rx := .init, fedAt := 0, centred := false, fill := 0
    frames := [], outPos := 0, txPos := 0, cas := [], casNow := [], emit := [], emitPrev := [], emitCon := false
    crcDue := 0, reiDue := 0, crcAcc := 0, crcSend := 0, bipAcc := 0, bipSend := 0, dblSaid := false }

/-- A row held in the row buffers, with the period it was written for (R434). -/
structure HeldRow where
  period : Nat
  row    : Row
  deriving DecidableEq, Repr

/-- A captured row of the octet frame store (R38, R434): the frame that executes it, as a count of
frames begun (0: never captured), and the flags of its octet blocks: `con` for every block but those listed. The octets stand in the BAR2 window
(R338). -/
structure Capture where
  frame  : Nat
  con    : Bool
  blocks : List Nat
  deriving DecidableEq, Repr

/-- A position of an emission buffer: a plain word, or the two copies of a SELC (R140). -/
inductive Slot where
  | one (c : Cell)
  | two (path : PathId) (w : Cell) (p : Cell)
  deriving DecidableEq, Repr

/-- One program row of a column engine (R106, R108, R120). -/
structure RowCtx where
  /-- The period whose program row this is; it reads arrival period `period - 1`. -/
  period  : Nat
  bank    : Bool
  /-- The destination is idle in that bank (R103). -/
  idle    : Bool
  /-- Word index of the next instruction; the program has ended. -/
  pc      : Nat
  ended   : Bool
  /-- PROGRAM_ROW_END has been done. -/
  checked : Bool
  digest  : W32
  cycles  : Nat
  buf     : Sparse Slot
  /-- Uncorrectable program word: the row is FILL[0] with CON (R123). -/
  subst   : Bool
  /-- Every position carries CON (R121). -/
  mask    : Bool
  /-- The island hung or was reset in the row: nothing can be built, no digest compare (R17). -/
  lost    : Bool
  /-- A deadline of the row was missed: counted once (R20). -/
  late    : Bool
  /-- Uncorrectable words of the row buffers that the row has read (R339, R40). -/
  found   : List Nat
  /-- SELC paths of the row with their CON counts: working con, all, protect con (R192). -/
  sels    : List (PathId × Nat × Nat × Nat)
  deriving DecidableEq, Repr

def RowCtx.init : RowCtx :=
  { period := 0, bank := false, idle := true, pc := 0, ended := true, checked := true,
    digest := 0xFFFFFFFF, cycles := 0, buf := [], subst := false, mask := false, lost := false,
    late := false, found := [], sels := [] }

/-- A column engine (R106-R109, R121). -/
structure ColEng where
  fetch   : Option RowCtx
  /-- Run-ahead work (R107), and whether it waits at a V-output read. -/
  ahead   : Option RowCtx
  waiting : Bool
  /-- The completed row that is emitted in this period. -/
  emit    : Option RowCtx
  /-- A program row after a flip is due its restart (R107, R115). -/
  restart : Bool
  /-- PROG_UNWRITTEN raised since the last flip (R112); program words that PROG_ECC has named since (R123). -/
  unwrSaid : Bool
  eccSaid  : List Nat
  deriving DecidableEq, Repr

def ColEng.init : ColEng := ⟨none, none, false, none, false, false, []⟩

/-- One execution frame of an octet engine (R110, R111, R120, R150). -/
structure FrameCtx where
  bank    : Bool
  idle    : Bool
  pc      : Nat
  ended   : Bool
  checked : Bool
  /-- Row of the last instruction that wrote a row, and the cycles charged to it (R116). -/
  row     : Nat
  cycles  : Nat
  /-- Cycles spent in the rows before it. -/
  spent   : Nat
  digest  : W32
  /-- Positions written, by octet address. -/
  out     : Sparse Cell
  /-- Instructions completed in that row: the cycle at which each ended, and its positions (R20). -/
  log     : List (Nat × List Nat)
  scratch : Sparse (Int × Bool)
  /-- From this row on every unwritten position is FILL[0] with CON (R123). -/
  subst   : Option Nat
  /-- This frame is masked because the last one failed its digest (R122). -/
  mask    : Bool
  lost    : Bool
  /-- ENGINE_LATE raised in this frame: once for an octet engine (R120). -/
  late    : Bool
  /-- Rows of the frame that left with CON throughout, and positions that left as all-ones after a parity error
  (R95, R386). -/
  conRows : List Nat
  bad     : List Nat
  /-- Path of each position that a SELO wrote (R201). -/
  selPos  : Sparse PathId
  /-- SELO paths of the frame with their CON counts (R192, R200). -/
  sels    : List (PathId × Nat × Nat × Nat)
  deriving DecidableEq, Repr

def FrameCtx.init : FrameCtx :=
  { bank := false, idle := true, pc := 0, ended := true, checked := true, row := 0, cycles := 0,
    spent := 0, digest := 0xFFFFFFFF, out := [], log := [], scratch := [], subst := none, mask := false,
    lost := false, late := false, conRows := [], bad := [], selPos := [], sels := [] }

/-- An octet engine (R110, R122). -/
structure OctEng where
  run      : Option FrameCtx
  /-- The digest of the last frame failed, so the next is masked (R122). -/
  maskNext : Bool
  unwrSaid : Bool
  eccSaid  : List Nat
  deriving DecidableEq, Repr

def OctEng.init : OctEng := ⟨none, false, false, []⟩

/-- An island (R17, R403): hung or in reset until it rejoins; its clock step in MHz (R14); injected faults
that have not acted yet (R393); the sleep state of R326. -/
structure Island where
  down      : Bool
  step      : Nat
  digestDue : Bool
  parityDue : Bool
  sleep     : Option Sleep
  /-- An injected hang that the watchdog has not found yet (R17, R393). -/
  hung      : Bool
  deriving DecidableEq, Repr

def Island.init : Island := ⟨false, 1200, false, false, none, false⟩

/-- The pattern that a lane sends in a row period in place of frames: its polynomial by the code of SDS_PRBS.poly, the
generator before its first bit, and the bits that were inverted on request (R276, R283). -/
structure LinePattern where
  poly     : BitVec 2
  inverted : Bool
  start    : BitVec 31
  injected : Nat
  deriving DecidableEq, Repr

/-- An output row of a destination (R43, R276): as it leaves the engine, and as the lane sends it, with
the overhead sent with it: the 18 header words of an Amenamin row (R48), or the octets of the overhead
columns of an SDH row (R77-R79). `bip` is the BIP-2 and BIP-8 of the row sent before (R49). -/
structure OutRow where
  period   : Nat
  row      : Row
  line     : Option Row
  pattern  : Option LinePattern
  bip      : BitVec 10
  header   : List (BitVec 18)
  deriving DecidableEq, Repr

/-- State of a PRBS channel of the octet plane (R167, R168). -/
structure PrbsSt where
  /-- s[1..r], s[1] at bit 0. -/
  reg     : BitVec 20
  /-- Bits loaded (checker loading), predictions confirmed. -/
  loaded  : Nat
  confirm : Nat
  /-- Bits and errors of the block of 64. -/
  blkBits : Nat
  blkErr  : Nat
  /-- Mode (check) and polynomial of the last bank that named the channel (R167). -/
  last    : Option (Bool × BitVec 2)
  deriving DecidableEq, Repr

def PrbsSt.init : PrbsSt := ⟨0xFFFFF, 0, 0, 0, 0, none⟩

/-- Copies of the fill tables, the tone memory and the tone directory that the row or frame now
executed reads (R138, R166). -/
structure Latched where
  colFill : Sparse W32
  octFill : Sparse W32
  tone    : List Host.Cell
  toneDir : Sparse (W32 × W32)
  deriving DecidableEq, Repr

/-- What rehearsal found for a destination (R178, R179): the failing word, rule and tag; or cost,
digest and unwritten positions. -/
structure RehResult where
  fail   : Option (Nat × Nat × Nat)
  cycles : Nat
  digest : W32
  cover  : Nat
  deriving DecidableEq, Repr

/-- A flip message of row 1 (R48, R183, R184): its code, its own transaction with its target, bank and planes, the reason
of a NACK, and the frames in which it is still sent, none where it is repeated until it is replaced. -/
structure FlipMsg where
  kind   : BitVec 3
  txn    : BitVec 16
  target : BitVec 32
  req    : BitVec 4
  reason : BitVec 8
  left   : Option Nat
  deriving DecidableEq, Repr

/-- No message. -/
def FlipMsg.none : FlipMsg := ⟨0, 0, 0, 0, 0, Option.none⟩

/-- A flip behind the FLP registers (R173-R188). -/
structure FlipSt where
  /-- Messages of this device as coordinator, the one sent first; each with the frames left for it (R183; log entry
  87). -/
  out      : List FlipMsg
  /-- The answer of this device as a member, repeated until COMMIT or ABORT, and whether its first frame has begun
  (R184, R185). -/
  answer   : Option FlipMsg
  answerOn : Bool
  /-- Planes whose destinations carry CON in this frame, as an uncertain member (R186). -/
  maskCol  : Bool
  maskOct  : Bool
  /-- FLP_REQ [3:0] and target of the flip in progress. -/
  req      : BitVec 4
  target   : BitVec 32
  /-- This device coordinates the fabric flip (R183). -/
  coord    : Bool
  /-- An uncertain member whose transaction is not resolved (R186). -/
  unsure   : Bool
  /-- A catch-up flip is due at the next frame mark (R186). -/
  catchUp  : Bool
  /-- The rehearsal frame has begun; results by engine, column 0-55 and octet 56-71. -/
  judged   : Bool
  results  : Sparse RehResult
  /-- Interleave factors of lanes recorded with a bank, A at 0-47 and B at 64-111 (R127). -/
  factors  : Sparse Nat
  /-- Terminations whose entry was of kind T1 when each octet bank was rehearsed (R130). -/
  t1A      : List Nat
  t1B      : List Nat
  /-- FLIP_SPLIT already raised for this transaction (R187). -/
  splitSaid : Bool
  /-- The lease is taken at the next frame mark (R188). -/
  leaseDue : Bool
  /-- The last transaction that this device answered as a member (R184). -/
  answered : Option (BitVec 16)
  deriving DecidableEq, Repr

def FlipSt.init : FlipSt :=
  { req := 0, target := 0, coord := false, out := [], answer := none, answerOn := false, maskCol := false,
    maskOct := false, unsure := false,
    catchUp := false, judged := false, results := [], factors := [], t1A := [], t1B := [], splitSaid := false,
    leaseDue := false, answered := none }

/-- The first discarded write of a frame and the count, for PROG_WRITE_REJECT (R105). -/
structure Discarded where
  word1 : W32
  word2 : W32
  word3 : W32
  count : Nat
  deriving DecidableEq, Repr

/-- An MSP controller behind its registers (R204-R210). -/
structure ApsSt where
  /-- Hold-off by channel, 0 the protect lane (R206). -/
  hold    : Sparse HoldOff
  wtr     : Option Nat
  wtrChan : Nat
  /-- A command not yet judged, and an accepted manual switch (R207). -/
  cmdNew  : Bool
  /-- K2 bits 6-8 that R209 calls a failure of mode have been accepted, and 0b101 not since. -/
  fopMode : Bool
  /-- Evaluations in a row with the channel mismatch of R209 cause 3, and whether it has been declared. -/
  fopRun  : Nat
  fopChan : Bool
  /-- Channel selected in the row period before this one, whose arrivals are read in this one (R210). -/
  selPrev : Nat
  deriving DecidableEq, Repr

def ApsSt.init : ApsSt := ⟨[], none, 0, false, false, 0, false, 0⟩

/-- Fabric state behind the FAB registers (R219-R225). -/
structure FabSt where
  /-- Loop lanes changed at the frame mark of the current frame (R219). -/
  loopNew  : BitVec 8
  /-- Newly looped lanes that octet reads still name (R219). -/
  octNew   : BitVec 8
  /-- TM claim or withdrawal due at the next frame mark (R222). -/
  claimDue : Bool
  dropDue  : Bool
  /-- The phase target is held (R223). -/
  phased   : Bool
  /-- Peers from which a header was received in this frame (R188). -/
  heard    : BitVec 8
  /-- Devices whose coordinator lease this one took, and whether a peer has named this one since reset
  (R188; log entry 28). -/
  former   : BitVec 8
  confirmed : Bool
  /-- Number of the frame that the master is in, from the headers of the reference lane (R224). -/
  masterNum : Option (BitVec 32)
  /-- Frames in a row with a fabric lane ACTIVE and no claim received (R222), and with the offset of the reference lane
  at its target (R223). -/
  claimRun : Nat
  alignRun : Nat
  /-- By peer: row periods in a row in which every lane from it delivered only bad rows, and frames in a row in which
  some lane delivered none (R225). -/
  badRows  : Sparse Nat
  goodRows : Sparse Nat
  deriving DecidableEq, Repr

def FabSt.init : FabSt := ⟨0, 0, false, false, false, 0, 0, false, none, 0, 0, [], []⟩

/-- A queued or staged mirror record with its kind (R235). -/
structure QueuedRec where
  kind : BitVec 4
  body : MirrorRec
  deriving DecidableEq, Repr

/-- Mate function behind the MAT registers (R229-R242). -/
structure MateSt where
  /-- Records not yet sent, and records sent and not yet acknowledged (R236). -/
  queue    : List QueuedRec
  unacked  : List QueuedRec
  nextSeq  : BitVec 16
  /-- Records sent that no row has carried yet (R235). -/
  line     : List QueuedRec
  /-- mirror_seq last received, and at the last frame mark, with the frames in a row in which it has not advanced while
  records were outstanding (R236); mate_state last received from a reachable mate. -/
  peerSeq  : BitVec 16
  lastPeer : BitVec 16
  stall    : Nat
  peerState : BitVec 3
  /-- Row periods since the last good beat on the header and on the pin channel, up to 72; frames in a row with a good
  header beat, up to 8, and one in this frame (R230). -/
  laneAge  : Nat
  pinAge   : Nat
  beatRun  : Nat
  beatNow  : Bool
  /-- Active: the epoch snapshot is due to be sent; it overflowed the queue; its marker is being sent (R238). -/
  epochOut : Bool
  epochCut : Bool
  marker   : Option W32
  /-- Standby: staged epoch records, the marker received, and the seq of the last record sent before it (R239). -/
  staged   : List MirrorRec
  heard    : Option W32
  heardSeq : BitVec 16
  /-- SYNCING: banks of the image end record, once applied (R242). -/
  imageEnd : Option (Bool × Bool)
  /-- MATE_WRITE_REJECT latch of the frame (R232). -/
  refused  : Bool
  /-- Level of MATE_HB_OUT (R229). -/
  hbOut    : Bool
  /-- Active: a resync start record is due; the next word of the image, and the banks that were live
  when the image end record was sent (R241, R242). -/
  startDue : Bool
  image    : Option Nat
  endBanks : Option (Bool × Bool)
  /-- The epoch state of the image: on the active what is still to be sent, once the image has come to it; on the SYNCING
  device what has been received (R234, R241). -/
  tail     : Option (List MirrorRec)
  /-- SYNCING: words of the image applied (R245). -/
  imageIn  : Nat
  deriving DecidableEq, Repr

def MateSt.init : MateSt :=
  { queue := [], unacked := [], nextSeq := 0, line := [], peerSeq := 0, lastPeer := 0, stall := 0, peerState := 0
    laneAge := 72, pinAge := 72, beatRun := 0, beatNow := false, epochOut := false, epochCut := false
    marker := none, staged := [], heard := none, heardSeq := 0, imageEnd := none, refused := false
    hbOut := false, startDue := false, image := none, endBanks := none, tail := none, imageIn := 0 }

/-- A minute record of the oscillator history (R263). -/
structure Minute where
  offset   : Int
  theta    : Int
  hours    : Nat
  eligible : Bool
  deriving DecidableEq, Repr

/-- Holdover base formed when the last reference is lost (R263): y_h and E0 in ppt, theta_h in 0.01 degC,
t_h in 0.001 h. -/
structure HoldBase where
  y     : Int
  theta : Int
  t     : Int
  e0    : Int
  deriving DecidableEq, Repr

/-- Sync block behind the TMG registers (R246-R267). -/
structure TmgSt where
  /-- OSCIN has been detected since boot (R248). -/
  oscSeen  : Bool
  /-- Slots measured since their source was applied, and those judged since reset once they were measured: the first
  judgement needs no wait (R252; log entry 92). -/
  measured : List Nat
  started  : List Nat
  /-- By slot: evaluations in a row at which its conditions have held (R252). -/
  waits    : Sparse Nat
  /-- Writes of TMG_SEL and TMG_REF_CFG wait for the evaluation (R256). -/
  selNow   : W32
  refNow   : Sparse W32
  /-- Inputs without signal: REFIN0-3 and FRAME_IN (R247). -/
  noSignal : List Nat
  /-- By pair 12·i + j of slots, i < j: seconds in a row in which the 10 s offsets were apart, and close (R254). -/
  pairs    : Sparse (Nat × Nat)
  /-- Slots that are SUSPECT by a pair, each with the pair; the slot that is so by drift, and the seconds in a row with
  less than half the drift threshold (R254, R264). -/
  odd      : List (Nat × Nat)
  drifted  : Option Nat
  calm     : Nat
  /-- Minute records, newest first (R263). -/
  minutes  : List Minute
  base     : Option HoldBase
  /-- Seconds since the last reference was lost. -/
  lost     : Nat
  /-- Temperature bins: 1 K bins from -50 degC and the value recorded last (R265). -/
  bins     : Sparse Int
  /-- Daily means with the mean hour of their records; sums and count of the day now running (R265). -/
  days     : List (Int × Int)
  daySum   : Int
  dayHours : Int
  dayCount : Nat
  /-- Frames begun at the last whole hour of TMG_AGE_HOURS. -/
  hourAt   : Nat
  /-- Part of a ps of the pending phase applied so far, in quarters (R260). -/
  pendQ    : Nat
  /-- The DPLL frequency is frozen until the next evaluation (R257). -/
  frozen   : Bool
  /-- The next lock comes after FREE_RUN, HOLDOVER or LOST; and the present one was the first after one of them, so that
  R262 may align. -/
  ppsDue   : Bool
  ppsAsk   : Bool
  /-- The lane that supplies the selected reference in this frame (R266). -/
  dnuLane  : Option Nat
  deriving DecidableEq, Repr

def TmgSt.init : TmgSt :=
  { oscSeen := false, measured := [], started := [], waits := [], selNow := 0, refNow := []
    noSignal := [0, 1, 2, 3, 4], pairs := [], odd := [], drifted := none, calm := 0, minutes := [], base := none
    lost := 0, bins := [], days := [], daySum := 0, dayHours := 0, dayCount := 0, hourAt := 0, pendQ := 0
    frozen := false, ppsDue := true, ppsAsk := false, dnuLane := none }

/-- What a PM second begins: its start (TAI, or seconds since reset while untimed), and whether a 15-minute
and a 24-hour bin begin with it, a TAI step included (R286). -/
structure Stamp where
  start : W32
  bin15 : Bool
  bin24 : Bool
  step  : Bool
  deriving DecidableEq, Repr

/-- Path monitor and counters of the whole device (R286, R291, R298-R302). -/
structure PmSt where
  paths    : Sparse PmPath
  /-- The counter memory of every path that is not listed: it was never evaluated. -/
  idle     : PmPath
  /-- A written TAI second, due at the next epoch boundary (R286). -/
  taiDue   : Option W32
  /-- PM seconds since reset. -/
  seconds  : Nat
  /-- Seconds not yet committed, oldest first, and the one now running (R286, R291). -/
  stamps   : List Stamp
  /-- Frames begun when the second now running began. -/
  began    : Nat
  /-- Position of the record walk: path IDs still due (R309). -/
  walk     : List Nat
  /-- Window accumulators of the speed counters (R297). -/
  window   : Sparse Nat
  winDue   : Bool
  /-- Frames begun when the window that runs began, and its length in frames (R298). -/
  winFrom  : Nat
  winLen   : Nat
  /-- Frames begun when a dump was last due, or dumps were turned on (R301; log entry 95). -/
  dumpFrom : Nat
  /-- The snapshot's shadow copy (R300). -/
  shadow   : Sparse W32
  /-- Dump sequence number, and the dump being written: host address and words (R301). -/
  dumpSeq  : W32
  dump     : Option (Nat × List W32)
  deriving DecidableEq, Repr

def PmSt.init : PmSt :=
  { paths := [], idle := .init, taiDue := none, seconds := 0, stamps := [], began := 0, walk := [],
    window := [], winDue := false, winFrom := 1, winLen := 8000, dumpFrom := 0, shadow := [], dumpSeq := 0
    dump := none }

/-- A record of the history store (R308), with its number. -/
structure Record where
  number   : Nat
  severity : BitVec 2
  words    : List W32
  deriving DecidableEq, Repr

/-- The store port behind the HST registers (R305-R315). -/
structure HstSt where
  staging  : List Record
  /-- Records that the flush under way covers. -/
  flushing : Nat
  /-- Records held by the drive, by number (R308). -/
  stored   : List Record
  /-- A store erase is pending (R315). -/
  erasePend : Bool
  anchorSeq : W32
  erases   : W32
  /-- ST_PWR_EN and ST_PERST_N levels. -/
  pwrEn    : Bool
  perstN   : Bool
  /-- A flush has been asked for since the last one began (R311). -/
  flushDue : Bool
  /-- A read command needs the drive (R312). -/
  readDue  : Bool
  /-- Frames begun when the port last made progress: a state entered, ST_PERST_N released, a command completed; and
  when the last flush completed (R311). -/
  since    : Nat
  lastFlush : Nat
  /-- The Format NVM of the erase that runs has completed; cryptographic erase is supported (R315). -/
  formatted : Bool
  crypto   : Bool
  /-- The copies of the anchor at LBAs 0 and 1 as the device knows them, and the one that it writes next (R307). -/
  anchor0  : Option Anchor
  anchor1  : Option Anchor
  nextCopy : Bool
  deriving DecidableEq, Repr

def HstSt.init : HstSt :=
  { staging := [], flushing := 0, stored := [], erasePend := false,
    anchorSeq := 0, erases := 0, pwrEn := false, perstN := false, flushDue := false,
    readDue := false, since := 0, lastFlush := 0, formatted := false, crypto := false, anchor0 := none
    anchor1 := none, nextCopy := false }

/-- Energy planner behind the NRG registers (R319-R334). -/
structure NrgSt where
  /-- Consecutive budget evaluations above the budget, and at most at 90 % of it (R320). -/
  overRun   : Nat
  lowRun    : Nat
  overSaid  : Bool
  /-- The floor hold is running, and the frames begun when it began (R321). -/
  holding   : Bool
  holdFrom  : Nat
  /-- Consecutive readings of Tj_max above the effective cap, and below it by more than the hysteresis (R330). -/
  hotRun    : Nat
  coolRun   : Nat
  /-- Whole service hours at the last LIFE_LEDGER (R333). -/
  hourSaid  : Nat
  /-- Shed level whose classes are applied to the paths (R323). -/
  applied   : Nat
  /-- Consecutive readings of disagreement and agreement by sensor (R329). -/
  badRun    : Sparse Nat
  goodRun   : Sparse Nat
  /-- THERM_N driven low (R331). -/
  thermLow  : Bool
  /-- Fractions of the ledger below 1/1,024 h in 10^-18 of 10 ms, and of the service hours in 10 ns (R332). -/
  ledgerAcc : Nat
  svcAcc    : Nat
  spentSaid : Bool
  /-- Energy below 1 mJ, in uJ (R318). -/
  energyAcc : Nat
  /-- Classes changed at the frame mark of this frame: lanes are judged at its row 1 (R325). -/
  deepDue   : Bool
  deriving DecidableEq, Repr

def NrgSt.init : NrgSt :=
  { overRun := 0, lowRun := 0, overSaid := false, holding := false, holdFrom := 0, hotRun := 0, coolRun := 0
    hourSaid := 0, applied := 0, badRun := [], goodRun := [],
    thermLow := false, ledgerAcc := 0, svcAcc := 0, spentSaid := false, energyAcc := 0,
    deepDue := false }

/-- Damage to a memory word: a single-bit or an uncorrectable error, and whether MEM_UE has named
it since it was last written (R339). -/
structure Damage where
  double   : Bool
  reported : Bool
  deriving DecidableEq, Repr

/-- The Cumin sweep (R358, R359). -/
structure Sweep where
  bank   : Nat
  spare  : Nat
  /-- 1 copy, 2 test, 3 copy back, 4 spare test. -/
  phase  : Nat
  /-- The copy of the phase has ended; the redirect is due at a row mark. -/
  copied : Bool
  /-- Parts of the test passed: the March pass, then two retention checks. -/
  passed : Nat
  /-- Frames begun when the part of the test that runs began. -/
  since  : Nat
  deriving DecidableEq, Repr

/-- On-chip memory behind the MEM registers (R336-R344, R358-R360). -/
structure SramSt where
  /-- Damaged words, by bank * 32768 + word; bank 388 is the counter memory. -/
  damage    : Sparse Damage
  /-- A corrected word waits for its write-back, by bank (R341). -/
  writeback : Sparse Nat
  sweep     : Option Sweep
  /-- The bank of the next slot of the sweep, and the frames begun when the last slot began (R358). -/
  slotBank  : Nat
  slotFrom  : Option Nat
  /-- By bank in RETAIN: frames begun when it entered RETAIN or was last read in a burst (R341). -/
  retainAt  : Sparse Nat
  /-- Retirements in force: bank and the spare that stands in; 7 for a retired spare (R360). -/
  retired   : List (Nat × Nat)
  nospareSaid : Bool
  /-- Corrections since the last MEM_CE, and MEM_CE due at the second (R341). -/
  ceCount   : Nat
  ceSaid    : Bool
  /-- Register parity faults injected, by offset (R387, R393). -/
  regBad    : List Nat
  /-- Words of the counter memory that an increment found uncorrectable, whose MEM_UE is due (R382, R384). -/
  ueDue     : List Nat
  deriving DecidableEq, Repr

def SramSt.init : SramSt := ⟨[], [], none, 0, none, [], [], false, 0, false, [], []⟩

/-- A raised housekeeping request (R345). -/
structure HkReq where
  bank   : Nat
  locked : Bool
  /-- Granted but not yet performed (R348). -/
  granted : Bool
  /-- Held off for one housekeeping cycle (R349). -/
  held   : Bool
  /-- Turn estimate last given (R346). -/
  turn   : BitVec 2
  deriving DecidableEq, Repr

/-- What a crossbar master asks of a target: a lock, or a transaction (R351, R352). -/
inductive XbrAsk where
  | lock
  | beat (addr : BitVec 26) (write : Option (BitVec 4 × W32)) (release : Bool)
  deriving DecidableEq, Repr

/-- A lock or transaction that waits (R351, R352): for its target, or with `raised` for the grant of its beat. -/
structure XbrWait where
  target : Target
  ask    : XbrAsk
  raised : Bool
  deriving DecidableEq, Repr

/-- The housekeeping arbiter and the crossbar (R345-R355), by master number. -/
structure HkSt where
  reqs   : Sparse HkReq
  /-- Banks that a locked sequence has touched, with the master that holds them (R347). -/
  held   : List (Nat × Nat)
  /-- The master's next transaction answers LEASE (R354). -/
  leaseErr : List Nat
  /-- By crossbar master: what it waits for (R351, R352). -/
  waits  : Sparse XbrWait
  deriving DecidableEq, Repr

def HkSt.init : HkSt := ⟨[], [], [], []⟩

/-- An event entry (R371). -/
structure Event where
  severity : BitVec 2
  code     : BitVec 16
  params   : List W32
  tai      : W32
  frame    : BitVec 32
  ring     : Bool
  deriving DecidableEq, Repr

/-- Event staging and the rings' delivery state (R371-R374). -/
structure EvtSt where
  staged   : List Event
  /-- phase and lost of each event ring. -/
  phase0   : Bool
  phase1   : Bool
  lost0    : Bool
  lost1    : Bool
  /-- Entries written since the ring's last MSI-X signal, and the row periods begun when the first of them was. -/
  since0   : Nat
  since1   : Nat
  from0    : Nat
  from1    : Nat
  deriving DecidableEq, Repr

def EvtSt.init : EvtSt := ⟨[], false, false, false, false, 0, 0, 0, 0⟩

/-- A fetched command entry with its ring index (R369). -/
structure CmdEntry where
  index : BitVec 16
  words : List W32
  deriving DecidableEq, Repr

/-- What a command in progress waits for (R369, R370). -/
inductive Waiting where
  | flip
  | snapshot
  /-- A snapshot that has been taken while DMA pauses: its sequence number and words (R366). -/
  | snapshotOut (seq : Nat) (image : List W32)
  /-- A LOAD_BANK under way: words and start values written (R369). -/
  | load (words starts : Nat)
  | storeRead
  /-- The number of the marker, none once it was evicted from staging (R310). -/
  | storeMark (number : Option Nat)
  | prot (path : PathId)
  | aps (g : Nat)
  | resync
  | lifeCycle
  deriving DecidableEq, Repr

/-- Command rings and configuration space (R363-R370, R376). -/
structure HifSt where
  fetched : Sparse (List CmdEntry)
  /-- The command in progress on a ring, and what it waits for. -/
  busy    : Sparse (CmdEntry × Waiting)
  bme     : Bool
  d3hot   : Bool
  deriving DecidableEq, Repr

def HifSt.init : HifSt := ⟨[], [], false, false⟩

/-- What leaves the block besides its lanes: the data of the last completed read with its error, the
posted writes to host memory, and mirror records sent (log entry 58). -/
structure IoSt where
  readData  : W32
  readError : Bool
  posted    : List (Nat × W32)
  sent      : List QueuedRec
  deriving DecidableEq, Repr

def IoSt.init : IoSt := ⟨0, false, [], []⟩

/-- The whole block. -/
structure State where
  /-- Commands that are waiting, first in, first out. -/
  pending  : List Instr
  /-- Registers of BAR0 by offset; unlisted offsets hold their reset value. -/
  regs     : Sparse W32
  /-- Memory behind BAR2 by byte offset; unlisted bytes hold the zero of the wipe (R400). -/
  mem      : List Host.Cell
  /-- Tone memory (R165). -/
  tone     : List Host.Cell
  /-- Staged values behind registers: LO/HI latches (R171), staged CNT_HI (R299), tone bases. -/
  latch    : Sparse W32
  clock    : Clock
  power    : Power
  otp      : Otp
  islands  : Sparse Island
  lanes    : Sparse LaneSt
  aus      : Sparse AuSt
  paths    : Sparse PathSt
  terms    : Sparse TermSt
  /-- Row buffers: key 3 * source + period mod 3; sources 48-55 are the V-output rows (R38, R434). -/
  rows     : Sparse HeldRow
  /-- Captured rows: key 72 * store frame + 9 * V-lane + row (R434). -/
  captures : Sparse Capture
  colEng   : Sparse ColEng
  octEng   : Sparse OctEng
  /-- Rows sent, by column destination (R43). -/
  out      : Sparse OutRow
  /-- Held words by column destination * 65536 + position (R201). -/
  heldCol  : Sparse Octet
  /-- Held words by octet address (R201). -/
  heldOct  : Sparse Octet
  prbs     : Sparse PrbsSt
  latched  : Latched
  flip     : FlipSt
  /-- Discarded program writes of the frame: 0 column, 1 octet (R105). -/
  discards : Sparse Discarded
  aps      : Sparse ApsSt
  fab      : FabSt
  mate     : MateSt
  tmg      : TmgSt
  pm       : PmSt
  hst      : HstSt
  nrg      : NrgSt
  sram     : SramSt
  hk       : HkSt
  evt      : EvtSt
  hif      : HifSt
  io       : IoSt
  /-- Free values drawn so far: the model's own field, which indexes `Config.free`. -/
  drawn    : Nat
  deriving DecidableEq, Repr

/-- The machine right after boot (R399): every register at its reset value but those loaded from OTP
(RST_STAT: BOUND, one record used, the DEBUG master open; NRG_TJ: the effective cap of grade S),
every lane OFF, bank A of both planes live with every destination idle, memory wiped (log entry 55). -/
def State.reset : State :=
  { pending := [], regs := [(0x8008, 0x0A040000), (0x108034, 0x00006400)], mem := [], tone := [],
    latch := [], clock := .init, power := .init, otp := .init, islands := [], lanes := [],
    aus := [], paths := [], terms := [], rows := [], captures := [], colEng := [], octEng := [],
    out := [], heldCol := [], heldOct := [], prbs := [],
    latched := ⟨[], [], [], []⟩, flip := .init, discards := [], aps := [], fab := .init,
    mate := .init, tmg := .init, pm := .init, hst := .init, nrg := .init, sram := .init,
    hk := .init, evt := .init, hif := .init, io := .init, drawn := 0 }

end Sys2Proof.Machine
end

