-- ==== Sys2Proof/Machine/Ops.lean ====
section
/-! DEFINITION. The named operations over registers, memory, events and history staging that every
meaning is written with. -/

namespace Sys2Proof.Machine

/-! ### Bits -/

/-- Bits `hi` down to `lo` of a word, as a number. -/
def bits (v : W32) (hi lo : Nat) : Nat := (v.toNat / 2 ^ lo) % 2 ^ (hi + 1 - lo)

/-- The word with bits `hi` down to `lo` replaced by `n`. -/
def setBits (v : W32) (hi lo n : Nat) : W32 :=
  BitVec.ofNat 32
    (v.toNat - bits v hi lo * 2 ^ lo + n % 2 ^ (hi + 1 - lo) * 2 ^ lo)

/-- Bit `i` of a word. -/
def bit (v : W32) (i : Nat) : Bool := bits v i i = 1

/-- 1 for true. -/
def b2n (b : Bool) : Nat := if b then 1 else 0

/-- The 32-bit mask of the enabled bytes (R364). -/
def beMask (be : BitVec 4) : W32 :=
  (if be.getLsbD 0 then 0x000000FF else 0) ||| (if be.getLsbD 1 then 0x0000FF00 else 0) |||
  (if be.getLsbD 2 then 0x00FF0000 else 0) ||| (if be.getLsbD 3 then 0xFF000000 else 0)

/-- The old word with the enabled bytes of the new one (R364). -/
def mergeBe (old new : W32) (be : BitVec 4) : W32 :=
  (old &&& ~~~(beMask be)) ||| (new &&& beMask be)

/-- A number read as two's complement of `w` bits. -/
def signed (w n : Nat) : Int :=
  if n % 2 ^ w < 2 ^ (w - 1) then ((n % 2 ^ w : Nat) : Int) else ((n % 2 ^ w : Nat) : Int) - 2 ^ w

/-- Two's complement of `w` bits as a number. -/
def unsigned (w : Nat) (i : Int) : Nat := (i % (2 ^ w : Int)).toNat

/-- CRC-16 of the header and of a mirror record: x^16 + x^12 + x^5 + 1, preset to ones. -/
def crc16Step (st : BitVec 16) (b : Bool) : BitVec 16 :=
  let x := st <<< 1
  if st.getLsbD 15 != b then x ^^^ 0x1021 else x

def crc16Word (st : BitVec 16) (v : Nat) : BitVec 16 :=
  (List.range 16).foldl (fun st i => crc16Step st (v.testBit (15 - i))) st

/-- The CRC-16 of a run of 16-bit words (R48, R235). -/
def crc16 (ws : List Nat) : Nat := (ws.foldl crc16Word 0xFFFF).toNat

/-- `n` kept within `lo`-`hi`. -/
def clamp (lo hi n : Nat) : Nat := max lo (min hi n)

/-! ### Registers -/

/-- The content of the register at a BAR0 offset. -/
def State.rd (s : State) (a : Nat) : W32 := s.regs.get (regReset a) a

/-- Device update of the register at a BAR0 offset. -/
def State.wr (s : State) (a : Nat) (v : W32) : State :=
  { s with regs := s.regs.put (regReset a) a v }

/-- The number in a field. -/
def State.fget (s : State) (f : Fld) : Nat := bits (s.rd f.reg) f.hi f.lo

/-- A one-bit field is set. -/
def State.flag (s : State) (f : Fld) : Bool := s.fget f = 1

/-- Device update of a field. -/
def State.fset (s : State) (f : Fld) (n : Nat) : State :=
  s.wr f.reg (setBits (s.rd f.reg) f.hi f.lo n)

/-- Device update of a one-bit field. -/
def State.fbit (s : State) (f : Fld) (b : Bool) : State := s.fset f (b2n b)

/-- A 32-bit wrapping counter grows by `n`. -/
def State.count (s : State) (a : Nat) (n : Nat := 1) : State :=
  s.wr a (s.rd a + BitVec.ofNat 32 n)

/-- A counter field that saturates at `cap` grows by `n`. -/
def State.countSat (s : State) (f : Fld) (cap n : Nat) : State := s.fset f (min cap (s.fget f + n))

/-! ### The keyed parts of the state -/

def State.lane (s : State) (l : Nat) : LaneSt := s.lanes.get .init l
def State.setLane (s : State) (l : Nat) (x : LaneSt) : State :=
  { s with lanes := s.lanes.put .init l x }
def State.onLane (s : State) (l : Nat) (f : LaneSt → LaneSt) : State := s.setLane l (f (s.lane l))

/-- Key of AU `n` of lane `l`. -/
def auKey (l n : Nat) : Nat := 64 * l + n
def State.au (s : State) (l n : Nat) : AuSt := s.aus.get .init (auKey l n)
def State.onAu (s : State) (l n : Nat) (f : AuSt → AuSt) : State :=
  { s with aus := s.aus.put .init (auKey l n) (f (s.au l n)) }

def State.path (s : State) (p : Nat) : PathSt := s.paths.get .init p
def State.onPath (s : State) (p : Nat) (f : PathSt → PathSt) : State :=
  { s with paths := s.paths.put .init p (f (s.path p)) }

/-- The entries of the path table (R56: 262,144) and of the terminations (R84: 8,192) that the state lists. -/
def State.pathList (s : State) : Sparse PathSt := s.paths.filter fun q => q.1 < 262144
def State.termList (s : State) : Sparse TermSt := s.terms.filter fun q => q.1 < 8192

def State.term (s : State) (t : Nat) : TermSt := s.terms.get .init t
def State.onTerm (s : State) (t : Nat) (f : TermSt → TermSt) : State :=
  { s with terms := s.terms.put .init t (f (s.term t)) }

def State.island (s : State) (i : Nat) : Island := s.islands.get .init i
def State.onIsland (s : State) (i : Nat) (f : Island → Island) : State :=
  { s with islands := s.islands.put .init i (f (s.island i)) }

def State.apsSt (s : State) (g : Nat) : ApsSt := s.aps.get .init g
def State.onAps (s : State) (g : Nat) (f : ApsSt → ApsSt) : State :=
  { s with aps := s.aps.put .init g (f (s.apsSt g)) }

def State.pmPath (s : State) (p : Nat) : PmPath := s.pm.paths.get s.pm.idle p
def State.onPm (s : State) (p : Nat) (f : PmPath → PmPath) : State :=
  { s with pm := { s.pm with paths := s.pm.paths.put s.pm.idle p (f (s.pmPath p)) } }

def State.colEngine (s : State) (d : Nat) : ColEng := s.colEng.get .init d
def State.onCol (s : State) (d : Nat) (f : ColEng → ColEng) : State :=
  { s with colEng := s.colEng.put .init d (f (s.colEngine d)) }

def State.octEngine (s : State) (d : Nat) : OctEng := s.octEng.get .init d
def State.onOct (s : State) (d : Nat) (f : OctEng → OctEng) : State :=
  { s with octEng := s.octEng.put .init d (f (s.octEngine d)) }

/-- A list of numbers as a set: `k` in or out. -/
def setMember (l : List Nat) (k : Nat) (on : Bool) : List Nat :=
  if on then (if l.contains k then l else k :: l) else l.filter (· ≠ k)

/-- A free value: the spec leaves it undefined (log entry 3). -/
def State.draw (s : State) : W32 × State := (Config.free s.drawn, { s with drawn := s.drawn + 1 })

/-! ### Life cycle and running -/

/-- The life-cycle state: 0 TEST, 1 BOUND, 2 FIELD, 3 RETIRED (R404). -/
def State.lc (s : State) : Nat := s.fget F.rstStat_lcState

/-- The device has been retired (R409). -/
def State.retired (s : State) : Bool := s.lc = 3

/-- No reset is held (R396) and boot has ended (R399). -/
def State.outOfReset (s : State) : Bool :=
  !s.power.por && !s.power.resetN && !s.power.perstN && s.power.booted

/-- The device runs: out of reset and not in the safe halt (R389). -/
def State.up (s : State) : Bool := s.outOfReset && !s.power.safeHalt

/-- A command acts on a device that is out of reset and not in the safe halt; otherwise it leaves
the state as it is (log entry 2). -/
def whenUp (s : State) (f : State → State) : Host.Outcome State Fault Refusal :=
  if s.up then .next (f s) else .next s

/-! ### Memory behind BAR2 -/

/-- What a byte of the BAR2 window reads as while nothing has written it: 0, but for route_rows of a termination's
entry, whose reset value is 0x02 (R96, R400). -/
def resetByte (a : Nat) : BitVec 8 := if 0x18C0000 ≤ a && a < 0x1900000 && a % 32 = 1 then 2 else 0

/-- One byte of the BAR2 window: the memory holds its difference from the reset value. -/
def State.byte (s : State) (a : Nat) : BitVec 8 := Sparse.get (0 : BitVec 8) s.mem a ^^^ resetByte a

/-- Writes one byte. -/
def State.putByte (s : State) (a : Nat) (v : BitVec 8) : State :=
  { s with mem := Sparse.put (0 : BitVec 8) s.mem a (v ^^^ resetByte a) }

/-- The little-endian 32-bit word at a byte offset. -/
def State.memWord (s : State) (a : Nat) : W32 :=
  s.byte (a + 3) ++ s.byte (a + 2) ++ s.byte (a + 1) ++ s.byte a

/-- Writes the enabled bytes of a word. -/
def State.putWord (s : State) (a : Nat) (be : BitVec 4) (v : W32) : State :=
  let s := if be.getLsbD 0 then s.putByte a (v.extractLsb' 0 8) else s
  let s := if be.getLsbD 1 then s.putByte (a + 1) (v.extractLsb' 8 8) else s
  let s := if be.getLsbD 2 then s.putByte (a + 2) (v.extractLsb' 16 8) else s
  if be.getLsbD 3 then s.putByte (a + 3) (v.extractLsb' 24 8) else s

/-- Device update of a whole word of the window. -/
def State.setWord (s : State) (a : Nat) (v : W32) : State := s.putWord a 0xF v

/-- Writes a run of octets. -/
def State.putBytes (s : State) (a : Nat) : List Octet → State
  | [] => s
  | v :: r => (s.putByte a v).putBytes (a + 1) r

/-- A run of octets. -/
def State.bytes (s : State) (a : Nat) (n : Nat) : List Octet :=
  (List.range n).map fun i => s.byte (a + i)

/-! ### Damaged words (R339, R340) -/

/-- Key of a word in the table of damaged words. -/
def damageKey (bank word : Nat) : Nat := bank * 32768 + word

/-- A word cannot be corrected. -/
def State.ueKey (s : State) (k : Nat) : Bool :=
  match (s.sram.damage.find? (·.1 = k)).map (·.2) with
  | some d => d.double
  | none => false

/-- The word at a BAR2 offset cannot be corrected. -/
def State.ueAt (s : State) (a : Nat) : Bool := s.ueKey (a / 4)

/-- A write clears the damage of a word, but for a partial write to an uncorrectable one (R340). A
pending write-back of the scrubber is dropped (R341). -/
def State.mend (s : State) (a : Nat) (be : BitVec 4) : State :=
  let k := a / 4
  if be = 0 || (s.ueAt a && be ≠ 0xF) then s
  else
    { s with sram := { s.sram with
        damage := s.sram.damage.erase k
        writeback := s.sram.writeback.filter fun p => damageKey p.1 p.2 ≠ k } }

/-- A write of the fields that the device owns in a word of BAR2: part of the word (R340, R356). -/
def State.setFields (s : State) (a : Nat) (v : W32) : State := (s.mend a 0x1).setWord a v

/-! ### Tables behind BAR2 -/

/-- BAR2 offset of word `w` of the entry of path `p` (R56). -/
def pathAddr (p w : Nat) : Nat := 0x1000000 + 32 * p + 4 * w
/-- A word of a path table entry. -/
def State.pathWord (s : State) (p w : Nat) : W32 := s.memWord (pathAddr p w)
def State.setPathWord (s : State) (p w : Nat) (v : W32) : State := s.setFields (pathAddr p w) v

/-- BAR2 offset of configuration word `w` of termination `t` (R96). -/
def termCfgAddr (t w : Nat) : Nat := 0x18C0000 + 32 * t + 4 * w
/-- BAR2 offset of status word `w` of termination `t` (R96). -/
def termStatAddr (t w : Nat) : Nat := 0x1880000 + 32 * t + 4 * w
def State.termStat (s : State) (t w : Nat) : W32 := s.memWord (termStatAddr t w)
def State.setTermStat (s : State) (t w : Nat) (v : W32) : State := s.setFields (termStatAddr t w) v

/-- BAR2 offset of word `i` of a program bank (R102, R337). -/
def bankAddr (octet bankB : Bool) (i : Nat) : Nat :=
  (if octet then 0x800000 else 0) + (if bankB then 0x400000 else 0) + 8 * i
/-- A program word. -/
def State.progWord (s : State) (octet bankB : Bool) (i : Nat) : W64 :=
  s.memWord (bankAddr octet bankB i + 4) ++ s.memWord (bankAddr octet bankB i)

/-! ### History staging (R308-R310) -/

/-- The number of the next record (HST_HEAD). -/
def State.hstHead (s : State) : Nat :=
  (s.rd Reg.hstHeadLo).toNat + 2 ^ 32 * (s.rd Reg.hstHeadHi).toNat

/-- Sets HST_HEAD, and HST_OLDEST as R312 derives it from the head and the ring length. -/
def State.setHstHead (s : State) (n : Nat) : State :=
  let l := (s.rd Reg.hstRing).toNat
  let o := n - 128 * l
  (((s.wr Reg.hstHeadLo (BitVec.ofNat 32 n)).wr Reg.hstHeadHi (BitVec.ofNat 32 (n / 2 ^ 32))).wr
    Reg.hstOldestLo (BitVec.ofNat 32 o)).wr Reg.hstOldestHi (BitVec.ofNat 32 (o / 2 ^ 32))

/-- Word 0 of a record: type, lap, severity and the low field (R308). -/
def recordWord0 (s : State) (typ n sev low : Nat) : W32 :=
  let l := (s.rd Reg.hstRing).toNat
  BitVec.ofNat 32 (typ * 2 ^ 28 + n / (128 * l) % 2 * 2 ^ 27 + sev % 4 * 2 ^ 25 + low % 2 ^ 25)

/-- A record under another number: its lap follows (R308). -/
def Record.renumber (r : Record) (l n : Nat) : Record :=
  { r with
    number := n
    words := match r.words with
      | w :: ws => setBits w 27 27 (n / (128 * l)) :: ws
      | [] => [] }

/-- Records numbered from `first` on, under a ring of `l` LBAs. -/
def numberFrom (l first : Nat) (rs : List Record) : List Record :=
  (List.zip rs (List.range rs.length)).map fun q => q.1.renumber l (first + q.2)

/-- The lowest severity in a list, 4 for none. -/
def lowestSev (l : List Nat) : Nat := l.foldl min 4

/-- Staging holds 65,536 records (R310). -/
def stagingMax : Nat := 65536

/-- The first number not yet assigned to a stored record: staging follows it. -/
def State.hstFirst (s : State) : Nat := s.hstHead - s.hst.staging.length

/-- The number of a marker that is waited for, after record `n` was evicted. -/
def Waiting.evicted (n : Nat) : Waiting → Waiting
  | .storeMark (some m) => .storeMark (if m = n then none else if m < n then some m else some (m - 1))
  | w => w

/-- The oldest staged record of severity `sev` is evicted. It keeps no number, so the records after it
move up by one (R310; log entry 41). -/
def State.evictRecord (s : State) (sev : Nat) : State :=
  let i := s.hst.staging.findIdx (·.severity.toNat = sev)
  let first := s.hstFirst
  let l := (s.rd Reg.hstRing).toNat
  let s := s.setHstHead (s.hstHead - 1)
  { s with
    hst := { s.hst with
      staging := numberFrom l first (s.hst.staging.eraseIdx i)
      flushing := if i < s.hst.flushing then s.hst.flushing - 1 else s.hst.flushing }
    hif := { s.hif with busy := s.hif.busy.map fun q => (q.1, q.2.1, q.2.2.evicted (first + i)) } }

/-- A record enters staging and takes its number. A fill of HST_FLUSH.level sixteenths or a marker makes
a flush due (R309, R311). -/
def State.appendRecord (s : State) (typ sev low : Nat) (ws : List W32) : State :=
  let n := s.hstHead
  let r : Record :=
    { number := n, severity := BitVec.ofNat 2 sev, words := recordWord0 s typ n sev low :: ws }
  let lvl := s.fget F.hstFlush_level
  let lvl := if lvl = 0 then 16 else lvl
  let st := s.hst.staging ++ [r]
  let due := typ = 4 || st.length ≥ lvl * (stagingMax / 16)
  { s.setHstHead (n + 1) with
    hst := { s.hst with staging := st, flushDue := s.hst.flushDue || due } }

/-- A record is formed: it evicts another or is dropped when staging is full (R310). -/
def State.stageRecord (s : State) (typ sev low : Nat) (ws : List W32) : State :=
  if s.hst.staging.length < stagingMax then s.appendRecord typ sev low ws
  else
    let least := lowestSev (s.hst.staging.map (·.severity.toNat))
    let s := s.count Reg.hstCntDrop
    if least ≤ sev then (s.evictRecord least).appendRecord typ sev low ws else s

/-! ### Events (R371-R373) -/

/-- PMN_TAI.sec, or 0 while tai_valid = 0 (R371). -/
def State.tai (s : State) : W32 :=
  if s.flag F.pmnStat_taiValid then s.rd Reg.pmnTai else 0

/-- Event staging holds 16,384 entries (R372). -/
def eventMax : Nat := 16384

/-- The oldest event of a severity removed, with the ring it was for. -/
def dropEvent (sev : Nat) : List Event → List Event × Option Bool
  | [] => ([], none)
  | e :: es =>
    if e.severity.toNat = sev then (es, some e.ring)
    else let r := dropEvent sev es; (e :: r.1, r.2)

/-- Marks a ring as having lost an event (R372). -/
def State.lostOn (s : State) (ring : Bool) : State :=
  { s with evt := if ring then { s.evt with lost1 := true } else { s.evt with lost0 := true } }

/-- An event enters event staging, evicting or being dropped when staging is full (R372). -/
def State.stageEvent (s : State) (e : Event) : State :=
  if s.evt.staged.length < eventMax then
    { s with evt := { s.evt with staged := s.evt.staged ++ [e] } }
  else
    let low := lowestSev (s.evt.staged.map (·.severity.toNat))
    let s := s.count Reg.evtCntDrop
    if low ≤ e.severity.toNat then
      let r := dropEvent low s.evt.staged
      { s.lostOn (r.2.getD false) with evt := { (s.lostOn (r.2.getD false)).evt with staged := r.1 ++ [e] } }
    else s.lostOn e.ring

/-- The event code: block and index (R371). -/
def EvName.code (e : EvName) : Nat := e.block * 256 + e.index

/-- EVT_CFG.deliver and EVT_MASK let the event into staging (R373). -/
def State.delivers (s : State) (e : EvName) : Bool :=
  (s.fget F.evtCfg_deliver).testBit e.sev && !bit (s.rd (Reg.evtMask e.block)) e.index

/-- An event with parameters 1 to 5 (R371) is staged for its ring, and is recorded in the history
store when its severity is at least HST_CFG.evt_sev (R309). -/
def State.raiseAs (s : State) (deliver ring : Bool) (e : EvName) (ps : List W32) : State :=
  let ev : Event :=
    { severity := BitVec.ofNat 2 e.sev, code := BitVec.ofNat 16 e.code, params := ps, tai := s.tai,
      frame := s.clock.frame, ring := ring }
  let s := if deliver then s.stageEvent ev else s
  if s.fget F.hstCfg_evtSev ≤ e.sev then
    s.stageRecord 2 e.sev e.code (ps ++ [s.tai, s.clock.frame])
  else s

/-- An event is raised (R371-R373): instance, second instance, reason, two counts. -/
def State.raise (s : State) (e : EvName) (w1 : Nat := 0) (w2 : Nat := 0) (w3 : Nat := 0)
    (w4 : Nat := 0) (w5 : Nat := 0) : State :=
  s.raiseAs (s.delivers e) ((s.fget F.evtCfg_ring).testBit e.sev) e
    [BitVec.ofNat 32 w1, BitVec.ofNat 32 w2, BitVec.ofNat 32 w3, BitVec.ofNat 32 w4,
     BitVec.ofNat 32 w5]

/-- An event that reports a fault of R382 is also recorded in FLT_LAST (R380, R394). -/
def State.report (s : State) (e : EvName) (w1 : Nat := 0) (w2 : Nat := 0) (w3 : Nat := 0)
    (w4 : Nat := 0) (w5 : Nat := 0) : State :=
  let s := s.raise e w1 w2 w3 w4 w5
  (s.wr Reg.fltLast (BitVec.ofNat 32 (e.code * 2 ^ 16 + w1 % 2 ^ 16))).fbit F.fltStat_lastValid true

/-- Sets bits of a sticky register. The block's event is raised when a bit that is set in the enable
register becomes set (log entry 36); `fault` names the bits whose event reports a fault (R380). -/
def State.sticky (s : State) (reg en : Nat) (m : W32) (e : EvName) (inst : Nat := 0) (fault : W32 := 0) :
    State :=
  let hit := m &&& ~~~(s.rd reg) &&& s.rd en
  let s := s.wr reg (s.rd reg ||| m)
  if hit = 0 then s else if hit &&& fault = 0 then s.raise e inst else s.report e inst

/-- A write of an enable register: a bit that becomes enabled while its history bit is set raises the
event. -/
def State.enableWrite (s : State) (reg en : Nat) (v : W32) (e : EvName) (inst : Nat := 0) (fault : W32 := 0) :
    State :=
  let hit := v &&& ~~~(s.rd en) &&& s.rd reg
  let s := s.wr en v
  if hit = 0 then s else if hit &&& fault = 0 then s.raise e inst else s.report e inst

/-! ### Uncorrectable words (R339) -/

/-- MEM_UE with its address and count (R339): the counter memory is named bank 511. -/
def State.sayUe (s : State) (bank word : Nat) : State :=
  let b := if bank = 388 then 511 else bank
  let s := s.wr Reg.memUeAddr (BitVec.ofNat 32 (2 ^ 31 + b * 2 ^ 16 + word))
  (s.count Reg.memCntUe).report Ev.memUe b word

/-- An uncorrectable word found by any reader is reported the first time since it was written
(R339). -/
def State.foundUe (s : State) (bank word : Nat) : State :=
  match s.sram.damage.find? (·.1 = damageKey bank word) with
  | some (_, d) =>
    if d.double && !d.reported then
      let s := { s with sram := { s.sram with
        damage := s.sram.damage.insert (damageKey bank word) ⟨true, true⟩ } }
      s.sayUe bank word
    else s
  | none => s

/-- The same for the word at a BAR2 offset. -/
def State.foundUeAt (s : State) (a : Nat) : State := s.foundUe (a / 131072) (a % 131072 / 4)

/-- Word 1 of an entry has the structural layout: types 1-7 on an SDH lane (R56). -/
def State.structuralWord (s : State) (w0 : W32) : Bool :=
  bits w0 23 18 < 48 && (s.lane (bits w0 23 18)).role = 4 && 1 ≤ bits w0 30 27 && bits w0 30 27 ≤ 7

/-- The bits of word 1 that are not reserved in its present layout (R56). -/
def State.path1Mask (s : State) (p : Nat) : W32 :=
  if s.structuralWord (s.pathWord p 0) then 0xFFF80000 else 0x003FFFFF

/-- A word behind BAR2 as it reads: the reserved bits of word 1 of a path table entry read 0 (R7, R56; log
entry 17). -/
def State.shownWord (s : State) (a : Nat) : W32 :=
  if 0x1000000 ≤ a && a < 0x1800000 && a % 32 = 4 then s.memWord a &&& s.path1Mask ((a - 0x1000000) / 32)
  else s.memWord a

/-- A word as the host or another housekeeping requester reads it (R339). -/
def State.hkRead (s : State) (a : Nat) : W32 × State :=
  if s.ueAt a then (0xFFFFFFFF, s.foundUeAt a) else (s.shownWord a, s)

/-- A word as the host or another housekeeping requester writes it (R340). -/
def State.hkWrite (s : State) (a : Nat) (be : BitVec 4) (v : W32) : State :=
  (s.mend a be).putWord a be v

/-- A host write of a register sets new parity (R387). -/
def State.mendReg (s : State) (a : Nat) : State :=
  { s with sram := { s.sram with regBad := s.sram.regBad.filter (· ≠ a) } }

/-- The data of a completed read. -/
def State.readBack (s : State) (v : W32) : State :=
  { s with io := { s.io with readData := v, readError := false } }

/-! ### Speed counters (R297) -/

/-- The 48-bit count of a speed counter. -/
def State.speedCount (s : State) (i : Nat) : Nat :=
  (s.rd (Reg.cntLo i)).toNat + 2 ^ 32 * s.fget (F.cntHi_hi i)

/-- Sets the 48-bit count; `ovf` is set when the number does not fit. -/
def State.setSpeed (s : State) (i n : Nat) : State :=
  let s := (s.wr (Reg.cntLo i) (BitVec.ofNat 32 n)).fset (F.cntHi_hi i) (n / 2 ^ 32)
  if n < 2 ^ 48 then s else s.fbit (F.cntHi_ovf i) true

/-- The key of a word of the counter memory in the table of damaged words. -/
def counterKey (w : CounterWord) : Nat := damageKey 388 (Config.counterPlace w % 32768)

/-- A word of the counter memory that an increment finds uncorrectable: it is written with new check bits, and its
MEM_UE is due unless it has been reported (R339, R384). -/
def State.rewriteCounter (s : State) (w : CounterWord) : State :=
  let k := counterKey w
  let said := ((s.sram.damage.find? (·.1 = k)).map (·.2)).any (·.reported)
  { s with sram := { s.sram with
      damage := s.sram.damage.erase k
      writeback := s.sram.writeback.filter fun p => damageKey p.1 p.2 ≠ k
      ueDue := if said then s.sram.ueDue else s.sram.ueDue ++ [Config.counterPlace w % 32768] } }

/-- The count of a speed counter grows. A half that cannot be corrected becomes all-ones with ovf set (R384); a low
half whose value is lost carries nothing into the high half. -/
def State.addSpeed (s : State) (i n : Nat) : State :=
  let lo := (s.rd (Reg.cntLo i)).toNat
  if n = 0 then s
  else if s.ueKey (counterKey (.speedLo i)) then
    ((s.rewriteCounter (.speedLo i)).wr (Reg.cntLo i) 0xFFFFFFFF).fbit (F.cntHi_ovf i) true
  else if 2 ^ 32 ≤ lo + n && s.ueKey (counterKey (.speedHi i)) then
    (((s.rewriteCounter (.speedHi i)).wr (Reg.cntLo i) (BitVec.ofNat 32 (lo + n))).fset (F.cntHi_hi i) 0xFFFF).fbit
      (F.cntHi_ovf i) true
  else s.setSpeed i (s.speedCount i + n)

/-- A speed counter grows by `n`, and so does its window sum (R297, R298). -/
def State.speed (s : State) (i n : Nat) : State :=
  let s := s.addSpeed i n
  { s with pm := { s.pm with window := s.pm.window.put 0 i (s.pm.window.get 0 i + n) } }

/-- An engine's speed counter grows by the cost of a row or frame; its window holds the largest. -/
def State.speedCost (s : State) (i n : Nat) : State :=
  let s := s.addSpeed i n
  { s with pm := { s.pm with window := s.pm.window.put 0 i (max (s.pm.window.get 0 i) n) } }

/-! ### The next frame (R18, R224, R262) -/

/-- The alignment step of the next frame mark. -/
def State.stepNext (s : State) : Option StepTo :=
  match s.clock.step with
  | some (1, k) => some k
  | _ => none

/-- The number of the frame that the next frame mark begins: 0 after boot (R398), that of an alignment step, else one
more than the present one. -/
def State.frameAfter (s : State) : BitVec 32 :=
  let c := s.clock
  match s.stepNext with
  | some .master => (s.fab.masterNum.getD c.frame) + 1
  | some (.number n) => n
  | _ => if c.started then c.frame + 1 else c.frame

/-- A step that has been decided falls on the second frame mark to come (R224, R262). -/
def State.decideStep (s : State) (k : StepTo) : State := { s with clock := { s.clock with step := some (2, k) } }

/-! ### Flip messages -/

/-- The message that row 1 carries: the coordinator's before the member's. -/
def State.sentMsg (s : State) : FlipMsg :=
  match s.flip.out with
  | m :: _ => m
  | [] => if s.flip.answerOn then s.flip.answer.getD FlipMsg.none else FlipMsg.none

/-! ### Host access -/

/-- Blocks of BAR0 whose writes are taken while RST_STAT.busy is set: EVT, RST and HIF (R402). -/
def busyBlock (a : Nat) : Bool := (0x4000 ≤ a && a < 0x10000) || (0x120000 ≤ a && a < 0x128000)

/-- A host write to a register of BAR0 whose effect is `f`: a word received (R297), discarded while a reset
is in progress (R402), and new parity (R387) (log entry 59). -/
def State.fromHost (s : State) (a : Nat) (f : State → State) : State :=
  let s := s.speed 96 4
  if s.flag F.rstStat_busy && !busyBlock a then s else f (s.mendReg a)

/-- A host read whose effect is `f`: a word sent (R297). -/
def State.toHost (s : State) (f : State → State) : State := (f s).speed 97 4

end Sys2Proof.Machine
end

