-- ==== Sys2Proof/Machine/Complete.lean ====
section
/-! DEFINITION. The completion of a ring command (R370). -/

namespace Sys2Proof.Machine

/-- Status codes of R370. -/
def csOk : Nat := 0x00
def csBadOpcode : Nat := 0x01
def csBadOperand : Nat := 0x02
def csRejected : Nat := 0x03
def csDmaError : Nat := 0x04
def csStale : Nat := 0x05
def csNotYet : Nat := 0x06
def csNoStore : Nat := 0x07
def csAborted : Nat := 0x08
def csMate : Nat := 0x09
def csLifecycle : Nat := 0x0A

/-- Word `i` of a command entry. -/
def CmdEntry.w (c : CmdEntry) (i : Nat) : W32 := c.words.getD i 0

/-- The one CMD_DONE of a command on ring `r`, delivered to the ring it names whatever EVT_CFG and
EVT_MASK hold (R370, R373). -/
def State.finish (s : State) (r : Nat) (c : CmdEntry) (status : Nat) (reason : Nat := 0) (r0 : Nat := 0)
    (r1 : Nat := 0) : State :=
  let s := s.count Reg.hifCntCmd
  let s := if status = csDmaError then s.count Reg.hifCntDmaerr else s
  let w1 := BitVec.ofNat 32 (bits (c.w 0) 31 24 * 2 ^ 24 + status * 2 ^ 16 + bits (c.w 0) 15 0)
  let w2 := BitVec.ofNat 32 (r * 2 ^ 16 + c.index.toNat)
  s.raiseAs true (bit (c.w 0) 16) Ev.cmdDone
    [w1, w2, BitVec.ofNat 32 reason, BitVec.ofNat 32 r0, BitVec.ofNat 32 r1]

/-- The device may issue DMA (R366); none without a link (R376). -/
def State.dmaOn (s : State) : Bool := s.hif.bme && !s.hif.d3hot && s.fget F.hifStat_rate ≠ 0

/-- A command in progress on ring `r` waits. -/
def State.awaitOn (s : State) (r : Nat) (c : CmdEntry) (w : Waiting) : State :=
  { s with hif := { s.hif with busy := s.hif.busy.insert r (c, w) } }

/-- Every command that waits for something that `p` selects completes with the status and results that
`f` gives. -/
def State.finishAll (s : State) (p : Waiting → Bool) (f : Waiting → Nat × Nat × Nat × Nat) : State :=
  let done := s.hif.busy.filter fun q => p q.2.2
  let s := { s with hif := { s.hif with busy := s.hif.busy.filter fun q => !p q.2.2 } }
  done.foldl (fun s q => s.finish q.1 q.2.1 (f q.2.2).1 (f q.2.2).2.1 (f q.2.2).2.2.1 (f q.2.2).2.2.2) s

end Sys2Proof.Machine
end

