-- ==== Sys2Proof/Machine/Rows.lean ====
section
/-! DEFINITION. Rows of a canvas with their word flags (R35-R38). -/

namespace Sys2Proof

/-! ### Rows -/

/-- All-ones with CON: what an uncorrectable or missing word reads as (R13, R20, R434). -/
def badCell (seq : Bool) : Cell := ⟨0xFF, true, seq⟩

/-- The cell of payload column `c`. -/
def Row.at (r : Row) (c : Nat) : Cell := r.cells.get r.dflt c

/-- The row with one cell replaced. -/
def Row.set (r : Row) (c : Nat) (x : Cell) : Row := { r with cells := r.cells.put r.dflt c x }

/-- One change applied to every cell of the row. -/
def Row.map (r : Row) (f : Cell → Cell) : Row :=
  ⟨f r.dflt, (r.cells.map fun p => (p.1, f p.2)).filter fun p => p.2 ≠ f r.dflt⟩

/-- One change applied to the listed columns. -/
def Row.mapAt (r : Row) (f : Cell → Cell) : List Nat → Row
  | [] => r
  | c :: cs => (r.set c (f (r.at c))).mapAt f cs

/-- A row of all-ones with CON. -/
def Row.bad (seq : Bool) : Row := ⟨badCell seq, []⟩

/-- CON added to a cell. -/
def Cell.mark (x : Cell) : Cell := { x with con := true }

/-- The two columns of a slot word share its CON and SEQ (R35, R36, R38): CON is the OR of both,
SEQ that of the even column. -/
def Row.pairUp (r : Row) : Row :=
  go r (r.cells.map fun p => p.1 / 2)
where
  go (r : Row) : List Nat → Row
    | [] => r
    | q :: qs =>
      let a := r.at (2 * q)
      let b := r.at (2 * q + 1)
      let c := a.con || b.con
      go ((r.set (2 * q) { a with con := c }).set (2 * q + 1) { b with con := c, seq := a.seq }) qs

/-- The row from which columns `n` on were not emitted: they are all-ones with CON (R17, R20). -/
def Row.cutFrom (r : Row) (n w : Nat) (x : Cell) : Row :=
  ⟨x, ((List.range (min n w)).map fun c => (c, r.at c)).filter fun p => p.2 ≠ x⟩

/-- Octets of a row `w` columns wide that carry no CON. -/
def Row.healthy (r : Row) (w : Nat) : Nat :=
  let listed := r.cells.filter fun p => p.1 < w
  (listed.filter fun p => !p.2.con).length + (if r.dflt.con then 0 else w - listed.length)

end Sys2Proof
end

