-- ==== Sys2Proof/Machine/Canvas.lean ====
section
/-! DEFINITION. The geometry of canvases (R31-R34, R433), the columns of AUs (R64, R65) and of paths
(R55-R58), rows with their word flags (R36-R40), the lane condition and the conditions of paths
(R39, R56, R383). -/

namespace Sys2Proof.Machine

/-! ### Lane geometry (R32) -/

/-- Role codes of R269. -/
def roleNative : Nat := 1
def roleFabric : Nat := 2
def roleMate : Nat := 3
def roleSdh : Nat := 4

/-- N of an STM-N rate code; 0 for an Amenamin rate. -/
def stmN (rate : Nat) : Nat := if rate < 4 then 4 ^ rate else 0

/-- Payload columns of a rate code (R32). -/
def ratePay (rate : Nat) : Nat :=
  if rate < 4 then 261 * 4 ^ rate
  else if rate = 4 then 4284 else if rate = 5 then 17136 else if rate = 6 then 42840 else 0

/-- Columns of a V-lane (R32). -/
def vCols : Nat := 36864

/-- Role and rate in force on a lane (R270). -/
def State.role (s : State) (l : Nat) : Nat := (s.lane l).role.toNat
def State.rate (s : State) (l : Nat) : Nat := (s.lane l).rate.toNat
def State.isSdh (s : State) (l : Nat) : Bool := s.role l = roleSdh
def State.isAmenamin (s : State) (l : Nat) : Bool :=
  s.role l = roleNative || s.role l = roleFabric || s.role l = roleMate

/-- Payload columns of a lane or V-lane at its present rate; none while OFF. -/
def State.payCols (s : State) (src : Nat) : Nat :=
  if src < 48 then (if s.role src = 0 then 0 else ratePay (s.rate src))
  else if src < 56 then vCols else 0

/-- The stage of a lane (SDS_STAT.stage). -/
def State.stage (s : State) (l : Nat) : Nat := s.fget (F.sdsStat_stage l)
def stageActive : Nat := 5

/-! ### AUs of an SDH lane (R64, R65) -/

/-- LTM_CFG.au3 as it acts: 0 at STM-64 (R64). -/
def State.au3 (s : State) (l : Nat) : Bool := s.flag (F.ltmCfg_au3 l) && s.rate l ≠ 3

/-- AU numbers of a lane. -/
def State.auCount (s : State) (l : Nat) : Nat :=
  if s.au3 l then 3 * stmN (s.rate l) else stmN (s.rate l)

/-- au_type and nc of an LTM_AU_CFG value. -/
def auTypeOf (v : W32) : Nat := bits v 31 30
def auNcOf (v : W32) : Nat := bits v 29 28

/-- AUG-1s that an AU-4-Nc spans: 4, 16 or 64. -/
def ncSize (nc : Nat) : Nat := 4 * 4 ^ nc

/-- AU numbers that an entry takes beside its own, were it lawful (R65): the members. -/
def auSpan (au3 : Bool) (v : W32) (n : Nat) : List Nat :=
  let step := if au3 then 3 else 1
  let k := n / step
  if auTypeOf v = 1 then (if au3 then [n + 1, n + 2] else [])
  else if auTypeOf v = 3 then
    ((List.range (step * ncSize (auNcOf v))).map (· + step * k)).filter (· ≠ n)
  else []

/-- The rules of R65 that an entry meets or breaks by itself. -/
def auShapeOk (au3 : Bool) (nStm : Nat) (v : W32) (n : Nat) : Bool :=
  let step := if au3 then 3 else 1
  let k := n / step
  match auTypeOf v with
  | 0 => true
  | 1 => n % step = 0 && k < nStm
  | 2 => au3 && k < nStm
  | _ => n % step = 0 && auNcOf v ≠ 3 && k % ncSize (auNcOf v) = 0 && ncSize (auNcOf v) ≤ nStm &&
      k < nStm

/-- The AU whose member `n` is, among the entries of a lane. -/
def auHead? (au3 : Bool) (nStm : Nat) (cfg : Nat → W32) (n : Nat) : Option Nat :=
  (List.range 64).find? fun h => auShapeOk au3 nStm (cfg h) h && (auSpan au3 (cfg h) h).contains n

/-- An entry keeps the rules of R65 among the entries of its lane. -/
def auLawful (au3 : Bool) (nStm : Nat) (cfg : Nat → W32) (n : Nat) : Bool :=
  auTypeOf (cfg n) = 0 || (auShapeOk au3 nStm (cfg n) n && (auHead? au3 nStm cfg n).isNone)

/-- The AU entry in force, and whether it acts. -/
def State.auCfg (s : State) (l n : Nat) : W32 := (s.au l n).cfg

/-- au_type as it acts: 0 for an entry that breaks R65. -/
def State.auType (s : State) (l n : Nat) : Nat :=
  if (s.au l n).unlawful then 0 else auTypeOf (s.auCfg l n)

/-- The AU that `n` is a member of. -/
def State.auMemberOf (s : State) (l n : Nat) : Option Nat :=
  auHead? (s.au3 l) (stmN (s.rate l)) (fun h => if (s.au l h).unlawful then 0 else s.auCfg l h) n

/-- Payload columns of AU `n`: those of R34 for an AU-4, R64 for an AU-3; an AU-4-Nc has those of
all its AUG-1s. -/
def State.auCols (s : State) (l n : Nat) : List Nat :=
  let nStm := stmN (s.rate l)
  let au3 := s.au3 l
  let k := if au3 then n / 3 else n
  let t := s.auType l n
  if t = 3 then
    ((List.range (ncSize (auNcOf (s.auCfg l n)))).map fun i =>
      (List.range 261).map fun j => nStm * j + k + i).flatten
  else if t = 2 || (t = 0 && au3) then
    (List.range 87).map fun j => nStm * (3 * j + n % 3) + k
  else (List.range 261).map fun j => nStm * j + k

/-- The state of an AU's pointer interpreter: 0 NORM, 1 AIS, 2 LOP, 3 member (LTM_AU_STAT). -/
def State.ptrState (s : State) (l n : Nat) : Nat := s.fget (F.ltmAuStat_ptrState l n)

/-! ### Path table entries (R55-R58) -/

/-- Fields of words 0-2 of an entry (R56). -/
structure PathGeo where
  typ    : Nat
  lane   : Nat
  au     : Nat
  tug3   : Nat
  tug2   : Nat
  tu     : Nat
  first  : Nat
  stride : Nat
  count  : Nat
  deriving DecidableEq, Repr

def PathGeo.ofWords (w0 w1 w2 : W32) : PathGeo :=
  { typ := bits w0 30 27, lane := bits w0 23 18, au := bits w1 31 26, tug3 := bits w1 25 24,
    tug2 := bits w1 23 21, tu := bits w1 20 19, first := bits w1 21 0, stride := bits w2 31 16,
    count := bits w2 15 0 }

/-- A structural entry: types 1-7 on an SDH lane (R56). -/
def State.structural (s : State) (g : PathGeo) : Bool :=
  g.lane < 48 && s.isSdh g.lane && 1 ≤ g.typ && g.typ ≤ 7

/-- VC-4 columns of a lower-order path (R34), and VC-3 columns of one in an AU-3 (R433). -/
def loCols (inAu3 : Bool) (g : PathGeo) : List Nat :=
  if g.typ = 4 then (List.range 86).map fun i => 3 + 3 * i + g.tug3
  else
    let ms : List Nat :=
      if g.typ = 5 then List.range 12
      else if g.typ = 6 then (List.range 4).map fun n => 3 * n + g.tu
      else (List.range 3).map fun n => 4 * n + g.tu
    if inAu3 then
      ms.map fun m => let i := 7 * m + g.tug2; 1 + i + i / 28
    else ms.map fun m => 9 + 21 * m + 3 * g.tug2 + g.tug3

/-- Payload columns (types 1-7, 11) or octet addresses (types 8-10) of the grains of an entry. -/
def State.grains (s : State) (g : PathGeo) : List Nat :=
  if s.structural g then
    let nStm := stmN (s.rate g.lane)
    if g.typ ≤ 3 then s.auCols g.lane g.au
    else
      let inAu3 := s.auType g.lane g.au = 2
      let k := if s.au3 g.lane then g.au / 3 else g.au
      (loCols inAu3 g).map fun j =>
        if inAu3 then nStm * (3 * j + g.au % 3) + k else nStm * j + k
  else
    let n :=
      if g.typ = 8 then 32 else if g.typ = 9 then 24 else if g.typ = 10 then 1
      else if g.typ = 6 then 4 else if g.typ = 7 then 3 else if g.typ = 5 then 12
      else if g.typ = 4 then 86 else if g.typ = 3 then 87 else if g.typ = 2 then 261
      else if g.typ = 1 then 261 * (g.count + 1) else g.count + 1
    (List.range n).map fun i => g.first + i * max 1 g.stride

/-- Column or address `c` is a grain of the entry. -/
def State.owns (s : State) (g : PathGeo) (c : Nat) : Bool := (s.grains g).contains c

/-- Octet addresses of the frame store: 8 V-lanes of 36,864 columns and 9 rows. -/
def octetAddrs : Nat := 2654208

/-- A structural entry names an AU of the matching kind (R58, R433). -/
def State.auMatches (s : State) (g : PathGeo) : Bool :=
  let t := s.auType g.lane g.au
  if s.au3 g.lane = false && g.au ≥ stmN (s.rate g.lane) then false
  else
    match g.typ with
    | 1 => t = 3 && ncSize (auNcOf (s.auCfg g.lane g.au)) = g.count + 1
    | 2 => t = 1
    | 3 => t = 2
    | 4 => t = 1 && g.tug3 ≤ 2
    | _ => (t = 1 && g.tug3 ≤ 2) || (t = 2 && g.tug3 = 0)

/-- The entry's grains lie within its lane or the frame store and its lane exists (R58). -/
def State.inRange (s : State) (g : PathGeo) : Bool :=
  if g.lane ≥ 56 then false
  else if s.structural g then
    s.auMatches g && (g.typ ≤ 4 || g.tug2 ≤ 6) && (g.typ ≠ 6 || g.tu ≤ 2)
  else if 8 ≤ g.typ && g.typ ≤ 10 then (s.grains g).all (· < octetAddrs)
  else if g.lane < 48 && (s.isSdh g.lane || s.role g.lane = 0) && g.typ ≤ 7 then false
  else (s.grains g).all (· < s.payCols g.lane)

/-- Type codes of R55 that an entry may hold. -/
def typeOk (t : Nat) : Bool := 1 ≤ t && t ≤ 11

/-! ### MSP groups as the rows and paths see them (R204, R205) -/

/-- Channel lane of controller `g`: the protect lane for channel 0, else the lane of APS_WL. -/
def State.apsLane (s : State) (g c : Nat) : Nat :=
  if c = 0 then s.fget (F.apsCfg_protLane g)
  else
    let j := (c - 1) % 5
    bits (s.rd (Reg.apsWl g ((c - 1) / 5))) (6 * j + 5) (6 * j)

/-- Channels of controller `g`. -/
def State.apsN (s : State) (g : Nat) : Nat := s.fget (F.apsCfg_n g)

/-- The enabled controllers. -/
def State.apsOn (s : State) : List Nat := (List.range 24).filter fun g => s.flag (F.apsCfg_en g)

/-- The controller and channel of a lane, if an enabled controller owns it. -/
def State.apsOwner (s : State) (l : Nat) : Option (Nat × Nat) :=
  (s.apsOn.flatMap fun g =>
    ((List.range (s.apsN g + 1)).filter fun c => s.apsLane g c = l).map fun c => (g, c)).head?

/-- The lane whose data serve lane `l`: the protect lane while channel c of `l` is selected (R205). -/
def State.servedBy (s : State) (l : Nat) : Nat :=
  match s.apsOwner l with
  | some (g, c) => if c ≥ 1 && s.fget (F.apsStat_selected g) = c then s.apsLane g 0 else l
  | none => l

/-- The working lane that protect lane `l` stands in for, if any (R205). -/
def State.standsFor (s : State) (l : Nat) : Option Nat :=
  match s.apsOwner l with
  | some (g, 0) =>
    let c := s.fget (F.apsStat_selected g)
    if c ≥ 1 then some (s.apsLane g c) else none
  | _ => none

/-- Lanes whose paths are evaluated from the data of lane `l` (R205). -/
def State.evaluatedFrom (s : State) (l : Nat) : List Nat :=
  match s.standsFor l with
  | some w => [l, w]
  | none => if s.servedBy l = l then [l] else []

/-! ### Conditions (R39, R56, R383) -/

/-- An uncorrectable word in the entry of a path (R383). -/
def State.entryBad (s : State) (p : Nat) : Bool :=
  (List.range 8).any fun w => s.ueAt (pathAddr p w)

/-- LOS, LOF or MS-AIS on an SDH lane; LOS, OOF or LOF on an Amenamin lane (R39). -/
def State.laneDefect (s : State) (l : Nat) : Bool :=
  if s.isSdh l then s.flag (F.ltmStat_los l) || s.flag (F.ltmStat_lof l) || s.flag (F.ltmStat_msAis l)
  else s.flag (F.sdsStat_los l) || (s.lane l).framer = .oof || (s.lane l).lof

/-- The lane condition: a defect, a stage other than ACTIVE (R39, R276), or STANDBY (R279). -/
def State.laneFail (s : State) (l : Nat) : Bool :=
  s.laneDefect l || s.stage l ≠ stageActive || s.fget (F.sdsStat_pwr l) ≠ 0

/-- The condition of words 0 and 3 of an entry (R56). While the path is not monitored, only shed
and force_con count (R57). -/
def condOf (w0 w3 : W32) : Bool :=
  let mon := bit w0 24
  bit w0 17 || bit w3 21 ||
  (mon && (bit w3 31 || bit w3 30 || bit w3 29 || (bit w3 28 && bit w0 16) ||
    (bit w3 27 && bit w0 15) || (bit w3 26 && bit w0 14) || bit w3 25 || bit w3 24 || bit w3 22))

/-- The condition of a valid path, 1 while a word of its entry is uncorrectable, and until the entry is applied again
(R383). -/
def State.cond (s : State) (p : Nat) : Bool :=
  match (s.path p).entry with
  | none => false
  | some (w0, _, _) => s.entryBad p || (s.path p).again || condOf w0 (s.pathWord p 3)

/-- Device writes of words 3 and 4: lane_fail from the lane, and the condition (R57). -/
def State.refreshPath (s : State) (p : Nat) : State :=
  match (s.path p).entry with
  | none => s
  | some (w0, _, _) =>
    let l := bits w0 23 18
    let s :=
      if bit w0 24 && l < 48 then
        s.setPathWord p 3 (setBits (s.pathWord p 3) 31 31 (b2n (s.laneFail (s.servedBy l))))
      else s
    s.setPathWord p 4 (setBits (s.pathWord p 4) 31 31 (b2n (s.cond p)))

/-- Paths that a list of state entries names, refreshed. -/
def State.refreshAll (s : State) : List Nat → State
  | [] => s
  | p :: ps => (s.refreshPath p).refreshAll ps

/-- The valid paths of a lane. -/
def State.pathsOn (s : State) (l : Nat) : List Nat :=
  (s.pathList.filter fun q =>
    match q.2.entry with
    | some (w0, _, _) => bits w0 23 18 = l
    | none => false).map (·.1)

/-- The paths evaluated from the data of lane `l` (R205). -/
def State.pathsFrom (s : State) (l : Nat) : List Nat := (s.evaluatedFrom l).flatMap s.pathsOn

/-- One row in units of 1/46,080 row, in which the AU delay A is held. -/
def auRow : Nat := 46080

/-- The delay A of an AU in rows, rounded up: rows that still carry CON after a defect (R76). -/
def State.auTailRows (s : State) (l n : Nat) : Nat := ((s.au l n).a + (auRow - 1)) / auRow

/-- A defect of R75 that flags the grains of a path. -/
def ingressCond (w0 w3 : W32) : Bool :=
  bit w3 30 || bit w3 29 || (bit w3 28 && bit w0 16) || (bit w3 27 && bit w0 15) || (bit w3 26 && bit w0 14)

/-- When the last such defect of a path of an SDH lane clears, its grains carry CON for as many rows more as its AU
is delayed (R76). -/
def State.startPathTail (s : State) (p : Nat) (w0 w1 old : W32) : State :=
  let l := s.servedBy (bits w0 23 18)
  if ingressCond w0 old && !ingressCond w0 (s.pathWord p 3) && s.structural (PathGeo.ofWords w0 w1 0) then
    s.onPath p fun x => { x with tail := max x.tail (s.auTailRows l (bits w1 31 26)) }
  else s

/-- Changes to a defect of word 3 of a monitored path (R57). -/
def State.setDefect (s : State) (p bitNo : Nat) (on : Bool) : State :=
  match (s.path p).entry with
  | none => s
  | some (w0, w1, _) =>
    if bit w0 24 then
      let old := s.pathWord p 3
      ((s.setPathWord p 3 (setBits old bitNo bitNo (b2n on))).startPathTail p w0 w1 old).refreshPath p
    else s

/-- The same for each path of a list. -/
def State.setDefects (s : State) (bitNo : Nat) (on : Bool) : List Nat → State
  | [] => s
  | p :: ps => (s.setDefect p bitNo on).setDefects bitNo on ps

/-- Monitored paths of types 1-3 on an AU (R71). -/
def State.auPaths (s : State) (l n : Nat) : List Nat :=
  (s.pathsFrom l).filter fun p =>
    match (s.path p).entry with
    | some (w0, w1, _) =>
      bit w0 24 && 1 ≤ bits w0 30 27 && bits w0 30 27 ≤ 3 && bits w1 31 26 = n
    | none => false

/-- Monitored lower-order paths, types 4-7, on an AU (R72). -/
def State.loPaths (s : State) (l n : Nat) : List Nat :=
  (s.pathsFrom l).filter fun p =>
    match (s.path p).entry with
    | some (w0, w1, _) =>
      bit w0 24 && 4 ≤ bits w0 30 27 && bits w0 30 27 ≤ 7 && bits w1 31 26 = n
    | none => false

/-- Every AU of the lane keeps CON for the rows received under the defect (R76). -/
def State.startTails (s : State) (l : Nat) : List Nat → State
  | [] => s
  | n :: ns =>
    (s.onAu l n fun a => { a with tail := max a.tail (s.auTailRows l n) }).startTails l ns

/-- A change of the state of a lane, with what follows from a change of its condition: lane_fail in
its paths (R75), and CON on what was received under it (R76). -/
def State.onCondition (s : State) (l : Nat) (f : State → State) : State :=
  let was := s.laneDefect l
  let s := f s
  let s := if was && !s.laneDefect l && s.isSdh l then s.startTails l (List.range (s.auCount l)) else s
  s.refreshAll (s.pathsFrom l)

/-! ### Flags of a received row (R39) -/

/-- CON by AU-AIS, LOP or what follows them: not in NORM, or rows still due under R68, R69, R76. -/
def State.auCon (s : State) (l n : Nat) : Bool :=
  s.ptrState l n = 1 || s.ptrState l n = 2 || (s.au l n).tail > 0 || (s.au l n).nine > 0

/-- CON on the columns of every AU that calls for it; members follow their head. -/
def State.markAus (s : State) (l : Nat) (r : Row) : List Nat → Row
  | [] => r
  | n :: ns =>
    let r :=
      if (s.auMemberOf l n).isNone && s.auCon l n then r.mapAt Cell.mark (s.auCols l n) else r
    s.markAus l r ns

/-- One row of the nine, and of the tail, has been marked; row 3 begins the nine (R68, R69). -/
def State.spendAus (s : State) (l rowNo : Nat) : List Nat → State
  | [] => s
  | n :: ns =>
    (s.onAu l n fun a => { a with tail := a.tail - 1, nine := a.nine - 1 }).spendAus l rowNo ns

/-- Nine rows of CON begin at row 3 (R68, R69). -/
def State.beginNine (s : State) (l rowNo : Nat) : List Nat → State
  | [] => s
  | n :: ns =>
    (if rowNo = 3 && (s.au l n).from3 then
      s.onAu l n fun a => { a with from3 := false, nine := 9 }
    else s).beginNine l rowNo ns

/-- CON on the grains of each path of a list whose condition holds, or has held within the delay of its AU (R76). -/
def State.markPaths (s : State) (r : Row) : List Nat → Row
  | [] => r
  | p :: ps =>
    match (s.path p).entry with
    | none => s.markPaths r ps
    | some (w0, w1, w2) =>
      let g := PathGeo.ofWords w0 w1 w2
      if (s.cond p || (s.path p).tail > 0) && !(8 ≤ g.typ && g.typ ≤ 10) then
        s.markPaths (r.mapAt Cell.mark (s.grains g)) ps
      else s.markPaths r ps

/-- One row of the tails of paths has been marked (R76). -/
def State.spendPaths (s : State) : List Nat → State
  | [] => s
  | p :: ps =>
    (if (s.path p).tail > 0 then s.onPath p fun x => { x with tail := x.tail - 1 } else s).spendPaths ps

/-- cond_rows of word 4: the condition as applied to the newest of the held rows (R56). -/
def State.shiftCondRows (s : State) : List Nat → State
  | [] => s
  | p :: ps =>
    let w4 := s.pathWord p 4
    (s.setPathWord p 4 (setBits w4 30 28 (b2n (s.cond p) * 4 + bits w4 30 29))).shiftCondRows ps

end Sys2Proof.Machine
end

