-- ==== Sys2Proof/Machine/Received.lean ====
section
/-! DEFINITION. What an Amenamin lane receives: the framing pattern and the hunt for it (R51, R52), the
fields of the header and the capability block (R47, R48). -/

namespace Sys2Proof

/-! ### The framing pattern (R51) -/

/-- No bit differs. -/
def Sight.exact (x : Sight) : Bool := x.differ = 0
/-- 1 or 2 bits differ. -/
def Sight.tolerated (x : Sight) : Bool := x.differ = 1 || x.differ = 2
/-- 3 or more bits differ: the pattern fails. -/
def Sight.errored (x : Sight) : Bool := 3 ≤ x.differ
/-- Exact or tolerated. -/
def Sight.present (x : Sight) : Bool := x.exact || x.tolerated

/-- What was seen at an offset; where nothing is listed the pattern was errored, and its number is that of
no frame. -/
def sightAt (l : List Sight) (o : Nat) : Option Sight := l.find? (·.offset = o)

/-- A frame number equals the last accepted one plus the frames since it was accepted. -/
def continuousNumber (last n : BitVec 32) (age : Nat) : Bool := n = last + BitVec.ofNat 32 age

/-- A candidate after another frame; none when it is dropped. -/
def Machine.Cand.next (c : Machine.Cand) (l : List Sight) : Option Machine.Cand :=
  match sightAt l c.offset with
  | some x =>
    if x.present && continuousNumber c.last x.number (c.age + 1) then some ⟨c.offset, c.run + 1, x.number, 0⟩
    else none
  | none => none

/-- The hunt after another frame: the candidates that are kept, then one for each exact pattern at an
offset that holds no candidate. -/
def huntNext (cs : List Machine.Cand) (l : List Sight) : List Machine.Cand :=
  let kept := cs.filterMap fun c => c.next l
  kept ++ ((l.filter fun x => x.exact && !kept.any (·.offset = x.offset)).map fun x => ⟨x.offset, 1, x.number, 0⟩)

/-! ### The capability block (R48, R274) -/

/-- Bits `hi` down to `lo` of a header word. -/
def headBits (w : BitVec 18) (hi lo : Nat) : Nat := w.toNat / 2 ^ lo % 2 ^ (hi + 1 - lo)

/-- The fields of row 3 (R48). -/
def CapsBlock.format (c : CapsBlock) : Nat := headBits c.w0 15 0
def CapsBlock.revision (c : CapsBlock) : Nat := headBits c.w1 15 8
def CapsBlock.rates (c : CapsBlock) : Nat := headBits c.w2 10 8
def CapsBlock.rate (c : CapsBlock) : Nat := headBits c.w2 1 0
def CapsBlock.role (c : CapsBlock) : Nat := headBits c.w3 15 13
def CapsBlock.deviceId (c : CapsBlock) : Nat := headBits c.w3 12 10
def CapsBlock.side (c : CapsBlock) : Bool := c.w3.getLsbD 9
def CapsBlock.fabricId (c : CapsBlock) : Nat := headBits c.w3 7 0
def CapsBlock.seen (c : CapsBlock) : Bool := c.w4.getLsbD 15
def CapsBlock.agree (c : CapsBlock) : Bool := c.w4.getLsbD 14

/-- cap_crc agrees with words 0-4 (R48). -/
def CapsBlock.crcOk (c : CapsBlock) : Bool :=
  headBits c.w5 15 0 = Machine.crc16 ([c.w0, c.w1, c.w2, c.w3, c.w4].map fun w => headBits w 15 0)

/-- A header word with CON is ignored: what was received before it stands (R47). -/
def keepWord (old new : BitVec 18) : BitVec 18 := if new.getLsbD 17 then old else new

/-- The block as it stands after one was received. -/
def CapsBlock.merge (o n : CapsBlock) : CapsBlock :=
  ⟨keepWord o.w0 n.w0, keepWord o.w1 n.w1, keepWord o.w2 n.w2, keepWord o.w3 n.w3, keepWord o.w4 n.w4,
    keepWord o.w5 n.w5⟩

/-! ### The header (R47, R48) -/

/-- The fields of the header as they stand after one was received: those of a word with CON keep their value
(R47). -/
def Header.merge (o h : Header) : Header :=
  let n12 := if h.con0.getLsbD 0 then o.frameNumber.extractLsb' 16 16 else h.frameNumber.extractLsb' 16 16
  let n13 := if h.con0.getLsbD 1 then o.frameNumber.extractLsb' 0 16 else h.frameNumber.extractLsb' 0 16
  let w14 := if h.con0.getLsbD 2 then o else h
  let w15 := if h.con0.getLsbD 3 then o else h
  let m0 := if h.con2.getLsbD 0 then o else h
  let e1 := if h.con2.getLsbD 1 then o.epoch.extractLsb' 16 16 else h.epoch.extractLsb' 16 16
  let e2 := if h.con2.getLsbD 2 then o.epoch.extractLsb' 0 16 else h.epoch.extractLsb' 0 16
  { con0 := h.con0, con1 := h.con1, con2 := h.con2, frameNumber := n12 ++ n13, deviceId := w14.deviceId
    laneRole := w14.laneRole, side := w14.side, timingMaster := w14.timingMaster, fabricId := w14.fabricId
    ql := w15.ql, colBank := w15.colBank, octBank := w15.octBank, heartbeat := w15.heartbeat
    coordId := if h.con1 then o.coordId else h.coordId, mateState := m0.mateState
    epochCommit := m0.epochCommit, epoch := e1 ++ e2
    mirrorSeq := if h.con2.getLsbD 3 then o.mirrorSeq else h.mirrorSeq }

end Sys2Proof
end

