-- ==== Sys2Proof/Machine/Aligner.lean ====
section
/-! DEFINITION. AU pointers and the alignment of AUs into the canvas (R66-R69): the counts of the pointer
interpreters, the AU delay A, the aligner store and the canvas row that is read from it. -/

namespace Sys2Proof.Machine

/-- Row number of the next row period. -/
def State.nextRow (s : State) : Nat := if s.clock.started then (s.clock.row + 1) % 9 else 0

/-! ### Received pointers (R66) -/

/-- Bits of a list in which two numbers differ. -/
def bitsDiffer (a b : Nat) (l : List Nat) : Nat := (l.filter fun i => a.testBit i != b.testBit i).length

/-- The offset, the NDF and the SS bits of H1 and H2. -/
def ptrOffset (h : BitVec 16) : Nat := h.toNat % 1024
/-- At least 3 of the 4 N bits match 0b1001. -/
def ndfOn (h : BitVec 16) : Bool := bitsDiffer (h.toNat / 4096) 9 [0, 1, 2, 3] ≤ 1
/-- At least 3 of the 4 N bits match 0b0110. -/
def ndfNormal (h : BitVec 16) : Bool := bitsDiffer (h.toNat / 4096) 6 [0, 1, 2, 3] ≤ 1

/-- What a pointer asks of an interpreter in NORM. -/
inductive PtrAct where
  | keep
  | increment
  | decrement
  | take (offset : Nat)
  deriving DecidableEq, Repr

/-- A pointer as an interpreter counts it (R66, R72). `top` is the largest offset, and `ssOk` says that the SS bits do
not make the pointer invalid. A valid pointer has normal NDF and an offset in range. -/
def ptrValid (top : Nat) (ssOk : Bool) (h : BitVec 16) : Bool := ndfNormal h && ptrOffset h ≤ top && ssOk

/-- An enabled NDF with an offset in range, which is accepted at once. -/
def ptrJump (top : Nat) (ssOk : Bool) (h : BitVec 16) : Bool := ndfOn h && ptrOffset h ≤ top && ssOk

def iBits : List Nat := [9, 7, 5, 3, 1]
def dBits : List Nat := [8, 6, 4, 2, 0]

/-- The bits of one list are inverted by majority against offset `p`, and those of the other are not; 3 pointers have
passed since the last accepted change (log entry 80). -/
def PtrSt.justified (x : PtrSt) (p : Nat) (ssOk : Bool) (h : BitVec 16) (mine others : List Nat) : Bool :=
  ndfNormal h && ssOk && 3 ≤ x.gap && 3 ≤ bitsDiffer (ptrOffset h) p mine && bitsDiffer (ptrOffset h) p others < 3

/-- What a pointer asks for in NORM at offset `p`. -/
def PtrSt.asks (x : PtrSt) (p top : Nat) (ssOk : Bool) (h : BitVec 16) : PtrAct :=
  let o := ptrOffset h
  if x.justified p ssOk h iBits dBits then .increment
  else if x.justified p ssOk h dBits iBits then .decrement
  else if ptrJump top ssOk h then .take o
  else if ptrValid top ssOk h && o ≠ p && o = ptrOffset x.last && 2 ≤ x.same then .take o
  else .keep

/-- The counts after a pointer; `moved` says that a change was accepted. All-ones pointers count towards AIS and not
as invalid ones (log entry 79). -/
def PtrSt.count (x : PtrSt) (top : Nat) (ssOk : Bool) (h : BitVec 16) (moved : Bool) : PtrSt :=
  let ones := h = 0xFFFF
  let valid := ptrValid top ssOk h
  { last := h
    same := if valid then (if ptrOffset h = ptrOffset x.last then x.same + 1 else 1) else 0
    wrong := if valid || moved || ones || ptrJump top ssOk h then 0 else x.wrong + 1
    ndfs := if ndfOn h then x.ndfs + 1 else 0
    ones := if ones then x.ones + 1 else 0
    gap := if moved then 0 else min 3 (x.gap + 1) }

/-- 3 identical valid pointers, or an enabled NDF with an offset in range: NORM is entered. -/
def PtrSt.found (x : PtrSt) (top : Nat) (ssOk : Bool) : Bool := 3 ≤ x.same || ptrJump top ssOk x.last
/-- 3 all-ones pointers: AIS is entered. -/
def PtrSt.allOnes (x : PtrSt) : Bool := 3 ≤ x.ones
/-- 8 invalid pointers or 8 enabled NDFs: LOP is entered. -/
def PtrSt.lost (x : PtrSt) : Bool := 8 ≤ x.wrong || 8 ≤ x.ndfs

/-- The SS bits do not make a pointer of lane `l` invalid: they are checked with ss_check only. -/
def State.ssOk (s : State) (l : Nat) (h : BitVec 16) : Bool :=
  !s.flag (F.ltmCfg_ssCheck l) || h.toNat / 1024 % 4 = (if s.flag (F.ltmCfg_sonet l) then 0 else 2)

/-! ### The AU delay (R68, R69) -/

/-- The window of the AU delay, 0.25-17.75 rows, and one frame, in 1/46,080 row. -/
def auMin : Int := 11520
def auMax : Int := 817920
def auFrame : Int := 414720
/-- One offset time, 1/90 row. -/
def offsetTime : Int := 512

/-- Sets A, with LTM_AU_DLY.delay in 1/1,024 row. -/
def State.setA (s : State) (l n : Nat) (a : Int) : State :=
  (s.onAu l n fun x => { x with a := a.toNat, aligned := true }).fset (F.ltmAuDly_delay l n)
    (a.toNat / 45)

/-- A new A is tested against the window; leaving it is an AU slip: A gains a frame and the reader repeats one VC
frame, or A loses a frame and the reader drops one (R69). -/
def State.moveA (s : State) (l n : Nat) (a : Int) : State :=
  if auMin ≤ a && a ≤ auMax then s.setA l n a
  else
    let s := s.setA l n (if a < auMin then a + auFrame else a - auFrame)
    let s := s.onAu l n fun x => { x with from3 := true, advance := if a < auMin then 0 else 2 }
    let s := s.fset (F.ltmAuDly_slipCnt l n) (s.fget (F.ltmAuDly_slipCnt l n) + 1)
    let s := s.raise Ev.auSlip l n
    s.sticky (Reg.ltmSticky l) (Reg.ltmIntEn l) 0x200 Ev.ltmDefect l

/-- A justification accepted in NORM: an increment (1) or a decrement (-1) of the pointer. -/
def State.justify (s : State) (l n : Nat) (j : Int) : State :=
  let p : Int := s.fget (F.ltmAuStat_ptr l n)
  let s := s.fset (F.ltmAuStat_ptr l n) ((p + j) % 783).toNat
  let s := s.fset (F.ltmAuDly_justCnt l n) (s.fget (F.ltmAuDly_justCnt l n) + 1)
  let s := s.onAu l n fun x => { x with just := j }
  s.moveA l n ((s.au l n).a - j * offsetTime)

/-- A new pointer accepted in NORM: A changes with the offset, and nine rows of CON follow from the next row 3. -/
def State.newPointer (s : State) (l n p : Nat) : State :=
  let old : Int := s.fget (F.ltmAuStat_ptr l n)
  let s := (s.fset (F.ltmAuStat_ptr l n) p).onAu l n fun x => { x with from3 := true }
  s.moveA l n ((s.au l n).a + (old - p) * offsetTime)

/-- The largest offset of an AU pointer. -/
def auTop : Nat := 782

/-- A pointer received for an AU in use, which is no member. -/
def State.auPointer (s : State) (l n : Nat) (h : BitVec 16) : State :=
  let ss := s.ssOk l h
  let act := if s.ptrState l n = 0 then (s.au l n).ptr.asks (s.fget (F.ltmAuStat_ptr l n)) auTop ss h else .keep
  let s := s.onAu l n fun x => { x with just := 0, ptr := x.ptr.count auTop ss h (act ≠ .keep) }
  match act with
  | .keep => s
  | .increment => s.justify l n 1
  | .decrement => s.justify l n (-1)
  | .take p => s.newPointer l n p

/-- The concatenation indication: H1 = 0b1001SS11 and H2 = 0xFF. -/
def concatIndication (h : BitVec 16) : Bool := h &&& 0xF3FF = 0x93FF

/-- A pointer received for a member of an AU-4-Nc. -/
def State.memberPointer (s : State) (l n : Nat) (h : BitVec 16) : State :=
  s.onAu l n fun x =>
    { x with
      ptr := x.ptr.count auTop true h false
      noConc := if concatIndication h || h = 0xFFFF then 0 else x.noConc + 1 }

/-- The pointers of row 3 (R66): LOS, LOF or MS-AIS holds every interpreter of the lane. -/
def State.auPointers (s : State) (l : Nat) : List (AuNo × BitVec 16) → State
  | [] => s
  | (n, h) :: ps =>
    (if s.laneDefect l then s
     else if (s.auMemberOf l n.toNat).isSome then s.memberPointer l n.toNat h
     else if s.auType l n.toNat ≠ 0 then s.auPointer l n.toNat h
     else s).auPointers l ps

/-! ### The aligner store (R67, R68; log entry 78) -/

/-- Octets of a block of columns that holds one offset of every AU of the lane: 3N. -/
def State.blockCols (s : State) (l : Nat) : Nat := 3 * stmN (s.rate l)

/-- The octets of an AU within each block. -/
def State.auPlaces (s : State) (l n : Nat) : List Nat := (s.auCols l n).filter (· < s.blockCols l)

/-- One offset of a received row goes to place `i` of its VC; place 0 is J1 and begins a VC frame. -/
def State.storeOffset (s : State) (l n : Nat) (r : Row) (block i : Nat) : State :=
  let k := s.blockCols l
  let f := if i = 0 then ((s.au l n).written + 1) % 3 else (s.au l n).written
  let s := if i = 0 then s.onAu l n fun x => { x with written := f } else s
  s.onLane l fun x =>
    { x with store := (s.auPlaces l n).foldl (fun m o =>
        m.put 0 ((783 * f + i) * k + o) (r.at (block * k + o)).octet) x.store }

/-- A received row of one AU: offset `p` of row 3 is J1 (R66). A decrement takes in the H3 octets; an increment
leaves out the offset after them. -/
def State.storeAuRow (s : State) (l : Nat) (r : SdhRow) (n : Nat) : State :=
  let p := s.fget (F.ltmAuStat_ptr l n)
  let j := if r.number = 3 then (s.au l n).just else 0
  let s := if j = -1 then s.storeOffset l n r.h3 0 ((782 + 783 - p) % 783) else s
  ((List.range 87).filter fun q => !(j = 1 && q = 0)).foldl (fun s q =>
    s.storeOffset l n r.content q (((r.number.val + 6) % 9 * 87 + q + 783 - p) % 783)) s

/-- The AUs of a lane that are in use, members aside. -/
def State.ausInUse (s : State) (l : Nat) : List Nat :=
  (List.range (s.auCount l)).filter fun n => s.auType l n ≠ 0 && (s.auMemberOf l n).isNone

/-- The start of a received frame after the system frame mark, from a row of it. -/
def State.frameStart (s : State) (r : SdhRow) : Nat :=
  ((9 + s.nextRow - r.number.val) * auRow + 9 * auRow + r.phase - 11520) % (9 * auRow)

/-- A difference of times within a frame, between minus and plus half a frame. -/
def halfFrame (t : Int) : Int := (t + auFrame / 2) % auFrame - auFrame / 2

/-- The received frame has moved against the marks: A, which is measured on J1, moves against it (R68, R70). -/
def State.followPhase (s : State) (l : Nat) (r : SdhRow) : State :=
  if s.laneDefect l then s
  else
    let was := (s.lane l).rxAt
    let t := s.frameStart r
    let s := s.onLane l fun x => { x with rxAt := some t }
    match was with
    | none => s
    | some t0 =>
      let d := halfFrame ((t : Int) - t0)
      if d = 0 then s
      else ((s.ausInUse l).filter fun n => s.ptrState l n = 0 && (s.au l n).aligned).foldl
        (fun s n => s.moveA l n ((s.au l n).a - d)) s

/-- A received row: its phase, its pointers, and its octets. -/
def State.receiveRow (s : State) (l : Nat) (r : SdhRow) : State :=
  let s := s.followPhase l r
  let s := if r.number = 3 then s.auPointers l r.pointers else s
  (s.ausInUse l).foldl (fun s n => s.storeAuRow l r n) s

def State.receiveRows (s : State) (l : Nat) (rs : List SdhRow) : State :=
  rs.foldl (fun s r => s.receiveRow l r) s

/-- The delay that places J1 of offset `p` in canvas row 3, but for whole frames (R68): J1 lies 87 offsets to a row
after row 3 of the received frame, and 90 offset times are a row. -/
def State.row3Delay (s : State) (l p : Nat) : Int :=
  -((((s.lane l).rxAt.getD 0 + p / 87 * auRow : Nat) : Int) + (p % 87 : Nat) * offsetTime) % auFrame

/-- A on acquisition, with no A to keep: the smallest value that is at least 2 rows and places J1 in row 3. -/
def State.smallestA (s : State) (l p : Nat) : Int :=
  2 * auRow + (s.row3Delay l p - 2 * auRow) % auFrame

/-- VC frames begun between the one to be read in the canvas row that comes next and the last one written: those
whose J1 came later than A before it. -/
def State.framesBehind (s : State) (l n : Nat) : Nat :=
  let a : Int := (s.au l n).a
  let near := a + halfFrame (s.row3Delay l (s.fget (F.ltmAuStat_ptr l n)) - a)
  let ahead : Int := match (s.lane l).rxAt with
    | some t => ((t : Int) + 11520) % auRow + auRow - 11520
    | none => 0
  ((near + ahead - 1) / auFrame).toNat

/-- Canvas row 3 begins a VC frame of every AU in use: the reader finds its frame or moves on. -/
def State.beginRead (s : State) (l : Nat) : State :=
  if s.nextRow ≠ 3 then s
  else (s.ausInUse l).foldl (fun s n =>
    let behind := s.framesBehind l n
    s.onAu l n fun x =>
      { x with
        reading := (if x.seek then x.written + 3 - min 2 behind else x.reading + x.advance) % 3
        seek := false, advance := 1 }) s

/-- The octet of payload column `c` in canvas row `w`: row 3 holds J1 and what follows it (R67). -/
def State.alignedOctet (s : State) (l w : Nat) (c : Nat) : Octet :=
  let k := s.blockCols l
  match (s.ausInUse l).find? fun n => (s.auPlaces l n).contains (c % k) with
  | some n =>
    (s.lane l).store.get 0 ((783 * (s.au l n).reading + (w + 6) % 9 * 87 + c / k) * k + c % k)
  | none => 0

/-- The canvas row that the aligner gives (R67); AUs not in use hold zeros under their CON (R65). -/
def State.alignedRow (s : State) (l w : Nat) (seq : Bool) : Row :=
  ⟨⟨0, false, seq⟩, ((List.range (s.payCols l)).map fun c =>
    (c, (⟨s.alignedOctet l w c, false, seq⟩ : Cell))).filter fun p => p.2.octet ≠ 0⟩

end Sys2Proof.Machine
end

