-- ==== Sys2Proof/Machine/Ingress.lean ====
section
/-! DEFINITION. A received row: its arrival period, its flags and what it carries for the counters,
the APS controllers, the aligners and the path monitor (INGRESS_ROW). -/

namespace Sys2Proof.Machine

/-! ### Parity and phase -/

/-- Island number of the lane group of a lane (R394). -/
def laneGroup (l : Nat) : Nat := l / 8

/-- A parity error on an island crossing: counted once and reported (R386). -/
def State.parityError (s : State) (island : Nat) : State :=
  (s.count Reg.fltCntParity).report Ev.busParity island

/-- Each word that failed the check is all-ones with CON, both of its columns (R13, R386). -/
def State.parityRow (s : State) (l : Nat) (r : Row) : List Nat → State × Row
  | [] => (s, r)
  | c :: cs =>
    let bad := fun (x : Cell) => badCell x.seq
    (s.parityError (laneGroup l)).parityRow l (r.mapAt bad [2 * (c / 2), 2 * (c / 2) + 1]) cs

/-- An injected parity fault acts on one transfer of an island (R393): it is spent, and it names which of
the island's `n` places fails, a free choice (log entry 46). -/
def State.spendParity (s : State) (island n : Nat) : State × List Nat :=
  if (s.island island).parityDue then
    let q := s.draw
    (q.2.onIsland island fun x => { x with parityDue := false }, [q.1.toNat % max n 1])
  else (s, [])

/-- The offset window of R221 in ns: -0.25 to +0.75 row. -/
def sigmaOk (sigma : Int) : Bool := -3472 ≤ sigma && sigma ≤ 10417

/-- The offset that a follower holds its reference lane at, in ns; values above 10,416 act as 10,416 (R223, R226). -/
def State.phaseTarget (s : State) : Int := (min (s.fget F.fabAlign_target) 10416 : Nat)

/-- The arrival period of a row whose last octet has been written and checked in the period under way: the next one,
but on a fabric or mate lane k + 2, where the period k + 1 of R221 began `sigma` ns ago. A row is 125000/9 ns. -/
def State.arrival (s : State) (l : Nat) (sigma : Int) : Nat :=
  if s.role l = roleFabric || s.role l = roleMate then
    ((s.clock.period : Int) + 1 - (9 * sigma) / 125000).toNat
  else s.clock.period + 1

/-- A bad row of R225 has arrived. -/
def State.badArrival (s : State) (l : Nat) : State := s.onLane l fun x => { x with badRow := true, badNow := true }

/-- A row of a fabric or mate lane is judged by its offset (R26, R221). -/
def State.judgePhase (s : State) (l : Nat) (sigma : Int) (r : Row) : State × Row :=
  if s.role l = roleFabric || s.role l = roleMate then
    if sigmaOk sigma then
      let away := 500 < (sigma - s.phaseTarget).natAbs
      let s := s.onLane l fun x => { x with sigSeen := true, sigAway := x.sigAway || away }
      ((s.fbit (F.fabLane_fpeNow l) false).fset (F.fabLane_sigma l) (unsigned 16 sigma), r)
    else
      let first := !s.flag (F.fabLane_fpeNow l)
      let s := ((s.fbit (F.fabLane_fpe l) true).fbit (F.fabLane_fpeNow l) true).count Reg.fabCntFpe
      let s := if first then s.raise Ev.fabFpe l else s
      ((s.badArrival l).onLane l fun x => { x with fpeRow := true }, Row.bad r.dflt.seq)
  else (s, r)

/-! ### The framing pattern (R51-R54, R59) -/

/-- The runs of failed patterns and of discontinuous numbers after another frame in IN_FRAME. -/
def LaneSt.heldFrame (x : LaneSt) (l : List Sight) : LaneSt :=
  let bad := ((sightAt l x.align).map Sight.errored).getD true
  let x := { x with patBad := if bad then x.patBad + 1 else 0, numAge := x.numAge + 1 }
  match sightAt l x.align with
  | some q =>
    if continuousNumber x.lastNum q.number x.numAge then { x with lastNum := q.number, numAge := 0, numBad := 0 }
    else { x with numBad := x.numBad + 1 }
  | none => { x with numBad := x.numBad + 1 }

/-- A frame that the framer of an SDH lane examines: the run of errored patterns in frame, and out of frame the
offsets at which the pattern was correct, with the frames that it has been (R59). -/
def LaneSt.examineSdh (x : LaneSt) (oof : Bool) (l : List Sight) : LaneSt :=
  let right := l.filter Sight.exact
  if oof then
    { x with cands := right.map fun q =>
        ⟨q.offset, (((x.cands.find? (·.offset = q.offset)).map (·.run)).getD 0) + 1, q.number, 0⟩ }
  else { x with patBad := if right.any (·.offset = x.align) then 0 else x.patBad + 1 }

/-- A frame that the framer of an Amenamin lane examines. -/
def LaneSt.examine (x : LaneSt) (l : List Sight) : LaneSt :=
  if x.framer = .inFrame then x.heldFrame l
  else
    let cs := huntNext x.cands l
    { x with
      cands := cs
      framer := if x.framer = .oof then .oof else if cs = [] then .hunt else .confirm }

/-- The same for a lane whose framer runs: from LOCK on (R52, R59, R272). -/
def State.examineFrame (s : State) (l : Nat) (f : Option (List Sight)) : State :=
  match f with
  | none => s
  | some w =>
    if s.stage l < 3 || 5 < s.stage l then s
    else if s.isSdh l then s.onLane l fun x => x.examineSdh (s.flag (F.ltmStat_oof l)) w
    else s.onLane l fun x => x.examine w

/-! ### Section overhead (R62, R63) -/

/-- LOS, LOF or MS-AIS holds the accepted values and the counters of an SDH lane (R63). -/
def State.sohHeld (s : State) (l : Nat) : Bool :=
  s.flag (F.ltmStat_los l) || s.flag (F.ltmStat_lof l) || s.flag (F.ltmStat_msAis l)

/-- The largest M1 value that G.707 allows at a rate, as R77 limits it. -/
def m1Max (rate : Nat) : Nat := min 255 (24 * stmN rate)

/-- B1, B2 and M1 go to their counters (R62). -/
def State.sohCounts (s : State) (l : Nat) (r : IngressRow) : State :=
  if s.sohHeld l then s
  else
    let m1 := match r.m1 with
      | some v => if v.toNat ≤ m1Max (s.rate l) then v.toNat else 0
      | none => 0
    let s := ((s.count (Reg.ltmB1Cnt l) r.b1).count (Reg.ltmB2Cnt l) r.b2).count (Reg.ltmMsreiCnt l) m1
    s.onLane l fun x => { x with b2Now := x.b2Now + r.b2 }

/-- A readable frame for K1 and K2 (R63). -/
def State.kReadable (s : State) (l : Nat) : Bool := !s.sohHeld l && !s.flag (F.ltmStat_oof l)

/-- K1 and K2 of a readable frame: confirmation, acceptance, and the end of K_INCONSISTENT (R63). -/
def State.kBytes (s : State) (l : Nat) (k : Octet × Octet) : State :=
  if !s.kReadable l then s
  else
    let x := s.lane l
    let confirms := x.kHist = [k, k]
    let s := s.setLane l
      { x with kHist := (k :: x.kHist).take 2, kMiss := if confirms then 0 else x.kMiss + 1 }
    if confirms then
      let s := s.fbit (F.ltmStat_kIncons l) false
      ((s.fset (F.ltmOhRx_k1 l) k.1.toNat).fset (F.ltmOhRx_k2 l) k.2.toNat).fbit (F.ltmOhRx_kValid l) true
    else s

/-! ### Path overhead -/

/-- B3 errors and REI of AUs in NORM: the counters while a monitored path covers the AU (R71), the B3 errors also
for an egress that names the AU as its peer (R80). -/
def State.auErrors (s : State) (l : Nat) : List (AuNo × Nat × Nat) → State
  | [] => s
  | (n, b3, rei) :: xs =>
    if s.ptrState l n.toNat = 0 && !s.laneDefect l then
      let s := s.onAu l n.toNat fun x => { x with reiNow := x.reiNow + b3 }
      (if (s.auPaths l n.toNat).isEmpty then s
       else (s.count (Reg.ltmAuB3 l n.toNat) b3).count (Reg.ltmAuRei l n.toNat)
        (if rei ≤ 8 then rei else 0)).auErrors l xs
    else s.auErrors l xs

/-- A frame of the canvas begins: B2 and B3 errors of the frame that ended go to M1 and G1 (R77, R80). -/
def State.turnErrors (s : State) (l : Nat) : State :=
  (List.range (s.auCount l)).foldl (fun s n => s.onAu l n fun x => { x with rei := x.reiNow, reiNow := 0 })
    (s.onLane l fun x => { x with b2Last := x.b2Now, b2Now := 0 })

/-- The multiframe phase of AUs in NORM (R73). -/
def State.auPhases (s : State) (l : Nat) : List (AuNo × BitVec 2) → State
  | [] => s
  | (n, p) :: xs =>
    (if s.ptrState l n.toNat = 0 && !s.laneDefect l then s.fset (F.ltmAuStat_mfPhase l n.toNat) p.toNat
     else s).auPhases l xs

/-! ### Path monitor and received CON (R194, R287) -/

/-- Errored blocks go to the PM second now running (R287). -/
def State.pmBlocks (s : State) (p ne fe : Nat) : State :=
  s.onPm p fun x => { x with neErr := x.neErr + ne, feErr := x.feErr + fe }

def State.rowBlocks (s : State) : List (PathId × Nat × Nat) → State
  | [] => s
  | (p, ne, fe) :: xs => (s.pmBlocks p.toNat ne fe).rowBlocks xs

/-- Monitored paths of type 11 on an Amenamin lane count a row with a check error (R287). -/
def State.runBlocks (s : State) (bad : Bool) : List Nat → State
  | [] => s
  | p :: ps =>
    match (s.path p).entry with
    | some (w0, _, _) =>
      if bad && bit w0 24 && bits w0 30 27 = 11 then (s.pmBlocks p 1 0).runBlocks bad ps
      else s.runBlocks bad ps
    | none => s.runBlocks bad ps

/-- sf is declared in the first row in which at least half of a path's grains arrive with the
received CON bit (R194). -/
def State.receivedSf (s : State) (r : Row) : List Nat → State
  | [] => s
  | p :: ps =>
    match (s.path p).entry with
    | some (w0, w1, w2) =>
      let gs := s.grains (PathGeo.ofWords w0 w1 w2)
      let n := (gs.filter fun c => (r.at c).con).length
      if 2 * n ≥ gs.length && gs ≠ [] then (s.setDefect p 24 true).receivedSf r ps
      else s.receivedSf r ps
    | none => s.receivedSf r ps

/-! ### The row -/

/-- Number of the frame of the next row period: the one begun, or at its last row the next one, an
alignment step included (R18, R224, R262). -/
def State.nextNumber (s : State) : BitVec 32 :=
  if s.clock.started && s.clock.row = 8 && !s.clock.frameDue then s.frameAfter else s.clock.frame

/-- Bit 0 of the frame number of the next row period (R44). -/
def State.nextSeq (s : State) : Bool := s.nextNumber.getLsbD 0

/-- Key of the row buffer that holds a source's row of a period (R38). -/
def rowKey (src period : Nat) : Nat := 3 * src + period % 3

/-- A row that nothing has written. -/
def HeldRow.none : HeldRow := ⟨0, ⟨badCell false, []⟩⟩

/-- V-lane `v` is looped (R218). -/
def State.looped (s : State) (v : Nat) : Bool := (s.fget F.fabLoop_loopLive).testBit v

/-- The word that holds a column of a held row: banks 285-341 for lanes and loops, 342-348 for V-outputs
(R337). -/
def State.rowWord (s : State) (src period col : Nat) : Nat :=
  let n := Config.rowPlace (rowKey src period) col
  let bank := if src < 48 || s.looped (src - 48) then 285 + n / 32768 % 57 else 342 + n / 32768 % 7
  damageKey bank (n % 32768)

/-- A row is written into the row buffers for a period (R434); the words that it fills are no longer
damaged (R340). -/
def State.holdRow (s : State) (src period : Nat) (r : Row) : State :=
  let words := (List.range (s.payCols src)).map (s.rowWord src period)
  { s with
    rows := s.rows.insert (rowKey src period) ⟨period, r⟩
    sram := { s.sram with damage := s.sram.damage.filter fun p => !words.contains p.1 } }

/-- What only an Amenamin lane's row carries: check errors in ACTIVE (R282), received CON (R194),
alignment wait (R281). -/
def State.amenaminRow (s : State) (l : Nat) (r : IngressRow) (row : Row) : State :=
  let active := s.stage l = stageActive
  let s := if active then
      (s.count (Reg.sdsCntBip8 l) r.bip8).count (Reg.sdsCntBip2 l) r.bip2 else s
  let s := s.runBlocks (active && (r.bip8 > 0 || r.bip2 > 0)) (s.pathsOn l)
  let s := s.receivedSf row (s.pathsOn l)
  if s.role l = roleNative && active then
    (s.fbit (F.sdsAlign_valid l) true).fset (F.sdsAlign_wait l) r.wait.toNat
  else s.fbit (F.sdsAlign_valid l) false

/-- What only an SDH lane's row carries: the received rows for the aligner, overhead counts, K bytes, POH results. -/
def State.sdhRow (s : State) (l : Nat) (r : IngressRow) : State :=
  let s := if s.nextRow = 0 then s.turnErrors l else s
  let s := s.receiveRows l r.sdh
  let s := s.sohCounts l r
  let s := match r.kBytes with
    | some k => s.kBytes l k
    | none => s
  (((s.auErrors l r.b3Rei).auPhases l r.mfPhase).fbit (F.sdsAlign_valid l) false).beginRead l

/-- Flags of a row from the lane and AU conditions (R39). -/
def State.laneFlags (s : State) (l : Nat) (row : Row) : Row :=
  let row := if s.laneFail l then row.map Cell.mark else row
  if s.isSdh l then s.markAus l row (List.range (s.auCount l)) else row

/-- Flags of a row from the path conditions: those of the working lane that a protect lane stands in for (R39, R205). -/
def State.pathFlags (s : State) (l : Nat) (row : Row) : Row :=
  let row := s.markPaths row ((s.standsFor l).elim (s.pathsOn l) s.pathsOn)
  if s.isSdh l then row else row.pairUp

/-- A row of a lane goes into the row buffers for its arrival period. One that comes after the period that would read
it has no place there any more: its columns read as all-ones with CON. -/
def State.assignRow (s : State) (l period : Nat) (row : Row) : State :=
  if period < s.clock.period then s
  else
    let s := s.onLane l fun x => { x with raw := (period, row) :: x.raw.filter fun q =>
      s.clock.period ≤ q.1 && q.1 ≠ period }
    s.holdRow l period (s.pathFlags l row)

/-- INGRESS_ROW (R39): the received row is assigned to its arrival period (R22, R221) and
written with its flags; what it carries reaches the counters, controllers and aligners. -/
def State.ingressRow (s : State) (l : Nat) (r : IngressRow) : State :=
  if s.role l = 0 then s
  else
    let rowNo := s.nextRow
    let seq := s.nextSeq
    let s := s.examineFrame l r.framing
    let s := if s.isSdh l then s.sdhRow l r else s.amenaminRow l r r.content.pairUp
    let row := if s.isSdh l then s.alignedRow l rowNo seq else r.content.pairUp
    let s := s.onLane l fun x => { x with rowNow := true }
    let s := if s.role l = roleFabric && s.laneFail l then s.badArrival l else s
    let s := s.rowBlocks r.blocks
    let i := s.spendParity (laneGroup l) (s.payCols l)
    let p := i.1.parityRow l row (r.parityBad ++ i.2)
    let q := p.1.judgePhase l r.sigma p.2
    let s := q.1.beginNine l rowNo (List.range (if q.1.isSdh l then q.1.auCount l else 0))
    let row := s.laneFlags l q.2
    let s := s.assignRow l (s.arrival l r.sigma) row
    let s := s.spendAus l rowNo (List.range (if s.isSdh l then s.auCount l else 0))
    let s := (s.spendPaths ((s.standsFor l).elim (s.pathsOn l) s.pathsOn)).shiftCondRows (s.pathsOn l)
    if s.stage l = stageActive then s.speed l ((s.pathFlags l row).healthy (s.payCols l)) else s

/-- INGRESS_ROW. -/
def execIngressRow (lane : Lane) (r : IngressRow) (s : State) : Host.Outcome State Fault Refusal :=
  whenUp s fun s => s.ingressRow lane.val r

end Sys2Proof.Machine
end

