-- ==== Sys2Proof/Machine/Sdh.lean ====
section
/-! DEFINITION. SDH and SONET line termination: framing, section and line defects, AU pointer
interpreters, higher- and lower-order path overhead, and the writes of LTM_CFG and LTM_AU_CFG. -/

namespace Sys2Proof.Machine

/-! ### Bits of LTM_STAT, LTM_STICKY and LTM_INT_EN -/

def ltmLos : Nat := 0
def ltmOof : Nat := 1
def ltmLof : Nat := 2
def ltmRsTim : Nat := 3
def ltmMsAis : Nat := 4
def ltmMsRdi : Nat := 5
def ltmMsExc : Nat := 6
def ltmMsDeg : Nat := 7
def ltmKIncons : Nat := 8
def ltmAuAny : Nat := 9

/-- A defect of LTM_STAT is present. -/
def State.ltm (s : State) (l b : Nat) : Bool := bit (s.rd (Reg.ltmStat l)) b

/-- LOS and LOF, which report a fault of R382. -/
def ltmFaults : W32 := 5

/-- A defect is declared or cleared: LTM_STAT, and on declaration LTM_STICKY and LTM_DEFECT (R83). -/
def State.ltmSet (s : State) (l b : Nat) (on : Bool) : State :=
  if s.ltm l b = on then s
  else
    let s := s.wr (Reg.ltmStat l) (setBits (s.rd (Reg.ltmStat l)) b b (b2n on))
    if on then s.sticky (Reg.ltmSticky l) (Reg.ltmIntEn l) (BitVec.ofNat 32 (2 ^ b)) Ev.ltmDefect l ltmFaults
    else s

/-- A change of a defect that enters the lane condition (R39). -/
def State.ltmCondition (s : State) (l b : Nat) (on : Bool) : State :=
  s.onCondition l fun s => s.ltmSet l b on

/-- An effect on a lane while its role is LINE_SDH (R83). -/
def State.whenSdh (s : State) (l : Nat) (f : State → State) : State := if s.isSdh l then f s else s

/-! ### Framing (R59) -/

/-- SDH_OOF: five errored patterns; the hunt begins. -/
def State.sdhOof (s : State) (l : Nat) : State :=
  s.whenSdh l fun s =>
    if s.ltm l ltmOof || (s.lane l).patBad < 5 then s
    else
      ((s.count (Reg.ltmOofCnt l)).ltmSet l ltmOof true).onLane l fun x =>
        { x with cands := [], patBad := 0, frameRun := 0 }

/-- The offset at which the last two patterns were correct. -/
def State.sdhFound (s : State) (l : Nat) : Option Cand := (s.lane l).cands.find? (2 ≤ ·.run)

/-- SDH_IN_FRAME: two correct patterns at one offset; in LOCK the stage follows (R273). -/
def State.sdhInFrame (s : State) (l : Nat) : State :=
  s.whenSdh l fun s =>
    match s.sdhFound l with
    | none => s
    | some c =>
      if !s.ltm l ltmOof then s
      else
        let s := (s.ltmSet l ltmOof false).onLane l fun x =>
          { x with align := c.offset, cands := [], patBad := 0, frameRun := 0 }
        if s.stage l = 3 then s.onLane l fun x => { x with inFrameNow := true } else s

/-- Frames of R53 and R59 that LOF needs to be declared or cleared. -/
def lofFrames : Nat := 24

/-- SDH_LOF_DECLARE: OOF for 24 frames. -/
def State.sdhLofDeclare (s : State) (l : Nat) : State :=
  s.whenSdh l fun s =>
    if s.ltm l ltmOof && lofFrames ≤ (s.lane l).frameRun then s.ltmCondition l ltmLof true else s

/-- SDH_LOF_CLEAR: IN_FRAME for 24 frames. -/
def State.sdhLofClear (s : State) (l : Nat) : State :=
  s.whenSdh l fun s =>
    if !s.ltm l ltmOof && lofFrames ≤ (s.lane l).frameRun then s.ltmCondition l ltmLof false else s

/-! ### Section and line defects (R60, R61) -/

/-- MS-AIS and MS-RDI are judged in frames received in frame only (R60). -/
def State.ltmInFrame (s : State) (l : Nat) : Bool :=
  !s.ltm l ltmLos && !s.ltm l ltmOof && !s.ltm l ltmLof

def State.msAisChange (s : State) (l : Nat) (on : Bool) : State :=
  s.whenSdh l fun s => if s.ltmInFrame l then s.ltmCondition l ltmMsAis on else s

def State.msRdiChange (s : State) (l : Nat) (on : Bool) : State :=
  s.whenSdh l fun s => if s.ltmInFrame l then s.ltmSet l ltmMsRdi on else s

/-- A B2 window ends (R61). Every window expects 1,555.2·N errors at its threshold: 155.52·N Mb/s for
10 ms at 10^-3, 100 ms at 10^-4, 1 s at 10^-5 and so on (log entry 18). -/
def State.b2WindowEnd (s : State) (l : Nat) (degrade : Bool) (errors : Nat) : State :=
  s.whenSdh l fun s =>
    let expected := 15552 * stmN (s.rate l)
    let b := if degrade then ltmMsDeg else ltmMsExc
    if errors * 10 > expected then s.ltmSet l b true
    else if errors * 100 < expected then s.ltmSet l b false
    else s

/-! ### Traces (R62, R74) -/

/-- A trace as its table entry holds it: `n` octets, short ones filled with zeros. -/
def traceEntry (n : Nat) (t : List Octet) : List Octet := (t ++ List.replicate n 0).take n

/-- Accepts a trace into its table; TRACE_CHANGE when it differs from the one accepted before. -/
def State.acceptTrace (s : State) (addr : Nat) (t : List Octet) (w1 w2 : Nat) : State :=
  if s.bytes addr t.length = t then s
  else (s.putBytes addr t).raise Ev.traceChange w1 w2

/-- J0_ACCEPT: RS-TIM is evaluated with j0_tim_en (R60, R62). Held under LOS, LOF, MS-AIS (R63). -/
def State.j0Accept (s : State) (l : Nat) (t : List Octet) : State :=
  s.whenSdh l fun s =>
    if s.sohHeld l then s
    else
      let n := if s.flag (F.ltmCfg_j0Len64 l) then 64 else 16
      let t := traceEntry n t
      let s := s.acceptTrace (0x1901000 + 64 * l) t l 0
      s.ltmSet l ltmRsTim (s.flag (F.ltmCfg_j0TimEn l) && s.bytes (0x1900000 + 64 * l) n ≠ t)

/-- K_INCONSISTENT: twelve consecutive readable frames without a confirmation, once per declaration (R63). -/
def State.kInconsistent (s : State) (l : Nat) : State :=
  s.whenSdh l fun s =>
    if s.ltm l ltmKIncons || (s.lane l).kMiss < 12 then s else (s.ltmSet l ltmKIncons true).raise Ev.kInconsistent l

/-- S1_ACCEPT (R63). -/
def State.s1Accept (s : State) (l v : Nat) : State :=
  s.whenSdh l fun s =>
    if s.sohHeld l then s else (s.fset (F.ltmOhRx_s1 l) v).fbit (F.ltmOhRx_s1Valid l) true

/-! ### AU pointer interpreters (R66, R68) -/

/-- LTM_STAT.au_any: an AU in use is in AIS or LOP (log entry 20). -/
def State.judgeAuAny (s : State) (l : Nat) : State :=
  s.ltmSet l ltmAuAny ((List.range (s.auCount l)).any fun n =>
    s.auType l n ≠ 0 && (s.auMemberOf l n).isNone && s.ptrState l n ≠ 0)

/-- The interpreter of an AU in use runs: no LOS, LOF or MS-AIS holds it (R66). -/
def State.auRuns (s : State) (l n : Nat) : Bool :=
  s.isSdh l && !s.laneDefect l && s.auType l n ≠ 0 && (s.auMemberOf l n).isNone

/-- The defects ais and lop of the paths on an AU follow its interpreter (R71). -/
def State.auDefects (s : State) (l n : Nat) : State :=
  let ps := s.auPaths l n
  (s.setDefects 30 (s.ptrState l n = 1) ps).setDefects 29 (s.ptrState l n = 2) ps

/-- A on entering NORM with offset `p`: the previous one, adjusted for the change of pointer, if within the window;
otherwise the smallest that R68 allows. The reader finds its VC frame at the next canvas row 3. -/
def State.acquireA (s : State) (l n p : Nat) : State :=
  let x := s.au l n
  let a : Int := (x.a : Int) + ((s.fget (F.ltmAuStat_ptr l n) : Int) - p) * offsetTime
  let s := if x.aligned && auMin ≤ a && a ≤ auMax then s.setA l n a else s.setA l n (s.smallestA l p)
  s.onAu l n fun x => { x with seek := true, advance := 1, ptr := { x.ptr with gap := 0 } }

/-- The members of an AU-4-Nc whose indication is watched: the first positions of the AUG-1s after the head (R65,
R66). -/
def State.concMembers (s : State) (l n : Nat) : List Nat :=
  if s.auType l n = 3 then
    (auSpan (s.au3 l) (s.auCfg l n) n).filter fun m => m % (if s.au3 l then 3 else 1) = 0
  else []

/-- The AU or a member of it has been all-ones for 3 frames (R66). -/
def State.auAllOnes (s : State) (l n : Nat) : Bool :=
  (s.au l n).ptr.allOnes || (s.concMembers l n).any fun m => (s.au l m).ptr.allOnes

/-- A member has been without its concatenation indication for 8 frames (R66). -/
def State.concLost (s : State) (l n : Nat) : Bool := (s.concMembers l n).any fun m => 8 ≤ (s.au l m).noConc

/-- The AU has had 8 invalid pointers or 8 enabled NDFs, or a member has lost its indication (R66). -/
def State.auPtrLost (s : State) (l n : Nat) : Bool := (s.au l n).ptr.lost || s.concLost l n

/-- 3 identical valid pointers, or an enabled NDF with an offset of 0-782 (R66). -/
def State.auPtrFound (s : State) (l n : Nat) : Bool :=
  (s.au l n).ptr.found auTop (s.ssOk l (s.au l n).ptr.last) && !s.auAllOnes l n && !s.concLost l n

/-- AU_PTR_NORM. -/
def State.auPtrNorm (s : State) (l n : Nat) : State :=
  if s.auRuns l n && s.ptrState l n ≠ 0 && s.auPtrFound l n then
    let p := ptrOffset (s.au l n).ptr.last
    let s := s.acquireA l n p
    let s := (s.fset (F.ltmAuStat_ptrState l n) 0).fset (F.ltmAuStat_ptr l n) p
    let s := s.onAu l n fun x => { x with tail := s.auTailRows l n }
    (s.auDefects l n).judgeAuAny l
  else s

/-- AU_AIS and AU_LOP: the interpreter enters state `st` where its counts say so. -/
def State.auLost (s : State) (l n st : Nat) : State :=
  if s.auRuns l n && s.ptrState l n ≠ st && (if st = 1 then s.auAllOnes l n else s.auPtrLost l n) then
    let s := s.fset (F.ltmAuStat_ptrState l n) st
    let s := s.auDefects l n
    if s.ltm l ltmAuAny then s.sticky (Reg.ltmSticky l) (Reg.ltmIntEn l) 0x200 Ev.ltmDefect l
    else s.ltmSet l ltmAuAny true
  else s

/-! ### Higher-order path overhead (R71) -/

/-- POH of an AU is evaluated while a monitored path of type 1-3 covers it (R83). -/
def State.whenHp (s : State) (l n : Nat) (f : State → State) : State :=
  if s.isSdh l && !(s.auPaths l n).isEmpty then f s else s

/-- An HP defect: its field of LTM_AU_STAT and its bit of word 3. -/
def State.hpDefect (s : State) (l n : Nat) (f : Fld) (b : Nat) (on : Bool) : State :=
  (s.fbit f on).setDefects b on (s.auPaths l n)

/-- C2_ACCEPT: HP-PLM when accepted and expected differ and neither is 0; expected 0x01 matches any
non-zero C2. -/
def State.c2Accept (s : State) (l n c2 : Nat) : State :=
  s.whenHp l n fun s =>
    let s := s.fset (F.ltmAuStat_c2Acc l n) c2
    let e := bits (s.auCfg l n) 10 3
    let f := F.ltmAuStat_hpPlm l n
    if c2 = e || (e = 1 && c2 ≠ 0) then s.hpDefect l n f 26 false
    else if c2 ≠ 0 && e ≠ 0 then s.hpDefect l n f 26 true
    else s

/-- J1_ACCEPT. -/
def State.j1Accept (s : State) (l n : Nat) (t : List Octet) : State :=
  s.whenHp l n fun s =>
    let k := 64 * (64 * l + n)
    let len := if bit (s.auCfg l n) 2 then 64 else 16
    let t := traceEntry len t
    let s := s.acceptTrace (0x1940000 + k) t l n
    s.hpDefect l n (F.ltmAuStat_hpTim l n) 28 (s.bytes (0x1910000 + k) len ≠ t)

def State.hpUneqChange (s : State) (l n : Nat) (on : Bool) : State :=
  s.whenHp l n fun s => s.hpDefect l n (F.ltmAuStat_hpUneq l n) 27 on

def State.hpRdiChange (s : State) (l n : Nat) (on : Bool) : State :=
  s.whenHp l n fun s => s.hpDefect l n (F.ltmAuStat_hpRdi l n) 23 on

/-! ### Lower-order paths (R72) -/

/-- A monitored lower-order path whose lane has no defect and whose AU is in NORM: otherwise its
interpreter and monitors hold (R72). -/
def State.loLive (s : State) (p : Nat) : Bool :=
  match (s.path p).entry with
  | some (w0, w1, _) =>
    let l := s.servedBy (bits w0 23 18)
    bit w0 24 && 4 ≤ bits w0 30 27 && bits w0 30 27 ≤ 7 && s.isSdh l && !s.laneDefect l &&
      s.ptrState l (bits w1 31 26) = 0
  | none => false

/-- The carrying VC of a TU-2, TU-12 or TU-11 path is in LOM (R72). -/
def State.pathLom (s : State) (p : Nat) : Bool :=
  match (s.path p).entry with
  | some (w0, w1, _) => bits w0 30 27 ≠ 4 && (s.au (s.servedBy (bits w0 23 18)) (bits w1 31 26)).lom
  | none => false

/-- TU_PTR_CHANGE of a path: NORM, AIS or LOP. -/
def State.tuPath (s : State) (p st : Nat) : State :=
  if s.loLive p && st ≤ 2 then
    let s := s.onPath p fun x => { x with tu := BitVec.ofNat 2 st }
    (s.setDefect p 30 (st = 1)).setDefect p 29 (st = 2 || s.pathLom p)
  else s

/-- lop of each path of a list follows LOM (R72). -/
def State.lomPaths (s : State) : List Nat → State
  | [] => s
  | p :: ps => (s.setDefect p 29 ((s.path p).tu = 2 || s.pathLom p)).lomPaths ps

/-- LOM_CHANGE. -/
def State.lomChange (s : State) (l n : Nat) (on : Bool) : State :=
  if s.isSdh l && !s.laneDefect l && s.ptrState l n = 0 then
    let s := s.onAu l n fun x => { x with lom := on }
    s.lomPaths ((s.loPaths l n).filter fun p =>
      match (s.path p).entry with
      | some (w0, _, _) => bits w0 30 27 ≠ 4
      | none => false)
  else s

/-- Path IDs that have entries in the lower-order trace tables (R72, R74). -/
def loTracePaths : Nat := 4096

/-- LP_LABEL_ACCEPT: LP-UNEQ of any path; LP-PLM of path IDs 0-4,095. -/
def State.lpLabelAccept (s : State) (p : Nat) (label : Octet) : State :=
  if s.loLive p then
    let s := s.setDefect p 27 (label = 0)
    if p < loTracePaths then
      let s := s.putByte (0x19C0000 + 32 * p + 16) label
      let e := s.byte (0x19A0000 + 32 * p + 16)
      s.setDefect p 26 (!(label = e || (e = 1 && label ≠ 0)))
    else s
  else s

/-- J2_ACCEPT of path IDs 0-4,095. -/
def State.j2Accept (s : State) (p : Nat) (t : List Octet) : State :=
  if s.loLive p && p < loTracePaths then
    let t := traceEntry 16 t
    let s := s.acceptTrace (0x19C0000 + 32 * p) t p 0
    s.setDefect p 28 (s.bytes (0x19A0000 + 32 * p) 16 ≠ t)
  else s

def State.lpRdiChange (s : State) (p : Nat) (on : Bool) : State :=
  if s.loLive p then s.setDefect p 23 on else s

/-! ### Configuration (R64, R65, R81) -/

/-- A host write of an RW register merged with its present value (R364). -/
def State.merged (s : State) (a : Nat) (be : BitVec 4) (v : W32) : W32 :=
  match regRow? a with
  | some r =>
    let m := r.rw ||| r.rws ||| (if s.lc ≤ 1 then r.rwl else 0)
    (s.rd a &&& ~~~(m &&& beMask be)) ||| (v &&& m &&& beMask be)
  | none => 0

/-- AU entries as stored. -/
def State.auStored (s : State) (l n : Nat) : W32 := s.rd (Reg.ltmAuCfg l n)

/-- An interpreter starts anew: no counts, nothing aligned (R81). -/
def AuSt.restart (x : AuSt) : AuSt := { x with aligned := false, ptr := .init, noConc := 0, just := 0 }

/-- The interpreters of a list of AUs start from LOP, members aside (R81). -/
def State.restartAus (s : State) (l : Nat) : List Nat → State
  | [] => s
  | n :: ns =>
    let s := s.onAu l n AuSt.restart
    let s := s.fset (F.ltmAuStat_ptrState l n) (if (s.auMemberOf l n).isSome then 3 else 2)
    (s.auDefects l n).restartAus l ns

/-- The entry of AU number `n` keeps the rules of R65 among those of its lane. -/
def State.auKeeps (s : State) (l n : Nat) : Bool := auLawful (s.au3 l) (stmN (s.rate l)) (s.auCfg l) n

/-- Every entry is judged under R65 after a change: one that breaks the rules is treated as unequipped, and one that
meets them again acts from the frame after. SDH_CFG_REJECT names the lowest that now breaks them, and is raised
where `always` asks for it too (R64). -/
def State.judgeAus (s : State) (l : Nat) (always : Bool := false) : State :=
  let all := List.range 64
  let fresh := all.filter fun n => !s.auKeeps l n && !((s.au l n).unlawful && !(s.au l n).mend)
  let s := all.foldl (fun s n =>
    let ok := s.auKeeps l n
    s.onAu l n fun x => { x with unlawful := x.unlawful || !ok, mend := x.unlawful && ok }) s
  match fresh with
  | n :: _ => s.raise Ev.sdhCfgReject l n
  | [] => if always then s.raise Ev.sdhCfgReject l 0 else s

/-- Entries that have become lawful act again, and their interpreters acquire as from LOP (R65). -/
def State.mendAus (s : State) (l : Nat) : State :=
  let ns := (List.range 64).filter fun n => (s.au l n).mend
  if ns = [] then s
  else
    let s := ns.foldl (fun s n => s.onAu l n fun x => { x with unlawful := false, mend := false }) s
    (s.restartAus l (ns ++ ns.flatMap fun n => auSpan (s.au3 l) (s.auCfg l n) n)).judgeAuAny l

/-- AU numbers whose interpreter a change of the shape of entry `m` affects (R81). -/
def State.auAffected (s : State) (l m : Nat) : List Nat :=
  m :: (auSpan (s.au3 l) (s.auCfg l m) m ++ auSpan (s.au3 l) (s.auStored l m) m)

/-- LTM_AU_CFG entries written since the last frame mark take effect (R81); the entries of the lane are judged
under R65 then (R65). -/
def State.applyAuCfg (s : State) (l : Nat) : State :=
  let changed := (List.range 64).filter fun n => s.auCfg l n ≠ s.auStored l n
  if changed = [] then s
  else
    let shaped := changed.filter fun n => bits (s.auCfg l n) 31 28 ≠ bits (s.auStored l n) 31 28
    let ndf := changed.filter fun n =>
      bits (s.auCfg l n) 26 23 ≠ bits (s.auStored l n) 26 23 ||
        auTypeOf (s.auCfg l n) ≠ auTypeOf (s.auStored l n)
    let hit := (List.range 64).filter fun n => shaped.any fun m => (s.auAffected l m).contains n
    let s := ndf.foldl (fun s n => s.onAu l n fun x => { x with ndf := true }) s
    let s := changed.foldl (fun s n => s.onAu l n fun x => { x with cfg := s.auStored l n }) s
    if shaped = [] then s else (((s.judgeAus l).mendAus l).restartAus l hit).judgeAuAny l

/-- LTM_AU_CFG of a lane (R65): unlawful structures, and every nc of 3 (R83), are discarded with SDH_CFG_REJECT. -/
def State.ltmAuCfgWrite (s : State) (l n : Nat) (be : BitVec 4) (v : W32) : State :=
  s.whenSdh l fun s =>
    let a := Reg.ltmAuCfg l n
    let w := s.merged a be v
    let cfg := fun m => if m = n then w else s.auStored l m
    let au3 := s.au3 l
    let nStm := stmN (s.rate l)
    let taken := auNcOf w = 3 || auShapeOk au3 nStm w n && (auSpan au3 w n).any fun m => auTypeOf (cfg m) ≠ 0
    if auLawful au3 nStm cfg n && !taken then s.wr a w else s.raise Ev.sdhCfgReject l n

end Sys2Proof.Machine
end

