-- ==== Sys2Proof/Machine/Paths.lean ====
section
/-! DEFINITION. The path table: host writes of entries (R57, R191, R294), their application at row 0
(R57, R58), and the shed bit (R323). -/

namespace Sys2Proof.Machine

/-! ### Application of words 0-2 -/

/-- Shed classes of a shed level (R319): class c from level 7 - c; class 0 never. -/
def classShed (level c : Nat) : Bool := c ≥ 1 && level + c ≥ 7

/-- Word 3 of an entry that starts anew: the defects that the lane, the AU and a lower-order pointer
interpreter starting from LOP give it (R71, R72). -/
def State.freshWord3 (s : State) (w0 w1 : W32) : W32 :=
  let g := PathGeo.ofWords w0 w1 0
  let l := s.servedBy g.lane
  let shed := b2n (classShed s.nrg.applied (bits w0 26 25)) * 2 ^ 21
  if !bit w0 24 then BitVec.ofNat 32 shed
  else
    let hp := fun (f : Fld) => b2n (s.flag f)
    let body :=
      if !s.structural g then 0
      else if g.typ ≤ 3 then
        b2n (s.ptrState l g.au = 1) * 2 ^ 30 + b2n (s.ptrState l g.au = 2) * 2 ^ 29
          + hp (F.ltmAuStat_hpTim l g.au) * 2 ^ 28 + hp (F.ltmAuStat_hpUneq l g.au) * 2 ^ 27
          + hp (F.ltmAuStat_hpPlm l g.au) * 2 ^ 26 + hp (F.ltmAuStat_hpRdi l g.au) * 2 ^ 23
      else 2 ^ 29
    BitVec.ofNat 32 (body + shed)

/-- HP results read 0 while no monitored path of type 1-3 covers the AU (R83). -/
def State.clearHp (s : State) (l n : Nat) : State :=
  if l < 48 && (s.auPaths l n).isEmpty then
    (((s.fbit (F.ltmAuStat_hpTim l n) false).fbit (F.ltmAuStat_hpUneq l n) false).fbit
      (F.ltmAuStat_hpPlm l n) false).fbit (F.ltmAuStat_hpRdi l n) false
  else s

/-- Whether the applied words are in use, with PATH_BAD_ADDR when they begin not to be (R58). -/
def State.judgeEntry (s : State) (p : Nat) (again : Bool) : State :=
  match (s.path p).applied with
  | none => s.onPath p fun x => { x with entry := none }
  | some (w0, w1, w2) =>
    if s.inRange (PathGeo.ofWords w0 w1 w2) then
      if (s.path p).entry = some (w0, w1, w2) then s
      else
        let s := s.onPath p fun x => { x with entry := some (w0, w1, w2), tu := 2 }
        (s.setPathWord p 3 (s.freshWord3 w0 w1)).refreshPath p
    else
      let was := (s.path p).entry.isSome || again
      let s := s.onPath p fun x => { x with entry := none }
      if was then s.raise Ev.pathBadAddr p else s

/-- PATH_ENTRY_APPLY (R57): words 0-2 take effect; reserved types raise PATH_BAD_TYPE (R55). A change
of the fields that do not identify the path keeps its defects. -/
def State.applyEntry (s : State) (p : Nat) : State :=
  let w0 := s.pathWord p 0
  let w1 := s.pathWord p 1
  let w2 := s.pathWord p 2
  let old := (s.path p).entry
  let ok := bit w0 31 && typeOk (bits w0 30 27)
  let s := s.onPath p fun x => { x with applied := if ok then some (w0, w1, w2) else none, dirty := false, again := false }
  let s := if bit w0 31 && bits w0 30 27 ≥ 12 then s.raise Ev.pathBadType p else s
  let s := match old with
    | some (o0, o1, o2) =>
      let s :=
        if ok && bits o0 30 18 = bits w0 30 18 && o1 = w1 && o2 = w2 then
          s.onPath p fun x => { x with entry := some (w0, w1, w2) }
        else s
      s
    | none => s
  let s := (s.judgeEntry p true).refreshPath p
  match old with
  | some (o0, o1, _) => s.clearHp (bits o0 23 18) (bits o1 31 26)
  | none => s

/-- Applies every entry written since the last frame mark. -/
def State.applyEntries (s : State) : State :=
  ((s.pathList.filter fun q => q.2.dirty).map (·.1)).foldl State.applyEntry s

/-- Applied entries of a lane judged again after a change of its AUs or of its rate (R58). -/
def State.rejudgeLane (s : State) (l : Nat) : State :=
  let ps := (s.pathList.filter fun q =>
    match q.2.applied with
    | some (w0, _, _) => bits w0 23 18 = l
    | none => false).map (·.1)
  ps.foldl (fun s p => s.judgeEntry p false) s

/-! ### Host writes -/

/-- Bits of each word that a host write may change (R56, R190, R294). -/
def pathRw (w : Nat) : W32 :=
  match w with
  | 0 => 0xFFFFC000
  | 1 => 0xFFFFFFFF
  | 2 => 0xFFFFFFFF
  | 5 => 0xFFFFFFC0
  | 6 => 0xE003FFFF
  | 7 => 0xFC000000
  | _ => 0

/-- The bits that stay locked while valid is 1 (R57). -/
def pathLocked (w : Nat) : W32 :=
  match w with
  | 0 => 0x7FFC0000
  | 1 => 0xFFFFFFFF
  | 2 => 0xFFFFFFFF
  | _ => 0

/-- Words 0-2, 5 and 7 (the reserved bits of word 1 follow from the layout of a valid entry): fields under their
locks, PATH_WRITE_REJECT once for a write that would change a locked bit; words 3 and 4 keep their content (R57, R9).
A whole word written clears its error (R340, R383). -/
def State.pathWordWrite (s : State) (p w : Nat) (be : BitVec 4) (v : W32) : State :=
  let old := s.pathWord p w
  let valid := bit (s.pathWord p 0) 31
  let m := pathRw w &&& beMask be &&& (if w = 1 && valid then s.path1Mask p else 0xFFFFFFFF)
  let new := (old &&& ~~~m) ||| (v &&& m)
  let lock := if valid then pathLocked w else 0
  let reject := (new &&& lock) ≠ (old &&& lock)
  let kept := (new &&& ~~~lock) ||| (old &&& lock)
  let bad := s.entryBad p
  let heals := be = 0xF && s.ueAt (pathAddr p w)
  let s := s.mend (pathAddr p w) be
  let s := if w = 3 || w = 4 then s else s.setPathWord p w kept
  let s := if w ≤ 2 then s.onPath p fun x => { x with dirty := true } else s
  let s := if heals then s.onPath p fun x => { x with dirty := true, again := true } else s
  let s := if bad then s.refreshPath p else s
  if reject then s.raise Ev.pathWriteReject p else s

/-- Word 6: a write that enables byte 3 is a command, clears cmd_rej and waits for the next
evaluation; any other write changes p_path only (R191, R198). -/
def State.selWrite (s : State) (p : Nat) (be : BitVec 4) (v : W32) : State :=
  let s := s.pathWordWrite p 6 be v
  if be.getLsbD 3 then
    let s := s.setPathWord p 6 (setBits (s.pathWord p 6) 20 20 0)
    s.onPath p fun x => { x with sel := { x.sel with cmdNew := true } }
  else s

/-- PATH_ENTRY_WRITE: one word of an entry (log entry 17). -/
def State.pathEntryWrite (s : State) (p w : Nat) (be : BitVec 4) (v : W32) : State :=
  if w = 6 then s.selWrite p be v else s.pathWordWrite p w be v

/-! ### Shedding (R323) -/

/-- Sets or clears shed in one valid path. -/
def State.setShed (s : State) (p : Nat) (on : Bool) : State :=
  (s.setPathWord p 3 (setBits (s.pathWord p 3) 21 21 (b2n on))).refreshPath p

/-- The valid paths of a class. -/
def State.classPaths (s : State) (c : Nat) : List Nat :=
  (s.pathList.filter fun q =>
    match q.2.entry with
    | some (w0, _, _) => bits w0 26 25 = c
    | none => false).map (·.1)

/-- LTM_CFG (R64): a word that would have au3 = 1 at STM-64 is discarded as a whole, also where the byte enables
leave out the byte of a stored au3 = 1 (log entry 81). A change of au3 judges every AU and
path of the lane again; j0_tim_en = 0 ends RS-TIM (R60). -/
def State.ltmCfgWrite (s : State) (l : Nat) (be : BitVec 4) (v : W32) : State :=
  s.whenSdh l fun s =>
    let a := Reg.ltmCfg l
    let w := s.merged a be v
    if bit w 30 && s.rate l = 3 then s.raise Ev.sdhCfgReject l
    else
      let was := s.au3 l
      let s := s.wr a w
      let s := if bit w 28 then s else s.ltmSet l ltmRsTim false
      if s.au3 l = was then s
      else (((s.judgeAus l).restartAus l (List.range 64)).judgeAuAny l).rejudgeLane l

end Sys2Proof.Machine
end

