-- ==== Sys2Proof/Machine/Mirror.lean ====
section
/-! DEFINITION. The mirrored state and the path of a host write to it (R232, R234-R236), the start of a
resync (R241) and the transitions of the mate state (R231). -/

namespace Sys2Proof.Machine

/-! ### What is mirrored (R234) -/

/-- Counters are local to each device: those of the engines, protection, MSP, clips, PRBS and PM. -/
def counterReg (a : Nat) : Bool :=
  ((0xA1000 ≤ a && a < 0xA2000) || (0xB1000 ≤ a && a < 0xB1400)) && 0x24 ≤ a % 0x40 ||
    (0xB4000 ≤ a && a < 0xB8000) || (0xD0004 ≤ a && a ≤ 0xD0010) ||
    (0xD1000 ≤ a && a < 0xD1600 && 0x1C ≤ a % 0x40) || a = Reg.pmnCntTca || a = Reg.pmnCntSat

/-- Fields of a register that a host write may set. -/
def regWritable (a : Nat) : W32 :=
  match regRow? a with
  | some r => r.rw ||| r.rws ||| r.rwl
  | none => 0

/-- Registers of BAR0 whose RW fields are mirrored. -/
def mirroredReg (a : Nat) : Bool :=
  [Reg.flpReq, Reg.flpTarget, Reg.flpCmd, Reg.flpFabCfg, Reg.flpFabRank].contains a ||
    (((0x10000 ≤ a && a < 0x20000) || (0x40000 ≤ a && a < 0xC0000) || (0xD0000 ≤ a && a < 0xE0000) ||
      (0xF0000 ≤ a && a < 0xF8000)) && regWritable a ≠ 0 && !counterReg a)

/-- Words of BAR2 that are mirrored (R415). -/
def mirroredMem (a : Nat) : Bool :=
  a < 0x1000000 || (a < 0x1800000 && [0, 1, 2, 5, 6, 7].contains (a / 4 % 8)) ||
    (0x1800000 ≤ a && a < 0x1A00000)

def mirrored (bar2 : Bool) (a : Nat) : Bool := if bar2 then mirroredMem a else mirroredReg a

/-- Writable bits of a configuration word of a termination (R96). -/
def termRw (w : Nat) : W32 :=
  match w with
  | 0 => 0xFFFFFFFC
  | 5 => 0x8003FFFF
  | 6 => 0
  | 7 => 0
  | _ => 0x0003FFFF

/-- Bits of a mirrored word that a host write may set. -/
def mirrorBits (bar2 : Bool) (a : Nat) : W32 :=
  if bar2 then
    if 0x1000000 ≤ a && a < 0x1800000 then pathRw (a / 4 % 8)
    else if 0x18C0000 ≤ a && a < 0x1900000 then termRw (a / 4 % 8)
    else 0xFFFFFFFF
  else regWritable a

/-- The word at a place of BAR0 or BAR2. -/
def State.placeWord (s : State) (bar2 : Bool) (a : Nat) : W32 := if bar2 then s.memWord a else s.rd a

/-! ### The mirror queue (R236) -/

def State.mateState (s : State) : Nat := s.fget F.matStat_state
def mateAlone : Nat := 0
def mateSyncing : Nat := 1
def mateStandby : Nat := 2
def mateActive : Nat := 3
def mateDual : Nat := 4

/-- Mirrored state takes no host write (R232). -/
def State.standsBy (s : State) : Bool := s.mateState = mateSyncing || s.mateState = mateStandby

/-- The lowest-numbered ACTIVE mate lane. -/
def State.mateLane? (s : State) : Option Nat :=
  (List.range 48).find? fun l => s.role l = roleMate && s.stage l = stageActive

/-- The mirror queue's limit of unacknowledged records. -/
def mirrorMax : Nat := 16384

/-- A resync starts on an ACTIVE device: the start record is due and the image begins (R241). -/
def State.startResync (s : State) : State :=
  if s.mateState ≠ mateActive then s
  else
    let s := (s.fbit F.matStat_mirrorBroken false).wr Reg.matResync 0x80000000
    { s with mate := { s.mate with startDue := true, image := some 0, endBanks := none, tail := none } }

/-- A broken mirror resyncs as soon as a mate lane is ACTIVE. -/
def State.mendMirror (s : State) : State :=
  if s.flag F.matStat_mirrorBroken && s.mateLane?.isSome then s.startResync else s

/-- A record enters the mirror queue; an overflow breaks the mirror. -/
def State.queueRecord (s : State) (kind : BitVec 4) (r : MirrorRec) : State :=
  if ((s.mate.queue ++ s.mate.unacked).filter fun q => q.kind.toNat ≤ 2).length ≥ mirrorMax then
    (s.fbit F.matStat_mirrorBroken true).mendMirror
  else { s with mate := { s.mate with queue := s.mate.queue ++ [⟨kind, r⟩] } }

/-- A record of one word, before it has a seq. -/
def mirrorRec (bar2 : Bool) (a : Nat) (be : BitVec 4) (v : W32) : MirrorRec :=
  ⟨if bar2 then 1 else 0, 0, BitVec.ofNat 32 a, v, be, 0⟩

/-- The 8 words of a record but for the CRC (R235). -/
def recordFields (kind : BitVec 4) (r : MirrorRec) : List Nat :=
  [kind.toNat * 4096 + r.region.toNat * 256, r.seq.toNat, r.offset.toNat / 65536, r.offset.toNat % 65536,
    r.data.toNat / 65536, r.data.toNat % 65536, r.be.toNat]

def recordCrc (kind : BitVec 4) (r : MirrorRec) : BitVec 16 := BitVec.ofNat 16 (crc16 (recordFields kind r))

/-- A host write was discarded whole: the word did not change though the write differs from it. PMN_TAI takes its
value later, and OCT_TONE_DATA reads at the next address. -/
def notApplied (bar2 : Bool) (a : Nat) (be : BitVec 4) (v : W32) (old new : W32) : Bool :=
  let m := mirrorBits bar2 a &&& beMask be
  new = old && (old &&& m) ≠ (v &&& m) && (bar2 || (a ≠ Reg.pmnTai && a ≠ Reg.octToneData))

/-- The write of an ACTIVE device is mirrored once applied. -/
def State.mirrorWrite (s : State) (bar2 : Bool) (a : Nat) (be : BitVec 4) (v : W32) (f : State → State) :
    State :=
  let old := s.placeWord bar2 a
  let s := f s
  if notApplied bar2 a be v old (s.placeWord bar2 a) then s
  else s.queueRecord 1 (mirrorRec bar2 a be v)

/-- A host write to mirrored state was discarded: reported once in a frame (R232). -/
def State.refuseWrite (s : State) : State :=
  if s.mate.refused then s
  else
    let s := (s.count Reg.matCntRej).raise Ev.mateWriteReject
    { s with mate := { s.mate with refused := true } }

/-- A host write whose effect is `f` (R232): discarded in SYNCING and STANDBY when it is to mirrored
state, mirrored in ACTIVE. -/
def State.asHost (s : State) (bar2 : Bool) (a : Nat) (be : BitVec 4) (v : W32) (f : State → State) : State :=
  if !mirrored bar2 a then f s
  else if s.standsBy then s.refuseWrite
  else if s.mateState = mateActive then s.mirrorWrite bar2 a be v f
  else f s

/-- A host write to a register of BAR0. -/
def State.hostReg (s : State) (a : Nat) (be : BitVec 4) (v : W32) (f : State → State) : State :=
  s.fromHost a fun s => s.asHost false a be v f

/-! ### Mate states (R231) -/

def State.sideB (s : State) : Bool := s.flag F.matStat_side

/-- Entry into a state: what belongs to the state left is dropped. A device that begins to take its timing
from its mate has no aligned phase yet (R224, R244). In SYNCING a resync is in progress (R245); the records of an
epoch that have come stay staged between SYNCING and STANDBY (R239). -/
def State.enterMate (s : State) (st : Nat) : State :=
  let was := s.mateState
  let follows := was = mateSyncing || was = mateStandby
  let s :=
    if st = mateSyncing && !follows && s.fget F.fabStat_tmRole ≤ 1 then
      { s.fbit F.fabStat_aligned false with fab := { s.fab with phased := false } }
    else s
  let s := (s.fset F.matStat_state st).wr Reg.matResync (if st = mateSyncing then 0x80000000 else 0)
  let stays : Bool := follows && (st = mateSyncing || st = mateStandby)
  { s with mate := { s.mate with
      startDue := false, image := none, endBanks := none, imageEnd := none, tail := none, imageIn := 0
      staged := if stays then s.mate.staged else [], heard := if stays then s.mate.heard else none
      epochOut := false, epochCut := false, marker := none, queue := [], unacked := [], line := [], stall := 0 } }

/-- The mate enters SYNCING while this device is ACTIVE: a resync starts (R241). The mate enters it from STANDBY on
the start record of a resync that runs already; from a state in which it had no mate it begins `anew`. -/
def State.syncMate (s : State) (entered anew : Bool) : State :=
  if entered && s.mateState = mateActive && s.mate.peerState = 1 && (anew || !bit (s.rd Reg.matResync) 31) then
    s.startResync
  else s

/-- The state that follows from the mate_state received from a reachable mate. -/
def State.mateNext (s : State) : Option Nat :=
  let p := s.mate.peerState.toNat
  let st := s.mateState
  if !s.flag F.matCtl_en || !s.flag F.matStat_mateOk then none
  else if st = mateAlone then
    if s.flag F.matStat_imageBad then none
    else if s.sideB then some (if p = mateSyncing || p = mateStandby then mateActive else mateSyncing)
    else some (if p = mateActive || p = mateDual then mateSyncing else mateActive)
  else if st = mateStandby then (if p = mateAlone then some mateActive else none)
  else if st = mateDual then
    if p = mateSyncing then some mateActive
    else if s.sideB && (p = mateActive || p = mateDual) then some mateSyncing else none
  else none

/-- MATE_STATE_RECEIVED: the transition of R231, and the resync that an ACTIVE device owes a mate that
entered SYNCING (`fresh`), from ALONE or DUAL (`anew`). -/
def State.mateStep (s : State) (fresh : Bool) (anew : Bool := false) : State :=
  match s.mateNext with
  | some st => (s.enterMate st).syncMate true true
  | none => s.syncMate fresh anew

end Sys2Proof.Machine
end

