-- ==== Sys2Proof/Machine/Flags.lean ====
section
/-! DEFINITION. The arithmetic of the engines: G.711 expansion and compression, gains and saturation
(R160-R163), and the execution digest (R120). -/

namespace Sys2Proof.Machine

/-! ### Linear samples (R160, R161) -/

/-- expand: the 18-bit linear value of an octet; `mu` is µ-law, otherwise A-law (R160). -/
def expand (mu : Bool) (x : Octet) : Int :=
  let y := (if mu then x ^^^ 0xFF else x ^^^ 0x55).toNat
  let e := y / 16 % 8
  let m := y % 16
  if mu then
    let v : Int := 8 * ((2 * m + 33) * 2 ^ e - 33 : Nat)
    if y < 128 then v else -v
  else
    let v : Int := 16 * (if e = 0 then 2 * m + 1 else (2 * m + 33) * 2 ^ (e - 1) : Nat)
    if y < 128 then -v else v

/-- The largest magnitude of a law. -/
def lawMax (mu : Bool) : Nat := if mu then 64248 else 64512

/-- Code `x` is a better compression of `v` than code `y`: nearer; at equal distance the smaller
magnitude; at equal magnitude the positive code (R161). -/
def betterCode (mu : Bool) (v : Int) (x y : Octet) : Bool :=
  let a := expand mu x
  let b := expand mu y
  let da := (a - v).natAbs
  let db := (b - v).natAbs
  da < db || (da = db && (a.natAbs < b.natAbs || (a.natAbs = b.natAbs && (x.getLsbD 7 && !y.getLsbD 7))))

/-- compress: the nearest code of the law (R161). In both laws the positive code of two with one
magnitude is the one with bit 7 set. -/
def compress (mu : Bool) (v : Int) : Octet :=
  (List.range 255).foldl (fun best i =>
    let x := BitVec.ofNat 8 (i + 1)
    if betterCode mu v x best then x else best) 0

/-- compress receives a magnitude above the law's largest (R163). -/
def compressClips (mu : Bool) (v : Int) : Bool := v.natAbs > lawMax mu

/-! ### Gains (R128, R162, R163) -/

/-- G[g] = round(65,536 · 10^(-g/40)) for the codes 0x00-0x7F (R162). -/
def gainTable : List Nat :=
  [65536, 61870, 58409, 55142, 52057, 49145, 46396, 43801, 41350, 39037, 36854, 34792, 32846, 31008, 29274, 27636] ++
  [26090, 24631, 23253, 21952, 20724, 19565, 18471, 17437, 16462, 15541, 14672, 13851, 13076, 12345, 11654, 11002] ++
  [10387, 9806, 9257, 8739, 8250, 7789, 7353, 6942, 6554, 6187, 5841, 5514, 5206, 4915, 4640, 4380] ++
  [4135, 3904, 3685, 3479, 3285, 3101, 2927, 2764, 2609, 2463, 2325, 2195, 2072, 1957, 1847, 1744] ++
  [1646, 1554, 1467, 1385, 1308, 1234, 1165, 1100, 1039, 981, 926, 874, 825, 779, 735, 694] ++
  [655, 619, 584, 551, 521, 491, 464, 438, 414, 390, 369, 348, 328, 310, 293, 276] ++
  [261, 246, 233, 220, 207, 196, 185, 174, 165, 155, 147, 139, 131, 123, 117, 110] ++
  [104, 98, 93, 87, 83, 78, 74, 69, 66, 62, 58, 55, 52, 49, 46, 44]

/-- apply_gain (R162); code 0x80 is mute (R128). -/
def applyGain (g : Nat) (v : Int) : Int :=
  if g ≥ 128 then 0
  else
    let t : Int := ((v.natAbs * gainTable.getD g 0 + 32768) / 65536 : Nat)
    if v ≥ 0 then t else -t

/-- sat18 (R151). -/
def sat18 (v : Int) : Int := max (-131072) (min 131071 v)

/-- sat18 limits the value (R163). -/
def satClips (v : Int) : Bool := sat18 v ≠ v

/-! ### The execution digest (R120) -/

/-- One bit of the CRC-32C register. -/
def crcStep (st : W32) : W32 := if st.getLsbD 31 then (st <<< 1) ^^^ 0x1EDC6F41 else st <<< 1

/-- `n` steps. -/
def crcSteps : Nat → W32 → W32
  | 0, st => st
  | n + 1, st => crcSteps n (crcStep st)

/-- Folds a 32-bit value, most significant bit first. -/
def foldValue (st v : W32) : W32 := crcSteps 32 (st ^^^ v)

def foldValues (st : W32) (vs : List W32) : W32 := vs.foldl foldValue st

/-- An instruction word is folded as its high half, then its low half. -/
def foldWord (st : W32) (w : W64) : W32 :=
  foldValue (foldValue st (w.extractLsb' 32 32)) (w.extractLsb' 0 32)

def foldWords (st : W32) (ws : List W64) : W32 := ws.foldl foldWord st

/-- An access value: source number and address (R120). -/
def accessValue (src addr : Nat) : W32 := BitVec.ofNat 32 (src * 2 ^ 26 + addr)

/-- The accesses of a run of `n` from `first`, `step` positions each (R120). -/
def runAccesses (src first n step : Nat) : List W32 :=
  (List.range ((n + step - 1) / step)).map fun i => accessValue src (first + step * i)

end Sys2Proof.Machine
end

