-- ==== Sys2Proof/Machine/Program.lean ====
section
/-! DEFINITION. The Shupra instruction words: instructions of both planes, their encoding and decoding
(R125, R132-R158), costs (R115, R116) and access values (R130). -/

namespace Sys2Proof.Machine

/-- An instruction of a column program. -/
inductive ColIns where
  | movc (f : MovcF)
  | movcs (f : MovcsF)
  | filc (f : FilcF)
  | selc (f : SelcF)
  | endI
  | nop
  | mark (tag : BitVec 16)
  deriving DecidableEq, Repr

/-- An instruction of an octet program. -/
inductive OctIns where
  | movo (f : MovoF)
  | movos (f : MovosF)
  | filo (f : FiloF)
  | selo (f : SeloF)
  | mix (f : MixF)
  | mixp (f : MixF)
  | gain (f : GainF)
  | tone (f : ToneF)
  | prbs (check : Bool) (f : PrbsF)
  | casx (f : CasxF)
  | casi (f : CasiF)
  | endI
  | nop
  | mark (tag : BitVec 16)
  deriving DecidableEq, Repr

/-- A one-bit vector. -/
def b1 (b : Bool) : BitVec 1 := BitVec.ofBool b

/-- Bits `hi` down to `lo` of a word as a bit vector of width `n`. -/
def wbits (w : W64) (lo n : Nat) : BitVec n := w.extractLsb' lo n

/-! ### Encoding -/

def encEnd : W64 := 0xC000000000000000
def encNop : W64 := 0xC400000000000000
def encMark (tag : BitVec 16) : W64 := 0x32#6 ++ 0#42 ++ tag

/-- The words of a column instruction (R132-R140, R158). -/
def encodeCol : ColIns → List W64
  | .movc f =>
    [0x01#6 ++ b1 f.forceCon ++ b1 f.checkSeq ++ b1 f.digestExcl ++ 0#1 ++ f.srcLane ++ f.srcCol ++
      f.dstCol ++ f.lenM1]
  | .movcs f =>
    [0x02#6 ++ b1 f.forceCon ++ b1 f.checkSeq ++ 0#2 ++ f.srcLane ++ f.srcCol ++ f.dstCol ++
      f.countM1 ++ f.strideM1 ++ f.smode ++ b1 f.scale]
  | .filc f => [0x03#6 ++ 0#6 ++ f.pattern ++ 0#16 ++ f.dstCol ++ f.lenM1]
  | .selc f =>
    [0x04#6 ++ 0#2 ++ f.wLane ++ f.wCol ++ f.dstCol ++ f.path,
      0#8 ++ f.pLane ++ f.pCol ++ 0#18 ++ f.lenM1]
  | .endI => [encEnd]
  | .nop => [encNop]
  | .mark t => [encMark t]

/-- Source field `j` of MIX or MIXP, 0 where unused (R126). -/
def mixSrc (f : MixF) (j : Nat) : BitVec 16 := f.sources.getD j 0

/-- The words of MIX (0x14) or MIXP (0x15) (R148). -/
def encodeMix (op : BitVec 6) (f : MixF) : List W64 :=
  let k := f.sources.length
  let w0 : W64 := op ++ BitVec.ofNat 3 (k - 1) ++ b1 f.law ++ f.sc ++ mixSrc f 0 ++ 0#10 ++ f.anchor
  let w1 : W64 := mixSrc f 1 ++ mixSrc f 2 ++ mixSrc f 3 ++ mixSrc f 4
  let w2 : W64 := mixSrc f 5 ++ mixSrc f 6 ++ mixSrc f 7 ++ 0#16
  if k ≤ 1 then [w0] else if k ≤ 5 then [w0, w1] else [w0, w1, w2]

/-- The words of an octet instruction (R142-R158). -/
def encodeOct : OctIns → List W64
  | .movo f => [0x10#6 ++ b1 f.forceCon ++ 0#1 ++ b1 f.digestExcl ++ f.lenM1 ++ f.src ++ f.dst]
  | .movos f => [0x11#6 ++ f.countM1 ++ f.sstrideM1 ++ f.dstrideM1 ++ f.src ++ f.dst]
  | .filo f => [0x12#6 ++ 0#3 ++ f.lenM1 ++ 0#18 ++ f.pattern ++ f.dst]
  | .selo f =>
    [0x13#6 ++ 0#3 ++ f.lenM1 ++ f.wSrc ++ f.dst, 0#20 ++ f.pSrc ++ 0#4 ++ f.path]
  | .mix f => encodeMix 0x14#6 { f with sc := 0 }
  | .mixp f => encodeMix 0x15#6 f
  | .gain f => [0x17#6 ++ f.nM1 ++ f.gain ++ b1 f.lawIn ++ b1 f.lawOut ++ f.src ++ f.dst]
  | .tone f => [0x16#6 ++ f.tone ++ f.phase ++ f.nM1 ++ f.pstep ++ f.dst]
  | .prbs c f => [0x18#6 ++ b1 c ++ f.poly ++ f.chan ++ f.nM1 ++ 0#12 ++ f.addr]
  | .casx f => [0x19#6 ++ f.term ++ f.chan ++ 0#18 ++ f.dst]
  | .casi f => [0x1A#6 ++ f.term ++ 0#1 ++ f.src ++ f.dst]
  | .endI => [encEnd]
  | .nop => [encNop]
  | .mark t => [encMark t]

/-! ### Decoding -/

/-- The reserved bits of a word, `n` from `lo`, are 0 (R126). -/
def zeroBits (w : W64) (lo n : Nat) : Bool := wbits w lo n = 0

/-- END, NOP and MARK in either bank (R158): 0 END, 1 NOP, 2 MARK with its tag. -/
def decodeControl (w : W64) : Option (Nat × BitVec 16) :=
  if wbits w 58 6 = 0x30 && zeroBits w 0 58 then some (0, 0)
  else if wbits w 58 6 = 0x31 && zeroBits w 0 58 then some (1, 0)
  else if wbits w 58 6 = 0x32 && zeroBits w 16 42 then some (2, wbits w 0 16)
  else none

/-- A column instruction from its first word and the word after it; none where the valid-instruction
rule fails by an opcode or a reserved field (R119, R125). -/
def decodeCol (w0 w1 : W64) : Option ColIns :=
  match (wbits w0 58 6).toNat with
  | 0x01 =>
    if zeroBits w0 54 1 then
      some (.movc ⟨w0.getLsbD 57, w0.getLsbD 56, w0.getLsbD 55, wbits w0 48 6, wbits w0 32 16,
        wbits w0 16 16, wbits w0 0 16⟩)
    else none
  | 0x02 =>
    if zeroBits w0 54 2 && wbits w0 1 2 ≠ 3 then
      some (.movcs ⟨w0.getLsbD 57, w0.getLsbD 56, wbits w0 48 6, wbits w0 32 16, wbits w0 16 16,
        wbits w0 10 6, wbits w0 3 7, wbits w0 1 2, w0.getLsbD 0⟩)
    else none
  | 0x03 =>
    if zeroBits w0 52 6 && zeroBits w0 32 16 then
      some (.filc ⟨wbits w0 48 4, wbits w0 16 16, wbits w0 0 16⟩)
    else none
  | 0x04 =>
    if zeroBits w0 56 2 && zeroBits w1 56 8 && zeroBits w1 16 18 then
      some (.selc ⟨wbits w0 50 6, wbits w0 34 16, wbits w0 18 16, wbits w0 0 18, wbits w1 50 6,
        wbits w1 34 16, wbits w1 0 16⟩)
    else none
  | _ =>
    match decodeControl w0 with
    | some (0, _) => some .endI
    | some (1, _) => some .nop
    | some (_, t) => some (.mark t)
    | none => none

/-- The source fields of MIX or MIXP; none where an unused or reserved bit is set (R126, R148). -/
def decodeMix (w0 w1 w2 : W64) : Option MixF :=
  let k := (wbits w0 55 3).toNat + 1
  let all : List (BitVec 16) :=
    [wbits w0 32 16, wbits w1 48 16, wbits w1 32 16, wbits w1 16 16, wbits w1 0 16, wbits w2 48 16,
     wbits w2 32 16, wbits w2 16 16]
  let words := if k ≤ 1 then 1 else if k ≤ 5 then 5 else 8
  let unused := (all.take words).drop k
  if zeroBits w0 22 10 && unused.all (· = 0) && (k ≤ 5 || zeroBits w2 0 16) then
    some ⟨w0.getLsbD 54, wbits w0 48 6, all.take k, wbits w0 0 22⟩
  else none

/-- A gain code of R128. -/
def gainOk (g : Nat) : Bool := g ≤ 128

/-- A source field of R149: bit 14 of a scratch source is reserved. -/
def mixSrcOk (x : BitVec 16) : Bool :=
  (!x.getLsbD 15 || !x.getLsbD 14) && gainOk (x.extractLsb' 0 8).toNat

/-- An octet instruction from its first word and the two words after it. -/
def decodeOct (w0 w1 w2 : W64) : Option OctIns :=
  match (wbits w0 58 6).toNat with
  | 0x10 =>
    if zeroBits w0 56 1 then
      some (.movo ⟨w0.getLsbD 57, w0.getLsbD 55, wbits w0 44 11, wbits w0 22 22, wbits w0 0 22⟩)
    else none
  | 0x11 =>
    some (.movos ⟨wbits w0 54 4, wbits w0 49 5, wbits w0 44 5, wbits w0 22 22, wbits w0 0 22⟩)
  | 0x12 =>
    if zeroBits w0 55 3 && zeroBits w0 26 18 then
      some (.filo ⟨wbits w0 44 11, wbits w0 22 4, wbits w0 0 22⟩)
    else none
  | 0x13 =>
    if zeroBits w0 55 3 && zeroBits w1 44 20 && zeroBits w1 18 4 then
      some (.selo ⟨wbits w0 44 11, wbits w0 22 22, wbits w0 0 22, wbits w1 22 22, wbits w1 0 18⟩)
    else none
  | 0x14 =>
    match decodeMix w0 w1 w2 with
    | some f => if f.sc = 0 && f.sources.all mixSrcOk then some (.mix f) else none
    | none => none
  | 0x15 =>
    match decodeMix w0 w1 w2 with
    | some f => if f.sources.all mixSrcOk then some (.mixp f) else none
    | none => none
  | 0x16 =>
    some (.tone ⟨wbits w0 50 8, wbits w0 34 16, wbits w0 30 4, wbits w0 22 8, wbits w0 0 22⟩)
  | 0x17 =>
    if gainOk (wbits w0 46 8).toNat then
      some (.gain ⟨wbits w0 54 4, wbits w0 46 8, w0.getLsbD 45, w0.getLsbD 44, wbits w0 22 22,
        wbits w0 0 22⟩)
    else none
  | 0x18 =>
    if zeroBits w0 22 12 then
      some (.prbs (w0.getLsbD 57) ⟨wbits w0 55 2, wbits w0 45 10, wbits w0 34 11, wbits w0 0 22⟩)
    else none
  | 0x19 =>
    if zeroBits w0 22 18 then some (.casx ⟨wbits w0 45 13, wbits w0 40 5, wbits w0 0 22⟩) else none
  | 0x1A =>
    if zeroBits w0 44 1 then some (.casi ⟨wbits w0 45 13, wbits w0 22 22, wbits w0 0 22⟩) else none
  | _ =>
    match decodeControl w0 with
    | some (0, _) => some .endI
    | some (1, _) => some .nop
    | some (_, t) => some (.mark t)
    | none => none

/-- Words of an instruction (R125). -/
def colWords (i : ColIns) : Nat := (encodeCol i).length
def octWords (i : OctIns) : Nat := (encodeOct i).length

/-! ### Positions and costs -/

/-- Destination stride and source stride of MOVCS with the interleave factors of both sides (R135). -/
def movcsStrides (f : MovcsF) (iSrc iDst : Nat) : Nat × Nat :=
  let s := f.strideM1.toNat + 1
  let m := f.smode.toNat
  (if m = 0 || m = 2 then s * (if f.scale then iSrc else 1) else 1,
   if m = 1 || m = 2 then s * (if f.scale then iDst else 1) else 1)

/-- Positions that a column instruction writes. -/
def colN : ColIns → Nat
  | .movc f => f.lenM1.toNat + 1
  | .movcs f => f.countM1.toNat + 1
  | .filc f => f.lenM1.toNat + 1
  | .selc f => f.lenM1.toNat + 1
  | _ => 0

/-- Cost of a column instruction (R115). -/
def colCost : ColIns → Nat
  | .movc f => (f.lenM1.toNat + 1 + 3) / 4
  | .movcs f => f.countM1.toNat + 1
  | .filc f => (f.lenM1.toNat + 1 + 3) / 4
  | .selc f => 1 + (f.lenM1.toNat + 1 + 3) / 4
  | _ => 1

/-- Cost of an octet instruction (R116). -/
def octCost : OctIns → Nat
  | .movo f => 1 + (f.lenM1.toNat + 1 + 7) / 8
  | .movos f => 1 + (f.countM1.toNat + 1)
  | .filo f => 1 + (f.lenM1.toNat + 1 + 7) / 8
  | .selo f => 2 + (f.lenM1.toNat + 1 + 7) / 8
  | .mix f => 2 + f.sources.length
  | .mixp f => 2 + f.sources.length
  | .tone f => 2 + (f.nM1.toNat + 1)
  | .gain f => 1 + (f.nM1.toNat + 1)
  | .prbs _ f => 2 + (f.nM1.toNat + 1 + 7) / 8
  | .casx _ => 2
  | .casi _ => 2
  | _ => 1

/-- Columns of a V-lane row and rows of a frame make octet addresses (R99). -/
def octAddr (v w c : Nat) : Nat := 331776 * v + 36864 * w + c
def addrV (a : Nat) : Nat := a / 331776
def addrRow (a : Nat) : Nat := a / 36864 % 9
def addrCol (a : Nat) : Nat := a % 36864

/-- Positions that an octet instruction writes, in order; none for those that write nothing (R141). -/
def octWrites : OctIns → List Nat
  | .movo f => (List.range (f.lenM1.toNat + 1)).map (f.dst.toNat + ·)
  | .movos f => (List.range (f.countM1.toNat + 1)).map fun e =>
      f.dst.toNat + e * (f.dstrideM1.toNat + 1)
  | .filo f => (List.range (f.lenM1.toNat + 1)).map (f.dst.toNat + ·)
  | .selo f => (List.range (f.lenM1.toNat + 1)).map (f.dst.toNat + ·)
  | .mix f => [f.anchor.toNat]
  | .gain f => (List.range (f.nM1.toNat + 1)).map (f.dst.toNat + ·)
  | .tone f => (List.range (f.nM1.toNat + 1)).map (f.dst.toNat + ·)
  | .prbs false f => (List.range (f.nM1.toNat + 1)).map (f.addr.toNat + ·)
  | .casx f => [f.dst.toNat]
  | .casi f => [f.dst.toNat]
  | _ => []

/-- A source of MIX or MIXP: an octet address, or a scratch word (R149). -/
def mixSource (anchor : Nat) (x : BitVec 16) : Int ⊕ Nat :=
  if x.getLsbD 15 then .inr (x.extractLsb' 8 6).toNat
  else .inl ((anchor : Int) + (x.extractLsb' 8 7).toInt)

/-! ### Access values (R130) -/

/-- Access values of a column instruction, with the interleave factors of its sides. -/
def colAccesses (iSrc iDst : Nat) : ColIns → List W32
  | .movc f =>
    if f.digestExcl then []
    else runAccesses f.srcLane.toNat f.srcCol.toNat (f.lenM1.toNat + 1) 4
  | .movcs f =>
    let ss := (movcsStrides f iSrc iDst).1
    (List.range (f.countM1.toNat + 1)).map fun e =>
      accessValue f.srcLane.toNat (f.srcCol.toNat + e * ss)
  | .selc f =>
    runAccesses f.wLane.toNat f.wCol.toNat (f.lenM1.toNat + 1) 4 ++
      runAccesses f.pLane.toNat f.pCol.toNat (f.lenM1.toNat + 1) 4
  | _ => []

/-- Access values of an octet instruction; `t1` tells whether a CASI names a T1 termination, and `m`
is its multiframe position. -/
def octAccesses (t1 : Bool) (m : Nat) : OctIns → List W32
  | .movo f =>
    if f.digestExcl then [] else runAccesses 0 f.src.toNat (f.lenM1.toNat + 1) 8
  | .movos f => (List.range (f.countM1.toNat + 1)).map fun e =>
      accessValue 0 (f.src.toNat + e * (f.sstrideM1.toNat + 1))
  | .selo f =>
    runAccesses 0 f.wSrc.toNat (f.lenM1.toNat + 1) 8 ++
      runAccesses 0 f.pSrc.toNat (f.lenM1.toNat + 1) 8
  | .mix f => f.sources.map (mixAccess f.anchor.toNat)
  | .mixp f => f.sources.map (mixAccess f.anchor.toNat)
  | .gain f => runAccesses 0 f.src.toNat (f.nM1.toNat + 1) 8
  | .prbs true f => runAccesses 0 f.addr.toNat (f.nM1.toNat + 1) 8
  | .casi f => casiAccess t1 m f.src.toNat
  | _ => []
where
  mixAccess (anchor : Nat) (x : BitVec 16) : W32 :=
    match mixSource anchor x with
    | .inl a => accessValue 0 a.toNat
    | .inr i => accessValue 0x3F i
  casiAccess (t1 : Bool) (_m : Nat) (src : Nat) : List W32 :=
    if t1 then [accessValue 0 src, accessValue 0 (src + 32)] else [accessValue 0 src]

end Sys2Proof.Machine
end

