-- ==== Sys2Proof/Machine/TermGeo.lean ====
section
/-! DEFINITION. The entries of the E1/T1 terminations and the positions that they own (R84-R87, R93,
R96). -/

namespace Sys2Proof.Machine

/-! ### Entries -/

/-- Configuration word `i` in force on a termination; 0 while it is not in use. -/
def State.termW (s : State) (t i : Nat) : W32 := (s.term t).cfg.getD i 0
/-- The termination is enabled. -/
def State.termOn (s : State) (t : Nat) : Bool := (s.term t).cfg ≠ []
/-- A T1 termination. -/
def State.termT1 (s : State) (t : Nat) : Bool := bit (s.termW t 0) 30
/-- Enabled with signalling (R131). -/
def State.termSig (s : State) (t : Nat) : Bool := s.termOn t && bit (s.termW t 0) 27
/-- Status bit 31-21 of a termination. -/
def State.termFlag (s : State) (t b : Nat) : Bool := bit (s.termStat t 0) b

def stTermFail : Nat := 31
def stFeedCon : Nat := 30
def stTuFail : Nat := 29
def stAis : Nat := 28
def stOof : Nat := 27
def stLof : Nat := 26
def stMfLoss : Nat := 25
def stCasLoss : Nat := 24
def stRai : Nat := 23
def stMrai : Nat := 22
def stCrc4Off : Nat := 21

/-- The kind that the termination's entry holds, which fixes the accesses of a CASI (R130). -/
def State.entryT1 (s : State) (t : Nat) : Bool := bit (s.memWord (termCfgAddr t 0)) 30

/-! ### Positions -/

/-- The terminations in use. -/
def State.termsOn (s : State) : List Nat := (s.termList.filter fun q => q.2.cfg ≠ []).map (·.1)

/-- Feed, delivery, return and emit path: words 1-4. -/
def State.termPath (s : State) (t i : Nat) : Nat := bits (s.termW t i) 17 0

/-- Grains of a path in use: octet addresses of types 8-10, columns of the others. -/
def State.pathGrains (s : State) (p : Nat) : List Nat :=
  match (s.path p).entry with
  | some (w0, w1, w2) => s.grains (PathGeo.ofWords w0 w1 w2)
  | none => []

/-- Lane field of a path in use. -/
def State.pathLane (s : State) (p : Nat) : Nat :=
  match (s.path p).entry with
  | some (w0, _, _) => bits w0 23 18
  | none => 64

/-- Delivery addresses of a termination. -/
def State.dlvAddrs (s : State) (t : Nat) : List Nat := s.pathGrains (s.termPath t 2)

/-- Terminations that deliver into row `w` of V-input lane `v`, with their columns there. -/
def State.dlvIn (s : State) (v w : Nat) : List (Nat × Nat) :=
  s.termsOn.flatMap fun t =>
    ((s.dlvAddrs t).filter fun a => addrV a = v && addrRow a = w).map fun a => (t, addrCol a)

/-- Octets of a TU frame: columns of its run times nine rows. -/
def State.tuCols (s : State) (t : Nat) : Nat := if s.termT1 t then 3 else 4

/-- Egress row of the V octet; 9-15 act as 0 (R96). -/
def State.txRow (s : State) (t : Nat) : Nat :=
  let r := bits (s.termW t 0) 7 4
  if r ≤ 8 then r else 0

/-- Emit positions of a termination in row `w`: octet address and the cell sent there. The octets of
the rows before tx_v_row are those of the frame built before (R93); CON is one for all words of the frame (R95). -/
def State.emitRow (s : State) (t w : Nat) : List (Nat × Cell) :=
  let p := s.termPath t 4
  let v := s.pathLane p - 48
  let n := s.tuCols t
  let r := s.txRow t
  let x := s.term t
  let src := if r ≤ w then x.emit else x.emitPrev
  let k := if r ≤ w then w - r else w + 9 - r
  (List.range n).filterMap fun i =>
    match (s.pathGrains p)[i]? with
    | some c => some (octAddr v w c, { src.getD (n * k + i) ⟨0xFF, true, false⟩ with con := x.emitCon || src = [] })
    | none => none

/-- Terminations that emit on V-output lane `v`. -/
def State.emitters (s : State) (v : Nat) : List Nat :=
  s.termsOn.filter fun t => s.pathLane (s.termPath t 4) = 48 + v

/-- Octet addresses of a frame at which a termination emits on V-output lane `v`. -/
def State.emitAddrs (s : State) (v : Nat) : List Nat :=
  (s.emitters v).flatMap fun t => (List.range 9).flatMap fun w => (s.emitRow t w).map (·.1)

end Sys2Proof.Machine
end

