-- ==== Sys2Proof/Machine/Operands.lean ====
section
/-! DEFINITION. What the engines read: registers of an engine (R124), fill patterns (R138), columns of
the row buffers (R100, R101, R205, R219, R228, R434), octets of the completed octet frame (R100, R141,
R219, R434) and program words (R102, R123). -/

namespace Sys2Proof.Machine

/-! ### Registers of an engine (R124) -/

/-- The register at an offset within the block of destination `d` of a plane. -/
def engReg (octet : Bool) (d off : Nat) : Nat := (if octet then 0xB1000 else 0xA1000) + 0x40 * d + off

/-- The register of a pair A, B that belongs to a bank. -/
def engBank (octet : Bool) (d off : Nat) (bankB : Bool) : Nat :=
  engReg octet d (off + if bankB then 4 else 0)

def engStart (octet : Bool) (d : Nat) (bankB : Bool) : Nat := engBank octet d 0x00 bankB
def engReh (octet : Bool) (d : Nat) (bankB : Bool) : Nat := engBank octet d 0x08 bankB
def engDig (octet : Bool) (d : Nat) (bankB : Bool) : Nat := engBank octet d 0x10 bankB
def engCover (octet : Bool) (d : Nat) (bankB : Bool) : Nat := engBank octet d 0x18 bankB
def engLive (octet : Bool) (d : Nat) : Nat := engReg octet d 0x20
def engUnwr (octet : Bool) (d : Nat) : Nat := engReg octet d 0x24
def engLateCnt (octet : Bool) (d : Nat) : Nat := engReg octet d 0x28
def engSeq (octet : Bool) (d : Nat) : Nat := engReg octet d 0x2C
def engDigCnt (octet : Bool) (d : Nat) : Nat := engReg octet d 0x30
def engEcc (octet : Bool) (d : Nat) : Nat := engReg octet d 0x34
def engStat (octet : Bool) (d : Nat) : Nat := engReg octet d 0x38
def engClip (d : Nat) : Nat := engReg true d 0x3C

/-- Bits of STAT. -/
def statDigBad : Nat := 31
def statEccSub : Nat := 30
def statLate : Nat := 29
def statRunning : Nat := 28

/-- Sets a bit of STAT. -/
def State.setStat (s : State) (octet : Bool) (d b : Nat) (on : Bool) : State :=
  s.wr (engStat octet d) (setBits (s.rd (engStat octet d)) b b (b2n on))

/-- The live bank of a plane: true for B (R104). -/
def State.live (s : State) (octet : Bool) : Bool :=
  bit (s.rd (if octet then Reg.octBank else Reg.colBank)) 0

/-- A destination is idle in a bank (R103). -/
def State.idleIn (s : State) (octet : Bool) (d : Nat) (bankB : Bool) : Bool :=
  !bit (s.rd (engStart octet d bankB)) 31

/-- The first word of the program of a destination. -/
def State.startOf (s : State) (octet : Bool) (d : Nat) (bankB : Bool) : Nat :=
  bits (s.rd (engStart octet d bankB)) 18 0

/-- Word 1 of an engine's events: the destination with the plane in bit 31 (R371). -/
def destWord (octet : Bool) (d : Nat) : Nat := (if octet then 2 ^ 31 else 0) + d

/-- Island number of an engine (R394). -/
def engIsland (octet : Bool) (d : Nat) : Nat := if octet then 62 + d else 6 + d

/-! ### Fill patterns (R138) -/

/-- FILL[p] of a plane. -/
def State.fillReg (s : State) (octet : Bool) (p : Nat) : W32 :=
  s.rd ((if octet then 0xB0040 else 0xA0040) + 4 * p)

/-- The octet of a fill value for a column: [15:8] even, [7:0] odd. -/
def fillOctet (v : W32) (col : Nat) : Octet :=
  if col % 2 = 0 then v.extractLsb' 8 8 else v.extractLsb' 0 8

/-- The sixteen patterns of a plane as they stand. -/
def State.fillTable (s : State) (octet : Bool) : Sparse W32 :=
  (List.range 16).map fun p => (p, s.fillReg octet p)

/-- A cell of fill: CON and the SEQ of the engine that writes it (R41, R44). -/
def fillCell (v : W32) (col : Nat) (seq : Bool) : Cell := ⟨fillOctet v col, true, seq⟩

/-! ### Column sources -/

/-- All-ones with CON in place of a word that cannot be read; its SEQ is not stated (log entry 7). -/
def missCell (period src col : Nat) : Cell := badCell (Config.missSeq period src col)

/-- The channel that a controller selects for the arrivals of the program row under way: the one of
the period before (R210). -/
def State.readSelected (s : State) (g : Nat) : Nat := (s.apsSt g).selPrev

/-- The lane whose row buffer serves a read of lane `l` (R205); none where the read returns all-ones
with CON: lane P of a 1:N group while a channel is selected or bridged. -/
def State.readLane (s : State) (l : Nat) : Option Nat :=
  match s.apsOwner l with
  | none => some l
  | some (g, c) =>
    let sel := s.readSelected g
    if c ≥ 1 then some (if sel = c then s.apsLane g 0 else l)
    else if s.fget (F.apsCfg_arch g) = 2 && (sel ≥ 1 || s.fget (F.apsStat_bridged g) ≥ 1) then none
    else some l

/-- A change of loop leaves the rows of arrival rows 0 and 1 of the frame unreadable (R219). -/
def State.loopFresh (s : State) (src row : Nat) : Bool :=
  48 ≤ src && s.fab.loopNew.getLsbD (src - 48) && (row = 1 || row = 2)

/-- Payload column `col` of source lane `src` in the row of the arrival period before `period`, read
in row `row`; an uncorrectable word of the row buffers is all-ones with CON (R40, R100, R101, R106, R205,
R219, R228, R434). -/
def State.readCol (s : State) (period row src col : Nat) : Cell :=
  if src ≥ 56 || col ≥ s.payCols src || s.loopFresh src row then missCell period src col
  else if src < 48 && s.role src = roleMate then missCell period src col
  else
    match (if src < 48 then s.readLane src else some src) with
    | none => missCell period src col
    | some l =>
      let h := s.rows.get HeldRow.none (rowKey l (period - 1))
      if h.period = period - 1 && period ≥ 2 && !s.ueKey (s.rowWord l (period - 1) col) then h.row.at col
      else missCell period src col

/-- The word of the row buffers that such a read finds uncorrectable (R339). -/
def State.readBad (s : State) (period : Nat) (q : Nat × Nat) : List Nat :=
  match (if q.1 < 48 then s.readLane q.1 else some q.1) with
  | none => []
  | some l =>
    let k := s.rowWord l (period - 1) q.2
    if q.1 < 56 && q.2 < s.payCols q.1 && s.ueKey k then [k] else []

/-- The interleave factor of a lane recorded with a bank, 1 where none was recorded (R127). -/
def State.factor (s : State) (bankB : Bool) (l : Nat) : Nat :=
  s.flip.factors.get 1 ((if bankB then 64 else 0) + l)

/-! ### Octet sources -/

/-- The store frame of a frame count (R23). -/
def storeFrame (frames : Nat) : Nat := frames % 3

/-- BAR2 offset of an octet of a store frame (R338). -/
def storeAddr (fr a : Nat) : Nat := 0x1C00000 + 2654208 * fr + a

/-- Key of a captured row. -/
def captureKey (fr v w : Nat) : Nat := 72 * fr + 9 * v + w

/-- A row that was never captured. -/
def Capture.none : Capture := ⟨0, true, []⟩

/-- The flag of the octet block of column `c` (R38). -/
def Capture.flag (k : Capture) (c : Nat) : Bool := k.con != k.blocks.contains (c / 32)

/-- A valid path of types 8-10 that owns octet address `a` and whose condition is 1 (R41; log entry
21). -/
def State.octetCond (s : State) (a : Nat) : Bool :=
  s.pathList.any fun q =>
    match q.2.entry with
    | some (w0, w1, w2) =>
      8 ≤ bits w0 30 27 && bits w0 30 27 ≤ 10 && s.cond q.1 && s.owns (PathGeo.ofWords w0 w1 w2) a
    | none => false

/-- Octet `a` of the completed octet frame with its CON (R141, R219, R434). The SEQ of a source does
not reach the octet plane. -/
def State.readOct (s : State) (a : Nat) : Octet × Bool :=
  let v := addrV a
  let fr := storeFrame (s.clock.frames + 2)
  let k := s.captures.get Capture.none (captureKey fr v (addrRow a))
  if a ≥ octetAddrs || s.looped v || s.fab.octNew.getLsbD v || k.frame ≠ s.clock.frames || s.clock.frames = 0 ||
      s.ueAt (storeAddr fr a) then (0xFF, true)
  else (s.byte (storeAddr fr a), k.flag (addrCol a) || s.octetCond a)

/-- Uncorrectable words that a read of octets finds are reported (R339). -/
def State.foundOct (s : State) : List Nat → State
  | [] => s
  | a :: as => (s.foundUeAt (storeAddr (storeFrame (s.clock.frames + 2)) a)).foundOct as

/-! ### Program words -/

/-- Either half of a program word is uncorrectable (R102). -/
def State.progBad (s : State) (octet bankB : Bool) (i : Nat) : Bool :=
  s.ueAt (bankAddr octet bankB i) || s.ueAt (bankAddr octet bankB i + 4)

/-- What fetching an instruction finds. -/
inductive Fetched (α : Type) where
  | ins (i : α)
  /-- Word `i` is uncorrectable (R123). -/
  | ecc (i : Nat)
  /-- No valid instruction, or past word 524,287: the program ends (log entry 22). -/
  | stop
  deriving DecidableEq, Repr

/-- Words of a bank (R102). -/
def bankWords : Nat := 524288

/-- The first uncorrectable word of `n` from `pc`. -/
def State.firstBad (s : State) (octet bankB : Bool) (pc n : Nat) : Option Nat :=
  ((List.range n).map (pc + ·)).find? (s.progBad octet bankB)

/-- The column instruction at word `pc`. -/
def State.fetchCol (s : State) (bankB : Bool) (pc : Nat) : Fetched ColIns :=
  if pc ≥ bankWords then .stop
  else if s.progBad false bankB pc then .ecc pc
  else
    match decodeCol (s.progWord false bankB pc) (s.progWord false bankB (pc + 1)) with
    | none => .stop
    | some i =>
      match s.firstBad false bankB pc (colWords i) with
      | some w => .ecc w
      | none => .ins i

/-- The octet instruction at word `pc`. -/
def State.fetchOct (s : State) (bankB : Bool) (pc : Nat) : Fetched OctIns :=
  if pc ≥ bankWords then .stop
  else if s.progBad true bankB pc then .ecc pc
  else
    let w := s.progWord true bankB
    match decodeOct (w pc) (w (pc + 1)) (w (pc + 2)) with
    | none => .stop
    | some i =>
      match s.firstBad true bankB pc (octWords i) with
      | some w => .ecc w
      | none => .ins i

end Sys2Proof.Machine
end

