-- ==== Sys2Proof/Machine/Column.lean ====
section
/-! DEFINITION. The column engines (R106-R109, R120, R121, R123, R133-R140): issue of an instruction,
the program row, its end, run-ahead, and the commands that issue one instruction. -/

namespace Sys2Proof.Machine

/-! ### Issue of one instruction -/

/-- The SEQ check of R46: every word that differs from the first carries CON. -/
def checkSeq (on : Bool) (cs : List Cell) : List Cell :=
  match cs with
  | [] => []
  | c :: _ => if on then cs.map fun x => if x.seq = c.seq then x else x.mark else cs

/-- Words that the SEQ check finds. -/
def seqMisses (on : Bool) (cs : List Cell) : Nat :=
  match cs with
  | [] => 0
  | c :: _ => if on then (cs.filter fun x => x.seq ≠ c.seq).length else 0

/-- force_con (R132, R134). -/
def forceCon (on : Bool) (cs : List Cell) : List Cell := if on then cs.map Cell.mark else cs

/-- Writes slots at positions `first`, `first + step`, ...; positions that the destination does not
have are discarded (R101). -/
def putSlots (limit step : Nat) : Nat → List Slot → Sparse Slot → Sparse Slot
  | _, [], b => b
  | p, x :: xs, b => putSlots limit step (p + step) xs (if p < limit then b.insert p x else b)

/-- Adds CON counts to the list of selectors of a row: working CON, all, protect CON (R192). -/
def addSel (p : PathId) (w all c : Nat) :
    List (PathId × Nat × Nat × Nat) → List (PathId × Nat × Nat × Nat)
  | [] => [(p, w, all, c)]
  | (q, a, b, d) :: r => if q = p then (q, a + w, b + all, d + c) :: r else (q, a, b, d) :: addSel p w all c r

/-- A pair of a SELC whose SEQ disagrees carries CON on both copies (R140). -/
def pairSeq (x y : Cell) : Cell × Cell := if x.seq = y.seq then (x, y) else (x.mark, y.mark)

/-- The words, the access values and the cycle value of MARK folded into the digest (R120, R130,
R159). -/
def foldCol (iSrc iDst cycles : Nat) (i : ColIns) (st : W32) : W32 :=
  match i with
  | .movc f =>
    if f.digestExcl then st else foldValues (foldWords st (encodeCol i)) (colAccesses iSrc iDst i)
  | .mark _ => foldValue (foldWords st (encodeCol i)) (BitVec.ofNat 32 cycles)
  | _ => foldValues (foldWords st (encodeCol i)) (colAccesses iSrc iDst i)

/-- Source lane of an instruction with one. -/
def colSrc : ColIns → Nat
  | .movc f => f.srcLane.toNat
  | .movcs f => f.srcLane.toNat
  | _ => 0

/-- Source columns that an instruction of destination `d` reads: lane and column. -/
def State.sourcesOf (s : State) (d : Nat) (bank : Bool) : ColIns → List (Nat × Nat)
  | .movc f => (List.range (f.lenM1.toNat + 1)).map fun k => (f.srcLane.toNat, f.srcCol.toNat + k)
  | .movcs f =>
    let st := movcsStrides f (s.factor bank f.srcLane.toNat) (s.factor bank d)
    (List.range (f.countM1.toNat + 1)).map fun k => (f.srcLane.toNat, f.srcCol.toNat + k * st.1)
  | .selc f =>
    (List.range (f.lenM1.toNat + 1)).flatMap fun k =>
      [(f.wLane.toNat, f.wCol.toNat + k), (f.pLane.toNat, f.pCol.toNat + k)]
  | _ => []

/-- The row context after word, cost and digest of an instruction, before its writes, with the
uncorrectable words that it reads. -/
def State.chargeCol (s : State) (d : Nat) (i : ColIns) (c : RowCtx) : RowCtx :=
  let c := { c with found := c.found ++ (s.sourcesOf d c.bank i).flatMap (s.readBad c.period) }
  let c := { c with digest := foldCol (s.factor c.bank (colSrc i)) (s.factor c.bank d) c.cycles i c.digest }
  { c with cycles := c.cycles + colCost i, pc := c.pc + colWords i, ended := c.ended || i = .endI }

/-- A run of columns of a source, `step` apart. -/
def State.readCols (s : State) (c : RowCtx) (row src col n step : Nat) : List Cell :=
  (List.range n).map fun k => s.readCol c.period row src (col + k * step)

/-- MOVC (R133). -/
def State.doMovc (s : State) (d row : Nat) (f : MovcF) (c : RowCtx) : RowCtx × Nat :=
  let cs := s.readCols c row f.srcLane.toNat f.srcCol.toNat (f.lenM1.toNat + 1) 1
  let out := forceCon f.forceCon (checkSeq f.checkSeq cs)
  ({ c with buf := putSlots (s.payCols d) 1 f.dstCol.toNat (out.map Slot.one) c.buf },
    seqMisses f.checkSeq cs)

/-- MOVCS (R135), with the interleave factors recorded for the bank (R127). -/
def State.doMovcs (s : State) (d row : Nat) (f : MovcsF) (c : RowCtx) : RowCtx × Nat :=
  let st := movcsStrides f (s.factor c.bank f.srcLane.toNat) (s.factor c.bank d)
  let cs := s.readCols c row f.srcLane.toNat f.srcCol.toNat (f.countM1.toNat + 1) st.1
  let out := forceCon f.forceCon (checkSeq f.checkSeq cs)
  ({ c with buf := putSlots (s.payCols d) st.2 f.dstCol.toNat (out.map Slot.one) c.buf },
    seqMisses f.checkSeq cs)

/-- FILC (R137): CON on every position, SEQ of the emission frame. -/
def State.doFilc (s : State) (d : Nat) (f : FilcF) (c : RowCtx) : RowCtx :=
  let v := s.latched.colFill.get 0 f.pattern.toNat
  let cells := (List.range (f.lenM1.toNat + 1)).map fun k =>
    Slot.one (fillCell v (f.dstCol.toNat + k) s.nextSeq)
  { c with buf := putSlots (s.payCols d) 1 f.dstCol.toNat cells c.buf }

/-- SELC (R140): both runs are fetched; the side is committed at emission. -/
def State.doSelc (s : State) (d row : Nat) (f : SelcF) (c : RowCtx) : RowCtx × Nat :=
  let n := f.lenM1.toNat + 1
  let ws := s.readCols c row f.wLane.toNat f.wCol.toNat n 1
  let ps := s.readCols c row f.pLane.toNat f.pCol.toNat n 1
  let pairs := List.zipWith pairSeq ws ps
  let bad := ((List.zip ws ps).filter fun q => q.1.seq ≠ q.2.seq).length
  let wCon := (pairs.filter fun q => q.1.con).length
  let pCon := (pairs.filter fun q => q.2.con).length
  ({ c with
      buf := putSlots (s.payCols d) 1 f.dstCol.toNat (pairs.map fun q => .two f.path q.1 q.2) c.buf
      sels := addSel f.path wCon n pCon c.sels }, bad)

/-- One instruction of the program row of destination `d`, executed in row `row`: the context after
it, and the SEQ mismatches. -/
def State.issueCol (s : State) (d row : Nat) (i : ColIns) (c : RowCtx) : RowCtx × Nat :=
  let c := s.chargeCol d i c
  match i with
  | .movc f => s.doMovc d row f c
  | .movcs f => s.doMovcs d row f c
  | .filc f => (s.doFilc d f c, 0)
  | .selc f => s.doSelc d row f c
  | .endI => (c, 0)
  | .nop => (c, 0)
  | .mark _ => (c, 0)

/-- The program from the context's word on, for at most `n` instructions and while `go` allows the
next one. -/
def State.runCol (s : State) (d row : Nat) (go : RowCtx → ColIns → Bool) : Nat → RowCtx × Nat → RowCtx × Nat
  | 0, x => x
  | n + 1, (c, k) =>
    if c.ended || c.lost then (c, k)
    else
      match s.fetchCol c.bank c.pc with
      | .stop => ({ c with ended := true }, k)
      | .ecc w => ({ c with ended := true, subst := true, pc := w }, k)
      | .ins i =>
        if go c i then
          let r := s.issueCol d row i c
          s.runCol d row go n (r.1, k + r.2)
        else (c, k)

/-! ### The program row -/

/-- Every output is masked by the state of the mate function (R232) or by a life-cycle transition
(R407). -/
def State.maskedOff (s : State) : Bool :=
  let st := s.fget F.matStat_state
  st = 1 || (st = 0 && s.flag F.matStat_imageBad) || (s.power.lcTarget.isSome && s.power.lcStep ≥ 1)

/-- An uncertain member masks the planes of the flip (R186). -/
def State.unsure (s : State) (octet : Bool) : Bool :=
  if octet then s.flip.maskOct else s.flip.maskCol

/-- The context of a program row that begins: idle destinations execute nothing (R103, R106). -/
def State.openRow (s : State) (d period : Nat) : RowCtx :=
  let b := s.live false
  let idle := s.idleIn false d b
  { RowCtx.init with
    period := period, bank := b, idle := idle, pc := s.startOf false d b, ended := idle,
    checked := idle, mask := s.maskedOff || s.unsure false }

/-- The digest that a row or frame is judged by; an injected fault makes it differ from the recorded one (R393). -/
def State.judgedDigest (s : State) (octet : Bool) (d : Nat) (bankB : Bool) (v : W32) : W32 :=
  if (s.island (engIsland octet d)).digestDue then s.rd (engDig octet d bankB) ^^^ 1 else v

/-- Compares a digest with the recorded one of its bank: DIG_LIVE, CNT_DIG, STAT.dig_bad and the event
on a change from match to mismatch (R121, R122). Arithmetic units that differ act as a mismatch (R385). -/
def State.compareDigest (s : State) (octet : Bool) (d : Nat) (bankB differ : Bool) (v : W32) : State × Bool :=
  let v := s.judgedDigest octet d bankB v
  let s := s.onIsland (engIsland octet d) fun x => { x with digestDue := false }
  let bad := differ || v ≠ s.rd (engDig octet d bankB)
  let was := bit (s.rd (engStat octet d)) statDigBad
  let s := (s.wr (engLive octet d) v).setStat octet d statDigBad bad
  let s := if bad then s.count (engDigCnt octet d) else s
  (if bad && !was then s.report (Ev.engineDigest octet) (destWord octet d) else s, bad)

/-- PROG_UNWRITTEN (R112): counted per row or frame, raised once after each flip (log entry 66), with the
number of positions in word 4 (log entry 73). -/
def State.noteUnwritten (s : State) (octet : Bool) (d n : Nat) (said : Bool) : State :=
  if n = 0 then s
  else
    let s := s.count (engUnwr octet d)
    if said then s else s.raise (Ev.progUnwritten octet) (destWord octet d) 0 0 n

/-- PROG_ECC (R123): counted, and raised once for a word and destination (`said`: those named since the last
flip), with the bank in word 3 (log entry 74); MEM_UE the first time the word is found. -/
def State.noteEcc (s : State) (octet : Bool) (d : Nat) (bankB : Bool) (w : Nat) (said : List Nat) : State :=
  let s := s.count (engEcc octet d)
  let s := if said.contains w then s else s.report (Ev.progEcc octet) (destWord octet d) w (b2n bankB)
  (s.foundUeAt (bankAddr octet bankB w)).foundUeAt (bankAddr octet bankB w + 4)

/-- Positions of a program row that nothing writes: neither the program nor a termination, which
delivers into the row of the emission period (R86, R112). -/
def State.openCols (s : State) (d : Nat) (c : RowCtx) : Nat :=
  let own := if d < 48 then [] else (s.dlvIn (d - 48) ((s.clock.row + 1) % 9)).map (·.2)
  let extra := (own.eraseDups.filter fun p => !c.buf.any (·.1 = p)).length
  s.payCols d - c.buf.length - extra

/-- PROGRAM_ROW_END (R121): the row's cost, substitution, digest and unwritten positions. -/
def State.closeRow (s : State) (d : Nat) (c : RowCtx) : State × RowCtx :=
  let e := s.colEngine d
  let cost := c.cycles + if e.restart then 64 else 0
  let s := s.speedCost (102 + d) cost
  let s := s.setStat false d statEccSub c.subst
  let c := { c with checked := true, mask := c.mask || s.maskedOff }
  if c.lost then (s, c)
  else if c.subst then
    let s := s.noteEcc false d c.bank c.pc e.eccSaid
    (s.onCol d fun x => { x with eccSaid := setMember x.eccSaid c.pc true, restart := false }, c)
  else
    let r := s.compareDigest false d c.bank false c.digest
    let n := s.openCols d c
    let s := r.1.noteUnwritten false d n e.unwrSaid
    (s.onCol d fun x => { x with unwrSaid := x.unwrSaid || n > 0, restart := false },
      { c with mask := c.mask || r.2 })

/-- MEM_UE for the words that a row has found uncorrectable (R339). -/
def State.sayFound (s : State) (ks : List Nat) : State :=
  ks.foldl (fun s k => s.foundUe (k / 32768) (k % 32768)) s

/-- The row number in which the program row under way executes. -/
def State.rowNow (s : State) : Nat := s.clock.row

/-- The rest of the program row of destination `d`, then its end. -/
def State.programRowEnd (s : State) (d : Nat) : State :=
  match (s.colEngine d).fetch with
  | none => s
  | some c =>
    if c.checked then s
    else
      let r := s.runCol d s.rowNow (fun _ _ => true) bankWords (c, 0)
      let s := (s.count (engSeq false d) r.2).sayFound r.1.found
      let q := s.closeRow d { r.1 with found := [] }
      q.1.onCol d fun x => { x with fetch := some q.2 }

/-- Every column engine ends its program row. -/
def State.endRows (s : State) : State := (List.range 56).foldl State.programRowEnd s

/-- One instruction issued on the open program row of destination `d`. -/
def State.issueOpen (s : State) (d : Nat) (i : ColIns) : State :=
  match (s.colEngine d).fetch with
  | none => s
  | some c =>
    if c.ended || c.checked || c.lost then s
    else
      let r := s.issueCol d s.rowNow i c
      ((s.count (engSeq false d) r.2).sayFound r.1.found).onCol d fun x =>
        { x with fetch := some { r.1 with found := [] } }

/-! ### Run-ahead (R107) -/

/-- An instruction reads a V-output source. -/
def readsV : ColIns → Bool
  | .movc f => 48 ≤ f.srcLane.toNat
  | .movcs f => 48 ≤ f.srcLane.toNat
  | .selc f => 48 ≤ f.wLane.toNat || 48 ≤ f.pLane.toNat
  | _ => false

/-- A run-ahead read of a V-output source waits; the rows of loop lanes are complete (R107). -/
def State.mayRunAhead (s : State) (i : ColIns) : Bool :=
  let free := fun l => l < 48 || s.looped (l - 48)
  match i with
  | .movc f => free f.srcLane.toNat
  | .movcs f => free f.srcLane.toNat
  | .selc f => free f.wLane.toNat && free f.pLane.toNat
  | _ => true

/-- RUN_AHEAD: the engine has finished its program row and starts the next one under the same bank,
up to the first read that waits. -/
def State.runAhead (s : State) (d : Nat) : State :=
  match (s.colEngine d).fetch with
  | none => s
  | some c =>
    if c.idle || c.lost || (s.colEngine d).ahead.isSome then s
    else
      let s := s.programRowEnd d
      let r := s.runCol d ((s.clock.row + 1) % 9) (fun _ i => s.mayRunAhead i) bankWords
        (s.openRow d (c.period + 1), 0)
      s.onCol d fun x => { x with ahead := some r.1, waiting := !r.1.ended }

/-- The program row of the period that begins: run-ahead work stands while the same bank is live, and
the fetch unit continues from the point it reached; the other bank squashes it, and the program
restarts (R107). What was fetched ahead is what the row's own period reads, since run-ahead never
changes what is emitted. -/
def State.beginRow (s : State) (d : Nat) : State :=
  let e := s.colEngine d
  let c := s.openRow d s.clock.period
  if c.idle then s.onCol d fun x => { x with fetch := some c, ahead := none, waiting := false, restart := false }
  else
    match e.ahead with
    | some a =>
      if a.bank = c.bank then
        let r := s.runCol d s.clock.row (fun x _ => x.pc < a.pc) bankWords (c, 0)
        (s.count (engSeq false d) r.2).onCol d fun x => { x with fetch := some r.1, ahead := none, waiting := false }
      else s.onCol d fun x => { x with fetch := some c, ahead := none, waiting := false, restart := true }
    | none => s.onCol d fun x => { x with fetch := some c, waiting := false }

/-- RUN_AHEAD_V_READ: at the row mark that completes the V-output row, the waiting read resumes: the
program row continues past it. Before that mark it waits. -/
def State.runAheadVRead (s : State) (d : Nat) : State :=
  let e := s.colEngine d
  match e.ahead, e.fetch with
  | none, some c =>
    match s.fetchCol c.bank c.pc with
    | .ins i => if readsV i then s.issueOpen d i else s
    | _ => s
  | _, _ => s

/-! ### Commands -/

def execRunAhead (d : Fin 56) (s : State) : Host.Outcome State Fault Refusal :=
  whenUp s fun s => s.runAhead d.val

def execRunAheadVRead (d : Fin 56) (s : State) : Host.Outcome State Fault Refusal :=
  whenUp s fun s => s.runAheadVRead d.val

def execProgramRowEnd (d : Fin 56) (s : State) : Host.Outcome State Fault Refusal :=
  whenUp s fun s => s.programRowEnd d.val

def execMovc (d : Fin 56) (i : MovcF) (s : State) : Host.Outcome State Fault Refusal :=
  whenUp s fun s => s.issueOpen d.val (.movc i)

def execMovcs (d : Fin 56) (i : MovcsF) (s : State) : Host.Outcome State Fault Refusal :=
  whenUp s fun s => s.issueOpen d.val (.movcs i)

def execFilc (d : Fin 56) (i : FilcF) (s : State) : Host.Outcome State Fault Refusal :=
  whenUp s fun s => s.issueOpen d.val (.filc i)

def execSelc (d : Fin 56) (i : SelcF) (s : State) : Host.Outcome State Fault Refusal :=
  whenUp s fun s => s.issueOpen d.val (.selc i)

end Sys2Proof.Machine
end

