-- ==== Sys2Proof/Machine/Octet.lean ====
section
/-! DEFINITION. The octet engines (R110, R111, R116, R120, R122, R123, R141-R157, R160-R171, R324):
issue of an instruction, the rows of an execution frame, its end, and the commands that issue one
instruction. -/

namespace Sys2Proof.Machine

/-! ### Digest and cost -/

/-- The kind recorded for a termination when an octet bank was rehearsed (R130). -/
def State.bankT1 (s : State) (bankB : Bool) (t : Nat) : Bool :=
  (if bankB then s.flip.t1B else s.flip.t1A).contains t

/-- Words and access values of an instruction (R120, R130), with the kind that fixes those of CASI; MARK folds
its cycle value (R159). -/
def foldOct (t1 : Nat → Bool) (cycles : Nat) (i : OctIns) (st : W32) : W32 :=
  let ws := foldWords st (encodeOct i)
  match i with
  | .movo f => if f.digestExcl then st else foldValues ws (octAccesses false 0 i)
  | .casi f => foldValues ws (octAccesses (t1 f.term.toNat) 0 i)
  | .mark _ => foldValue ws (BitVec.ofNat 32 cycles)
  | _ => foldValues ws (octAccesses false 0 i)

/-- The row that an instruction executes in: that of its first position, or of the instruction before
it (R111, R116, R141). -/
def octRow (i : OctIns) (c : FrameCtx) : Nat :=
  match octWrites i with
  | a :: _ => addrRow a
  | [] => c.row

/-- The frame context with the row of an instruction begun. -/
def FrameCtx.toRow (c : FrameCtx) (r : Nat) : FrameCtx :=
  if r = c.row then c else { c with row := r, spent := c.spent + c.cycles, cycles := 0, log := [] }

/-- The frame context after word, cost and digest of an instruction, whose end in its row is kept. -/
def State.chargeOct (s : State) (i : OctIns) (c : FrameCtx) : FrameCtx :=
  let c := c.toRow (octRow i c)
  let c := { c with digest := foldOct (s.bankT1 c.bank) c.cycles i c.digest }
  { c with
    cycles := c.cycles + octCost i, pc := c.pc + octWords i, ended := c.ended || i = .endI
    log := (c.cycles + octCost i, octWrites i) :: c.log }

/-! ### Writing -/

/-- SEQ of everything that the octet plane writes (R44, R141). -/
def State.octSeq (s : State) : Bool := s.clock.frame.getLsbD 0

/-- An octet position lies in the half of V-output lane d/2 that engine `d` writes (R98). -/
def inHalf (d a : Nat) : Bool :=
  a < octetAddrs && addrV a = d / 2 && 18432 * (d % 2) ≤ addrCol a && addrCol a < 18432 * (d % 2) + 18432

/-- Octets written from `first`, `step` apart; positions outside the destination are discarded. -/
def State.putOcts (s : State) (d step : Nat) : Nat → List (Octet × Bool) → Sparse Cell → Sparse Cell
  | _, [], m => m
  | a, (o, k) :: xs, m =>
    s.putOcts d step (a + step) xs (if inHalf d a then m.insert a ⟨o, k, s.octSeq⟩ else m)

/-- A run written by engine `d`. -/
def State.putRun (s : State) (d a : Nat) (xs : List (Octet × Bool)) (c : FrameCtx) : FrameCtx :=
  { c with out := s.putOcts d 1 a xs c.out }

/-- A fill octet with CON of the OCT table, as latched for the frame (R138). -/
def State.octFillAt (s : State) (p a : Nat) : Octet × Bool :=
  (fillOctet (s.latched.octFill.get 0 p) (addrCol a), true)

/-- Fill over a run. -/
def State.fillRun (s : State) (p a n : Nat) : List (Octet × Bool) :=
  (List.range n).map fun i => s.octFillAt p (a + i)

/-- A run of source octets. -/
def State.readRun (s : State) (a n step : Nat) : List (Octet × Bool) :=
  (List.range n).map fun i => s.readOct (a + i * step)

def runAddrs (a n step : Nat) : List Nat := (List.range n).map fun i => a + i * step

/-- A shed path of type 8-10 owns the position (R324). -/
def State.shedAt (s : State) (a : Nat) : Bool :=
  s.pathList.any fun q =>
    match q.2.entry with
    | some (w0, w1, w2) =>
      8 ≤ bits w0 30 27 && bits w0 30 27 ≤ 10 && bit (s.pathWord q.1 3) 21 &&
        s.owns (PathGeo.ofWords w0 w1 w2) a
    | none => false

/-- The instruction is suppressed: its first destination position lies in a shed path (R324). -/
def State.suppressed (s : State) (i : OctIns) : Bool :=
  match octWrites i with
  | a :: _ => s.shedAt a
  | [] => false

/-! ### Copies, selection -/

def State.doMovo (s : State) (d : Nat) (f : MovoF) (c : FrameCtx) : State × FrameCtx :=
  let n := f.lenM1.toNat + 1
  let xs := (s.readRun f.src.toNat n 1).map fun x => (x.1, x.2 || f.forceCon)
  (s.foundOct (runAddrs f.src.toNat n 1), s.putRun d f.dst.toNat xs c)

def State.doMovos (s : State) (d : Nat) (f : MovosF) (c : FrameCtx) : State × FrameCtx :=
  let n := f.countM1.toNat + 1
  let st := f.sstrideM1.toNat + 1
  (s.foundOct (runAddrs f.src.toNat n st),
    { c with out := s.putOcts d (f.dstrideM1.toNat + 1) f.dst.toNat (s.readRun f.src.toNat n st) c.out })

def State.doFilo (s : State) (d : Nat) (f : FiloF) (c : FrameCtx) : FrameCtx :=
  s.putRun d f.dst.toNat (s.fillRun f.pattern.toNat f.dst.toNat (f.lenM1.toNat + 1)) c

/-- The side of a selector: true for protect (word 6). -/
def State.sideOf (s : State) (p : Nat) : Bool := bit (s.pathWord p 6) 28

/-- A selector read whose entry is not valid: the working source is committed, and SEL_PATH_BAD is
raised once per flip (R131). -/
def State.notePathBad (s : State) (octet : Bool) (p : Nat) : State :=
  if (s.path p).entry.isSome || (s.path p).sel.badSaid then s
  else
    (s.raise (Ev.selPathBad octet) p).onPath p fun x => { x with sel := { x.sel with badSaid := true } }

/-- The side that a selector commits when it is read. -/
def State.committedSide (s : State) (p : Nat) : Bool := (s.path p).entry.isSome && s.sideOf p

/-- Hold-last-value: within an open window a committed word with CON gives way to the held word
(R202). -/
def State.holds (s : State) (p : Nat) : Bool :=
  (s.path p).sel.window > 0 && !bit (s.pathWord p 5) 7

def holdOct (on : Bool) (held : Sparse Octet) (a : Nat) (x : Octet × Bool) : Octet × Bool :=
  if on && x.2 then
    match held.find? (·.1 = a) with
    | some (_, h) => (h, false)
    | none => x
  else x

/-- An open window notes a committed word with CON in the period or frame under way (R202). -/
def State.noteWindow (s : State) (p : Nat) (con : Bool) : State :=
  if con && (s.path p).sel.window > 0 then
    s.onPath p fun x => { x with sel := { x.sel with winCon := true } }
  else s

/-- SELO (R147). -/
def State.doSelo (s : State) (d : Nat) (f : SeloF) (c : FrameCtx) : State × FrameCtx :=
  let n := f.lenM1.toNat + 1
  let p := f.path.toNat
  let a := f.dst.toNat
  let ws := s.readRun f.wSrc.toNat n 1
  let ps := s.readRun f.pSrc.toNat n 1
  let s := (s.notePathBad true p).foundOct (runAddrs f.wSrc.toNat n 1 ++ runAddrs f.pSrc.toNat n 1)
  let xs := if s.committedSide p then ps else ws
  let on := s.holds p
  let ys := (List.range n).map fun i => holdOct on s.heldOct (a + i) (xs.getD i (0xFF, true))
  let s := s.noteWindow p ((xs.take n).any (·.2))
  let c := s.putRun d a ys c
  (s, { c with
    selPos := (runAddrs a n 1).foldl (fun m x => m.insert x f.path) c.selPos
    sels := addSel f.path (ws.filter (·.2)).length n (ps.filter (·.2)).length c.sels })

/-! ### Arithmetic (R148-R152, R160-R163) -/

/-- An execution that clips counts once (R163). -/
def State.noteClip (s : State) (d : Nat) (clip : Bool) : State := if clip then s.count (engClip d) else s

/-- One source of MIX: linear value and CON (R149, R151). -/
def State.mixValue (s : State) (law : Bool) (anchor : Nat) (c : FrameCtx) (x : BitVec 16) : Int × Bool :=
  match mixSource anchor x with
  | .inl a => if a < 0 then (0, true) else let r := s.readOct a.toNat; (expand law r.1, r.2)
  | .inr i => c.scratch.get (0, true) i

/-- The sum of R151: accumulated value, live sources, and whether sat18 limited a value. -/
def State.mixSum (s : State) (law : Bool) (anchor : Nat) (c : FrameCtx) :
    List (BitVec 16) → Int × Nat × Bool → Int × Nat × Bool
  | [], r => r
  | x :: xs, (acc, live, clip) =>
    let v := s.mixValue law anchor c x
    if v.2 then s.mixSum law anchor c xs (acc, live, clip)
    else
      let t := acc + applyGain (x.extractLsb' 0 8).toNat v.1
      s.mixSum law anchor c xs (sat18 t, live + 1, clip || satClips t)

/-- Octet addresses of the sources. -/
def mixAddrs (f : MixF) : List Nat :=
  f.sources.filterMap fun x =>
    match mixSource f.anchor.toNat x with
    | .inl a => if a < 0 then none else some a.toNat
    | .inr _ => none

def State.doMix (s : State) (d : Nat) (f : MixF) (c : FrameCtx) : State × FrameCtx :=
  let r := s.mixSum f.law f.anchor.toNat c f.sources (0, 0, false)
  let s := (s.foundOct (mixAddrs f)).noteClip d (r.2.2 || compressClips f.law r.1)
  (s, s.putRun d f.anchor.toNat [(compress f.law r.1, r.2.1 = 0)] c)

def State.doMixp (s : State) (d : Nat) (f : MixF) (c : FrameCtx) : State × FrameCtx :=
  let r := s.mixSum f.law f.anchor.toNat c f.sources (0, 0, false)
  ((s.foundOct (mixAddrs f)).noteClip d r.2.2,
    { c with scratch := c.scratch.insert f.sc.toNat (r.1, r.2.1 = 0) })

/-- GAIN (R152): the linear value of one octet after the gain. -/
def gainValue (f : GainF) (x : Octet) : Int := sat18 (applyGain f.gain.toNat (expand f.lawIn x))

def State.doGain (s : State) (d : Nat) (f : GainF) (c : FrameCtx) : State × FrameCtx :=
  let n := f.nM1.toNat + 1
  let xs := s.readRun f.src.toNat n 1
  let clip := xs.any fun x => compressClips f.lawOut (gainValue f x.1)
  let s := (s.foundOct (runAddrs f.src.toNat n 1)).noteClip d clip
  (s, s.putRun d f.dst.toNat (xs.map fun x => (compress f.lawOut (gainValue f x.1), x.2)) c)

/-! ### Tones (R153, R165, R166) -/

/-- Length of a directory entry in samples (R171). -/
def toneLen (v : W32) : Nat := min (bits v 20 0) 1048576

/-- Sample `k` of a directory entry, as latched for the frame. -/
def State.toneSample (s : State) (e : W32 × W32) (k : Nat) : Octet :=
  Sparse.get (0 : BitVec 8) s.latched.tone ((bits e.1 19 0 + k) % 1048576)

/-- Key of the word of tone memory that holds a sample, in the table of damaged words (R337, R339; log
entry 45). -/
def toneKey (a : Nat) : Nat := damageKey 349 (a / 4)

/-- A word of tone memory cannot be corrected. -/
def State.toneBad (s : State) (a : Nat) : Bool :=
  match s.sram.damage.find? (·.1 = toneKey a) with
  | some (_, d) => d.double
  | none => false

def State.doTone (s : State) (d : Nat) (f : ToneF) (c : FrameCtx) : State × FrameCtx :=
  let n := f.nM1.toNat + 1
  let e := s.latched.toneDir.get (0, 0) f.tone.toNat
  let l := toneLen e.2
  let a := f.dst.toNat
  if l = 0 then (s, s.putRun d a (s.fillRun 1 a n) c)
  else
    let ks := (List.range n).map fun i => (s.clock.frame.toNat + f.phase.toNat + i * f.pstep.toNat) % l
    let addr := fun k => (bits e.1 19 0 + k) % 1048576
    let c := s.putRun d a (ks.map fun k =>
      if s.toneBad (addr k) then (0xFF, true) else (s.toneSample e k, false)) c
    (ks.foldl (fun s k => s.foundUe (toneKey (addr k) / 32768) (toneKey (addr k) % 32768)) s, c)

/-! ### Test patterns (R154, R155, R167, R168) -/

/-- Degree and tap of a polynomial code (R154). -/
def prbsTaps (poly : BitVec 2) : Nat × Nat :=
  match poly.toNat with
  | 0 => (9, 5)
  | 1 => (11, 9)
  | 2 => (15, 14)
  | _ => (20, 17)

/-- The next bit of a sequence and the state after it (R167). -/
def prbsNext (poly : BitVec 2) (r : BitVec 20) : Bool × BitVec 20 :=
  let t := prbsTaps poly
  let b := r.getLsbD (t.1 - 1) != r.getLsbD (t.2 - 1)
  (b, (r <<< 1) ||| (if b then 1 else 0))

/-- Takes a received bit into the state (R168). -/
def prbsLoad (r : BitVec 20) (b : Bool) : BitVec 20 := (r <<< 1) ||| (if b then 1 else 0)

/-- The next octet, most significant bit first. -/
def prbsOctet (poly : BitVec 2) : Nat → BitVec 20 → Octet → Octet × BitVec 20
  | 0, r, o => (o, r)
  | n + 1, r, o =>
    let x := prbsNext poly r
    prbsOctet poly n x.2 ((o <<< 1) ||| (if x.1 then 1 else 0))

def prbsOctets (poly : BitVec 2) : Nat → BitVec 20 → List Octet × BitVec 20
  | 0, r => ([], r)
  | n + 1, r =>
    let x := prbsOctet poly 8 r 0
    let y := prbsOctets poly n x.2
    (x.1 :: y.1, y.2)

def State.prbsCh (s : State) (ch : Nat) : PrbsSt := s.prbs.get .init ch
def State.setPrbs (s : State) (ch : Nat) (x : PrbsSt) : State := { s with prbs := s.prbs.put .init ch x }

/-- The channel set to all ones (generator) or to loading (checker); in_sync cleared (R167, R168). -/
def State.prbsInit (s : State) (ch : Nat) : State :=
  (s.setPrbs ch { PrbsSt.init with last := (s.prbsCh ch).last }).fbit (F.prbsStat_inSync ch) false

/-- The 48-bit count of checked bits grows by one (R171). -/
def State.prbsBit (s : State) (ch : Nat) (err : Bool) : State :=
  let n := (s.rd (Reg.prbsBitsLo ch)).toNat + 1
  let s := s.wr (Reg.prbsBitsLo ch) (BitVec.ofNat 32 n)
  let s := if n < 2 ^ 32 then s
    else s.fset (F.prbsBitsHi_bitsHi ch) (s.fget (F.prbsBitsHi_bitsHi ch) + 1)
  if err then s.count (Reg.prbsErr ch) else s

/-- One received bit at a checker (R168). -/
def State.prbsCheckBit (s : State) (ch : Nat) (poly : BitVec 2) (b : Bool) : State :=
  let x := s.prbsCh ch
  let deg := (prbsTaps poly).1
  if s.flag (F.prbsStat_inSync ch) then
    let p := prbsNext poly x.reg
    let err := p.1 ≠ b
    let n := x.blkBits + 1
    let e := x.blkErr + b2n err
    let s := s.prbsBit ch err
    if n = 64 then
      if e ≥ 16 then
        let s := s.setPrbs ch { x with loaded := 0, confirm := 0, blkBits := 0, blkErr := 0 }
        (s.fbit (F.prbsStat_inSync ch) false).fbit (F.prbsStat_syncLost ch) true
      else s.setPrbs ch { x with reg := p.2, blkBits := 0, blkErr := 0 }
    else s.setPrbs ch { x with reg := p.2, blkBits := n, blkErr := e }
  else if x.loaded < deg then
    s.setPrbs ch { x with reg := prbsLoad x.reg b, loaded := x.loaded + 1, confirm := 0 }
  else
    let p := prbsNext poly x.reg
    if p.1 = b then
      let s := s.setPrbs ch
        { x with reg := p.2, confirm := x.confirm + 1, blkBits := 0, blkErr := 0 }
      if x.confirm + 1 = 64 then s.fbit (F.prbsStat_inSync ch) true else s
    else s.setPrbs ch { x with loaded := 0, confirm := 0 }

/-- Octets at a checker, most significant bit first. Those with CON are left out and leave the channel as it is (R168,
where R155 has it advance by every octet; log entry 99). -/
def State.prbsCheckOctets (s : State) (ch : Nat) (poly : BitVec 2) : List (Octet × Bool) → State
  | [] => s
  | (o, con) :: xs =>
    (if con then s
     else (List.range 8).foldl (fun s i => s.prbsCheckBit ch poly (o.getLsbD (7 - i))) s).prbsCheckOctets ch poly xs

def State.doPrbs (s : State) (d : Nat) (check : Bool) (f : PrbsF) (c : FrameCtx) : State × FrameCtx :=
  let n := f.nM1.toNat + 1
  let ch := f.chan.toNat
  if check then
    let xs := s.readRun f.addr.toNat n 1
    ((s.foundOct (runAddrs f.addr.toNat n 1)).prbsCheckOctets ch f.poly xs, c)
  else
    let x := s.prbsCh ch
    let r := prbsOctets f.poly n x.reg
    let s := s.setPrbs ch { x with reg := r.2 }
    (s, s.putRun d f.addr.toNat (r.1.map fun o => (o, false)) c)

/-! ### Signalling (R156, R157, R169, R170) -/

/-- The octet and CON that CASX writes. -/
def State.casxOctet (s : State) (f : CasxF) : Octet × Bool :=
  let t := f.term.toNat
  if !s.termSig t then s.octFillAt 1 f.dst.toNat
  else
    let v := (s.term t).casNow.get 0 f.chan.toNat
    let x := v % 16
    let sf := s.termT1 t && !bit (s.termW t 0) 28
    let o := if sf then x / 4 * 4 + x / 4 else x
    (BitVec.ofNat 8 o,
      v < 16 || s.termFlag t stTermFail || (!s.termT1 t && s.termFlag t stCasLoss))

/-- The signalling bit of frame m + 1, where it carries one (R157). -/
def sigBit (esf : Bool) (m : Nat) (x : Octet) : Option Bool :=
  if m = 5 then some (x.getLsbD 3)
  else if m = 11 then some (x.getLsbD 2)
  else if esf && m = 17 then some (x.getLsbD 1)
  else if esf && m = 23 then some (x.getLsbD 0)
  else none

/-- Octet addresses that CASI reads. -/
def casiAddrs (t1 : Bool) (m src : Nat) : List Nat :=
  if t1 then [src, src + 32] else if m = 0 then [] else [src + m, src + m + 16]

/-- The octet and CON that CASI writes. -/
def State.casiOctet (s : State) (f : CasiF) : Octet × Bool :=
  let t := f.term.toNat
  let m := (s.term t).txPos
  let a := f.src.toNat
  if !s.termSig t then s.octFillAt 1 f.dst.toNat
  else if s.termT1 t then
    let v := s.readOct a
    let x := s.readOct (a + 32)
    let o := match sigBit (bit (s.termW t 0) 28) m x.1 with
      | some b => (v.1 &&& 0xFE) ||| (if b then 1 else 0)
      | none => v.1
    (o, v.2 || x.2)
  else if m = 0 then (0, false)
  else
    let x := s.readOct (a + m)
    let y := s.readOct (a + m + 16)
    ((x.1 <<< 4) ||| (y.1 &&& 0x0F), x.2 || y.2)

def State.doCasx (s : State) (d : Nat) (f : CasxF) (c : FrameCtx) : FrameCtx :=
  s.putRun d f.dst.toNat [s.casxOctet f] c

def State.doCasi (s : State) (d : Nat) (f : CasiF) (c : FrameCtx) : State × FrameCtx :=
  let t := f.term.toNat
  let s := if s.termSig t then s.foundOct (casiAddrs (s.termT1 t) (s.term t).txPos f.src.toNat) else s
  (s, s.putRun d f.dst.toNat [s.casiOctet f] c)

/-! ### Issue -/

/-- The effect of an instruction that is not suppressed. -/
def State.doOct (s : State) (d : Nat) (i : OctIns) (c : FrameCtx) : State × FrameCtx :=
  match i with
  | .movo f => s.doMovo d f c
  | .movos f => s.doMovos d f c
  | .filo f => (s, s.doFilo d f c)
  | .selo f => s.doSelo d f c
  | .mix f => s.doMix d f c
  | .mixp f => s.doMixp d f c
  | .gain f => s.doGain d f c
  | .tone f => s.doTone d f c
  | .prbs k f => s.doPrbs d k f c
  | .casx f => (s, s.doCasx d f c)
  | .casi f => s.doCasi d f c
  | .endI => (s, c)
  | .nop => (s, c)
  | .mark _ => (s, c)

/-- The positions that a SELO writes, with its path: they keep their held words while it is suppressed (R201). -/
def selPositions : OctIns → List (Nat × PathId)
  | .selo f => (runAddrs f.dst.toNat (f.lenM1.toNat + 1) 1).map fun a => (a, f.path)
  | _ => []

/-- One instruction of the execution frame of destination `d`. A suppressed one writes FILL[0] with
CON at each of its positions and does nothing else (R324). -/
def State.issueOct (s : State) (d : Nat) (i : OctIns) (c : FrameCtx) : State × FrameCtx :=
  let c := s.chargeOct i c
  if s.suppressed i then
    (s, { c with
      out := (octWrites i).foldl (fun m a => s.putOcts d 1 a [s.octFillAt 0 a] m) c.out
      selPos := (selPositions i).foldl (fun m x => m.insert x.1 x.2) c.selPos })
  else s.doOct d i c

/-- An instruction ends within `lim` cycles of row `w`; those of earlier rows have. -/
def inTime (w : Nat) (lim : Option Nat) (i : OctIns) (c : FrameCtx) : Bool :=
  match lim with
  | none => true
  | some n => octRow i c < w || (c.toRow (octRow i c)).cycles + octCost i ≤ n

/-- The instructions of the program that execute in rows up to `w`, at most `n` of them, and in row `w` those
that end within `lim` cycles of its row mark. -/
def State.runOct (s : State) (d w : Nat) (lim : Option Nat) : Nat → FrameCtx → State × FrameCtx
  | 0, c => (s, c)
  | n + 1, c =>
    if c.ended || c.lost then (s, c)
    else
      match s.fetchOct c.bank c.pc with
      | .stop => (s, { c with ended := true })
      | .ecc k =>
        if c.row ≤ w then
          let s := s.noteEcc true d c.bank k (s.octEngine d).eccSaid
          (s.onOct d fun x => { x with eccSaid := setMember x.eccSaid k true },
            { c with ended := true, subst := some c.row, pc := k })
        else (s, c)
      | .ins i =>
        if octRow i c ≤ w && inTime w lim i c then
          let r := s.issueOct d i c
          r.1.runOct d w lim n r.2
        else (s, c)

/-! ### The execution frame -/

/-- The frame that begins at a frame mark (R110): idle and looped destinations execute nothing. -/
def State.openFrame (s : State) (d : Nat) : FrameCtx :=
  let b := s.live true
  let idle := s.idleIn true d b
  let off := idle || s.looped (d / 2)
  { FrameCtx.init with
    bank := b, idle := idle, pc := s.startOf true d b, ended := off, checked := off,
    mask := (s.octEngine d).maskNext || s.maskedOff || s.unsure true }

def State.beginFrame (s : State) (d : Nat) : State :=
  s.onOct d fun x => { x with run := some (s.openFrame d), maskNext := false }

/-- The instructions of row `w` of every engine (R111). -/
def State.execRow (s : State) (w : Nat) : State :=
  (List.range 16).foldl (fun s d =>
    match (s.octEngine d).run with
    | none => s
    | some c =>
      let r := s.runOct d w none bankWords c
      r.1.onOct d fun x => { x with run := some r.2 }) s

/-- The positions of the instructions of the current row that had not ended after `n` of its cycles are not
written: they leave as all-ones with CON (R20). -/
def State.cutOct (s : State) (d n : Nat) (c : FrameCtx) : FrameCtx :=
  let undone := (c.log.filter fun q => n < q.1).flatMap (·.2)
  { c with out := undone.foldl (fun m a => if inHalf d a then m.insert a (badCell s.octSeq) else m) c.out }

/-- Positions of the rows below `w` of an execution frame that neither the program nor a termination writes
(R86, R112). -/
def State.openOcts (s : State) (d w : Nat) (c : FrameCtx) : Nat :=
  let own := ((s.emitAddrs (d / 2)).filter fun a => inHalf d a && addrRow a < w).eraseDups
  let done := c.out.filter fun p => addrRow p.1 < w
  18432 * w - done.length - (own.filter fun p => !done.any (·.1 = p)).length

/-- Rows of an execution frame whose unwritten positions are of pattern 1: all nine, or those before a
substitution (R112, R123). -/
def FrameCtx.openRows (c : FrameCtx) : Nat := c.subst.getD 9

/-- The end of the execution frame (R112, R122, R123): cost, unwritten positions, digest. STAT.late tells of
this frame (R124). Units that differ act as a mismatch of the digest (R385). -/
def State.closeFrame (s : State) (d : Nat) (differ : Bool) (c : FrameCtx) : State × FrameCtx :=
  let e := s.octEngine d
  let s := s.speedCost (158 + d) (c.spent + c.cycles)
  let s := s.setStat true d statEccSub c.subst.isSome
  let c := { c with checked := true }
  if c.lost then (s, c)
  else
    let n := s.openOcts d c.openRows c
    let s := (s.noteUnwritten true d n e.unwrSaid).onOct d fun x => { x with unwrSaid := x.unwrSaid || n > 0 }
    if c.subst.isSome && !differ then (s, c)
    else
      let r := s.compareDigest true d c.bank differ c.digest
      (r.1.onOct d fun x => { x with maskNext := r.2 }, c)

/-- The instructions of row 8 are under way: the frame's program can end (R122). -/
def State.inLastRow (s : State) : Bool := s.clock.row = 8 && !s.clock.frameDue

/-- The rest of the frame's program of destination `d`, then the check. -/
def State.endProgram (s : State) (d : Nat) (differ : Bool) : State :=
  match (s.octEngine d).run with
  | none => s
  | some c =>
    if c.checked then s
    else
      let r := s.runOct d 8 none bankWords c
      let q := r.1.closeFrame d differ r.2
      q.1.onOct d fun x => { x with run := some q.2 }

/-- OCTET_DIGEST_CHECK: the end of row 8's instructions, then the check; `differ` says that the two arithmetic units
have differed in the frame (R385). -/
def State.octetDigestCheck (s : State) (d : Nat) (differ : Bool) : State :=
  if s.inLastRow then s.endProgram d differ else s

/-- An instruction that writes executes in the row period of its row (R111). -/
def State.octNow (s : State) (i : OctIns) (c : FrameCtx) : Bool :=
  !s.clock.frameDue && (octWrites i = [] || octRow i c = s.clock.row)

/-- One instruction issued in the open execution frame of destination `d`. -/
def State.issueFrame (s : State) (d : Nat) (i : OctIns) : State :=
  match (s.octEngine d).run with
  | none => s
  | some c =>
    if c.ended || c.checked || c.lost || !s.octNow i c then s
    else
      let r := s.issueOct d i c
      r.1.onOct d fun x => { x with run := some r.2 }

/-- The cell of an octet position as its engine built it (R17, R103, R112, R123): a position that a lost frame
has not written is all-ones with CON. -/
def State.octCell (s : State) (c : FrameCtx) (w a : Nat) : Cell :=
  match c.out.find? (·.1 = a) with
  | some (_, x) => x
  | none =>
    if c.lost then badCell s.octSeq
    else
      let p := match c.subst with
        | some r => if r ≤ w then 0 else 1
        | none => 1
      fillCell (s.latched.octFill.get 0 p) (addrCol a) s.octSeq

/-! ### Commands -/

def execOctetDigestCheck (d : Fin 16) (unitsDiffer : Bool) (s : State) : Host.Outcome State Fault Refusal :=
  whenUp s fun s => s.octetDigestCheck d.val unitsDiffer

def execMovo (d : Fin 16) (i : MovoF) (s : State) : Host.Outcome State Fault Refusal :=
  whenUp s fun s => s.issueFrame d.val (.movo i)

def execMovos (d : Fin 16) (i : MovosF) (s : State) : Host.Outcome State Fault Refusal :=
  whenUp s fun s => s.issueFrame d.val (.movos i)

def execFilo (d : Fin 16) (i : FiloF) (s : State) : Host.Outcome State Fault Refusal :=
  whenUp s fun s => s.issueFrame d.val (.filo i)

def execSelo (d : Fin 16) (i : SeloF) (s : State) : Host.Outcome State Fault Refusal :=
  whenUp s fun s => s.issueFrame d.val (.selo i)

def execMix (d : Fin 16) (i : MixF) (s : State) : Host.Outcome State Fault Refusal :=
  whenUp s fun s => s.issueFrame d.val (.mix i)

def execMixp (d : Fin 16) (i : MixF) (s : State) : Host.Outcome State Fault Refusal :=
  whenUp s fun s => s.issueFrame d.val (.mixp i)

def execGain (d : Fin 16) (i : GainF) (s : State) : Host.Outcome State Fault Refusal :=
  whenUp s fun s => s.issueFrame d.val (.gain i)

def execTone (d : Fin 16) (i : ToneF) (s : State) : Host.Outcome State Fault Refusal :=
  whenUp s fun s => s.issueFrame d.val (.tone i)

def execPrbsGenerate (d : Fin 16) (i : PrbsF) (s : State) : Host.Outcome State Fault Refusal :=
  whenUp s fun s => s.issueFrame d.val (.prbs false i)

def execPrbsCheck (d : Fin 16) (i : PrbsF) (s : State) : Host.Outcome State Fault Refusal :=
  whenUp s fun s => s.issueFrame d.val (.prbs true i)

def execCasx (d : Fin 16) (i : CasxF) (s : State) : Host.Outcome State Fault Refusal :=
  whenUp s fun s => s.issueFrame d.val (.casx i)

def execCasi (d : Fin 16) (i : CasiF) (s : State) : Host.Outcome State Fault Refusal :=
  whenUp s fun s => s.issueFrame d.val (.casi i)

/-- END, NOP and MARK are issued on an engine of either plane (R158, R159). -/
def State.issueControl (s : State) (e : Engine) (i : ColIns) (j : OctIns) : State :=
  match e with
  | .col d => s.issueOpen d.val i
  | .oct d => s.issueFrame d.val j

def execEndI (e : Engine) (s : State) : Host.Outcome State Fault Refusal :=
  whenUp s fun s => s.issueControl e .endI .endI

def execNop (e : Engine) (s : State) : Host.Outcome State Fault Refusal :=
  whenUp s fun s => s.issueControl e .nop .nop

def execMark (e : Engine) (tag : BitVec 16) (s : State) : Host.Outcome State Fault Refusal :=
  whenUp s fun s => s.issueControl e (.mark tag) (.mark tag)

end Sys2Proof.Machine
end

