-- ==== Sys2Proof/Machine/Protect.lean ====
section
/-! DEFINITION. Path protection: the SNCP selectors (R190-R203, R435) and the sd and sf bits of word 3
(R194). -/

namespace Sys2Proof.Machine

/-! ### Fields of words 5 and 6 (R190) -/

/-- Evaluations in 100 ms and in a second: rows or frames. -/
def evals100ms (octet : Bool) : Nat := if octet then 800 else 7200
def evalsSec (octet : Bool) : Nat := if octet then 8000 else 72000

/-- Hold-off of a 7-bit field in evaluations. -/
def holdoffTime (octet : Bool) (v : Nat) : Nat := min v 100 * evals100ms octet

/-- Wait-to-restore of a 10-bit field in evaluations; 0 takes PRT_CFG.wtr_def. -/
def State.wtrTime (s : State) (octet : Bool) (v : Nat) : Nat :=
  (if v = 0 then min (s.fget F.prtCfg_wtrDef) 720 else min v 721 - 1) * evalsSec octet

/-- ext_cmd as it acts: 6 and 7 act as 0. -/
def extCmd (w6 : W32) : Nat := if bits w6 31 29 ≤ 5 then bits w6 31 29 else 0

/-- Replaces bits of word 6. -/
def State.setW6 (s : State) (p hi lo n : Nat) : State :=
  s.setPathWord p 6 (setBits (s.pathWord p 6) hi lo n)

def State.onSel (s : State) (p : Nat) (f : SelSt → SelSt) : State :=
  s.onPath p fun x => { x with sel := f x.sel }

def State.sel (s : State) (p : Nat) : SelSt := (s.path p).sel

/-- A path of types 8-10 belongs to the octet plane. -/
def State.octetPath (s : State) (p : Nat) : Bool :=
  match (s.path p).entry with
  | some (w0, _, _) => 8 ≤ bits w0 30 27 && bits w0 30 27 ≤ 10
  | none => false

/-! ### What a selector sees (R192, R193) -/

/-- A side is CON-dense: the fraction of CON positions meets con_mode. -/
def conDense (mode con all : Nat) : Bool :=
  match mode with
  | 0 => con ≥ 1
  | 1 => all ≥ 1 && 4 * con ≥ all
  | 2 => all ≥ 1 && 2 * con ≥ all
  | _ => all ≥ 1 && con = all

/-- Evaluations without density before a side leaves CON-fail: 1 ms. -/
def conFailExitAfter (octet : Bool) : Nat := if octet then 8 else 72

/-- CON-fail and its run of clean evaluations after an evaluation. -/
def conFailNext (octet dense fail : Bool) (clean : Nat) : Bool × Nat :=
  if dense then (true, 0)
  else if fail && clean + 1 < conFailExitAfter octet then (true, clean + 1)
  else (false, 0)

/-- The condition of a path with sd left out (R193). -/
def State.condNoSd (s : State) (p : Nat) : Bool :=
  match (s.path p).entry with
  | none => false
  | some (w0, _, _) => s.entryBad p || condOf w0 (setBits (s.pathWord p 3) 25 25 0)

/-- sd of a path counts while the path is monitored. -/
def State.pathSd (s : State) (p : Nat) : Bool :=
  match (s.path p).entry with
  | none => false
  | some (w0, _, _) => bit w0 24 && bit (s.pathWord p 3) 25

/-- SF and SD of a side: its path, if it has one, and its CON-fail. -/
def State.sideFails (s : State) (path : Option Nat) (conFail : Bool) : Bool × Bool :=
  match path with
  | none => (conFail, false)
  | some p =>
    let hard := s.condNoSd p
    let sf := hard || (conFail && !(s.cond p && !hard))
    (sf, !sf && s.pathSd p)

/-- The protect path of word 6, if it is not the entry itself. -/
def State.protectPath (s : State) (p : Nat) : Option Nat :=
  let q := bits (s.pathWord p 6) 17 0
  if q = p then none else some q

/-! ### Hold-off (R196) -/

/-- One evaluation of a hold-off timer of `n` evaluations. -/
def HoldOff.tick (h : HoldOff) (n : Nat) (present : Bool) : HoldOff :=
  if !present then ⟨none, false⟩
  else if h.expired then ⟨none, true⟩
  else
    match h.left with
    | none => if n = 0 then ⟨none, true⟩ else ⟨some n, false⟩
    | some k => if k ≤ 1 then ⟨none, true⟩ else ⟨some (k - 1), false⟩

/-! ### Requests and side (R195, R197, R198) -/

def reqLo : Nat := 11
def reqSfP : Nat := 10
def reqFsP : Nat := 9
def reqFsW : Nat := 8
def reqSfW : Nat := 7
def reqSdP : Nat := 6
def reqSdW : Nat := 5
def reqMsP : Nat := 4
def reqMsW : Nat := 3
def reqWtr : Nat := 2
def reqDnr : Nat := 1

/-- The side that a request selects: true for protect. -/
def reqSide (r : Nat) : Bool :=
  r = reqFsP || r = reqSfW || r = reqSdW || r = reqMsP || r = reqWtr || r = reqDnr

/-- The largest of a list of request codes. -/
def topReq (l : List Nat) : Nat := l.foldl max 0

/-- The request of a command other than a manual switch, 0 for none. -/
def cmdReq (c : Nat) : Nat := if c = 1 then reqLo else if c = 2 then reqFsP else if c = 3 then reqFsW else 0

/-- The highest request above a manual switch: commands and held-off conditions. -/
def State.highReq (s : State) (p : Nat) : Nat :=
  let x := s.sel p
  let w := s.sideFails (some p) x.wFail
  let q := s.sideFails (s.protectPath p) x.pFail
  topReq [cmdReq (extCmd (s.pathWord p 6)), if x.pHold.expired && q.1 then reqSfP else 0,
    if x.wHold.expired && w.1 then reqSfW else 0, if x.pHold.expired && q.2 then reqSdP else 0,
    if x.wHold.expired && w.2 then reqSdW else 0]

/-- A manual switch with a request above it is refused, or removed if it had been accepted (R198). -/
def State.judgeManual (s : State) (p high : Nat) : State :=
  let c := extCmd (s.pathWord p 6)
  if (c = 4 || c = 5) && high > reqMsP then
    let s' := s.setW6 p 31 29 0
    if (s.sel p).cmdNew then
      (((s'.setW6 p 20 20 1).count Reg.prtCntRej).raise Ev.selCmdReject p 0 c)
    else s'
  else s

/-- The request in force and the wait-to-restore left. -/
def State.decide (s : State) (octet : Bool) (p high : Nat) : Nat × Option Nat :=
  let x := s.sel p
  let w5 := s.pathWord p 5
  let c := extCmd (s.pathWord p 6)
  let ms := if c = 4 then reqMsP else if c = 5 then reqMsW else 0
  let top := max high ms
  if top > reqWtr then (top, none)
  else if bit w5 30 then
    if x.cmdNew && c = 0 then (0, none)
    else
      match x.wtr with
      | some n => (reqWtr, some n)
      | none =>
        let last := bits (s.pathWord p 6) 27 24
        let t := s.wtrTime octet (bits w5 17 8)
        if s.sideOf p && (last = reqSfW || last = reqSdW) && t > 0 then (reqWtr, some t) else (0, none)
  else if s.sideOf p then (reqDnr, none)
  else (0, none)

/-- A change of side: counted, reported, and a hold window opens unless one is open (R195, R202). -/
def State.switchSide (s : State) (octet : Bool) (p req : Nat) : State :=
  let w5 := s.pathWord p 5
  let s := (s.setW6 p 28 28 (b2n (reqSide req))).count (if octet then Reg.prtCntOct else Reg.prtCntCol)
  let s := if bit w5 6 then s.raise Ev.selSwitch p 0 req else s
  if bit w5 7 || (s.sel p).window > 0 then s
  else
    (s.onSel p fun x => { x with window := if octet then 2 else 18, winCon := false }).setW6 p 21 21 1

/-- PROT_COMMAND completes with the evaluation that accepted or refused what it wrote (R198, R207). -/
def State.protDone (s : State) (w : Waiting) (refused : Bool) : State :=
  s.finishAll (· = w) fun _ => (if refused then csRejected else csOk, 0, 0, 0)

/-- The same for the selector of a path. -/
def State.selDone (s : State) (p : Nat) : State :=
  s.protDone (.prot (BitVec.ofNat 18 p)) (bit (s.pathWord p 6) 20)

/-- The request is found and acted on; what the evaluation shows goes into word 6. -/
def State.actSel (s : State) (octet : Bool) (p : Nat) : State :=
  let high := s.highReq p
  let s := s.judgeManual p high
  let r := s.decide octet p high
  let s := s.onSel p fun x => { x with wtr := r.2, cmdNew := false }
  let change := reqSide r.1 ≠ s.sideOf p
  let s := s.setW6 p 27 24 r.1
  let s := s.setW6 p 22 22 (b2n r.2.isSome)
  let s := s.setW6 p 23 23 (b2n ((s.sel p).wHold.left.isSome || (s.sel p).pHold.left.isSome))
  (if change then s.switchSide octet p r.1 else s).selDone p

/-- sel_en = 0 (R435): working, NR, timers and CON-fail cleared; a hold window in progress runs on. -/
def State.clearSel (s : State) (p : Nat) : State :=
  let s := s.onSel p fun x =>
    { x with wFail := false, wClean := 0, pFail := false, pClean := 0, wHold := .init, pHold := .init,
             wtr := none, cmdNew := false }
  s.setPathWord p 6 (setBits (setBits (s.pathWord p 6) 28 22 0) 19 18 0)

/-- A word 5 or 6 that is uncorrectable stops the selector (R383). -/
def State.selBad (s : State) (p : Nat) : Bool := s.ueAt (pathAddr p 5) || s.ueAt (pathAddr p 6)

/-- One evaluation of a selector with the CON counts of its last program rows or frame: working CON,
positions, protect CON (R199, R200). -/
def State.evalSel (s : State) (octet : Bool) (p wCon all pCon : Nat) : State :=
  if (s.path p).entry.isNone || s.selBad p then s
  else
    let w5 := s.pathWord p 5
    if !bit w5 31 then (s.clearSel p).selDone p
    else
      let mode := bits w5 29 28
      let wd := conDense mode wCon all
      let pd := conDense mode pCon all
      let x := s.sel p
      let w := conFailNext octet wd x.wFail x.wClean
      let q := conFailNext octet pd x.pFail x.pClean
      let n := holdoffTime octet (bits w5 24 18)
      let wf := s.sideFails (some p) w.1
      let pf := s.sideFails (s.protectPath p) q.1
      let wtr := match x.wtr with
        | some k => if k ≤ 1 then none else some (k - 1)
        | none => none
      let s := s.onSel p fun x =>
        { x with wFail := w.1, wClean := w.2, pFail := q.1, pClean := q.2,
                 wHold := x.wHold.tick n (wf.1 || wf.2), pHold := x.pHold.tick n (pf.1 || pf.2),
                 wtr := wtr }
      let s := s.setW6 p 19 18 (b2n wd * 2 + b2n pd)
      s.actSel octet p

/-- Counts of a path in a list of selectors. -/
def selCounts (p : PathId) (l : List (PathId × Nat × Nat × Nat)) : Nat × Nat × Nat :=
  match l.find? (·.1 = p) with
  | some (_, w, a, c) => (w, a, c)
  | none => (0, 0, 0)

/-- Selectors named by a list of paths are evaluated in turn. -/
def State.evalSels (s : State) (octet : Bool) (cs : List (PathId × Nat × Nat × Nat)) : List PathId → State
  | [] => s
  | p :: ps =>
    let c := selCounts p cs
    (s.evalSel octet p.toNat c.1 c.2.1 c.2.2).evalSels octet cs ps

/-! ### The paths that a live bank names -/

/-- SELC paths of the program from word `pc`. -/
def State.selcPaths (s : State) (bankB : Bool) : Nat → Nat → List PathId
  | 0, _ => []
  | n + 1, pc =>
    match s.fetchCol bankB pc with
    | .ins .endI => []
    | .ins (.selc f) => f.path :: s.selcPaths bankB n (pc + 2)
    | .ins i => s.selcPaths bankB n (pc + colWords i)
    | _ => []

/-- SELO paths of the program from word `pc`. -/
def State.seloPaths (s : State) (bankB : Bool) : Nat → Nat → List PathId
  | 0, _ => []
  | n + 1, pc =>
    match s.fetchOct bankB pc with
    | .ins .endI => []
    | .ins (.selo f) => f.path :: s.seloPaths bankB n (pc + 2)
    | .ins i => s.seloPaths bankB n (pc + octWords i)
    | _ => []

/-- Paths named by the programs of a bank, each once. -/
def State.namedPaths (s : State) (octet bankB : Bool) : List PathId :=
  ((List.range (if octet then 16 else 56)).flatMap fun d =>
    if s.idleIn octet d bankB || (octet && s.looped (d / 2)) then []
    else if octet then s.seloPaths bankB bankWords (s.startOf true d bankB)
    else s.selcPaths bankB bankWords (s.startOf false d bankB)).eraseDups

/-- CON counts of the engines of a plane, merged by path. -/
def mergeSels (l : List (List (PathId × Nat × Nat × Nat))) : List (PathId × Nat × Nat × Nat) :=
  l.flatten.foldl (fun m q => addSel q.1 q.2.1 q.2.2.1 q.2.2.2 m) []

/-! ### Hold windows (R202) -/

/-- A window closes: PRT_CNT_HOLD when its last period still showed CON. -/
def State.closeWindow (s : State) (p : Nat) : State :=
  let con := (s.sel p).winCon
  let s := (s.onSel p fun x => { x with window := 0, winCon := false }).setW6 p 21 21 0
  if con then s.count Reg.prtCntHold else s

/-- One period or frame of every open window of a plane has passed. -/
def State.passWindows (s : State) (octet : Bool) : State :=
  let open_ := (s.pathList.filter fun q => q.2.sel.window > 0 && s.octetPath q.1 = octet).map (·.1)
  open_.foldl (fun s p =>
    if (s.sel p).window ≤ 1 then s.closeWindow p
    else s.onSel p fun x => { x with window := x.window - 1, winCon := false }) s

/-! ### Evaluations at the marks -/

/-- SEL_EVAL_COLUMN (R199): with the counts of the program rows that have just ended. -/
def State.evalColumn (s : State) : State :=
  let s := s.passWindows false
  let cs := mergeSels ((List.range 56).map fun d =>
    match (s.colEngine d).fetch with
    | some c => c.sels
    | none => [])
  s.evalSels false cs (s.namedPaths false (s.live false))

/-- SEL_EVAL_OCTET (R200): with the counts of the execution frame that has just ended. -/
def State.evalOctet (s : State) : State :=
  let s := s.passWindows true
  let cs := mergeSels ((List.range 16).map fun d =>
    match (s.octEngine d).run with
    | some c => c.sels
    | none => [])
  s.evalSels true cs (s.namedPaths true (s.live true))

/-! ### Commands

The marks advance every timer. A command that says that a timer has run out brings it to its last evaluation, so that
the evaluation that comes next acts on it, as on one that the marks have counted out (log entry 67). -/

/-- A selector that is evaluated: its entry is valid, sel_en is set, and a live bank names it (R435). -/
def State.selRuns (s : State) (p : Nat) : Bool :=
  let o := s.octetPath p
  (s.path p).entry.isSome && !s.selBad p && bit (s.pathWord p 5) 31 &&
    (s.namedPaths o (s.live o)).contains (BitVec.ofNat 18 p)

/-- A timer that runs is at its last evaluation. -/
def HoldOff.last (h : HoldOff) : HoldOff := if h.left.isSome then { h with left := some 1 } else h

/-- The running timer of a side expires: the evaluation that comes next makes a request of a condition that is still
present (R196). -/
def State.expireHold (s : State) (p : Nat) (protect : Bool) : State :=
  if s.selRuns p then
    s.onSel p fun x => if protect then { x with pHold := x.pHold.last } else { x with wHold := x.wHold.last }
  else s

def execSelHoldoffExpiry (path : PathId) (protect : Bool) (s : State) :
    Host.Outcome State Fault Refusal :=
  whenUp s fun s => s.expireHold path.toNat protect

/-- Wait-to-restore expires: the evaluation that comes next makes the request NR (R197). -/
def State.expireWtr (s : State) (p : Nat) : State :=
  if s.selRuns p then s.onSel p fun x => { x with wtr := x.wtr.map fun _ => 1 } else s

def execSelWtrExpiry (path : PathId) (s : State) : Host.Outcome State Fault Refusal :=
  whenUp s fun s => s.expireWtr path.toNat

/-- A side in CON-fail whose last evaluation was not CON-dense has been so in every evaluation but the one that comes
next, which ends CON-fail unless it is dense again (R192). -/
def State.leaveConFail (s : State) (p : Nat) (protect : Bool) : State :=
  let dense := bit (s.pathWord p 6) (if protect then 18 else 19)
  let n := conFailExitAfter (s.octetPath p) - 1
  if s.selRuns p && !dense then
    s.onSel p fun x =>
      if protect then (if x.pFail then { x with pClean := n } else x)
      else if x.wFail then { x with wClean := n } else x
  else s

def execConFailExit (path : PathId) (protect : Bool) (s : State) : Host.Outcome State Fault Refusal :=
  whenUp s fun s => s.leaveConFail path.toNat protect

/-- A hold window closes (R202). -/
def execHoldWindowEnd (path : PathId) (s : State) : Host.Outcome State Fault Refusal :=
  whenUp s fun s => if (s.sel path.toNat).window > 0 then s.closeWindow path.toNat else s

/-! ### sd and sf (R194) -/

/-- Errors expected in a window of `bits` bits at threshold code 1-5, 10^-5 to 10^-9, are
`bits / 10^(code + 4)`. -/
def sdScale (thr : Nat) : Nat := 10 ^ (thr + 4)

/-- A path that has an error check: types 1-9 where R194 names one, and type 11 on an Amenamin lane. -/
def State.sdChecked (s : State) (p : Nat) : Bool :=
  match (s.path p).entry with
  | none => false
  | some (w0, _, _) =>
    let t := bits w0 30 27
    let l := bits w0 23 18
    bit w0 24 && ((1 ≤ t && t ≤ 7 && l < 48 && s.isSdh l) || t = 8 || t = 9 ||
      (t = 11 && l < 48 && s.isAmenamin l))

/-- PATH_SD_WINDOW_END: the errors of one window against the number expected for its bits. -/
def State.pathSdWindow (s : State) (p errors n : Nat) : State :=
  let thr := bits (s.pathWord p 5) 27 25
  if !s.sdChecked p || thr = 0 || thr ≥ 6 then s
  else if errors * sdScale thr > n then s.setDefect p 25 true
  else if errors * sdScale thr * 10 < n then s.setDefect p 25 false
  else s

def execPathSdWindowEnd (path : PathId) (errors : Nat) (bits : Nat) (s : State) :
    Host.Outcome State Fault Refusal :=
  whenUp s fun s => s.pathSdWindow path.toNat errors bits

/-- PATH_SF_CLEAR: 8 frames without received CON on the path's grains. -/
def execPathSfClear (path : PathId) (s : State) : Host.Outcome State Fault Refusal :=
  whenUp s fun s => s.setDefect path.toNat 24 false

end Sys2Proof.Machine
end

