-- ==== Sys2Proof/Machine/Aps.lean ====
section
/-! DEFINITION. Linear MSP: the controllers APS0-APS23 (R204-R210, R213). -/

namespace Sys2Proof.Machine

/-! ### Lanes of a group (R204, R206) -/

/-- Channels 0 to N of a controller. -/
def State.apsChans (s : State) (g : Nat) : List Nat := List.range (s.apsN g + 1)

/-- The lanes of a group. -/
def State.apsLanes (s : State) (g : Nat) : List Nat := (s.apsChans g).map (s.apsLane g)

/-- SF of a lane: LOS, LOF, MS-AIS, MS-EXC, or a stage other than ACTIVE (R206). -/
def State.laneSf (s : State) (l : Nat) : Bool :=
  s.ltm l ltmLos || s.ltm l ltmLof || s.ltm l ltmMsAis || s.ltm l ltmMsExc || s.stage l ≠ stageActive

/-- SD of a lane. -/
def State.laneSd (s : State) (l : Nat) : Bool := s.ltm l ltmMsDeg

def State.apsArch (s : State) (g : Nat) : Nat := s.fget (F.apsCfg_arch g)
/-- 1:N. -/
def State.apsMany (s : State) (g : Nat) : Bool := s.apsArch g = 2
/-- Bidirectional: 1+1 bidirectional and 1:N. -/
def State.apsBidir (s : State) (g : Nat) : Bool := s.apsArch g ≠ 0

/-- The checks of R204 on a configuration word with the lanes of APS_WL. -/
def State.apsCheck (s : State) (g : Nat) (v : W32) : Bool :=
  let n := bits v 20 17
  let p := bits v 26 21
  let wl := fun c => let j := (c - 1) % 5; bits (s.rd (Reg.apsWl g ((c - 1) / 5))) (6 * j + 5) (6 * j)
  let lanes := p :: (List.range n).map fun c => wl (c + 1)
  let arch := bits v 30 29
  let au := fun l => (List.range 64).map fun i => bits (s.rd (Reg.ltmAuCfg l i)) 31 28
  arch ≠ 3 && 1 ≤ n && n ≤ 14 && (arch = 2 || n = 1) &&
    lanes.all (fun l => l < 48 && s.isSdh l && s.rate l = s.rate p &&
      s.flag (F.ltmCfg_sonet l) = s.flag (F.ltmCfg_sonet p) && s.au3 l = s.au3 p && au l = au p &&
      (s.apsOwner l).isNone)

/-! ### Requests (R207, R208) -/

/-- A request: K1 code and channel. -/
structure ApsReq where
  code : Nat
  chan : Nat
  deriving DecidableEq, Repr

/-- The rank of a K1 code and channel, smaller is higher: twice the rank of R207, one more for a
low-priority code; EXER stands between WTR and DNR, RR is no request (log entry 19). -/
def ApsReq.rank (r : ApsReq) : Nat :=
  match r.code with
  | 0xF => 2
  | 0xE => 6
  | 0xD => if r.chan = 0 then 4 else 8
  | 0xC => if r.chan = 0 then 5 else 9
  | 0xB => if r.chan = 0 then 10 else 12
  | 0xA => if r.chan = 0 then 11 else 13
  | 0x8 => 14
  | 0x6 => 16
  | 0x4 => 17
  | 0x1 => 18
  | _ => 20

/-- One request outranks another; of equal rank the lower channel does (R207). -/
def ApsReq.above (a b : ApsReq) : Bool := a.rank < b.rank || (a.rank = b.rank && a.rank < 20 && a.chan < b.chan)

/-- Codes that R207 calls invalid. -/
def apsInvalid (code : Nat) : Bool := code = 9 || code = 7 || code = 5 || code = 3

/-- The accepted received K1 of the protect lane. -/
def State.apsRemote (s : State) (g : Nat) : ApsReq :=
  let k := s.fget (F.ltmOhRx_k1 (s.apsLane g 0))
  ⟨k / 16, k % 16⟩

/-- K bytes have been accepted on the protect lane. -/
def State.apsHeard (s : State) (g : Nat) : Bool := s.flag (F.ltmOhRx_kValid (s.apsLane g 0))

/-- APS_CMD as it acts: LO, FS or MS with a channel of the group. -/
def State.apsCmd (s : State) (g : Nat) : Nat × Nat :=
  let c := s.fget (F.apsCmd_cmd g)
  let n := s.fget (F.apsCmd_chan g)
  if c = 1 then (1, 0) else if (c = 2 || c = 3) && n ≤ s.apsN g then (c, n) else (0, 0)

/-- The command is a clear: APS_CMD.cmd is 0, or one of the codes that act as 0 (R213). -/
def State.apsClear (s : State) (g : Nat) : Bool :=
  let c := s.fget (F.apsCmd_cmd g)
  c = 0 || 4 ≤ c

/-- The lowest channel of 1-N whose held-off condition satisfies a test. -/
def State.apsFirst (s : State) (g : Nat) (f : Nat → Bool) : Option Nat :=
  ((List.range (s.apsN g)).map (· + 1)).find? fun c => ((s.apsSt g).hold.get .init c).expired && f (s.apsLane g c)

/-- The local request above a manual switch, if any. -/
def State.apsHigh (s : State) (g : Nat) : Option ApsReq :=
  let cmd := s.apsCmd g
  let p := s.apsLane g 0
  let pHeld := ((s.apsSt g).hold.get .init 0).expired
  if cmd.1 = 1 then some ⟨0xF, 0⟩
  else if pHeld && s.laneSf p then some ⟨0xD, 0⟩
  else if cmd.1 = 2 then some ⟨0xE, cmd.2⟩
  else
    match s.apsFirst g s.laneSf with
    | some c => some ⟨0xD, c⟩
    | none =>
      if pHeld && s.laneSd p then some ⟨0xB, 0⟩
      else (s.apsFirst g s.laneSd).map fun c => ⟨0xB, c⟩

/-- A manual switch with a request above it, local or received, is refused or removed (R198, R207). -/
def State.apsJudge (s : State) (g : Nat) : State :=
  let far := s.apsBidir g && s.apsHeard g && !s.flag (F.apsStat_fop g) && (s.apsRemote g).rank < 14
  if (s.apsCmd g).1 = 3 && ((s.apsHigh g).isSome || far) then
    let s' := s.fset (F.apsCmd_cmd g) 0
    if (s.apsSt g).cmdNew then
      ((s'.fbit (F.apsStat_cmdRej g) true).count Reg.prtCntRej).raise Ev.mspCmdReject g 0 3
    else s'
  else s

/-- Revertive operation: APS_CFG.revertive in 1+1, always in 1:N. -/
def State.apsRevertive (s : State) (g : Nat) : Bool := s.apsMany g || s.flag (F.apsCfg_revertive g)

/-- The local request and the wait-to-restore left with its channel (R207). -/
def State.apsLocal (s : State) (g : Nat) : ApsReq × Option Nat × Nat :=
  let x := s.apsSt g
  let cmd := s.apsCmd g
  let sel := s.fget (F.apsStat_selected g)
  let idle : ApsReq := ⟨0, if s.apsMany g && s.flag (F.apsCfg_extra g) then 15 else 0⟩
  match s.apsHigh g with
  | some r => (r, none, 0)
  | none =>
    if cmd.1 = 3 then (⟨8, cmd.2⟩, none, 0)
    else if s.apsRevertive g then
      if x.cmdNew && s.apsClear g then (idle, none, 0)
      else
        match x.wtr with
        | some n => (⟨6, x.wtrChan⟩, some n, x.wtrChan)
        | none =>
          let last := s.fget (F.apsStat_reqLocal g)
          let ch := s.fget (F.apsStat_chanLocal g)
          let t := s.wtrTime false (s.fget (F.apsCfg_wtr g))
          if (last = 0xD || last = 0xB) && ch ≥ 1 && sel = ch && t > 0 then (⟨6, ch⟩, some t, ch)
          else (idle, none, 0)
    else if sel = 1 then (⟨1, 1⟩, none, 0)
    else (idle, none, 0)

/-! ### Failure of protocol (R209) -/

/-- K2 bit 5 as sent: 0 for 1+1, 1 for 1:N. -/
def State.apsBit5 (s : State) (g : Nat) : Nat := b2n (s.apsMany g)

/-- The failure of mode: declared by an accepted K2 with bits 6-8 below 0b101, cleared by 0b101 alone. -/
def State.apsMode (s : State) (g : Nat) : State :=
  let m := s.fget (F.ltmOhRx_k2 (s.apsLane g 0)) % 8
  if !s.apsHeard g then s
  else s.onAps g fun x => { x with fopMode := m < 5 || (x.fopMode && m ≠ 5) }

/-- The cause of FOP that stands after an evaluation, the lowest of those present; 0 for none. -/
def State.apsFop (s : State) (g : Nat) : Nat :=
  let p := s.apsLane g 0
  let k2 := s.fget (F.ltmOhRx_k2 p)
  let r := s.apsRemote g
  let heard := s.apsHeard g
  if !s.apsBidir g then 0
  else if heard && k2 / 8 % 2 ≠ s.apsBit5 g then 1
  else if (s.apsSt g).fopMode then 2
  else if (s.apsSt g).fopChan then 3
  else if heard && (apsInvalid r.code || (r.chan > s.apsN g && r.chan ≠ 15)) then 4
  else if s.ltm p ltmKIncons then 5
  else 0

/-- FOP is declared, changed or cleared. -/
def State.apsSetFop (s : State) (g cause : Nat) : State :=
  let was := if s.flag (F.apsStat_fop g) then s.fget (F.apsStat_fopCause g) else 0
  let s := (s.fbit (F.apsStat_fop g) (cause ≠ 0)).fset (F.apsStat_fopCause g) cause
  if cause ≠ 0 && cause ≠ was then (s.count (Reg.apsCntFop g)).raise Ev.mspFop g 0 cause else s

/-! ### Bridge and selection (R208) -/

/-- The governing request, and whether the received one governs. -/
def State.apsGoverning (s : State) (g : Nat) (own : ApsReq) (fop : Bool) : ApsReq × Bool :=
  let r := s.apsRemote g
  if s.apsBidir g && s.apsHeard g && !fop && r.code ≠ 2 && r.above own then (r, true) else (own, false)

/-- A channel field as it is bridged: 15, extra traffic, is channel 0. -/
def apsChan (n c : Nat) : Nat := if c ≤ n then c else 0

/-- The channels to bridge and to select. -/
def State.apsChoose (s : State) (g : Nat) (gov : ApsReq) (fop : Bool) (own : ApsReq) : Nat × Nat :=
  let bridged := s.fget (F.apsStat_bridged g)
  let selected := s.fget (F.apsStat_selected g)
  if gov.code = 4 then (bridged, selected)
  else if !s.apsMany g then (1, if gov.chan = 1 then 1 else 0)
  else if fop then (if own.code = 0xF then (0, 0) else (bridged, selected))
  else
    let c := apsChan (s.apsN g) gov.chan
    let k2 := s.fget (F.ltmOhRx_k2 (s.apsLane g 0))
    (c, if s.apsHeard g && k2 / 16 = c then c else 0)

/-- Paths of types 1-3 of a lane take the AU defects of the lane that serves them (R205). -/
def State.retarget (s : State) (l : Nat) : State :=
  (s.pathsOn l).foldl (fun s p =>
    match (s.path p).entry with
    | some (w0, w1, _) =>
      let t := bits w0 30 27
      if bit w0 24 && 1 ≤ t && t ≤ 3 then
        let keep := s.pathWord p 3 &&& 0x037FFFFF
        (s.setPathWord p 3 (keep ||| (s.freshWord3 w0 w1 &&& 0x7C800000))).refreshPath p
      else s.refreshPath p
    | none => s) s

/-- The row of a lane that arrives in the period that begins, with the path flags that the selection as it now stands
gives it (R205, R210). -/
def State.reflagLane (s : State) (l : Nat) : State :=
  match (s.lane l).raw.find? (·.1 = s.clock.period) with
  | some (_, r) => s.holdRow l s.clock.period (s.pathFlags l r)
  | none => s

/-- A change of bridge (R213). -/
def State.apsBridge (s : State) (g bridged sel req : Nat) : State :=
  if s.fget (F.apsStat_bridged g) = bridged then s
  else (s.fset (F.apsStat_bridged g) bridged).raise Ev.apsSwitch g sel req

/-- A change of selection (R205, R213). -/
def State.apsSelect (s : State) (g sel req : Nat) : State :=
  let was := s.fget (F.apsStat_selected g)
  if was = sel then s
  else
    let s := (s.fset (F.apsStat_selected g) sel).count (Reg.apsCntSw g)
    let s := s.raise Ev.apsSwitch g sel req
    (s.apsLanes g).foldl State.reflagLane ((s.apsLanes g).foldl State.retarget s)

/-- K1 and K2 to be sent on the protect lane (R207, R208). -/
def State.apsSend (s : State) (g : Nat) (own gov : ApsReq) (far : Bool) (bridged : Nat) : State :=
  let k1 := if far then 2 * 16 + gov.chan else own.code * 16 + own.chan
  let k2 := bridged * 16 + s.apsBit5 g * 8 + (if s.apsBidir g then 5 else 4)
  (s.fset (F.apsKtx_k1 g) k1).fset (F.apsKtx_k2 g) k2

/-- APS_EVAL of one controller (R210). -/
def State.apsAct (s : State) (g : Nat) : State :=
  let s := s.apsMode g
  let cause := s.apsFop g
  let s := (s.apsSetFop g cause).apsJudge g
  let l := s.apsLocal g
  let s := s.onAps g fun x => { x with wtr := l.2.1, wtrChan := l.2.2, cmdNew := false }
  let r := s.apsRemote g
  let q := s.apsGoverning g l.1 (cause ≠ 0)
  let c := s.apsChoose g q.1 (cause ≠ 0) l.1
  let held := (s.apsChans g).any fun i => ((s.apsSt g).hold.get .init i).left.isSome
  let s := (s.fset (F.apsStat_reqLocal g) l.1.code).fset (F.apsStat_chanLocal g) l.1.chan
  let s := if s.apsHeard g then (s.fset (F.apsStat_reqRemote g) r.code).fset (F.apsStat_chanRemote g) r.chan else s
  let s := (s.fbit (F.apsStat_wtrRun g) l.2.1.isSome).fbit (F.apsStat_holdoffRun g) held
  let s := ((s.apsBridge g c.1 c.2 q.1.code).apsSelect g c.2 q.1.code).apsSend g l.1 q.1 q.2 c.1
  s.protDone (.aps g) (s.flag (F.apsStat_cmdRej g))

/-- Accepted K2 bits 1-4 differ from the channel of the K1 sent (R209). -/
def State.apsMismatch (s : State) (g : Nat) : Bool :=
  s.apsHeard g && s.fget (F.ltmOhRx_k2 (s.apsLane g 0)) / 16 ≠ s.fget (F.apsKtx_k1 g) % 16

/-- Evaluations in 400 frames. -/
def fopEvals : Nat := 3600

/-- The timers of a controller advance by one row; the channel cause of FOP ends with the mismatch. -/
def State.apsTick (s : State) (g : Nat) : State :=
  let n := holdoffTime false (s.fget (F.apsCfg_holdoff g))
  let s := (s.apsChans g).foldl (fun s c =>
    let l := s.apsLane g c
    s.onAps g fun x =>
      { x with hold := x.hold.put .init c ((x.hold.get .init c).tick n (s.laneSf l || s.laneSd l)) }) s
  s.onAps g fun x =>
    { x with
      fopRun := if s.apsMismatch g then x.fopRun + 1 else 0
      fopChan := x.fopChan && s.apsMismatch g
      wtr := match x.wtr with
        | some k => if k ≤ 1 then none else some (k - 1)
        | none => none }

/-- APS_EVAL: every enabled controller, at a row mark (R210). -/
def State.evalAps (s : State) : State :=
  s.apsOn.foldl (fun s g =>
    let sel := s.fget (F.apsStat_selected g)
    ((s.onAps g fun x => { x with selPrev := sel }).apsTick g).apsAct g) s

/-! ### Commands -/

/-- APS_CFG (R204): enabling is checked; while enabled only en may be cleared. -/
def State.apsCfgWrite (s : State) (g : Nat) (be : BitVec 4) (v : W32) : State :=
  let a := Reg.apsCfg g
  let w := s.merged a be v
  if s.flag (F.apsCfg_en g) then
    if bit w 31 then s.raise Ev.mspCfgReject g
    else
      let lanes := s.apsLanes g
      let s := ((s.wr a w).wr (Reg.apsStat g) 0).wr (Reg.apsKtx g) 0
      lanes.foldl State.retarget (s.onAps g fun _ => .init)
  else if bit w 31 then
    if s.apsCheck g w then
      let s := (s.wr a w).onAps g fun _ => .init
      s.fset (F.apsStat_bridged g) (if s.apsMany g then 0 else 1)
    else s.raise Ev.mspCfgReject g
  else s.wr a w

def execApsCfgWrite (g : Fin 24) (be : BitVec 4) (v : W32) (s : State) : Host.Outcome State Fault Refusal :=
  whenUp s fun s => s.hostReg (Reg.apsCfg g.val) be v fun s => s.apsCfgWrite g.val be v

/-- APS_CMD: the command is judged at the next evaluation (R207, R210). -/
def State.apsCommand (s : State) (g : Nat) (be : BitVec 4) (v : W32) : State :=
  let s := (s.wr (Reg.apsCmd g) (s.merged (Reg.apsCmd g) be v)).fbit (F.apsStat_cmdRej g) false
  s.onAps g fun x => { x with cmdNew := true }

def execApsCommand (g : Fin 24) (be : BitVec 4) (v : W32) (s : State) : Host.Outcome State Fault Refusal :=
  whenUp s fun s => s.hostReg (Reg.apsCmd g.val) be v fun s => s.apsCommand g.val be v

/-- The running hold-off of a channel expires: the next evaluation acts on it (R206; log entry 67). -/
def State.apsExpire (s : State) (g c : Nat) : State :=
  if s.flag (F.apsCfg_en g) then
    s.onAps g fun x => { x with hold := x.hold.put .init c (x.hold.get .init c).last }
  else s

def execApsHoldoffExpiry (g : Fin 24) (chan : BitVec 4) (s : State) : Host.Outcome State Fault Refusal :=
  whenUp s fun s => s.apsExpire g.val chan.toNat

/-- Wait-to-restore expires: the next evaluation reverts (R207; log entry 67). -/
def execApsWtrExpiry (g : Fin 24) (s : State) : Host.Outcome State Fault Refusal :=
  whenUp s fun s =>
    if s.flag (F.apsCfg_en g.val) then s.onAps g.val fun x => { x with wtr := x.wtr.map fun _ => 1 } else s

/-- MSP_FOP_CHANNEL: 400 frames of mismatch between accepted K2 and the channel sent (R209). -/
def execMspFopChannel (g : Fin 24) (s : State) : Host.Outcome State Fault Refusal :=
  whenUp s fun s =>
    if s.flag (F.apsCfg_en g.val) && s.apsBidir g.val && s.apsMismatch g.val && fopEvals ≤ (s.apsSt g.val).fopRun then
      (s.onAps g.val fun x => { x with fopChan := true }).apsAct g.val
    else s

end Sys2Proof.Machine
end

