-- ==== Sys2Proof/Machine/Framer.lean ====
section
/-! DEFINITION. What a termination makes of its feed: the octets of the feed (R84, R87), the TU and its VC (R88), the
framing of E1 and T1 signals (R89) and the signalling received (R169). The line formats that the spec takes from
G.704, G.706 and G.707 are PRESUMED (log entry 23). -/

namespace Sys2Proof.Machine

/-! ### Bits -/

/-- The bits of octets, most significant first. -/
def octBits (os : List Octet) : List Bool := os.flatMap fun o => (List.range 8).map fun i => o.getLsbD (7 - i)

/-- The octet of the first 8 bits of a list. -/
def bitsOct (l : List Bool) : Octet := BitVec.ofNat 8 ((l.take 8).foldl (fun n b => 2 * n + b2n b) 0)

/-- The first `n` octets of a list of bits. -/
def bitsOctets (n : Nat) (l : List Bool) : List Octet := (List.range n).map fun i => bitsOct (l.drop (8 * i))

/-- The last `n` of a list. -/
def lastOf {α : Type} (n : Nat) (l : List α) : List α := l.drop (l.length - n)

/-- CRC of a multiframe signal, most significant bit first: polynomial `p` of degree `n`. -/
def crcBit (n p : Nat) (st : BitVec 6) (b : Bool) : BitVec 6 :=
  let top := st.getLsbD (n - 1)
  let x := (st.toNat * 2) % 2 ^ n
  BitVec.ofNat 6 (if top != b then Nat.xor x p else x)

def crcOctet (n p : Nat) (st : BitVec 6) (o : Octet) : BitVec 6 :=
  (List.range 8).foldl (fun st i => crcBit n p st (o.getLsbD (7 - i))) st

/-- BIP-2 of an octet: parity of its odd-numbered and of its even-numbered bits. -/
def bip2 (o : Octet) : BitVec 2 :=
  let p := fun m => ((List.range 8).filter fun i => (o &&& m).getLsbD i).length % 2
  BitVec.ofNat 2 (2 * p 0xAA + p 0x55)

/-- F bit of frame `m` of an SF: Ft and Fs. -/
def sfBit (m : Nat) : Bool := [1, 0, 0, 0, 1, 1, 0, 1, 1, 1, 0, 0].getD m 0 = 1

/-- FPS of an ESF, in its frames 4, 8, ... 24. -/
def fpsBit (m : Nat) : Bool := m = 11 || m = 19 || m = 23

/-! ### The feed (R84, R87, R90) -/

/-- Octets of a feed frame: four or three columns of nine rows. -/
def State.feedLen (s : State) (t : Nat) : Nat := 9 * s.tuCols t

/-- Rows from the source canvas to the first feed row (R87). -/
def State.feedOffset (s : State) (t : Nat) : Nat :=
  (if bit (s.termW t 0) 29 then 0 else 3) + bits (s.termW t 0) 13 8

/-- Octet `k` of the feed frame whose rows began in the octet frame before, and its block flag: the rows that wrap
stand in the octet frame now captured. -/
def State.feedOctet (s : State) (t k : Nat) : Octet × Bool :=
  let n := s.tuCols t
  let p := s.termPath t 1
  let v := s.pathLane p - 48
  let r := s.feedOffset t % 9 + k / n
  let age := if r < 9 then 0 else 1
  let fr := storeFrame (s.clock.frames + 2 + age)
  let c := (s.pathGrains p).getD (k % n) 0
  let a := octAddr v (r % 9) c
  let h := s.captures.get Capture.none (captureKey fr v (r % 9))
  if s.looped v || h.frame ≠ s.clock.frames + age || s.ueAt (storeAddr fr a) then (0xFF, true)
  else (s.byte (storeAddr fr a), h.flag c)

/-- The whole feed frame. -/
def State.feedOctets (s : State) (t : Nat) : List (Octet × Bool) := (List.range (s.feedLen t)).map (s.feedOctet t)

/-- A feed frame is there to be received: its last row has been captured, and it has not been received before. -/
def State.feedReady (s : State) (t : Nat) : Bool :=
  (s.term t).fedAt ≠ s.clock.frames && s.clock.started && s.feedOffset t % 9 ≤ s.clock.row

/-! ### The TU of an asynchronously mapped feed (R88) -/

/-- Octets of the VC in each frame after the V octet. -/
def State.tuLen (s : State) (t : Nat) : Nat := s.feedLen t - 1

/-- Frames by which the phase of the multiframe moves on the way to V-input capture (R88). -/
def State.feedShift (s : State) (t : Nat) : Nat := (3 + bits (s.termW t 0) 13 8) / 9

/-- Which V octet the feed frame begins with, 0 for V1: H4 of a VC gives the phase of the VC that follows it (G.707),
and mf_phase the H4 of the frames whose number is divisible by 4 (R73). -/
def State.feedV (s : State) (t : Nat) : Nat :=
  let w := s.termW t 0
  let ph := if bits w 25 20 < 48 then s.fget (F.ltmAuStat_mfPhase (bits w 25 20) (bits w 19 14)) else 0
  ((s.clock.frame - 1).toNat + ph + 3 + 8 - s.feedShift t) % 4

/-- The TU interpreter of a termination runs: its lane has no defect and its AU is in NORM (R72). -/
def State.tuLive (s : State) (t : Nat) : Bool :=
  let w := s.termW t 0
  let l := bits w 25 20
  l < 48 && s.isSdh l && !s.laneDefect l && s.ptrState l (bits w 19 14) = 0

/-- V1 and V2 for the interpreter. A justification waits for V3; a new offset acts from V2 on. `top` is the largest
offset. -/
def TuSt.pointer (x : TuSt) (top : Nat) (h : BitVec 16) : TuSt :=
  let act := if x.state = 0 then x.ptr.asks x.offset top true h else .keep
  let x := { x with ptr := x.ptr.count top true h (act ≠ .keep), just := 0 }
  match act with
  | .keep => x
  | .increment => { x with just := 1 }
  | .decrement => { x with just := -1 }
  | .take p => { x with offset := p }

/-- What an octet of the VC gives: the VC after it, its data bits and the V5 errors found. -/
structure VcStep where
  tu   : TuSt
  data : List Bool
  errs : Nat
  deriving DecidableEq, Repr

/-- Octet `i` of a VC of four times `m` octets: V5 first; in each quarter an overhead octet, an octet of justification
control, and data (G.707). C1 and C2 decide by majority whether S1 and S2 are data. -/
def VcStep.octet (t1 : Bool) (m i : Nat) (q : VcStep) (o : Octet) : VcStep :=
  let x := q.tu
  let j := i / m
  let k := i % m
  if i = 0 then
    let got := o.extractLsb' 6 2
    let errs := match x.bip with
      | some b => b2n (b.getLsbD 0 != got.getLsbD 0) + b2n (b.getLsbD 1 != got.getLsbD 1)
      | none => 0
    { q with tu := { x with bip := some (bip2 o), c1 := 0, c2 := 0 }, errs := q.errs + errs }
  else
    let x := { x with bip := x.bip.map (· ^^^ bip2 o) }
    let x := if k = 1 && 1 ≤ j then { x with c1 := x.c1 + b2n (o.getLsbD 7), c2 := x.c2 + b2n (o.getLsbD 6) } else x
    let s1 := x.c1 < 2
    let s2 := x.c2 < 2
    let data :=
      if k = 0 then []
      else if k = 1 then
        if j < 3 then (if t1 then [o.getLsbD 1] else [])
        else if t1 then (if s1 then [o.getLsbD 2] else []) ++ (if s2 then [o.getLsbD 1] else [])
        else (if s1 then [o.getLsbD 0] else [])
      else if t1 then octBits [o]
      else if k = 34 then []
      else if j = 3 && k = 2 && !s2 then (octBits [o]).drop 1
      else octBits [o]
    { q with tu := x, data := q.data ++ data }

/-- The octets of the VC in a feed frame with their places in it: 0 is V5. A decrement puts one into V3, an increment
leaves out the one after it. -/
def TuSt.places (x : TuSt) (m v : Nat) (os : List Octet) : List (Nat × Octet) :=
  let j := if v = 2 then x.just else 0
  let at_ := fun i => ((v + 3) % 4 * m + i + 4 * m - x.offset) % (4 * m)
  let body := ((List.range m).filter fun i => !(j = 1 && i = 0)).map fun i => (at_ i, os.getD (i + 1) 0)
  if j = -1 then ((m - 1 + 4 * m - x.offset) % (4 * m), os.getD 0 0) :: body else body

/-- A feed frame of a TU: pointer, justification, and the bits of the signal. -/
def TuSt.frame (x : TuSt) (t1 live : Bool) (m v : Nat) (os : List Octet) : VcStep :=
  let o := os.getD 0 0
  let x :=
    if v = 0 then { x with v1 := o }
    else if v = 1 then (if live then x.pointer (4 * m - 1) (x.v1 ++ o) else { x with just := 0 })
    else if v = 2 then { x with offset := (((x.offset : Int) + x.just) % (4 * m : Nat)).toNat }
    else x
  (x.places m v os).foldl (fun q p => q.octet t1 m p.1 p.2) ⟨x, [], 0⟩

/-! ### The search for alignment (R89) -/

/-- Bits of a frame. -/
def State.frameBits (s : State) (t : Nat) : Nat := if s.termT1 t then 193 else 256

/-- Frames of the multiframe: 16 of an E1, 12 of SF, 24 of ESF (R92). -/
def State.mfLen (s : State) (t : Nat) : Nat :=
  if s.termT1 t then (if bit (s.termW t 0) 28 then 24 else 12) else 16

/-- Frames over which a search looks. -/
def State.huntLen (s : State) (t : Nat) : Nat := if s.termT1 t then (if bit (s.termW t 0) 28 then 49 else 36) else 4

/-- FAS at bit `o` of a list. -/
def fasAt (l : List Bool) (o : Nat) : Bool := (l.drop (o + 1)).take 7 = [false, false, true, true, false, true, true]

/-- FAS in frame n, bit 2 of NFAS in frame n + 1, FAS in frame n + 2. -/
def e1Found (l : List Bool) (o : Nat) : Bool :=
  o + 520 ≤ l.length && fasAt l o && l.getD (o + 257) false && fasAt l (o + 512)

/-- Ft and Fs over 24 frames, the first being frame `m` of an SF. -/
def sfFound (l : List Bool) (o m : Nat) : Bool :=
  o + 193 * 23 < l.length && (List.range 24).all fun i => l.getD (o + 193 * i) false = sfBit ((m + i) % 12)

/-- CRC-6 of the 24 frames that begin at bit `o`, every F bit taken as 1 (G.704). -/
def esfCrc (l : List Bool) (o : Nat) : BitVec 6 :=
  (List.range (193 * 24)).foldl (fun st i => crcBit 6 3 st (i % 193 = 0 || l.getD (o + i) false)) 0

/-- FPS over two ESFs, and the CRC-6 in the second, which covers the first. -/
def esfFound (l : List Bool) (o : Nat) : Bool :=
  let f := fun i => l.getD (o + 193 * i) false
  o + 193 * 47 < l.length && ((List.range 12).all fun i => f (4 * i + 3) = fpsBit ((4 * i + 3) % 24)) &&
    (List.range 6).all fun i => f (24 + 4 * i + 1) = (esfCrc l o).getLsbD (5 - i)

/-- The alignment that a search has found: the bit at which a frame begins, and the position of that frame in the SF or
ESF. A byte-synchronous feed is looked at where its sender puts the frame (R88). -/
def State.framesFound (s : State) (t : Nat) : Option (Nat × Nat) :=
  let l := (s.term t).rx.hist
  let n := s.frameBits t
  let places := if bit (s.termW t 0) 29 then (List.range (l.length / n)).map (n * ·) else List.range l.length
  if !s.termT1 t then (places.find? (e1Found l)).map fun o => (o, 0)
  else if bit (s.termW t 0) 28 then (places.find? (esfFound l)).map fun o => (o, 0)
  else (places.flatMap fun o => (List.range 12).map fun m => (o, m)).find? fun q => sfFound l q.1 q.2

/-! ### A frame of the signal (R89, R169) -/

/-- What a frame showed that is counted or ends a defect. -/
structure FrameNews where
  fasErr : Bool
  crcErr : Bool
  eBit   : Bool
  mfas   : Bool
  cas    : Bool
  deriving DecidableEq, Repr

/-- A received signalling value of a channel, plus 16. -/
def RxSt.signal (x : RxSt) (c v : Nat) : RxSt :=
  { x with sigPrev := x.sigPrev.put 0 c (x.sigNow.get 0 c), sigNow := x.sigNow.put 0 c (16 + v) }

/-- A run of indications that are on, or off. -/
def RxSt.rai (x : RxSt) (on : Bool) : RxSt :=
  { x with raiOn := if on then x.raiOn + 1 else 0, raiOff := if on then 0 else x.raiOff + 1 }

/-- The bits of a feed frame for the AIS periods of `n` bits. -/
def RxSt.aisCount (n : Nat) (x : RxSt) : List Bool → RxSt
  | [] => x
  | b :: r =>
    let x := { x with aisBits := x.aisBits + 1, aisZeros := x.aisZeros + b2n (!b) }
    RxSt.aisCount n
      (if x.aisBits < n then x
       else
        let low := x.aisZeros < 3
        { x with
          aisBits := 0, aisZeros := 0, aisLow := if low then x.aisLow + 1 else 0
          aisOk := if low then 0 else x.aisOk + 1 }) r

/-- MFAS in the first bits of the NFAS frames 1, 3, ... 11, newest first. -/
def mfasBits (l : List Bool) : Bool := l.take 6 = [true, true, false, true, false, false]

/-- The end of a CRC block: compared with the check bits that came in the next one. -/
def RxSt.endBlock (x : RxSt) (n : Nat) : RxSt × Bool :=
  let bad := x.crcPrev.any fun c => x.crcBits ≠ (List.range n).map fun i => c.getLsbD (n - 1 - i)
  let err := b2n bad
  let full := x.blocks + 1 ≥ 1000
  ({ x with
      crcPrev := x.crcAcc, crcAcc := some 0, crcBits := []
      blocks := if full then 0 else x.blocks + 1, errored := if full then 0 else x.errored + err }, bad)

/-- The CRC-4 multiframe of an E1: alignment, blocks and E-bits. -/
def RxSt.crc4 (x : RxSt) (os : List Octet) : RxSt × FrameNews :=
  let o := os.getD 0 0
  let b := o.getLsbD 7
  let nfas := if x.fas then x.nfas else (b :: x.nfas).take 14
  let mfas := !x.fas && mfasBits nfas && mfasBits (nfas.drop 8)
  let was := x.mfPos.map fun p => (p + 1) % 16
  let fresh := mfas && was ≠ some 11
  let pos := if mfas then some 11 else was
  let x := { x with nfas := nfas, mfPos := pos }
  let x := if fresh then { x with crcAcc := none, crcPrev := none, crcBits := [] } else x
  match pos with
  | none => (x, ⟨false, false, false, mfas, false⟩)
  | some p =>
    let os := (if x.fas then o &&& 0x7F else o) :: os.drop 1
    let x := { x with
      crcAcc := x.crcAcc.map fun c => os.foldl (crcOctet 4 3) c
      crcBits := if p % 2 = 0 then x.crcBits ++ [b] else x.crcBits }
    let q := if p % 8 = 7 then x.endBlock 4 else (x, false)
    (q.1, ⟨false, q.2, (p = 13 || p = 15) && !b, mfas, false⟩)

/-- TS16 of an E1 with signalling: the CAS multiframe, its alarm, and the values of two timeslots. -/
def RxSt.ts16Frame (x : RxSt) (o : Octet) : RxSt × Bool :=
  let mfas := o.toNat / 16 = 0
  let found := x.casPos = none && mfas && x.ts16 ≠ 0
  let x := { x with zeroTs16 := if o = 0 then x.zeroTs16 + 1 else 0, ts16 := o }
  let x := if found then { x with casPos := some 0, casWait := 0, casBad := 0 }
    else { x with casPos := x.casPos.map fun p => (p + 1) % 16, casWait := x.casWait + b2n (x.casPos = none) }
  match x.casPos with
  | none => (x, false)
  | some 0 =>
    let on := o.getLsbD 2
    ({ x with
        casBad := if mfas then 0 else x.casBad + 1
        mraiOn := if on then x.mraiOn + 1 else 0, mraiOff := if on then 0 else x.mraiOff + 1 }, found)
  | some m => ((x.signal m (o.toNat / 16)).signal (m + 16) (o.toNat % 16), false)

/-- A frame of an E1 at the present alignment (R89). -/
def RxSt.e1Frame (x : RxSt) (mframe sig : Bool) (os : List Octet) : RxSt × FrameNews :=
  let o := os.getD 0 0
  let bad := x.fas && o &&& 0x7F ≠ 0x1B
  let x := if x.fas then { x with fasBad := if bad then x.fasBad + 1 else 0 } else x.rai (o.getLsbD 5)
  let q := if mframe then x.crc4 os else (x, ⟨false, false, false, false, false⟩)
  let r := if sig then q.1.ts16Frame (os.getD 16 0) else (q.1, false)
  ({ r.1 with fas := !x.fas }, { q.2 with fasErr := bad, cas := r.2 })

/-- The robbed bits of frame `m` of an SF or ESF; a multiframe's value is complete with its last ones (R169). -/
def RxSt.robbed (x : RxSt) (esf : Bool) (m : Nat) (os : List Octet) : RxSt :=
  if m % 6 ≠ 5 then x
  else
    (List.range 24).foldl (fun x c =>
      let v := 2 * x.sigPart.get 0 c + b2n ((os.getD c 0).getLsbD 0)
      if m = 23 then { x.signal c v with sigPart := x.sigPart.put 0 c 0 }
      else if !esf && m = 11 then { x.signal c (5 * v) with sigPart := x.sigPart.put 0 c 0 }
      else { x with sigPart := x.sigPart.put 0 c v }) x

/-- An interval of the data link that holds the pattern 0xFF00, wherever it begins. -/
def linkAlarm (l : List Bool) : Bool :=
  (List.range 16).any fun i => (l.drop i ++ l.take i) = List.replicate 8 true ++ List.replicate 8 false

/-- A bit of the data link. -/
def RxSt.linkBit (x : RxSt) (b : Bool) : RxSt :=
  let l := x.link ++ [b]
  if l.length < 16 then { x with link := l }
  else { x with link := [], linkHits := (linkAlarm l :: x.linkHits).take 3 }

/-- A frame of a T1 at the present alignment (R89): its F bit, then 24 octets. -/
def RxSt.t1Frame (x : RxSt) (esf sig : Bool) (f : Bool) (os : List Octet) : RxSt × FrameNews :=
  let m := ((x.mfPos.getD 0) + 1) % (if esf then 24 else 12)
  let ft := fun (x : RxSt) (good : Bool) => { x with ftBad := ((!good) :: x.ftBad).take 4 }
  let x := { x with mfPos := some m }
  let x := if sig then x.robbed esf m os else x
  if !esf then
    let x := if m % 2 = 0 then ft x (f = sfBit m) else x
    (x.rai (os.all fun o => !o.getLsbD 6), ⟨false, false, false, false, false⟩)
  else
    let x := { x with crcAcc := x.crcAcc.map fun c => os.foldl (crcOctet 6 3) (crcBit 6 3 c true) }
    let x := if m % 4 = 3 then ft x (f = fpsBit m)
      else if m % 4 = 1 then { x with crcBits := x.crcBits ++ [f] } else x.linkBit f
    let q := if m = 23 then x.endBlock 6 else (x, false)
    (q.1, ⟨false, q.2, false, false, false⟩)

/-- Where a frame that has been taken stands in its multiframe (R92). -/
def RxSt.position (x : RxSt) (t1 : Bool) : Nat := (if t1 then x.mfPos else x.casPos).getD 0

end Sys2Proof.Machine
end

