-- ==== Sys2Proof/Machine/Terminations.lean ====
section
/-! DEFINITION. The E1/T1 terminations: entries (R85, R96), framing results and term_fail (R88-R90), the
slip buffer and delivery (R91, R92), egress (R93-R95), accepted signalling (R169), summaries (R97). The
line formats that the spec takes from G.704, G.706 and G.707 are PRESUMED (log entry 23). -/

namespace Sys2Proof.Machine

/-! ### Status and its summaries (R90, R96, R97) -/

/-- Sets a bit of status word 0. While a write of the entry waits for the frame mark, the change is kept, to be applied
after it (R96). -/
def State.setTermFlag (s : State) (t b : Nat) (on : Bool) : State :=
  let s := s.setTermStat t 0 (setBits (s.termStat t 0) b b (b2n on))
  if (s.term t).dirty && b ≠ stTermFail then s.onTerm t fun x => { x with since := x.since ++ [(b, on)] } else s

/-- A bit of a summary array. -/
def summaryBit (base t : Nat) : Fld := ⟨base + 4 * (t / 32), t % 32, t % 32⟩

/-- A sticky summary bit is set, which raises TRB_DEFECT. -/
def State.stickTerm (s : State) (t : Nat) : State :=
  (s.fbit (summaryBit (Reg.trbStickySum 0) t) true).raise Ev.trbDefect (s.termPath t 2) t

/-- term_fail as its parts stand (R90). -/
def State.termFailNow (s : State) (t : Nat) : Bool :=
  s.termFlag t stFeedCon || s.termFlag t stTuFail || s.termFlag t stAis || s.termFlag t stOof ||
    (!s.termT1 t && s.termFlag t stMfLoss && bit (s.termW t 0) 28 && !s.termFlag t stCrc4Off) ||
    !(s.term t).centred

/-- term_fail and what shows it: the status word, the delivery path, the summaries. -/
def State.judgeTerm (s : State) (t : Nat) : State :=
  if !s.termOn t then s
  else
    let was := s.termFlag t stTermFail
    let now := s.termFailNow t
    let s := (s.setTermFlag t stTermFail now).setDefect (s.termPath t 2) 22 now
    let s := s.fbit (summaryBit (Reg.trbFailSum 0) t) now
    if now && !was then s.stickTerm t else s

/-- tu_fail of an asynchronously mapped feed (R88). -/
def State.tuFailNow (s : State) (t : Nat) : Bool :=
  let w := s.termW t 0
  let l := bits w 25 20
  !bit w 29 && ((s.term t).tu.state ≠ 0 || l ≥ 48 || !s.isSdh l || s.ptrState l (bits w 19 14) ≠ 0)

/-- The V-lanes that a path of a termination lies on: its lane, or those of its octet addresses. -/
def State.pathVLanes (s : State) (p : Nat) : List Nat :=
  match (s.path p).entry with
  | none => []
  | some (w0, w1, w2) =>
    let g := PathGeo.ofWords w0 w1 w2
    if 8 ≤ g.typ && g.typ ≤ 10 then ((s.grains g).map addrV).eraseDups else [g.lane - 48]

/-- One of the four paths of a termination lies on a looped V-lane: feed_con is set (R218). -/
def State.termLooped (s : State) (t : Nat) : Bool :=
  [1, 2, 3, 4].any fun w => (s.pathVLanes (s.termPath t w)).any s.looped

/-- tu_fail follows the interpreter and the AU; then term_fail. -/
def State.refreshTerm (s : State) (t : Nat) : State :=
  if !s.termOn t then s
  else
    let s := s.setTermFlag t stTuFail (s.tuFailNow t)
    let s := if s.termLooped t then s.setTermFlag t stFeedCon true else s
    s.judgeTerm t

/-- Every termination whose multiframe phase comes from a lane. -/
def State.refreshTerms (s : State) (l : Nat) : State :=
  (s.termsOn.filter fun t => bits (s.termW t 0) 25 20 = l).foldl State.refreshTerm s

/-! ### Entries (R85, R96) -/

/-- The geometry of a path as its entry is written, if it is valid and in range (R58). -/
def State.writtenGeo (s : State) (p : Nat) : Option PathGeo :=
  let w0 := s.pathWord p 0
  let g := PathGeo.ofWords w0 (s.pathWord p 1) (s.pathWord p 2)
  if bit w0 31 && typeOk g.typ && s.inRange g then some g else none

/-- A path that a termination may name: of the type, on a V-lane (`lane`), and on no looped V-lane. -/
def State.termPathOk (s : State) (p typ : Nat) (onLane : Bool) : Bool :=
  match s.writtenGeo p with
  | none => false
  | some g =>
    g.typ = typ && (if onLane then 48 ≤ g.lane && !s.looped (g.lane - 48)
      else (s.grains g).all fun a => !s.looped (addrV a))

/-- Delivery addresses, or emit columns with their V-lane, of the entry whose words are given. -/
def State.entryDlv (s : State) (w2 : W32) : List Nat :=
  match s.writtenGeo (bits w2 17 0) with
  | some g => s.grains g
  | none => []

def State.entryEmit (s : State) (w4 : W32) : List (Nat × Nat) :=
  match s.writtenGeo (bits w4 17 0) with
  | some g => (s.grains g).map fun c => (g.lane, c)
  | none => []

/-- Terminations whose entry has enable = 1, but for `t`. -/
def State.othersEnabled (s : State) (t : Nat) : List Nat :=
  (s.termList.map (·.1)).filter fun u => u ≠ t && bit (s.memWord (termCfgAddr u 0)) 31

/-- The checks of R85 and R218 on an entry about to be enabled. -/
def State.termCheck (s : State) (t : Nat) (w : Nat → W32) : Bool :=
  let t1 := bit (w 0) 30
  let col := if t1 then 7 else 6
  let oct := if t1 then 9 else 8
  let p := fun i => bits (w i) 17 0
  s.termPathOk (p 1) col true && s.termPathOk (p 2) oct false && s.termPathOk (p 3) oct false &&
    s.termPathOk (p 4) col true &&
    (s.othersEnabled t).all fun u =>
      (s.entryDlv (s.memWord (termCfgAddr u 2))).all (fun a => !(s.entryDlv (w 2)).contains a) &&
        (s.entryEmit (s.memWord (termCfgAddr u 4))).all fun a => !(s.entryEmit (w 4)).contains a

/-- TERMINATION_ENTRY_WRITE (R85, R96). -/
def State.termWrite (s : State) (t i : Nat) (be : BitVec 4) (v : W32) : State :=
  let a := termCfgAddr t i
  let m := termRw i &&& beMask be
  let old := s.memWord a
  let new := (old &&& ~~~m) ||| (v &&& m)
  let on := bit (s.memWord (termCfgAddr t 0)) 31
  let store := fun (s : State) =>
    ((s.mend a be).setWord a new).onTerm t fun x => { x with dirty := true, since := [] }
  if i ≥ 6 then s
  else if on then
    let keep : W32 := if i = 0 then 0x7FFFFFFF else 0xFFFFFFFF
    if (new &&& keep) ≠ (old &&& keep) then s.raise Ev.trbCfgReject t else store s
  else if i = 0 && bit new 31 then
    if s.termCheck t (fun k => if k = 0 then new else s.memWord (termCfgAddr t k)) then store s
    else s.raise Ev.trbCfgReject t
  else store s

/-- An entry written since the last frame mark takes effect, and then the changes of its status since the write (R96).
A termination starts out of frame, with its slip buffer not centred; disabling one clears status word 0 and its bit of
TRB_FAIL_SUM, and term_fail of its delivery path (log entry 83). -/
def State.applyTerm (s : State) (t : Nat) : State :=
  let on := bit (s.memWord (termCfgAddr t 0)) 31
  let ws := (List.range 6).map fun i => s.memWord (termCfgAddr t i)
  let x := s.term t
  if on && x.cfg = ws then s.onTerm t fun x => { x with dirty := false, since := [] }
  else
    let s := if x.cfg = [] then s
      else ((s.setDefect (s.termPath t 2) 22 false).setTermStat t 0 0).fbit (summaryBit (Reg.trbFailSum 0) t) false
    let s := s.onTerm t fun _ => { TermSt.init with cfg := if on then ws else [] }
    if on then
      (x.since.foldl (fun s p => s.setTermFlag t p.1 p.2) (s.setTermFlag t stOof true)).refreshTerm t
    else s

def State.applyTerms (s : State) : State :=
  ((s.termList.filter fun q => q.2.dirty).map (·.1)).foldl State.applyTerm s

/-! ### Ingress (R88-R91) -/

/-- A 16-bit count in half of status word 1. -/
def State.slipCount (s : State) (t hi : Nat) : State :=
  let w := s.termStat t 1
  s.setTermStat t 1 (setBits w hi (hi - 15) (bits w hi (hi - 15) + 1))

/-- A status counter grows. -/
def State.termCount (s : State) (t w n : Nat) : State :=
  s.setTermStat t w (s.termStat t w + BitVec.ofNat 32 n)

/-- Status word 0 shows the fill in 1/256 frame (R96). -/
def State.showFill (s : State) (t n : Nat) : State :=
  s.setTermStat t 0 (setBits (s.termStat t 0) 20 12 (n * 256 / s.frameBits t))

/-- A controlled slip (R91). -/
def State.slip (s : State) (t : Nat) (delete : Bool) : State :=
  ((s.slipCount t (if delete then 15 else 31)).raise Ev.trbSlip (s.termPath t 2) t (b2n (!delete))).stickTerm t

/-- CRC errors and E-bits count while the framer is in frame and crc4_off is 0 (R89; out of frame none are counted,
nor FAS errors: log entry 84). -/
def State.crcCounted (s : State) (t : Nat) : Bool :=
  !s.termFlag t stOof && bit (s.termW t 0) 28 && !s.termFlag t stCrc4Off

/-- The errors of a frame in frame are counted (R89, R287); alignment found ends mf_loss, crc4_off and cas_loss. -/
def State.frameNews (s : State) (t : Nat) (f : FrameNews) : State :=
  let e1 := !s.termT1 t
  let s := if f.fasErr then s.termCount t 4 1 else s
  let s := if f.crcErr && s.crcCounted t then
      ((s.termCount t 2 1).pmBlocks (s.termPath t 2) 1 0).onTerm t fun x => { x with crcDue := x.crcDue + b2n e1 }
    else s
  let s := if f.eBit && e1 && s.crcCounted t then (s.termCount t 3 1).pmBlocks (s.termPath t 2) 0 1 else s
  let s := if f.mfas then (s.setTermFlag t stMfLoss false).setTermFlag t stCrc4Off false else s
  if f.cas then s.setTermFlag t stCasLoss false else s

/-- The octets of the frame that begins a list of bits, and its F bit. -/
def State.splitFrame (s : State) (t : Nat) (l : List Bool) : Bool × List Octet :=
  if s.termT1 t then (l.headD false, bitsOctets 24 (l.drop 1)) else (false, bitsOctets 32 l)

/-- A frame at the present alignment: in frame it is judged, and it enters the slip buffer. Out of frame the buffer
keeps the last two frames. -/
def State.takeFrame (s : State) (t : Nat) : State :=
  let n := s.frameBits t
  let w := s.termW t 0
  let f := s.splitFrame t (s.term t).rx.bits
  let s := s.onTerm t fun x => { x with rx := { x.rx with bits := x.rx.bits.drop n } }
  if s.termFlag t stOof then s.onTerm t fun x => { x with frames := lastOf 2 (x.frames ++ [(0, f.2)]) }
  else
    let x := (s.term t).rx
    let q := if s.termT1 t then x.t1Frame (bit w 28) (bit w 27) f.1 f.2 else x.e1Frame (bit w 28) (bit w 27) f.2
    let s := s.onTerm t fun y =>
      { y with rx := q.1, frames := y.frames ++ [(q.1.position (s.termT1 t), f.2)] }
    s.frameNews t q.2

/-- The frames that are complete, one after the other. -/
def State.takeFrames (s : State) (t : Nat) : Nat → State
  | 0 => s
  | k + 1 => (s.takeFrame t).takeFrames t k

/-- A write that takes the fill above 1.75 frames: one whole frame is deleted (R91). -/
def State.deleteFrame (s : State) (t : Nat) : State :=
  let n := s.frameBits t
  if !s.termFlag t stOof && 4 * (s.term t).fill > 11 * n then
    (s.slip t true).onTerm t fun x => { x with fill := x.fill - n, frames := x.frames.dropLast }
  else s

/-- The bits of a feed frame go to the framer and into the fill. -/
def State.feedBits (s : State) (t : Nat) (l : List Bool) : State :=
  let n := s.frameBits t
  let cap := s.huntLen t * n
  let oof := s.termFlag t stOof
  let loss := s.termFlag t stMfLoss
  let s := s.onTerm t fun x =>
    { x with
      fill := if oof then x.fill else x.fill + l.length
      rx := RxSt.aisCount (2 * n) { x.rx with
        hist := lastOf cap (x.rx.hist ++ l), bits := x.rx.bits ++ l, run := x.rx.run + 1, aligned := x.rx.aligned + 1
        lossRun := if loss then x.rx.lossRun + 1 else 0 } l }
  (s.takeFrames t ((s.term t).rx.bits.length / n)).deleteFrame t

/-- OOF is declared: the multiframes are lost, and the slip buffer is to be centred anew (R89, R90). -/
def State.termOof (s : State) (t : Nat) : State :=
  if !s.termOn t then s
  else
    let was := s.termFlag t stOof
    ((s.setTermFlag t stOof true).onTerm t fun x =>
      { x with
        centred := false
        rx := { x.rx with
          hunt := false, run := if was then x.rx.run else 0, fasBad := 0, ftBad := [], mfPos := none
          crcAcc := none, crcPrev := none, crcBits := [], casPos := none, casWait := 0 } }).judgeTerm t

/-- The delivery path is shed: the termination stops framing (R324). -/
def State.termShed (s : State) (t : Nat) : Bool := bit (s.pathWord (s.termPath t 2) 3) 21

/-- A byte-synchronous feed frame: the frame at the stated octets, and the in-frame flag (R87, R88). -/
def State.feedSync (s : State) (t : Nat) (os : List Octet) : State :=
  let k := if s.termT1 t then 24 else 32
  let o := os.getD k 0
  let bits := (if s.termT1 t then [o.getLsbD 0] else []) ++ octBits (os.take k)
  let s := s.onTerm t fun x => { x with rx := { x.rx with inFlag := o.getLsbD 7 } }
  (if o.getLsbD 7 then s else s.termOof t).feedBits t bits

/-- An asynchronously mapped feed frame: pointer, V5 errors, and the bits of the VC (R88). -/
def State.feedAsync (s : State) (t : Nat) (os : List Octet) : State :=
  let q := (s.term t).tu.frame (s.termT1 t) (s.tuLive t) (s.tuLen t) (s.feedV t) os
  let s := s.onTerm t fun x => { x with tu := q.tu, reiDue := x.reiDue + b2n (q.errs > 0) }
  (s.termCount t 5 q.errs).feedBits t q.data

/-- TRB_FEED_FRAME: the feed frame captured last is received, once (log entry 85). -/
def State.feedFrame (s : State) (t : Nat) : State :=
  if !s.termOn t || s.termShed t || !s.feedReady t then s
  else
    let f := s.feedOctets t
    let s := s.onTerm t fun x => { x with fedAt := s.clock.frames }
    let s := s.setTermFlag t stFeedCon (f.any (·.2) || s.termLooped t)
    let os := f.map (·.1)
    (if bit (s.termW t 0) 29 then s.feedSync t os else s.feedAsync t os).judgeTerm t

def execTrbFeedFrame (term : TermId) (s : State) : Host.Outcome State Fault Refusal :=
  whenUp s fun s => s.feedFrame term.toNat

/-- FAS errored in 3 consecutive FAS frames, or 2 of 4 consecutive Ft or FPS bits errored (R89). -/
def State.oofDue (s : State) (t : Nat) : Bool :=
  let x := (s.term t).rx
  if s.termT1 t then 2 ≤ (x.ftBad.filter id).length else 3 ≤ x.fasBad

/-- TRB_OOF. -/
def execTrbOof (term : TermId) (s : State) : Host.Outcome State Fault Refusal :=
  whenUp s fun s =>
    if !s.termFlag term.toNat stOof && s.oofDue term.toNat then s.termOof term.toNat else s

/-- The framer may take an alignment: it is out of frame or searches, and a byte-synchronous sender is in frame. -/
def State.termHunts (s : State) (t : Nat) : Bool :=
  let x := (s.term t).rx
  s.termOn t && !s.termShed t && (s.termFlag t stOof || x.hunt) && (!bit (s.termW t 0) 29 || x.inFlag)

/-- TRB_IN_FRAME: frame alignment; the fill is set to 1.0, and the buffer to the frame that it then holds (R91; log
entry 85). term_fail clears at the next delivery. -/
def State.termInFrame (s : State) (t : Nat) : State :=
  match s.framesFound t with
  | none => s
  | some (o, m) =>
    if !s.termHunts t then s
    else
      let n := s.frameBits t
      let t1 := s.termT1 t
      let x := s.term t
      let l := x.rx.hist.drop o
      let k := l.length / n
      let fed := x.fedAt = s.clock.frames
      let pos := fun i => if t1 then (m + i) % s.mfLen t else 0
      let fr := (List.range k).map fun i => (pos i, (s.splitFrame t (l.drop (n * i))).2)
      let s := (s.setTermFlag t stOof false).onTerm t fun x =>
        { x with
          fill := if fed then 2 * n else n, frames := lastOf (if fed then 2 else 1) fr
          rx := { x.rx with
            bits := l.drop (n * k), hunt := false, run := 0, aligned := 0, fas := k % 2 = 0, fasBad := 0, nfas := []
            ftBad := [], mfPos := if t1 then some (pos (k + s.mfLen t - 1)) else none, crcAcc := none
            crcPrev := none, crcBits := [], blocks := 0, errored := 0, casPos := none, casWait := 0
            sigPart := [], link := [], linkHits := [] } }
      s.showFill t n

def execTrbInFrame (term : TermId) (s : State) : Host.Outcome State Fault Refusal :=
  whenUp s fun s => s.termInFrame term.toNat

/-- A status flag of a termination in use, where it may change. -/
def State.termSet (s : State) (t b : Nat) (ok on : Bool) : State :=
  if s.termOn t && ok then (s.setTermFlag t b on).judgeTerm t else s

/-- TRB_LOF_CHANGE: LOF follows 24 frames of OOF, or of frame alignment. -/
def execTrbLofChange (term : TermId) (present : Bool) (s : State) : Host.Outcome State Fault Refusal :=
  whenUp s fun s =>
    let t := term.toNat
    s.termSet t stLof (s.termFlag t stOof = present && 24 ≤ (s.term t).rx.run) present

/-- An E1 with CRC-4. -/
def State.termCrc4 (s : State) (t : Nat) : Bool := !s.termT1 t && bit (s.termW t 0) 28

/-- No multiframe within 8 ms of frame alignment. -/
def State.mfasMissed (s : State) (t : Nat) : Bool :=
  !s.termFlag t stOof && (s.term t).rx.mfPos.isNone && 64 ≤ (s.term t).rx.aligned

/-- TRB_MF_LOSS: no MFAS twice within 8 ms, upon which the frame search restarts, or 915 errored CRC-4 blocks in
1,000. -/
def State.mfLoss (s : State) (t : Nat) : State :=
  let missed := s.mfasMissed t
  let s := s.termSet t stMfLoss (s.termCrc4 t && (missed || 915 ≤ (s.term t).rx.errored)) true
  if s.termOn t && s.termCrc4 t && missed then s.onTerm t fun x => { x with rx := { x.rx with hunt := true } } else s

def execTrbMfLoss (term : TermId) (s : State) : Host.Outcome State Fault Refusal :=
  whenUp s fun s => s.mfLoss term.toNat

/-- TRB_CRC4_OFF: mf_loss has persisted for 400 ms. -/
def execTrbCrc4Off (term : TermId) (s : State) : Host.Outcome State Fault Refusal :=
  whenUp s fun s =>
    let t := term.toNat
    s.termSet t stCrc4Off
      (!s.termT1 t && bit (s.termW t 0) 26 && s.termFlag t stMfLoss && 3200 ≤ (s.term t).rx.lossRun) true

/-- MFAS of TS16 errored in 2 consecutive multiframes, or not found for as long, or TS16 all zeros for 16 frames. -/
def State.casLost (s : State) (t : Nat) : Bool :=
  let x := (s.term t).rx
  2 ≤ x.casBad || 32 ≤ x.casWait || 16 ≤ x.zeroTs16

/-- TRB_CAS_LOSS: the multiframe is searched for anew. -/
def State.casLoss (s : State) (t : Nat) : State :=
  if !s.termT1 t && s.termSig t && s.casLost t then
    (s.termSet t stCasLoss true true).onTerm t fun x =>
      { x with rx := { x.rx with casPos := none, casWait := 0, casBad := 0, zeroTs16 := 0 } }
  else s

def execTrbCasLoss (term : TermId) (s : State) : Host.Outcome State Fault Refusal :=
  whenUp s fun s => s.casLoss term.toNat

/-- TRB_AIS_CHANGE: 2 consecutive periods with fewer than 3 zeros, or with 3 or more. -/
def execTrbAisChange (term : TermId) (present : Bool) (s : State) : Host.Outcome State Fault Refusal :=
  whenUp s fun s =>
    let x := (s.term term.toNat).rx
    s.termSet term.toNat stAis (2 ≤ if present then x.aisLow else x.aisOk) present

/-- The remote alarm has stood, or been absent, for its count (R89). -/
def State.raiDue (s : State) (t : Nat) (present : Bool) : Bool :=
  let x := (s.term t).rx
  let run := if present then x.raiOn else x.raiOff
  if !s.termT1 t then 3 ≤ run
  else if !bit (s.termW t 0) 28 then 255 ≤ run
  else if present then 2 ≤ (x.linkHits.filter id).length
  else x.linkHits.length = 3 && x.linkHits.all (!·)

/-- TRB_RAI_CHANGE: rai, or mrai of an E1 with signalling. -/
def execTrbRaiChange (term : TermId) (multiframe : Bool) (present : Bool) (s : State) :
    Host.Outcome State Fault Refusal :=
  whenUp s fun s =>
    let t := term.toNat
    let x := (s.term t).rx
    if multiframe then
      s.termSet t stMrai (!s.termT1 t && s.termSig t && 3 ≤ if present then x.mraiOn else x.mraiOff) present
    else s.termSet t stRai (s.raiDue t present) present

/-- A channel that has signalling: timeslots 1-15 and 17-31, or channels 0-23 (R156). -/
def State.sigChannel (s : State) (t c : Nat) : Bool :=
  if s.termT1 t then c ≤ 23 else c ≠ 0 && c ≠ 16

/-- CAS_ACCEPT: the value received in 2 consecutive multiframes; held while term_fail or, for an E1, cas_loss is set
(R169). -/
def State.casAccept (s : State) (t c : Nat) : State :=
  let x := (s.term t).rx
  let v := x.sigNow.get 0 c
  if s.termSig t && s.sigChannel t c && !s.termFlag t stTermFail &&
      !(!s.termT1 t && s.termFlag t stCasLoss) && v ≠ 0 && x.sigPrev.get 0 c = v then
    s.onTerm t fun y => { y with cas := y.cas.put 0 c v }
  else s

def execCasAccept (term : TermId) (chan : BitVec 5) (s : State) : Host.Outcome State Fault Refusal :=
  whenUp s fun s => s.casAccept term.toNat chan.toNat

/-! ### Delivery (R92) -/

/-- Octets written at addresses of a store frame. -/
def State.putStore (s : State) (fr : Nat) : List (Nat × Octet) → State
  | [] => s
  | (a, o) :: xs =>
    if a < octetAddrs then ((s.mend (storeAddr fr a) 0xF).putByte (storeAddr fr a) o).putStore fr xs
    else s.putStore fr xs

/-- Sets the flag of a captured block. -/
def Capture.setFlag (k : Capture) (b : Nat) : Capture :=
  { k with blocks := setMember k.blocks b (!k.con) }

/-- The blocks that hold delivery positions carry the condition of the delivery path. -/
def State.flagBlocks (s : State) (fr : Nat) : List Nat → State
  | [] => s
  | a :: as =>
    let key := captureKey fr (addrV a) (addrRow a)
    let k := (s.captures.get Capture.none key).setFlag (addrCol a / 32)
    { s with captures := s.captures.put Capture.none key k }.flagBlocks fr as

/-- A read of the slip buffer: one that would take the fill below 0.25 frames repeats the frame (R91). -/
def State.readSlip (s : State) (t : Nat) : State :=
  let n := s.frameBits t
  if 4 * (s.term t).fill < 5 * n then (s.slip t false).showFill t (s.term t).fill
  else
    (s.onTerm t fun x => { x with fill := x.fill - n, frames := x.frames.drop 1 }).showFill t ((s.term t).fill - n)

/-- One termination delivers the head of its slip buffer into the store frame now captured; the buffer counts as
centred from the first delivery in frame. While the buffer holds no frame 0xFF is delivered (log entry 86). -/
def State.deliver (s : State) (t : Nat) : State :=
  let fr := storeFrame s.clock.frames
  let oof := s.termFlag t stOof
  let s := if oof then s else (s.onTerm t fun x => { x with centred := true }).judgeTerm t
  let head := (s.term t).frames.headD (0, [])
  let s := s.onTerm t fun x => { x with outPos := head.1 }
  let s := if oof then s else s.readSlip t
  let as := (s.dlvAddrs t).filter fun a => !s.looped (addrV a)
  let s := s.putStore fr (List.zip as (head.2 ++ List.replicate 32 0xFF))
  if s.cond (s.termPath t 2) then s.flagBlocks fr as else s

/-- TRB_DELIVERY: in row 8 of the capture. -/
def State.deliverAll (s : State) : State := s.termsOn.foldl State.deliver s

/-! ### Egress (R93-R95) -/

/-- Timeslot 0 of frame `m` of an E1: FAS in even frames, NFAS in odd ones (R93). -/
def e1Ts0 (mframe : Bool) (m : Nat) (crc : BitVec 6) (alarm eErr : Bool) : Octet :=
  if m % 2 = 0 then
    let b := !mframe || crc.getLsbD (3 - m / 2 % 4)
    BitVec.ofNat 8 (128 * b2n b + 0x1B)
  else
    let mfas := m = 5 || m = 9 || m = 11
    let b := !mframe || (if m ≥ 13 then !eErr else mfas)
    BitVec.ofNat 8 (128 * b2n b + 0x5F + 32 * b2n alarm)

/-- F bit of frame `m` of an ESF: data link, CRC-6, FPS. -/
def esfBit (m : Nat) (crc : BitVec 6) (link : Bool) : Bool :=
  if m % 2 = 0 then link
  else if m % 4 = 1 then crc.getLsbD (5 - m / 4)
  else fpsBit m

/-- An octet as it left in the frame that has ended: what its engine built, under the masks of the frame and of
its row and the parity errors of the row (R17, R20, R122, R386, R388). -/
def State.leftCell (s : State) (c : FrameCtx) (a : Nat) : Cell :=
  if c.bad.contains a then badCell s.octSeq
  else
    let x := s.octCell c (addrRow a) a
    if c.mask || c.conRows.contains (addrRow a) then x.mark else x

/-- Octets of the return path as they left in the frame that has ended, with the CON of their slot words
(R95). -/
def State.retCells (s : State) (t : Nat) : List Cell :=
  let one := fun a =>
    let d := 2 * addrV a + addrCol a / 18432
    match (s.octEngine d).run with
    | some c => if a < octetAddrs && !s.looped (addrV a) then s.leftCell c a else badCell false
    | none => badCell false
  (s.pathGrains (s.termPath t 3)).map fun a =>
    let x := one a
    let y := one (if a % 2 = 0 then a + 1 else a - 1)
    { x with con := x.con || y.con }

/-- A return octet as sent: 0xFF with CON. -/
def sentOctet (c : Cell) : Octet := if c.con then 0xFF else c.octet

/-- OOF or ais at the termination's ingress, which the egress alarm reports. -/
def State.termAlarm (s : State) (t : Nat) : Bool := s.termFlag t stOof || s.termFlag t stAis

/-- The 32 octets of an E1 frame (R93). -/
def State.e1Frame (s : State) (t : Nat) (ret : List Cell) : List Octet :=
  let x := s.term t
  let w0 := s.termW t 0
  let ts := fun i => sentOctet (ret.getD i ⟨0xFF, true, false⟩)
  (List.range 32).map fun i =>
    if i = 0 then e1Ts0 (bit w0 28) x.txPos x.crcSend (s.termAlarm t) (x.crcDue > 0)
    else if i = 16 && bit w0 27 && x.txPos = 0 then
      BitVec.ofNat 8 (0x0B + 4 * b2n (s.termFlag t stCasLoss))
    else ts i

/-- The 24 octets and the F bit of a T1 frame (R93). -/
def State.t1Frame (s : State) (t : Nat) (ret : List Cell) : List Octet × Bool :=
  let x := s.term t
  let esf := bit (s.termW t 0) 28
  let alarm := s.termAlarm t
  let link := !alarm || s.clock.frame.toNat / 2 % 16 < 8
  let o := fun i =>
    let v := sentOctet (ret.getD i ⟨0xFF, true, false⟩)
    if alarm && !esf then v &&& 0xBF else v
  ((List.range 24).map o, if esf then esfBit x.txPos x.crcSend link else sfBit x.txPos)

/-- The CRC register after a frame: CRC-4 takes the check bits as 0, CRC-6 every F bit as 1 (G.704). -/
def State.frameCrc (s : State) (t : Nat) (os : List Octet) : BitVec 6 :=
  let x := s.term t
  if s.termT1 t then os.foldl (crcOctet 6 3) (crcBit 6 3 x.crcAcc true)
  else
    let os := match os with
      | o :: r => (if x.txPos % 2 = 0 then o &&& 0x7F else o) :: r
      | [] => []
    os.foldl (crcOctet 4 3) x.crcAcc

/-- V5 (R94). -/
def v5Octet (bip : BitVec 2) (rei rdi : Bool) : Octet :=
  BitVec.ofNat 8 (64 * bip.toNat + 32 * b2n rei + 4 + b2n rdi)

/-- The multiframe position of the TU frame that carries `V1` as 0 (R94). -/
def State.tuPos (s : State) (t : Nat) : Nat := (s.clock.frame.toNat + 4 - bits (s.termW t 0) 3 2) % 4

/-- The VC octets that follow the V octet in TU frame `k` (0 the frame of V1): the pointer offset is
0, so V5 follows V2; nominal justification, S2 carrying data. -/
def vcOctets (t1 : Bool) (k : Nat) (v5 : Octet) (os : List Octet) (fbit : Bool) : List Octet :=
  let oh := if k = 1 then v5 else 0
  let f : Nat := if t1 then 2 * b2n fbit else 0
  let ctl := if k = 1 then f else 0x80 + f
  [oh, BitVec.ofNat 8 ctl] ++ os ++ (if t1 then [] else [0])

/-- V1 to V4 with pointer offset 0. -/
def vOctet (t1 : Bool) (k : Nat) : Octet := if k = 0 then (if t1 then 0x6C else 0x68) else 0

/-- RDI of V5: rdi_en and ais or lop of rdi_path. -/
def State.termRdi (s : State) (t : Nat) : Bool :=
  let w := s.termW t 5
  let p3 := s.pathWord (bits w 17 0) 3
  bit w 31 && (bit p3 30 || bit p3 29)

/-- TRB_EGRESS_BUILD (R93): the emit octets of the frame that begins, from the return octets of the
frame that has ended. -/
def State.buildEgress (s : State) (t : Nat) : State :=
  let x := s.term t
  let w0 := s.termW t 0
  let t1 := s.termT1 t
  let ret := s.retCells t
  let body := if t1 then ret else ret.drop 1
  let allCon := (body.all (·.con) && body ≠ []) || s.termShed t
  let tf := s.t1Frame t ret
  let os := if t1 then tf.1 else s.e1Frame t ret
  let fb := t1 && tf.2
  let acc := s.frameCrc t os
  let blockEnd := x.txPos + 1 = s.mfLen t || (!t1 && x.txPos = 7)
  let eSent := !t1 && bit w0 28 && (x.txPos = 13 || x.txPos = 15) && x.crcDue > 0
  let k := s.tuPos t
  let v5 := v5Octet x.bipAcc (x.reiDue > 0) (s.termRdi t)
  let vc := vcOctets t1 k v5 os fb
  let bip := vc.foldl (fun b o => b ^^^ bip2 o) (if k = 1 then 0 else x.bipAcc)
  let cells : List Octet :=
    if bit w0 29 then
      if t1 then os ++ [BitVec.ofNat 8 (128 + b2n fb), 0, 0] else os ++ [0x80, 0, 0, 0]
    else vOctet t1 k :: vc
  s.onTerm t fun x =>
    { x with
      emitPrev := x.emit
      emit := cells.map fun o => ⟨o, false, false⟩
      emitCon := allCon
      txPos := (x.txPos + 1) % s.mfLen t
      crcSend := if blockEnd then acc else x.crcSend
      crcAcc := if blockEnd then 0 else acc
      crcDue := x.crcDue - b2n eSent
      bipAcc := bip
      bipSend := if k = 1 then x.bipAcc else x.bipSend
      reiDue := if k = 1 && x.reiDue > 0 then x.reiDue - 1 else x.reiDue }

def State.buildEgressAll (s : State) : State := s.termsOn.foldl State.buildEgress s

/-- CASX of the frame that begins reads the signalling accepted by now (R170). -/
def State.latchCas (s : State) : State :=
  s.termsOn.foldl (fun s t => s.onTerm t fun x => { x with casNow := x.cas }) s

/-- TRB_ACTIVE: enabled terminations (R97). -/
def State.trbActive (s : State) : Nat := s.termsOn.length

end Sys2Proof.Machine
end

