-- ==== Sys2Proof/Machine/Egress.lean ====
section
/-! DEFINITION. What leaves: output rows of the column plane with their masks (R17, R20, R41, R103, R108,
R112, R123, R202), held words (R201), the overhead of Amenamin rows (R48), SDH egress (R77-R82), what
a lane transmits in each stage (R276), capture of V-input rows (R23), loop-back rows (R218) and
V-output rows (R110, R111). -/

namespace Sys2Proof.Machine

/-! ### Masks -/

/-- A droop of VDD_CORE or VDD_SRAM, or the row period after it clears (R388). -/
def State.drooping (s : State) : Bool := bits (s.rd Reg.fltStat) 25 24 ≠ 0 || s.power.droopTail > 0

/-- Bit 0 of the number of the frame of emission (R44). -/
def State.seqNow (s : State) : Bool := s.clock.frame.getLsbD 0

/-- A row of one fill pattern, `n` columns wide. -/
def fillRow (v : W32) (n : Nat) (seq : Bool) : Row :=
  if fillOctet v 0 = fillOctet v 1 then ⟨fillCell v 0 seq, []⟩
  else ⟨fillCell v 0 seq,
    ((List.range n).filter (fun c => c % 2 = 1)).map fun c => (c, fillCell v c seq)⟩

/-! ### The output row of a column destination -/

/-- A position of the emission buffer: a SELC commits the side of its path as it stands, and a held
word stands in for one with CON while a hold window is open (R108, R131, R202). -/
def State.emitSlot (s : State) (d pos : Nat) : Slot → State × Cell
  | .one x => (s, x)
  | .two path w p =>
    let k := path.toNat
    let s := s.notePathBad false k
    let x := if s.committedSide k then p else w
    let y := if s.holds k && x.con then
        match s.heldCol.find? (·.1 = d * 65536 + pos) with
        | some (_, o) => ⟨o, false, x.seq⟩
        | none => x
      else x
    (s.noteWindow k x.con, y)

/-- Every written position of the emission buffer. -/
def State.emitSlots (s : State) (d : Nat) : Sparse Slot → Row → State × Row
  | [], r => (s, r)
  | (pos, x) :: xs, r =>
    let q := s.emitSlot d pos x
    q.1.emitSlots d xs (r.set pos q.2)

/-- The row that an engine built, before masks: lost (R17), substituted (R123), or its buffer over
fill pattern 1 (R103, R112). -/
def State.rawRow (s : State) (d : Nat) (c : RowCtx) : State × Row :=
  let n := s.payCols d
  let fill := fun p => fillRow (s.latched.colFill.get 0 p) n s.seqNow
  if c.lost then (s, Row.bad s.seqNow)
  else if c.subst then (s, fill 0)
  else s.emitSlots d c.buf (fill 1)

/-- The lane of a destination carries CON in the rows of an alignment step (R224, R262). -/
def State.stepMask (s : State) (d : Nat) : Bool := d < 48 && s.clock.stepCon > 0

/-- The output row: masked where a rule of R41 masks it, with one CON and SEQ in each slot word. -/
def State.builtRow (s : State) (d : Nat) (c : RowCtx) : State × Row :=
  let q := s.rawRow d c
  let r := if c.mask || s.maskedOff || s.drooping || s.stepMask d then q.2.map Cell.mark else q.2
  (q.1, if d < 48 && s.isSdh d then r else r.pairUp)

/-! ### Held words (R201) -/

/-- Positions of destination `d` that a SELC writes. -/
def selcPositions (c : RowCtx) : List Nat :=
  c.buf.filterMap fun p => match p.2 with
    | .two _ _ _ => some p.1
    | .one _ => none

/-- The held words of a destination after a row has left: those of positions that no selector writes
are dropped, and every position that left with CON = 0 holds what left. -/
def State.noteHeld (s : State) (d : Nat) (c : RowCtx) (r : Row) : State :=
  let lo := d * 65536
  if c.idle then { s with heldCol := s.heldCol.filter fun p => p.1 < lo || lo + 65536 ≤ p.1 }
  else if c.lost || c.subst then s
  else
    let ps := selcPositions c
    let kept := s.heldCol.filter fun p => p.1 < lo || lo + 65536 ≤ p.1 || ps.contains (p.1 - lo)
    { s with heldCol := ps.foldl (fun m p =>
        if (r.at p).con then m else m.insert (lo + p) (r.at p).octet) kept }

/-! ### Amenamin overhead (R47, R48) -/

/-- Slot words of a row of an Amenamin lane, overhead included (R32). -/
def rowWords (rate : Nat) : Nat :=
  if rate = 4 then 2160 else if rate = 5 then 8640 else if rate = 6 then 21600 else 0

/-- One step of the scrambler x^23 + x^18 + 1, whose output is its last stage (R50; log entry 76). -/
def scrStep (st : BitVec 23) : BitVec 23 :=
  (st <<< 1) ||| (if st.getLsbD 22 != st.getLsbD 17 then 1 else 0)

/-- The scrambler after `n` bits. -/
def scrSkip : Nat → BitVec 23 → BitVec 23
  | 0, st => st
  | n + 1, st => scrSkip n (scrStep st)

/-- What the scrambler adds to a word, bit 17 first. -/
def scrWord (st : BitVec 23) : BitVec 18 :=
  ((List.range 18).foldl (fun (q : BitVec 18 × BitVec 23) _ =>
    ((q.1 <<< 1) ||| (if q.2.getLsbD 22 then 1 else 0), scrStep q.2)) (0, st)).1

/-- The sum modulo 2 of what it adds to `n` words. -/
def scrSum : Nat → BitVec 23 → BitVec 18
  | 0, _ => 0
  | n + 1, st => scrWord st ^^^ scrSum n (scrSkip 18 st)

/-- What it adds to the words of row `w` in all; the 12 framing words of row 0 are not scrambled (R50). -/
def scrRow (n w : Nat) : BitVec 18 :=
  if w = 0 then scrSum (n - 12) (scrSkip (12 * 18) (BitVec.allOnes 23))
  else scrSum n (scrSkip (n * w * 18) (BitVec.allOnes 23))

/-- The slot word of an even and an odd column (R35). -/
def slotWord (a b : Cell) : BitVec 18 :=
  BitVec.ofNat 18 (b2n a.con * 2 ^ 17 + b2n a.seq * 2 ^ 16 + a.octet.toNat * 2 ^ 8 + b.octet.toNat)

/-- BIP-2 and BIP-8 of a row of `n` payload columns: the parity of bits 17 and 16 and of the octets of its words
as they were sent in row `w` (R49). -/
def rowBip (rate n w : Nat) (head : List (BitVec 18)) (r : Row) : BitVec 10 :=
  let pay := (List.range (n / 2)).map fun q => slotWord (r.at (2 * q)) (r.at (2 * q + 1))
  let t := (head ++ pay).foldl (· ^^^ ·) (scrRow (rowWords rate) w)
  t.extractLsb' 16 2 ++ (t.extractLsb' 8 8 ^^^ t.extractLsb' 0 8)

/-- The check that the row after a sent row carries; 0 where nothing was sent. -/
def State.sentBip (s : State) (l : Nat) (o : OutRow) : BitVec 10 :=
  match o.line with
  | some r =>
    if s.isAmenamin l then rowBip (s.rate l) (s.payCols l) ((s.clock.row + 8) % 9) o.header r else 0
  | none => 0

/-- A 16-bit header word with CON = 0 and SEQ. -/
def headWord (seq : Bool) (v : Nat) : BitVec 18 := BitVec.ofNat 18 (b2n seq * 2 ^ 16 + v % 2 ^ 16)

/-- This device holds the timing master role (R222). -/
def State.isMaster (s : State) : Bool := s.fget F.fabStat_tmRole = 1

/-- Header words 14 and 15 of row 0 (R48, R215, R228). -/
def State.identWord (s : State) (l : Nat) : Nat :=
  s.fget F.fabCfg_deviceId * 2 ^ 13 + s.role l * 2 ^ 10 + s.fget F.matStat_side * 2 ^ 9 +
    b2n s.isMaster * 2 ^ 8 + s.fget F.fabCfg_fabricId

/-- TMG_REF_CFG of a slot as applied at the last evaluation (R256). -/
def State.refCfg (s : State) (i : Nat) : W32 := s.tmg.refNow.get (regReset (Reg.tmgRefCfg i)) i

/-- The lane that supplies the selected reference in LOCKED (R266); the frame that begins latches it. -/
def State.refLane? (s : State) : Option Nat :=
  let sel := s.fget F.tmgStat_sel
  if s.fget F.tmgStat_state ≠ 2 then none
  else if sel = 14 then some (s.fget F.fabStat_refLane)
  else if sel < 12 && bits (s.refCfg sel) 31 26 < 48 then some (bits (s.refCfg sel) 31 26)
  else none

/-- The QL sent on a lane in this frame: DNU towards the selected reference (R266). -/
def State.laneQl (s : State) (l : Nat) : Nat :=
  if s.tmg.dnuLane = some l then 0xF else s.fget F.tmgStat_egressQl

def State.bankWord (s : State) (l : Nat) : Nat :=
  s.laneQl l * 2 ^ 12 + b2n (s.live false) * 2 ^ 11 + b2n (s.live true) * 2 ^ 10 +
    s.clock.frames % 256

/-- The flip fields of row 1: a message carries its own transaction, target, bank and planes. -/
def State.flipWords (s : State) : List Nat :=
  let x := s.sentMsg
  let f := fun b => b2n (x.req.getLsbD b)
  [x.kind.toNat * 2 ^ 13 + f 0 * 2 ^ 12 + f 1 * 2 ^ 11 + f 2 * 2 ^ 10 + s.fget F.fabCfg_deviceId * 2 ^ 7,
    x.txn.toNat, x.target.toNat / 2 ^ 16, x.target.toNat % 2 ^ 16,
    x.reason.toNat * 2 ^ 8 + s.fget F.flpCoord_coordId * 2 ^ 5]

/-- The mate fields of row 2 (R236, R238, R239). -/
def State.mateWords (s : State) : List Nat :=
  let active := s.fget F.matStat_state = 3
  let e := match s.mate.marker with
    | some v => v.toNat
    | none => if active then (s.rd Reg.matEpoch).toNat else (s.rd Reg.matCommit).toNat
  [s.fget F.matStat_state * 2 ^ 13 + b2n s.mate.marker.isSome * 2 ^ 12, e / 2 ^ 16, e % 2 ^ 16,
    if active then s.fget F.matMir_sentSeq else s.fget F.matMir_appliedSeq]

/-- The capability block of row 3. -/
def State.capsWords (s : State) (l : Nat) : List Nat :=
  let x := s.lane l
  let ws := [0x0001, 0xB000, 0x0700 + (s.rate l - 4) % 4,
    s.role l * 2 ^ 13 + s.fget F.fabCfg_deviceId * 2 ^ 10 + s.fget F.matStat_side * 2 ^ 9 +
      s.fget F.fabCfg_fabricId,
    b2n x.capsSent * 2 ^ 15 + b2n x.capsAgree * 2 ^ 14]
  ws ++ [crc16 ws]

/-- The row that left at a destination. -/
def OutRow.none : OutRow := ⟨0, ⟨badCell false, []⟩, Option.none, Option.none, 0, []⟩
def State.outRow (s : State) (d : Nat) : OutRow := s.out.get OutRow.none d

/-- The 18 header words of a row, with the check of the row before in word 17. Rows 1 and 2 are
zero before ACTIVE (R276) (log entry 57). -/
def State.headerWords (s : State) (l : Nat) : List (BitVec 18) :=
  let seq := s.seqNow
  let bip := (s.outRow l).bip.toNat
  let pad := fun (ws : List Nat) =>
    ((List.range 17).map fun i => headWord seq (ws.getD i 0)) ++ [headWord seq bip]
  let n := s.clock.frame.toNat
  match s.clock.row with
  | 0 => List.replicate 6 0x3C5A3#18 ++ List.replicate 6 0x03A5C#18 ++
      ([n / 2 ^ 16, n % 2 ^ 16, s.identWord l, s.bankWord l, 0, bip].map (headWord seq))
  | 1 => if s.stage l = stageActive then pad s.flipWords else pad []
  | 2 => if s.stage l = stageActive then pad s.mateWords else pad []
  | 3 => pad (s.capsWords l)
  | _ => pad []

/-! ### SDH egress (R77-R82) -/

/-- LTM_AU_CFG.tx_j1_row as it acts (R78). -/
def State.j1Row (s : State) (l n : Nat) : Nat :=
  let v := bits (s.auCfg l n) 26 23
  if v ≤ 8 then v else 5

/-- Every column of the AU's VC carries CON. -/
def State.vcAllCon (s : State) (l n : Nat) (r : Row) : Bool := (s.auCols l n).all fun c => (r.at c).con

/-- The decision of row 3 for one AU: AU-AIS or the pointer, with NDF in the first frame after AU-AIS
and after a change (R78, R79). -/
def State.sendPointer (s : State) (l n : Nat) (r : Row) : State :=
  let ais := s.flag (F.ltmCfg_forceMsAis l) || s.vcAllCon l n r
  let off := 87 * ((s.j1Row l n + 6) % 9)
  s.onAu l n fun x =>
    if ais then { x with txAis := true, aisSent := true, txNdf := false, txPtr := 0x3FF }
    else { x with txAis := false, aisSent := false, txNdf := x.ndf || x.aisSent, ndf := false,
                  txPtr := BitVec.ofNat 10 off }

def State.sendPointers (s : State) (l : Nat) (r : Row) : List Nat → State
  | [] => s
  | n :: ns => (s.sendPointer l n r).sendPointers l r ns

/-- H1 and H2 of an AU as sent. -/
def State.pointerWord (s : State) (l n : Nat) : BitVec 16 :=
  let x := s.au l n
  let ss : Nat := if s.flag (F.ltmCfg_sonet l) then 0 else 2
  if x.txAis then 0xFFFF
  else BitVec.ofNat 16 ((if x.txNdf then 9 else 6) * 2 ^ 12 + ss * 2 ^ 10 + x.txPtr.toNat)

/-- The concatenation indication of a member. -/
def State.memberWord (s : State) (l h : Nat) : BitVec 16 :=
  if (s.au l h).txAis then 0xFFFF
  else if s.flag (F.ltmCfg_sonet l) then 0x93FF else 0x9BFF

/-- Whether AU-AIS is sent for the AU that position `j` of AUG-1 `k` belongs to, and H1 and H2 there: the pointer, or
the concatenation indication of a member and of the places that an AU-4 leaves (G.707; log entry 82). -/
def State.h1h2 (s : State) (l j k : Nat) : Option (Bool × BitVec 16) :=
  let n := if s.au3 l then 3 * k + j else k
  match s.auMemberOf l n with
  | some h => some ((s.au l h).txAis, s.memberWord l h)
  | none =>
    if s.auType l n = 0 then none
    else some ((s.au l n).txAis, if !s.au3 l && j > 0 then s.memberWord l n else s.pointerWord l n)

/-- The pointer octets of row 3: H1, H2 and H3, all-ones while AU-AIS is sent; 0x00 where no AU is in use and in H3,
as no justification is sent (R78, R79). -/
def State.pointerOctet (s : State) (l c : Nat) : Octet :=
  let n := stmN (s.rate l)
  match s.h1h2 l (c % (3 * n) / n) (c % n) with
  | none => 0
  | some (ais, w) =>
    if c < 3 * n then w.extractLsb' 8 8 else if c < 6 * n then w.extractLsb' 0 8 else if ais then 0xFF else 0

/-- REI of G1: B3 errors of the peer AU (R80). -/
def State.g1Rei (s : State) (l n : Nat) : Nat :=
  if l < 48 && s.ptrState l n = 0 && !s.laneDefect l then min 8 (s.au l n).rei else 0

/-- A monitored path on an AU has a defect of word 3 whose consequence bit is set. -/
def State.apsDefect (s : State) (l n bitNo enable : Nat) : Bool :=
  (s.auPaths l n).any fun p => bit (s.pathWord p 3) bitNo && bit (s.pathWord p 0) enable

/-- RDI of G1: AU-AIS, LOP, or an enabled TIM, UNEQ or PLM of the peer AU (R80). -/
def State.g1Rdi (s : State) (l n : Nat) : Bool :=
  l < 48 && (s.ptrState l n = 1 || s.ptrState l n = 2 || s.apsDefect l n 28 16 ||
    s.apsDefect l n 27 15 || s.apsDefect l n 26 14)

/-- Row of the VC that is sent in the current row: 0 is the row of J1. -/
def State.vcRow (s : State) (l n : Nat) : Nat := (s.clock.row + 9 - s.j1Row l n) % 9

/-- H4: the multiframe count in bits 7-8, by the frame in which J1 left, in the phase of the peer (R73,
R80; the other bits by log entry 25). -/
def State.h4Octet (s : State) (l n : Nat) : Octet :=
  let c := s.auCfg l n
  let ph := if bits c 22 17 < 48 then s.fget (F.ltmAuStat_mfPhase (bits c 22 17) (bits c 16 11)) else 0
  let f := s.clock.frame.toNat + if s.vcRow l n ≤ s.clock.row then 0 else 3
  BitVec.ofNat 8 (0xFC + (ph + f) % 4)

/-- Octet `k` of the generated POH (log entry 16). -/
def State.pohOctet (s : State) (l n k : Nat) : Octet :=
  let c := s.auCfg l n
  let x := s.au l n
  match k with
  | 0 => x.j1Tx.getD x.j1Pos 0
  | 1 => x.b3Send
  | 2 => BitVec.ofNat 8 (bits c 10 3)
  | 3 => BitVec.ofNat 8 (16 * s.g1Rei (bits c 22 17) (bits c 16 11) +
      8 * b2n (s.g1Rdi (bits c 22 17) (bits c 16 11)))
  | 5 => s.h4Octet l n
  | _ => 0

/-- A trace that is sent: the entry is read afresh when a period begins. -/
def nextTrace (t : List Octet) (pos : Nat) (fresh : List Octet) : List Octet × Nat :=
  if pos + 1 < t.length then (t, pos + 1) else (fresh, 0)

/-- J1 begins a VC: the trace moves on and B3 of the VC that ended is due. -/
def State.beginVc (s : State) (l n : Nat) : State :=
  let len := if bit (s.auCfg l n) 2 then 64 else 16
  let fresh := s.bytes (0x1970000 + 64 * (64 * l + n)) len
  s.onAu l n fun x =>
    let t := nextTrace x.j1Tx x.j1Pos fresh
    { x with j1Tx := t.1, j1Pos := t.2, b3Send := x.b3Acc, b3Acc := 0 }

/-- The generated POH of one AU replaces the octet of its POH column (R80). While AU-AIS is sent the VC stays
all-ones. -/
def State.sendPoh (s : State) (l n : Nat) (r : Row) : State × Row :=
  let k := s.vcRow l n
  let s := if k = 0 then s.beginVc l n else s
  if !bit (s.auCfg l n) 27 || (s.au l n).txAis then (s, r)
  else (s, r.set ((s.auCols l n).headD 0) ⟨s.pohOctet l n k, false, false⟩)

def State.sendPohs (s : State) (l : Nat) : List Nat → Row → State × Row
  | [], r => (s, r)
  | n :: ns, r =>
    let q := s.sendPoh l n r
    q.1.sendPohs l ns q.2

/-- An SDH octet as sent: all-ones where the word carries CON (R43). -/
def sdhCell (x : Cell) : Cell := ⟨if x.con then 0xFF else x.octet, false, false⟩

/-- K1 and K2 before R77: the controller's on the protect lane, zero on a working lane with the mode
bits of K2, else LTM_OH_TX (R208). -/
def State.kSource (s : State) (l : Nat) : Nat × Nat :=
  match s.apsOwner l with
  | some (g, 0) => (s.fget (F.apsKtx_k1 g), s.fget (F.apsKtx_k2 g))
  | some (g, _) => (0, if s.apsBidir g then 5 else 4)
  | none => (s.fget (F.ltmOhTx_k1Tx l), s.fget (F.ltmOhTx_k2Tx l))

/-- K2 bits 6-8 read 0b110 while the ingress has LOS, LOF or MS-AIS. -/
def State.k2Sent (s : State) (l : Nat) : Nat :=
  let k := (s.kSource l).2
  if s.laneDefect l then k / 8 * 8 + 6 else k

/-- M1: B2 errors of the frame before, within the limit of the rate (R77). -/
def State.m1Sent (s : State) (l : Nat) : Nat := min (m1Max (s.rate l)) (s.lane l).b2Last

/-- Overhead column `c` of row `w` as sent (R77): the octets that R77 names at their places of G.707 (log entry 82),
0x00 at every other; all-ones outside the RSOH under force_ms_ais. -/
def State.sohOctet (s : State) (l w c : Nat) : Octet :=
  let n := stmN (s.rate l)
  let x := s.lane l
  if 3 ≤ w && s.flag (F.ltmCfg_forceMsAis l) then 0xFF
  else
    match w with
    | 0 => if c < 3 * n then 0xF6 else if c < 6 * n then 0x28 else if c = 6 * n then x.j0Tx.getD x.j0Pos 0 else 0
    | 1 => if c = 0 then x.b1Send else 0
    | 3 => s.pointerOctet l c
    | 4 =>
      if c < 3 * n then x.b2Send.getD c 0
      else if c = 3 * n then BitVec.ofNat 8 (s.kSource l).1
      else if c = 6 * n then BitVec.ofNat 8 (s.k2Sent l) else 0
    | 8 =>
      if c = 0 then BitVec.ofNat 8 (s.laneQl l)
      else if c = 3 * n + 2 then BitVec.ofNat 8 (s.m1Sent l) else 0
    | _ => 0

/-- The 9N overhead octets of the row that is sent. -/
def State.sohRow (s : State) (l : Nat) : List (BitVec 18) :=
  (List.range (9 * stmN (s.rate l))).map fun c => (s.sohOctet l s.clock.row c).setWidth 18

/-! ### BIP of SDH frames (R77, R80) -/

/-- One octet of the scrambler 1 + x^6 + x^7, whose output is its last stage, and the scrambler after it (R59). -/
def sdhScramble (st : BitVec 7) : Octet × BitVec 7 :=
  (List.range 8).foldl (fun (q : Octet × BitVec 7) _ =>
    ((q.1 <<< 1) ||| (if q.2.getLsbD 6 then 1 else 0),
      (q.2 <<< 1) ||| (if q.2.getLsbD 6 != q.2.getLsbD 5 then 1 else 0))) (0, st)

/-- The sum modulo 2 of what it adds to `n` octets. -/
def sdhScrSum : Nat → BitVec 7 → Octet
  | 0, _ => 0
  | n + 1, st => let q := sdhScramble st; q.1 ^^^ sdhScrSum n q.2

/-- The scrambler after `n` octets. -/
def sdhScrSkip : Nat → BitVec 7 → BitVec 7
  | 0, st => st
  | n + 1, st => sdhScrSkip n (sdhScramble st).2

/-- What it adds to row `w` of an STM-N in all: the first row of the SOH is not scrambled (R59). -/
def sdhScrRow (n w : Nat) : Octet :=
  if w = 0 then sdhScrSum (261 * n) (BitVec.allOnes 7)
  else sdhScrSum (270 * n) (sdhScrSkip (261 * n + 270 * n * (w - 1)) (BitVec.allOnes 7))

/-- The sum modulo 2 of a list of octets. -/
def octSum (l : List Octet) : Octet := l.foldl (· ^^^ ·) 0

/-- What a row that has left adds to B1 and B2 of its frame and to B3 of the generated overhead of its VCs (R77, R80):
B1 covers all octets as scrambled, B2 those outside the RSOH, by octet of the STM-1 they belong to. -/
def State.gatherSdh (s : State) (l w : Nat) (head : List (BitVec 18)) (r : Row) : State :=
  let n := stmN (s.rate l)
  let soh := fun c => (head.getD c 0).setWidth 8
  let pay := fun c => (r.at c).octet
  let row := octSum ((List.range (9 * n)).map soh) ^^^ octSum ((List.range (261 * n)).map pay)
  let b2 := fun o =>
    octSum ((List.range 87).map fun q => pay (3 * n * q + o)) ^^^
      (if w < 3 then 0 else soh o ^^^ soh (3 * n + o) ^^^ soh (6 * n + o))
  let s := s.onLane l fun x =>
    { x with
      b1Acc := x.b1Acc ^^^ row ^^^ sdhScrRow n w
      b2Acc := (List.range (3 * n)).map fun o => x.b2Acc.getD o 0 ^^^ b2 o }
  (s.ausInUse l).foldl (fun s a =>
    let b3 := octSum ((s.auCols l a).map pay)
    s.onAu l a fun x => { x with b3Acc := x.b3Acc ^^^ b3 }) s

/-- The row that lane `l` sent in the period before. -/
def State.gatherSent (s : State) (l : Nat) : State :=
  let o := s.outRow l
  match o.line with
  | some r => if s.isSdh l then s.gatherSdh l ((s.clock.row + 8) % 9) o.header r else s
  | none => s

/-- The J0 transmit entry as it is sent: 64, 16, or for SONET 1 octet (R77, R82). -/
def State.j0Entry (s : State) (l : Nat) : List Octet :=
  let t := s.bytes (0x1902000 + 64 * l) 64
  if s.flag (F.ltmCfg_j0Len64 l) then t
  else if s.flag (F.ltmCfg_sonet l) && ((t.take 16).drop 1).all (· = 0) then t.take 1
  else t.take 16

/-- A frame begins: the next octet of J0, and B1 and B2 of the frame that ended are due. -/
def State.beginSdh (s : State) (l : Nat) : State :=
  let fresh := s.j0Entry l
  s.onLane l fun x =>
    let t := nextTrace x.j0Tx x.j0Pos fresh
    { x with j0Tx := t.1, j0Pos := t.2, b1Send := x.b1Acc, b1Acc := 0, b2Send := x.b2Acc, b2Acc := [] }

/-- SDH_EGRESS_ROW: a row of an SDH lane as it is sent. -/
def State.sdhLine (s : State) (l : Nat) (r : Row) : State × Row :=
  let s := if s.clock.row = 0 then s.beginSdh l else s
  let aus := s.ausInUse l
  let s := if s.clock.row = 3 then s.sendPointers l r aus else s
  let q := s.sendPohs l aus (r.map sdhCell)
  (q.1, if s.flag (F.ltmCfg_forceMsAis l) then ⟨⟨0xFF, false, false⟩, []⟩ else q.2)

/-! ### What a lane transmits (R276) -/

/-- The destination whose row lane `l` sends: the bridged working lane on the protect lane of a
controller (R205). -/
def State.lineSource (s : State) (l : Nat) : Nat :=
  match s.apsOwner l with
  | some (g, 0) =>
    let c := s.fget (F.apsStat_bridged g)
    if c ≥ 1 then s.apsLane g c else l
  | _ => l

/-- The transmitter of a lane is electrically idle: STANDBY, DEEP, or on its way into or out of DEEP
(R278, R280). -/
def State.txIdle (s : State) (l : Nat) : Bool :=
  let d := (s.lane l).deep
  s.fget (F.sdsStat_pwr l) ≠ 0 || d = .idle || d = .stopped || d = .exiting

/-- Columns of a mirror record: 8 words of 16 bits, with flags of 0 (log entry 26). -/
def recordCells (q : QueuedRec) : List Cell :=
  (recordFields q.kind q.body ++ [q.body.crc.toNat]).flatMap fun w =>
    [⟨BitVec.ofNat 8 (w / 256), false, false⟩, ⟨BitVec.ofNat 8 w, false, false⟩]

/-- The row of a mate lane: the records that no row has carried yet, on the lane that carries them (R235, R236). -/
def State.mateRow (s : State) (l : Nat) : State × Row :=
  let n := if s.fget F.matStat_mirrorLane = l then s.payCols l / 16 else 0
  let zero : Cell := ⟨0, false, false⟩
  let row : Row := ⟨zero, Sparse.putRun zero [] 0 ((s.mate.line.take n).flatMap recordCells)⟩
  ({ s with mate := { s.mate with line := s.mate.line.drop n } }, row)

/-- The taps r and t of a pattern of SDS_PRBS (R283). -/
def sdsTaps (poly : BitVec 2) : Nat × Nat := [(7, 6), (15, 14), (23, 18), (31, 28)].getD poly.toNat (31, 28)

/-- The next bit of a lane pattern and the state after it (R167, R283). -/
def sdsNext (poly : BitVec 2) (r : BitVec 31) : Bool × BitVec 31 :=
  let t := sdsTaps poly
  let b := r.getLsbD (t.1 - 1) != r.getLsbD (t.2 - 1)
  (b, (r <<< 1) ||| (if b then 1 else 0))

/-- The state after `n` bits. -/
def sdsRun (poly : BitVec 2) : Nat → BitVec 31 → BitVec 31
  | 0, r => r
  | n + 1, r => sdsRun poly n (sdsNext poly r).2

/-- Bits of a lane in one row period (R32): 270·N octets, or the slot words of an Amenamin
row with their 18 overhead words, 18 bits each. -/
def laneRowBits (rate : Nat) : Nat :=
  if rate < 4 then 2160 * stmN rate else if rate = 4 then 38880 else if rate = 5 then 155520 else 388800

/-- The pattern of a lane in TRAIN, or in TEST with the generator on (R276, R283; log entry 94). -/
def State.patternOf (s : State) (l : Nat) : Option LinePattern :=
  let x := s.lane l
  if s.stage l = 2 then some ⟨3, false, x.txPrbs, 0⟩
  else if s.stage l = 7 && s.flag (F.sdsPrbs_txEn l) then
    some ⟨BitVec.ofNat 2 (s.fget (F.sdsPrbs_poly l)), s.flag (F.sdsPrbs_invert l), x.txPrbs, x.injected⟩
  else none

/-- A row period of a pattern: the generator runs on. -/
def State.sendPattern (s : State) (l : Nat) : State :=
  match s.patternOf l with
  | none => s
  | some p =>
    let o := s.outRow l
    let n := laneRowBits (s.rate l)
    let s := s.onLane l fun x => { x with txPrbs := sdsRun p.poly n x.txPrbs, injected := 0 }
    { s with out := s.out.insert l { o with pattern := some p } }

/-- The row on the line of lane `l`. A mate lane carries mirror records in place of its row (R235; log
entry 26). -/
def State.sendLine (s : State) (l : Nat) : State :=
  let o := s.outRow l
  let r := (s.outRow (s.lineSource l)).row
  let set := fun (s : State) (line : Option Row) hd =>
    { s with out := s.out.insert l ⟨o.period, o.row, line, none, o.bip, hd⟩ }
  let st := s.stage l
  if s.txIdle l then set s none []
  else if s.isSdh l then
    if st = stageActive || st = 3 then
      let q := s.sdhLine l r
      set q.1 (some q.2) (q.1.sohRow l)
    else (set s none []).sendPattern l
  else if s.isAmenamin l then
    if st = stageActive then
      let q := if s.role l = roleMate then s.mateRow l else (s, r)
      set q.1 (some q.2) (q.1.headerWords l)
    else if st = 3 || st = 4 then set s (some ⟨⟨0xFF, true, true⟩, []⟩) (s.headerWords l)
    else (set s none []).sendPattern l
  else set s none []

/-! ### The emission period (R108) -/

/-- Columns of the word that holds column `c`. -/
def wordCols (c : Nat) : List Nat := [c / 2 * 2, c / 2 * 2 + 1]

/-- A word of the row of destination `d` fails a parity check: it leaves as all-ones with CON (R386). -/
def State.badOut (s : State) (d c : Nat) : State :=
  match s.out.find? (·.1 = d) with
  | none => s
  | some (_, o) =>
    let bad := fun (x : Cell) => badCell x.seq
    let line := o.line.map fun r =>
      if s.isSdh d then r.mapAt (fun _ => ⟨0xFF, false, false⟩) (wordCols c) else r.mapAt bad (wordCols c)
    { s with out := s.out.insert d { o with row := o.row.mapAt bad (wordCols c), line := line } }

/-- An injected parity fault of an engine's island turns one of its words all-ones with CON on the way out
(R386, R393). -/
def State.leaveIsland (s : State) (d n : Nat) (r : Row) : State × Row :=
  let q := s.spendParity (engIsland false d) n
  q.2.foldl (fun (x : State × Row) c =>
    (x.1.parityError (engIsland false d), x.2.mapAt (fun y => badCell y.seq) (wordCols c))) (q.1, r)

/-- Injected parity faults of the memory island and of the termination island act on a V-output word of the row,
and on a word that a termination emits in it (R393; log entry 46): island and place as in ROW_MARK. -/
def State.dueParity (s : State) : State × List (Nat × Nat) :=
  let place := fun v c => (56 + v) * 65536 + c
  let a := s.spendParity 78 (8 * vCols)
  let es := (List.range 8).flatMap fun v => (s.emitters v).flatMap fun t =>
    (s.emitRow t s.clock.row).map fun p => place v (addrCol p.1)
  let b := if es = [] then (a.1, []) else a.1.spendParity 79 es.length
  (b.1, a.2.map (fun n => (78, place (n / vCols) (n % vCols))) ++ b.2.map fun n => (79, es.getD n 0))

/-- A word that fails a parity check on its way to a lane, to a column engine's output or into the octet frame
store: the island that detects it, and its place (R13, R386; log entry 70). Islands 0-5 name lane and
column of the group, 6-61 a column of the engine's row, 78 and 79 destination and column. -/
def State.rowParity (s : State) (q : Nat × Nat) : State :=
  let d := q.2 / 65536
  let c := q.2 % 65536
  if q.1 < 6 then (s.parityError q.1).badOut (8 * q.1 + d % 8) c
  else if q.1 < 62 then (s.parityError q.1).badOut (q.1 - 6) c
  else if (q.1 = 78 || q.1 = 79) && 48 ≤ d && d < 56 then (s.parityError q.1).badOut d c
  else s

/-- The output row of destination `d` for the period that begins, from the program row that ended. -/
def State.emitDest (s : State) (d : Nat) : State :=
  match (s.colEngine d).fetch with
  | none => s.onCol d fun x => { x with emit := none }
  | some c =>
    let q := s.builtRow d c
    let q := q.1.leaveIsland d (q.1.payCols d) q.2
    let s := q.1.onCol d fun x => { x with emit := some c }
    { s with out := s.out.insert d ⟨s.clock.period, q.2, none, none, s.sentBip d (s.outRow d), []⟩ }

/-- EMISSION_PERIOD of every destination, and what every lane sends (log entry 26). -/
def State.emitAll (s : State) : State :=
  let s := (List.range 48).foldl State.gatherSent s
  let s := (List.range 56).foldl State.emitDest s
  (List.range 48).foldl State.sendLine s

/-- Columns from `n` on of a destination were not emitted (R17, R20). -/
def State.cutRow (s : State) (d n : Nat) : State :=
  match s.out.find? (·.1 = d) with
  | none => s
  | some (_, o) =>
    let x := badCell s.seqNow
    let w := s.payCols d
    let line := o.line.map fun r =>
      if s.isSdh d then r.cutFrom n w ⟨0xFF, false, false⟩ else (r.cutFrom n w x).pairUp
    let row := o.row.cutFrom n w x
    let o := { o with row := if d < 48 && s.isSdh d then row else row.pairUp, line := line }
    { s with out := s.out.insert d o }

/-- A row being emitted by destination `d`, masked. -/
def State.maskRow (s : State) (d : Nat) (o : OutRow) : OutRow :=
  let line := o.line.map fun r =>
    if d < 48 && s.isSdh d then ⟨⟨0xFF, false, false⟩, []⟩ else r.map Cell.mark
  { o with row := o.row.map Cell.mark, line := line }

/-- Every row now being emitted carries CON (a droop that begins, R388). -/
def State.maskOut (s : State) : State :=
  { s with out := s.out.map fun p => (p.1, s.maskRow p.1 p.2) }

/-! ### The end of an emission period -/

/-- PROG_DOUBLE_WRITE: the termination's write stands and the engine's is discarded (R113). -/
def State.doubleWrite (s : State) (octet : Bool) (d t : Nat) : State :=
  if (s.term t).dblSaid then s
  else
    (s.raise (Ev.progDoubleWrite octet) (destWord octet d) t).onTerm t fun x => { x with dblSaid := true }

def State.doubleWrites (s : State) (octet : Bool) (d : Nat) : List Nat → State
  | [] => s
  | t :: ts => (s.doubleWrite octet d t).doubleWrites octet d ts

/-- A run of octets written to the memory behind BAR2; the words it fills are no longer damaged (R340). -/
def State.putStoreRun (s : State) (a : Nat) (os : List Octet) : State :=
  { s with
    mem := Sparse.putRun (0 : BitVec 8) s.mem a os
    sram := { s.sram with damage := s.sram.damage.filter fun p => p.1 < a / 4 || (a + os.length) / 4 ≤ p.1 } }

/-- V_INPUT_CAPTURE (R23, R38): the emitted row of CE48+v becomes row w of the store frame; the flag of
each block is the OR of the CON of its columns, delivery columns aside. A store in OFF keeps nothing
(R344). -/
def State.captureRow (s : State) (v : Nat) (r : Row) : State :=
  if (s.fget F.memOff_off).testBit 2 then s
  else
  let w := s.clock.row
  let fr := storeFrame s.clock.frames
  let own := (s.dlvIn v w).map (·.2)
  let cells := (List.range vCols).map r.at
  let blocks := (List.range (vCols / 32)).filter fun b =>
    (List.range 32).any fun i => (r.at (32 * b + i)).con && !own.contains (32 * b + i)
  let s := s.putStoreRun (storeAddr fr (octAddr v w 0)) (cells.map (·.octet))
  { s with captures := s.captures.put Capture.none (captureKey fr v w) ⟨s.clock.frames + 1, false, blocks⟩ }

/-- A row of a V-lane that becomes a source: its valid paths mark their grains, and their cond_rows move on (R39,
R41, R56). -/
def State.holdV (s : State) (v period : Nat) (r : Row) : State :=
  let ps := s.pathsOn (48 + v)
  (s.holdRow (48 + v) period (s.markPaths r ps).pairUp).shiftCondRows ps

/-- A V-input row that has been emitted: to the loop-back buffer or to the store (R218). -/
def State.storeRow (s : State) (v : Nat) : State :=
  match (s.colEngine (48 + v)).emit with
  | none => s
  | some c =>
    let r := (s.outRow (48 + v)).row
    if s.looped v then s.holdV v (s.clock.period + 2) r
    else
      let hit := (s.dlvIn v s.clock.row).filter fun p => c.buf.any (·.1 = p.2)
      (s.doubleWrites false (48 + v) (hit.map (·.1))).captureRow v r

/-- What each destination's row leaves behind when its emission period ends: held words, the transmit
counter, the store. -/
def State.endEmission (s : State) : State :=
  let s := (List.range 56).foldl (fun s d =>
    match (s.colEngine d).emit with
    | none => s
    | some c => s.noteHeld d c (s.outRow d).row) s
  let s := (List.range 48).foldl (fun s l =>
    if s.stage l = stageActive && !s.txIdle l && (s.colEngine l).emit.isSome then
      s.speed (48 + l) ((s.outRow (s.lineSource l)).row.healthy (s.payCols l))
    else s) s
  (List.range 8).foldl State.storeRow s

/-! ### V-output rows (R110, R111) -/

/-- One half of a V-output row as engine `d` leaves it. -/
def State.halfRow (s : State) (d w : Nat) : List (Nat × Cell) :=
  let lo := 18432 * (d % 2)
  let mask := s.maskedOff || s.drooping
  (List.range 18432).map fun i =>
    let col := lo + i
    let x :=
      match (s.octEngine d).run with
      | none => badCell s.octSeq
      | some c => if c.mask then (s.octCell c w (octAddr (d / 2) w col)).mark
          else s.octCell c w (octAddr (d / 2) w col)
    (col, if mask then x.mark else x)

/-- The emitted words of the terminations stand in V-output row w (R93, R113). -/
def State.emitOver (s : State) (v w : Nat) (r : Row) : Row :=
  (s.emitters v).foldl (fun r t => (s.emitRow t w).foldl (fun r p =>
    let x : Cell := { p.2 with seq := s.octSeq }
    r.set (addrCol p.1) (if s.maskedOff || s.drooping then x.mark else x)) r) r

/-- Terminations whose emit positions an engine wrote. -/
def State.emitClashes (s : State) (d w : Nat) : List Nat :=
  match (s.octEngine d).run with
  | none => []
  | some c => (s.emitters (d / 2)).filter fun t => (s.emitRow t w).any fun p => c.out.any (·.1 = p.1)

/-- V-output row w of lane v, complete at the row mark that ends the period, which is its arrival
period. -/
def State.vRow (s : State) (v w : Nat) : Row :=
  let x := fillCell (s.latched.octFill.get 0 1) 0 s.octSeq
  let cells := s.halfRow (2 * v) w ++ s.halfRow (2 * v + 1) w
  (s.emitOver v w ⟨x, cells.filter fun p => p.2 ≠ x⟩).pairUp

/-- The words of V-output lane `v` that fail a parity check in the row, with the island that detects each: 62-77
with a column of the engine's half, 78 and 79 with destination 56 + v and column. -/
def vParity (parity : List (Nat × Nat)) (v : Nat) : List (Nat × Nat) :=
  parity.filterMap fun q =>
    if q.1 = 62 + 2 * v then some (q.1, q.2 % 18432)
    else if q.1 = 63 + 2 * v then some (q.1, 18432 + q.2 % 18432)
    else if (q.1 = 78 || q.1 = 79) && q.2 / 65536 = 56 + v then some (q.1, q.2 % 65536)
    else none

/-- Columns of V-output lane `v` that leave as all-ones with CON after a parity error, injected ones among them. -/
def State.vBad (s : State) (parity : List (Nat × Nat)) (v : Nat) : State × List Nat :=
  let a := s.spendParity (62 + 2 * v) 18432
  let b := a.1.spendParity (63 + 2 * v) 18432
  let l := vParity parity v ++ a.2.map (fun c => (62 + 2 * v, c)) ++ b.2.map fun c => (63 + 2 * v, 18432 + c)
  (l.foldl (fun s q => s.parityError q.1) b.1, l.flatMap fun q => wordCols q.2)

/-- What a row leaves behind in the frame of an octet engine for the terminations that read it (R95): CON
throughout, and columns `bad` as all-ones. -/
def State.noteLeft (s : State) (d w : Nat) (con : Bool) (bad : List Nat) : State :=
  let mine := (bad.map (octAddr (d / 2) w)).filter (inHalf d)
  s.onOct d fun x => { x with run := x.run.map fun c =>
    { c with conRows := if con then w :: c.conRows else c.conRows, bad := mine ++ c.bad } }

/-- Held words of an octet engine after row w: selector positions that left with CON = 0 (R201). -/
def State.noteHeldOct (s : State) (d w : Nat) (r : Row) : State :=
  match (s.octEngine d).run with
  | none => s
  | some c =>
    if c.lost then s
    else
      let ps := (c.selPos.map (·.1)).filter fun a => addrRow a = w && inHalf d a
      { s with heldOct := ps.foldl (fun m a =>
          if (r.at (addrCol a)).con then m else m.insert a (r.at (addrCol a)).octet) s.heldOct }

/-- Held words of positions that no SELO of the frame wrote are dropped at its end. -/
def State.dropHeldOct (s : State) (d : Nat) : State :=
  match (s.octEngine d).run with
  | none => s
  | some c =>
    if c.lost || c.subst.isSome then s
    else { s with heldOct := s.heldOct.filter fun p => !inHalf d p.1 || c.selPos.any (·.1 = p.1) }

/-- The V-output row of lane v for the period that ends. -/
def State.endVRow (s : State) (parity : List (Nat × Nat)) (v : Nat) : State :=
  if s.looped v then s
  else
    let w := s.clock.row
    let r := s.vRow v w
    let s := (s.doubleWrites true (2 * v) (s.emitClashes (2 * v) w)).doubleWrites true (2 * v + 1)
      (s.emitClashes (2 * v + 1) w)
    let q := s.vBad parity v
    let r := r.mapAt (fun x => badCell x.seq) q.2
    let s := (q.1.noteHeldOct (2 * v) w r).noteHeldOct (2 * v + 1) w r
    let con := s.maskedOff || s.drooping
    let s := (s.noteLeft (2 * v) w con q.2).noteLeft (2 * v + 1) w con q.2
    s.holdV v s.clock.period r

/-- Every V-output row of the period that ends. -/
def State.endVRows (s : State) (parity : List (Nat × Nat)) : State :=
  (List.range 8).foldl (State.endVRow · parity) s

end Sys2Proof.Machine
end

