-- ==== Sys2Proof/Machine/Models.lean ====
section
/-! DEFINITION. The arithmetic of the oscillator models and of holdover (R249, R263, R265): quotients, roots and
logarithms over whole numbers, means, deviations and the least-squares fit. The spec gives exact values and no
rounding: a result that is no whole number takes the one below or the one above (log entry 5). -/

namespace Sys2Proof.Machine

/-- `n / d` as a whole number: exact where it is one, else the one below or above. -/
def rounded (n : Int) (d : Nat) : Int :=
  if n % (d : Int) = 0 || !Config.roundUp n d then n / (d : Int) else n / (d : Int) + 1

/-- The root of `n` below `2 ^ k` times two, digit by digit from `r`. -/
def rootFrom (n : Nat) : Nat → Nat → Nat
  | 0, r => r
  | k + 1, r => rootFrom n k (if (r + 2 ^ k) * (r + 2 ^ k) ≤ n then r + 2 ^ k else r)

/-- The whole part of the square root of a number below `2 ^ 128`. -/
def rootFloor (n : Nat) : Nat := rootFrom n 64 0

/-! ### Logarithms -/

/-- One, in the fixed-point numbers of a logarithm. -/
def lnOne : Nat := 10 ^ 24

/-- The terms of artanh z from the one with odd exponent `k`, whose power is `p`, with the square `zz`. -/
def artanhFrom (zz : Nat) : Nat → Nat → Nat → Nat
  | 0, _, _ => 0
  | n + 1, k, p => p / k + artanhFrom zz n (k + 2) (p * zz / lnOne)

/-- artanh (a / b) for `a` at most a third of `b`. -/
def artanh (a b : Nat) : Nat :=
  let z := a * lnOne / b
  artanhFrom (z * z / lnOne) 26 1 z

/-- How often `p / q` can be halved before it is below 2. -/
def halvings : Nat → Nat → Nat → Nat
  | 0, _, _ => 0
  | n + 1, p, q => if p < 2 * q then 0 else 1 + halvings n p (2 * q)

/-- ln (p / q) in 10^-18 for `p` at least `q`. -/
def lnRatio (p q : Nat) : Nat :=
  let k := halvings 96 p q
  let q' := q * 2 ^ k
  (2 * k * artanh 1 3 + 2 * artanh (p - q') (p + q')) / 10 ^ 6

/-- The same for any two numbers above 0. -/
def lnOf (p q : Nat) : Int := if q ≤ p then (lnRatio p q : Int) else -(lnRatio q p : Int)

/-! ### Exponentials -/

/-- One, in the fixed-point numbers of an exponential. -/
def expOne : Int := 10 ^ 30

/-- The terms of the series of exp `x` from the one with `x ^ k`, which is `p`. -/
def expFrom (x : Int) : Nat → Nat → Int → Int
  | 0, _, _ => 0
  | n + 1, k, p => p + expFrom x n (k + 1) (p * x / (expOne * (k + 1 : Nat)))

/-- `y` squared `n` times. -/
def squared : Nat → Int → Int
  | 0, y => y
  | n + 1, y => squared n (y * y / expOne)

/-- exp (n / d) in 10^-18. -/
def expOf (n : Int) (d : Nat) : Nat :=
  (squared 10 (expFrom (n * expOne / (1024 * d : Nat)) 40 0 expOne) / 10 ^ 12).toNat

/-- The growth of the life ledger with one reading, in 10^-18 of a reading, at a junction temperature in 0.1 degC and
a core voltage in mV (R332; log entry 6). -/
def ledgerRate (tj : Int) (mv : Nat) : Nat :=
  let tk := max 1 (10 * tj + 27315).toNat
  let heat := 812320000 * ((tk : Int) - 36315)
  expOf (heat + 12 * ((mv : Int) - 800) * (36315 * tk : Nat)) (36315000 * tk)

/-! ### The models -/

/-- A(t) = a·ln(1 + t/τ) + b·t/24 in 10^-10 ppt, with a in ppt, b in 0.001 ppt a day, τ in h and t in 0.001 h (R265). -/
def ageingOf (a b : Int) (tau : Nat) (t : Int) : Int :=
  let n := t.toNat
  a * lnOf (1000 * tau + n) (1000 * tau) / 10 ^ 8 + b * n * 10 ^ 4 / 24

/-- The temperature of a 10 kΩ NTC thermistor in 0.01 degC, from its resistance in ohms and its B value in K: the
equation of the B value with its reference at 25 degC (R249; log entry 93). -/
def ntcTheta (beta ohms : Nat) : Int :=
  let inv := (10 ^ 20 / 29815 : Int) + lnOf (max 1 ohms) 10000 / (max 1 beta : Nat)
  if inv ≤ 0 then 32767 else min 32767 (rounded (10 ^ 20) inv.toNat - 27315)

/-! ### Means and deviations (R263) -/

def sumOf (l : List Int) : Int := l.foldl (· + ·) 0

def meanOf (l : List Int) : Int := rounded (sumOf l) l.length

/-- The standard deviation of a list, over its length or over one less, as the device has it (log entry 5). -/
def deviationOf (l : List Int) : Int :=
  let n : Nat := l.length
  let v : Nat := ((n : Int) * sumOf (l.map fun x => x * x) - sumOf l * sumOf l).toNat
  let d := if Config.sampleDeviation then n * (n - 1) else n * n
  let r := rootFloor (v / d)
  if r * r * d = v || !Config.roundUp v d then r else r + 1

/-! ### Least squares (R265) -/

/-- The determinant of the first `n` rows. -/
def detOf : Nat → List (List Int) → Int
  | 0, _ => 1
  | _ + 1, [] => 1
  | n + 1, r :: rs =>
    sumOf ((List.range (n + 1)).map fun j =>
      (if j % 2 = 0 then 1 else -1) * r.getD j 0 * detOf n (rs.map fun x => x.eraseIdx j))

/-- The scale of coefficient `i` of the cubic: ppt, ppt/K, 0.01 ppt/K², 0.0001 ppt/K³ (R268). -/
def fitUnit (i : Nat) : Int := [1, 1, 100, 10000].getD i 1

/-- Coefficient `i` of the cubic in `d` that fits the points `(d, v)` by least squares, in its register's unit. -/
def cubicFit (i : Nat) (ps : List (Int × Int)) : Int :=
  let m := fun (j k : Nat) => sumOf (ps.map fun p => p.1 ^ (j + k))
  let rhs := fun (j : Nat) => sumOf (ps.map fun p => p.2 * p.1 ^ j)
  let rows := fun (c : Nat → Nat → Int) => (List.range 4).map fun j => (List.range 4).map fun k => c j k
  let d := detOf 4 (rows m)
  rounded (fitUnit i * detOf 4 (rows fun j k => if k = i then rhs j else m j k)) d.toNat

end Sys2Proof.Machine
end

