-- ==== Sys2Proof/Machine/Epoch.lean ====
section
/-! DEFINITION. The epoch state (R234): what it consists of, each item as the words that the records of an epoch and of
the image carry, and an item put back from its words (R238, R239, R241). The order of the words in an item is the
model's; their offsets in the region are those of the silicon revision (R235; log entry 4). -/

namespace Sys2Proof.Machine

/-! ### Numbers as words -/

def natWord (n : Nat) : W32 := BitVec.ofNat 32 n
/-- A number that may be absent: 0, or one more than it. -/
def optWord (o : Option Nat) : W32 := natWord (o.elim 0 (· + 1))
def wordOpt (w : W32) : Option Nat := if w = 0 then none else some (w.toNat - 1)
/-- Flags, the first at bit 0. -/
def flagWord (l : List Bool) : W32 := natWord (l.foldr (fun b n => b2n b + 2 * n) 0)
/-- A signed number in two words. -/
def intWords (i : Int) : List W32 := [natWord (unsigned 64 i / 2 ^ 32), natWord (unsigned 64 i)]
/-- Word `k`; 0 where the item has none. -/
def wordAt (ws : List W32) (k : Nat) : W32 := ws.getD k 0
def numAt (ws : List W32) (k : Nat) : Nat := (wordAt ws k).toNat
def intAt (ws : List W32) (k : Nat) : Int := signed 64 (numAt ws k * 2 ^ 32 + numAt ws (k + 1))
/-- Groups of `size` words from `start` on, `n` of them. -/
def groupsAt (ws : List W32) (start size n : Nat) : List (List W32) :=
  (List.range n).map fun k => (ws.drop (start + size * k)).take size

/-! ### Selectors and controllers -/

def SelSt.words (x : SelSt) : List W32 :=
  [flagWord [x.wFail, x.pFail, x.wHold.expired, x.pHold.expired, x.winCon], natWord x.wClean, natWord x.pClean,
    optWord x.wHold.left, optWord x.pHold.left, optWord x.wtr, natWord x.window]

/-- A command that has just been written stays, and so does what has been reported. -/
def SelSt.ofWords (x : SelSt) (ws : List W32) : SelSt :=
  let f := wordAt ws 0
  { x with
    wFail := bit f 0, wClean := numAt ws 1, pFail := bit f 1, pClean := numAt ws 2
    wHold := ⟨wordOpt (wordAt ws 3), bit f 2⟩, pHold := ⟨wordOpt (wordAt ws 4), bit f 3⟩
    wtr := wordOpt (wordAt ws 5), window := numAt ws 6, winCon := bit f 4 }

def ApsSt.words (x : ApsSt) : List W32 :=
  [optWord x.wtr, natWord x.wtrChan, flagWord [x.fopMode, x.fopChan], natWord x.fopRun, natWord x.selPrev] ++
    ((List.range 15).flatMap fun c =>
      let h := x.hold.get .init c
      [optWord h.left, flagWord [h.expired]])

def ApsSt.ofWords (x : ApsSt) (ws : List W32) : ApsSt :=
  let hold := (List.range 15).foldl
    (fun (m : Sparse HoldOff) c => m.put .init c ⟨wordOpt (wordAt ws (5 + 2 * c)), bit (wordAt ws (6 + 2 * c)) 0⟩) []
  let f := wordAt ws 2
  { x with
    hold := hold, wtr := wordOpt (wordAt ws 0), wtrChan := numAt ws 1, fopMode := bit f 0, fopChan := bit f 1
    fopRun := numAt ws 3, selPrev := numAt ws 4 }

/-! ### Timing and the holdover models -/

/-- Registers of the timing state: the phase still pending, the output, holdover and the models. -/
def timingRegs : List Nat :=
  [Reg.tmgPhasePend, Reg.tmgFreq, Reg.tmgHoValue, Reg.tmgHoErr, Reg.tmgTc 0, Reg.tmgTc 1, Reg.tmgTc 2, Reg.tmgTc 3,
    Reg.tmgAgeA, Reg.tmgAgeB, Reg.tmgAgeTau, Reg.tmgAgeHours]

def baseWords (b : Option HoldBase) : List W32 :=
  match b with
  | none => List.replicate 8 0
  | some x => intWords x.y ++ intWords x.theta ++ intWords x.t ++ intWords x.e0

def TmgSt.words (x : TmgSt) : List W32 :=
  [flagWord [x.base.isSome, x.ppsDue, x.ppsAsk], natWord x.lost, natWord x.pendQ, natWord x.dayCount,
    natWord x.bins.length, natWord x.minutes.length, natWord x.days.length] ++ baseWords x.base ++
    intWords x.daySum ++ intWords x.dayHours ++
    (x.bins.flatMap fun q => natWord q.1 :: intWords q.2) ++
    (x.minutes.flatMap fun m => natWord m.hours :: flagWord [m.eligible] :: (intWords m.offset ++ intWords m.theta)) ++
    (x.days.flatMap fun q => intWords q.1 ++ intWords q.2)

def TmgSt.ofWords (x : TmgSt) (ws : List W32) : TmgSt :=
  let f := wordAt ws 0
  let atMinutes := 19 + 3 * numAt ws 4
  let atDays := atMinutes + 6 * numAt ws 5
  let minute := fun (g : List W32) => (⟨intAt g 2, intAt g 4, numAt g 0, bit (wordAt g 1) 0⟩ : Minute)
  let bins := (groupsAt ws 19 3 (numAt ws 4)).map fun g => (numAt g 0, intAt g 1)
  { x with
    base := if bit f 0 then some ⟨intAt ws 7, intAt ws 9, intAt ws 11, intAt ws 13⟩ else none
    ppsDue := bit f 1, ppsAsk := bit f 2, lost := numAt ws 1, pendQ := numAt ws 2, dayCount := numAt ws 3
    daySum := intAt ws 15, dayHours := intAt ws 17, bins := bins
    minutes := (groupsAt ws atMinutes 6 (numAt ws 5)).map minute
    days := (groupsAt ws atDays 4 (numAt ws 6)).map fun g => (intAt g 0, intAt g 2) }

/-- State, selection and bandwidth in TMG_STAT. -/
def timingStat : W32 := 0xFFC00000

/-! ### Monitoring -/

def Bin.words (b : Bin) : List W32 :=
  [b.start, natWord b.seconds, natWord b.flags.toNat, flagWord b.tca] ++
    ((List.range 4).map fun k => natWord (b.ne.getD k 0)) ++ (List.range 4).map fun k => natWord (b.fe.getD k 0)

def Bin.ofWords (ws : List W32) : Bin :=
  { start := wordAt ws 0, seconds := numAt ws 1, flags := BitVec.ofNat 5 (numAt ws 2)
    tca := (List.range 4).map fun k => bit (wordAt ws 3) k
    ne := (List.range 4).map fun k => numAt ws (4 + k), fe := (List.range 4).map fun k => numAt ws (8 + k) }

def secondWords (q : Second × Second × Bool) : List W32 :=
  [flagWord [q.1.es, q.1.ses, q.2.1.es, q.2.1.ses, q.2.2], natWord q.1.bbe, natWord q.2.1.bbe]

def secondOf (ws : List W32) : Second × Second × Bool :=
  let f := wordAt ws 0
  (⟨bit f 0, bit f 1, numAt ws 1⟩, ⟨bit f 2, bit f 3, numAt ws 2⟩, bit f 4)

/-- The bins in progress and the counters of the second; the bins that have ended are no epoch state (R234). -/
def PmPath.words (x : PmPath) : List W32 :=
  [flagWord [x.neDef, x.feDef, x.live, x.ne, x.fe], natWord x.neErr, natWord x.feErr] ++ x.cur15.words ++
    x.cur24.words ++ x.queue.flatMap secondWords

def PmPath.ofWords (x : PmPath) (ws : List W32) : PmPath :=
  let f := wordAt ws 0
  { x with
    neDef := bit f 0, feDef := bit f 1, live := bit f 2, ne := bit f 3, fe := bit f 4, neErr := numAt ws 1
    feErr := numAt ws 2, cur15 := Bin.ofWords (ws.drop 3), cur24 := Bin.ofWords (ws.drop 15)
    queue := (groupsAt ws 27 3 ((ws.length - 27) / 3)).map secondOf }

/-- The seconds of the device: how many there were, and those that are not yet committed (R286, R291). -/
def PmSt.words (x : PmSt) : List W32 :=
  natWord x.seconds :: optWord (x.taiDue.map (·.toNat)) ::
    x.stamps.flatMap fun t => [t.start, flagWord [t.bin15, t.bin24, t.step]]

def PmSt.ofWords (x : PmSt) (ws : List W32) : PmSt :=
  let stamp := fun (g : List W32) =>
    (⟨wordAt g 0, bit (wordAt g 1) 0, bit (wordAt g 1) 1, bit (wordAt g 1) 2⟩ : Stamp)
  { x with
    seconds := numAt ws 0, taiDue := (wordOpt (wordAt ws 1)).map natWord
    stamps := (groupsAt ws 2 2 ((ws.length - 2) / 2)).map stamp }

/-! ### Items -/

/-- Paths with a selector in use: sel_en is set. -/
def State.selectors (s : State) : List Nat := (List.range 262144).filter fun p => bit (s.pathWord p 5) 31

/-- The RO fields of word 6. -/
def selFields : W32 := 0x1FFC0000

/-- The words of an item. -/
def State.itemWords (s : State) : EpochItem → List W32
  | .selector p => (s.pathWord p 6 &&& selFields) :: (s.path p).sel.words
  | .aps g => s.rd (Reg.apsStat g) :: s.rd (Reg.apsKtx g) :: (s.apsSt g).words
  | .timing => s.rd Reg.tmgStat :: timingRegs.map s.rd ++ s.tmg.words
  | .monitor p => (s.pmPath p).words
  | .idleMonitor => s.pm.idle.words
  | .seconds => s.pm.words

/-- An item replaced by its words. -/
def State.setItem (s : State) (i : EpochItem) (ws : List W32) : State :=
  match i with
  | .selector p =>
    let w6 := (s.pathWord p 6 &&& ~~~selFields) ||| (wordAt ws 0 &&& selFields)
    (s.setPathWord p 6 w6).onPath p fun x => { x with sel := x.sel.ofWords (ws.drop 1) }
  | .aps g =>
    ((s.wr (Reg.apsStat g) (wordAt ws 0)).wr (Reg.apsKtx g) (wordAt ws 1)).onAps g fun x => x.ofWords (ws.drop 2)
  | .timing =>
    let s := s.wr Reg.tmgStat ((s.rd Reg.tmgStat &&& ~~~timingStat) ||| (wordAt ws 0 &&& timingStat))
    let s := (List.zip timingRegs (ws.drop 1)).foldl (fun s q => s.wr q.1 q.2) s
    { s with tmg := s.tmg.ofWords (ws.drop 13) }
  | .monitor p => s.onPm p fun x => x.ofWords ws
  | .idleMonitor => { s with pm := { s.pm with idle := s.pm.idle.ofWords ws } }
  | .seconds => { s with pm := s.pm.ofWords ws }

/-- The items of the device: a path that was never evaluated has none of its own. -/
def State.epochItems (s : State) : List EpochItem :=
  s.selectors.map .selector ++ (List.range 24).map .aps ++ [.timing, .idleMonitor, .seconds] ++
    s.pm.paths.map fun q => .monitor q.1

/-- The epoch state as records of region 2. -/
def State.epochRecs (s : State) : List MirrorRec :=
  s.epochItems.flatMap fun i =>
    let ws := s.itemWords i
    (List.zip (List.range ws.length) ws).map fun q => ⟨2, 0, Config.epochOffset i q.1, q.2, 0xF, 0⟩

/-- The word of an item that the records carry, the last one standing. -/
def carried (l : List MirrorRec) (i : EpochItem) (k : Nat) : Option W32 :=
  (l.reverse.find? fun r => r.offset = Config.epochOffset i k).map fun r => mergeBe 0 r.data r.be

/-- The words of an item that the records carry. -/
def carriedWords (l : List MirrorRec) (i : EpochItem) : List W32 :=
  ((List.range l.length).map (carried l i)).takeWhile (·.isSome) |>.filterMap id

/-- An item replaced where the records carry it. -/
def State.fillItem (l : List MirrorRec) (s : State) (i : EpochItem) : State :=
  match carriedWords l i with
  | [] => s
  | ws => s.setItem i ws

/-- A path takes its own item, or that of the paths that were never evaluated. -/
def State.fillMonitor (l : List MirrorRec) (s : State) (p : Nat) : State :=
  match carriedWords l (.monitor p) with
  | [] => s.setItem (.monitor p) (s.itemWords .idleMonitor)
  | ws => s.setItem (.monitor p) ws

/-- The records replace the device's own epoch state in one step (R239). -/
def State.fillEpoch (s : State) (l : List MirrorRec) : State :=
  let s := s.selectors.foldl (fun s p => s.fillItem l (.selector p)) s
  let s := (List.range 24).foldl (fun s g => s.fillItem l (.aps g)) s
  let s := ((s.fillItem l .timing).fillItem l .idleMonitor).fillItem l .seconds
  if carriedWords l .idleMonitor = [] then s else (List.range 262144).foldl (State.fillMonitor l) s

end Sys2Proof.Machine
end

