-- ==== Sys2Proof/Machine/Banks.lean ====
section
/-! DEFINITION. The states of the SRAM banks and the regions that may be turned OFF (R336, R337, R343,
R344), with the wake that an access or an arm brings about (R327). -/

namespace Sys2Proof.Machine

def bankActive : Nat := 0
def bankRetain : Nat := 1
def bankOff : Nat := 2
def bankBorrowed : Nat := 3

/-- The state of a bank, spares 384-387 included (MEM_BSTATE). -/
def State.bankState (s : State) (b : Nat) : Nat :=
  bits (s.rd (Reg.memBstate (b / 16))) (2 * (b % 16) + 1) (2 * (b % 16))

/-- A bank changes its state; the entry into RETAIN is noted (R341). -/
def State.setBankState (s : State) (b v : Nat) : State :=
  let at' := if v = bankRetain then s.sram.retainAt.insert b s.clock.frames else s.sram.retainAt.erase b
  let w := setBits (s.rd (Reg.memBstate (b / 16))) (2 * (b % 16) + 1) (2 * (b % 16)) v
  { s with sram := { s.sram with retainAt := at' } }.wr (Reg.memBstate (b / 16)) w

/-- Sets the state of every bank of a list that is not borrowed or retired. -/
def State.setBanks (s : State) (v : Nat) : List Nat → State
  | [] => s
  | b :: bs => (if s.bankState b = bankBorrowed then s else s.setBankState b v).setBanks v bs

/-- Banks of a region of MEM_OFF: shadow column bank, shadow octet bank, octet frame store. -/
def State.regionBanks (s : State) (r : Nat) : List Nat :=
  match r with
  | 0 => List.range' (if s.live false then 0 else 32) 32
  | 1 => List.range' (if s.live true then 64 else 96) 32
  | _ => List.range' 224 61

/-- First BAR2 byte of a region, and its bytes (R337, R338). -/
def State.regionSpan (s : State) (r : Nat) : Nat × Nat :=
  match r with
  | 0 => (bankAddr false (!s.live false) 0, 0x400000)
  | 1 => (bankAddr true (!s.live true) 0, 0x400000)
  | _ => (0x1C00000, 7962624)

/-- A region is in OFF. -/
def State.regionOff (s : State) (r : Nat) : Bool := (s.fget F.memOff_off).testBit r

/-- Flip state codes (R174). -/
def flpIdle : Nat := 0
def flpArmed : Nat := 1
def flpRehearsing : Nat := 2
def flpReady : Nat := 3
def flpCommitted : Nat := 4
def flpAborted : Nat := 5

def State.flipState (s : State) : Nat := s.fget F.flpStat_state

/-- A flip is between its arm and its end. -/
def State.flipOpen (s : State) : Bool := flpArmed ≤ s.flipState && s.flipState ≤ flpCommitted

/-- A flip of a plane is between its arm and its end. -/
def State.flipOf (s : State) (octet : Bool) : Bool :=
  s.flipOpen && s.flip.req.getLsbD (if octet then 2 else 1)

/-- The condition under which a region may be OFF. An open flip of the octet plane needs the store. -/
def State.offHolds (s : State) (r : Nat) : Bool :=
  match r with
  | 0 => !s.flipOf false
  | 1 => !s.flipOf true
  | _ => (List.range 16).all (fun d => s.idleIn true d (s.live true)) && s.trbActive = 0 && !s.flipOf true

def State.setRegion (s : State) (r : Nat) (on : Bool) : State :=
  let v := s.fget F.memOff_off
  s.fset F.memOff_off (if on = v.testBit r then v else v ^^^ 2 ^ r)

/-- A region goes OFF: its content is lost, so it holds the zeros of the wipe when it wakes. -/
def State.turnOff (s : State) (r : Nat) : State :=
  let (a, n) := s.regionSpan r
  let s := (s.setBanks bankOff (s.regionBanks r)).setRegion r true
  { s with
    mem := s.mem.filter fun c => c.1 < a || a + n ≤ c.1
    captures := if r = 2 then [] else s.captures
    sram := { s.sram with damage := s.sram.damage.filter fun p => p.1 < a / 4 || (a + n) / 4 ≤ p.1 } }

/-- A region wakes: every bank is ACTIVE and holds zeros. -/
def State.wakeRegion (s : State) (r : Nat) : State :=
  if s.regionOff r then (s.setBanks bankActive (s.regionBanks r)).setRegion r false else s

/-- The region of a bank. -/
def State.regionOf (s : State) (b : Nat) : Option Nat :=
  (List.range 3).find? fun r => (s.regionBanks r).contains b

/-- A housekeeping access wakes the banks it needs (R327, R344). -/
def State.wakeBank (s : State) (b : Nat) : State :=
  let s := match s.regionOf b with
    | some r => s.wakeRegion r
    | none => s
  if s.bankState b = bankRetain then s.setBankState b bankActive else s

/-- The same for a BAR2 offset; no bank lies behind a reserved one (R8). -/
def State.wakeAt (s : State) (a : Nat) : State := if a < 0x2400000 then s.wakeBank (a / 131072) else s

/-- A host write to the BAR2 window: a word received (R297), the wake of the bank (R344), and the path of a
write to mirrored state (R232). One that meets a wipe waits for its end (R400), so it acts when it is
performed (log entry 60). -/
def State.hostMem (s : State) (a : Nat) (be : BitVec 4) (v : W32) (f : State → State) : State :=
  (s.speed 96 4).asHost true a be v fun s => f (s.wakeAt a)

/-- Regions whose condition has ended or whose request is gone wake. -/
def State.wakeEnded (s : State) : State :=
  (List.range 3).foldl (fun s r =>
    if (s.fget F.memOff_req).testBit r && s.offHolds r then s else s.wakeRegion r) s

/-- MEM_OFF_APPLY at a frame mark (R344) (log entry 15). -/
def State.memOffApply (s : State) : State :=
  (List.range 3).foldl (fun s r =>
    if (s.fget F.memOff_req).testBit r && s.offHolds r then (if s.regionOff r then s else s.turnOff r)
    else s.wakeRegion r) s

end Sys2Proof.Machine
end

