-- ==== Sys2Proof/Machine/Rehearsal.lean ====
section
/-! DEFINITION. Anise rehearsal (R112-R119, R126-R159, R177-R179, R203, R218): the walk of a shadow
program against the live state of one row of the rehearsal frame, and the results of the frame. -/

namespace Sys2Proof.Machine

/-! ### Rule codes (R179) -/

def ruTerm : Nat := 1
def ruValid : Nat := 2
def ruRead : Nat := 3
def ruSource : Nat := 4
def ruDest : Nat := 5
def ruOrder : Nat := 6
def ruDouble : Nat := 7
def ruCover : Nat := 8
def ruBudget : Nat := 9
def ruSelect : Nat := 10

/-- The rehearsed cost that a program row or row may reach (R117). -/
def budgetMax : Nat := 15833

/-- What a walk of a program has found. -/
structure Walk where
  /-- The lowest failing word, with its lowest rule code and the tag before it. -/
  fail    : Option (Nat × Nat × Nat)
  tag     : Nat
  /-- An uncorrectable word was met. -/
  ue      : Option Nat
  cycles  : Nat
  /-- Cost of the most expensive row (octet). -/
  worst   : Nat
  /-- Cycles of each row (octet), and the row of the last instruction, with the highest so far. -/
  costs   : Sparse Nat
  row     : Nat
  top     : Nat
  digest  : W32
  /-- Runs of positions written so far: first and count. -/
  written : List (Nat × Nat)
  scratch : List Nat
  /-- Paths counted and PRBS channels named in the bank so far (R155, R203). -/
  sels    : List Nat
  chans   : List Nat
  deriving DecidableEq, Repr

def Walk.init (sels chans : List Nat) : Walk :=
  { fail := none, tag := 0xFFFF, ue := none, cycles := 0, worst := 0, costs := [], row := 0, top := 0,
    digest := 0xFFFFFFFF, written := [], scratch := [], sels := sels, chans := chans }

/-- The lower of two failures: by word, then by rule. -/
def lowerFail (a b : Option (Nat × Nat × Nat)) : Option (Nat × Nat × Nat) :=
  match a, b with
  | none, _ => b
  | _, none => a
  | some x, some y => if y.1 < x.1 || (y.1 = x.1 && y.2.1 < x.2.1) then b else a

/-- Notes that a rule fails at a word. -/
def Walk.note (k : Walk) (bad : Bool) (w rule : Nat) : Walk :=
  if bad then { k with fail := lowerFail k.fail (some (w, rule, k.tag)) } else k

/-! ### Runs of positions -/

/-- Single positions as runs. -/
def singles (ps : List Nat) : List (Nat × Nat) := ps.map fun p => (p, 1)

def runMeets (a b : Nat × Nat) : Bool := a.1 < b.1 + b.2 && b.1 < a.1 + a.2

/-- Some position of `p` is in `q`. -/
def runsMeet (p q : List (Nat × Nat)) : Bool := p.any fun a => q.any (runMeets a)

/-- The part of a run that lies from `lo` to below `hi`. -/
def runClip (lo hi : Nat) (a : Nat × Nat) : Nat × Nat := (max lo a.1, min hi (a.1 + a.2) - max lo a.1)

def runsCount (p : List (Nat × Nat)) : Nat := p.foldl (fun n a => n + a.2) 0

/-! ### Rules of one instruction -/

/-- The interleave factor of a lane at its present rate (R127). -/
def State.interleave (s : State) (l : Nat) : Nat := if l < 48 && s.rate l < 4 then 4 ^ s.rate l else 1

/-- A run of a column source is valid (R33, R100, R119). -/
def State.colRunOk (s : State) (src col n step : Nat) : Bool :=
  src < 56 && col + (n - 1) * step < s.payCols src

/-- Source validity of a column instruction at the rates of the moment. -/
def State.colSrcOk (s : State) (d : Nat) : ColIns → Bool
  | .movc f => s.colRunOk f.srcLane.toNat f.srcCol.toNat (f.lenM1.toNat + 1) 1
  | .movcs f =>
    let st := movcsStrides f (s.interleave f.srcLane.toNat) (s.interleave d)
    s.colRunOk f.srcLane.toNat f.srcCol.toNat (f.countM1.toNat + 1) st.1
  | .selc f =>
    s.colRunOk f.wLane.toNat f.wCol.toNat (f.lenM1.toNat + 1) 1 &&
      s.colRunOk f.pLane.toNat f.pCol.toNat (f.lenM1.toNat + 1) 1
  | _ => true

/-- Positions that a column instruction writes. -/
def State.colDests (s : State) (d : Nat) (i : ColIns) : List (Nat × Nat) :=
  match i with
  | .movc f => [(f.dstCol.toNat, f.lenM1.toNat + 1)]
  | .movcs f =>
    let st := movcsStrides f (s.interleave f.srcLane.toNat) (s.interleave d)
    singles (runAddrs f.dstCol.toNat (f.countM1.toNat + 1) st.2)
  | .filc f => [(f.dstCol.toNat, f.lenM1.toNat + 1)]
  | .selc f => [(f.dstCol.toNat, f.lenM1.toNat + 1)]
  | _ => []

/-- The type of a path that a selector names belongs to the plane (R203). -/
def selType (octet : Bool) (t : Nat) : Bool :=
  if octet then 8 ≤ t && t ≤ 10 else t ≠ 0 && !(8 ≤ t && t ≤ 10)

/-- A path has a valid entry of a type of the plane. -/
def State.selEntry (s : State) (octet : Bool) (p : Nat) : Bool :=
  match (s.path p).entry with
  | some (w0, _, _) => selType octet (bits w0 30 27)
  | none => false

/-- The selector rule for the entry that a SELC or SELO names (R203). -/
def State.selNamedOk (s : State) (octet : Bool) (p : Nat) : Bool :=
  let pp := bits (s.pathWord p 6) 17 0
  s.selEntry octet p && bit (s.pathWord p 5) 31 && (pp = p || s.selEntry octet pp)

/-- Distinct paths that the selectors of a bank may name (R203). -/
def selMax (octet : Bool) : Nat := if octet then 65536 else 16384

/-- Counts a path named by a selector; true when it is counted beyond the limit. -/
def Walk.countSel (k : Walk) (octet : Bool) (p : Nat) : Bool × Walk :=
  let l := if k.sels.contains p then k.sels else k.sels ++ [p]
  (!(l.take (selMax octet)).contains p, { k with sels := l })

/-! ### Column programs -/

/-- Words of a column instruction by its opcode. -/
def colLen (w : W64) : Nat := if wbits w 58 6 = 0x04 then 2 else 1

/-- Word `i` of a bank, 0 past its end. -/
def State.bankWord? (s : State) (octet bankB : Bool) (i : Nat) : W64 :=
  if i < bankWords then s.progWord octet bankB i else 0

/-- One column instruction walked at word `pc`: a column at or above the payload count of the lane that it
names fails source validity, source or destination (R33; log entry 29). -/
def State.walkCol (s : State) (d : Nat) (own : List Nat) (pc : Nat) (i : ColIns) (k : Walk) : Walk :=
  let ps := s.colDests d i
  let cost := colCost i
  let k := k.note (!s.colSrcOk d i || ps.any fun a => s.payCols d < a.1 + a.2) pc ruSource
  let k := k.note (runsMeet ps k.written || runsMeet ps (singles own)) pc ruDouble
  let k := k.note (k.cycles ≤ budgetMax && budgetMax < k.cycles + cost) pc ruBudget
  let k := match i with
    | .selc f =>
      let r := k.countSel false f.path.toNat
      r.2.note (r.1 || !s.selNamedOk false f.path.toNat) pc ruSelect
    | _ => k
  let k := { k with
    written := ps.map (runClip 0 (s.payCols d)) ++ k.written
    digest := foldCol (s.interleave (colSrc i)) (s.interleave d) k.cycles i k.digest
    cycles := k.cycles + cost }
  match i with
  | .mark t => { k with tag := t.toNat }
  | _ => k

/-- Positions left unwritten at the END (R86, R112) (log entry 14). -/
def openAt (written : List (Nat × Nat)) (total : Nat) (own : List Nat) : Nat :=
  total - (runsCount written + (own.filter fun p => !runsMeet [(p, 1)] written).length)

/-- The walk of a column program from word `pc`, with the unwritten positions at its end. -/
def State.walkCols (s : State) (d : Nat) (bankB : Bool) (own : List Nat) : Nat → Nat → Walk → Walk × Nat
  | 0, _, k => (k.note true (bankWords - 1) ruTerm, 0)
  | n + 1, pc, k =>
    if pc ≥ bankWords then (k.note true (bankWords - 1) ruTerm, 0)
    else
      let w0 := s.bankWord? false bankB pc
      let len := if s.progBad false bankB pc then 1 else colLen w0
      match s.firstBad false bankB pc (min len (bankWords - pc)) with
      | some u => ({ (k.note true pc ruRead) with ue := some u }, 0)
      | none =>
        let k := k.note (bankWords < pc + len) (bankWords - 1) ruTerm
        match decodeCol w0 (s.bankWord? false bankB (pc + 1)) with
        | none => (k.note true pc ruValid, 0)
        | some i =>
          let k := s.walkCol d own pc i k
          if i = .endI then
            let u := openAt k.written (s.payCols d) own
            (k.note (bit (s.rd Reg.colCtl) 0 && u > 0) pc ruCover, u)
          else s.walkCols d bankB own n (pc + len) k

/-- Columns of destination `d` that terminations deliver in the row built in program row `w` (R86). -/
def State.colOwn (s : State) (d w : Nat) : List Nat :=
  if d < 48 then [] else ((s.dlvIn (d - 48) ((w + 1) % 9)).map (·.2)).eraseDups

/-! ### Octet programs -/

/-- Words of an octet instruction by its opcode and source count. -/
def octLen (w : W64) : Nat :=
  let op := (wbits w 58 6).toNat
  let k := (wbits w 55 3).toNat + 1
  if op = 0x13 then 2
  else if op = 0x14 || op = 0x15 then (if k ≤ 1 then 1 else if k ≤ 5 then 2 else 3)
  else 1

/-- An octet address exists; while `mine`, it does not lie in a looped V-lane (R126, R218). -/
def State.octOk (s : State) (mine : Bool) (a : Nat) : Bool :=
  a < octetAddrs && !(mine && s.looped (addrV a))

/-- A source of MIX or MIXP is valid (R149, R150). -/
def State.mixOk (s : State) (mine : Bool) (k : Walk) (anchor : Nat) (x : BitVec 16) : Bool :=
  match mixSource anchor x with
  | .inl a => 0 ≤ a && s.octOk mine a.toNat
  | .inr i => k.scratch.contains i

/-- Source validity of an octet instruction. The entry's kind gives a CASI its addresses (R157). -/
def State.octSrcOk (s : State) (mine : Bool) (k : Walk) : OctIns → Bool
  | .movo f => (runAddrs f.src.toNat (f.lenM1.toNat + 1) 1).all (s.octOk mine)
  | .movos f =>
    (runAddrs f.src.toNat (f.countM1.toNat + 1) (f.sstrideM1.toNat + 1)).all (s.octOk mine)
  | .selo f =>
    (runAddrs f.wSrc.toNat (f.lenM1.toNat + 1) 1 ++ runAddrs f.pSrc.toNat (f.lenM1.toNat + 1) 1).all
      (s.octOk mine)
  | .mix f => f.sources.all (s.mixOk mine k f.anchor.toNat)
  | .mixp f => f.anchor.toNat < octetAddrs && f.sources.all (s.mixOk mine k f.anchor.toNat)
  | .gain f => (runAddrs f.src.toNat (f.nM1.toNat + 1) 1).all (s.octOk mine)
  | .prbs true f => (runAddrs f.addr.toNat (f.nM1.toNat + 1) 1).all (s.octOk mine)
  | .casi f =>
    if s.entryT1 f.term.toNat then [f.src.toNat, f.src.toNat + 32].all (s.octOk mine)
    else (runAddrs f.src.toNat 32 1).all (s.octOk mine)
  | _ => true

/-- Positions that an octet instruction writes, as runs. -/
def octDests (i : OctIns) : List (Nat × Nat) :=
  match i with
  | .movo f => [(f.dst.toNat, f.lenM1.toNat + 1)]
  | .filo f => [(f.dst.toNat, f.lenM1.toNat + 1)]
  | .selo f => [(f.dst.toNat, f.lenM1.toNat + 1)]
  | _ => singles (octWrites i)

/-- Destination validity: inside the engine's half, one row, not in a looped lane (R98, R141, R218). -/
def State.octDestOk (s : State) (mine : Bool) (d : Nat) (ps : List (Nat × Nat)) : Bool :=
  let ends := ps.flatMap fun a => [a.1, a.1 + a.2 - 1]
  ends.all (fun a => inHalf d a && s.octOk mine a) && ends.all fun a => addrRow a = addrRow (ends.getD 0 a)

/-- A channel of a termination that can carry signalling (R156). -/
def sigChan (t1 : Bool) (c : Nat) : Bool := if t1 then c < 24 else 1 ≤ c && c ≠ 16

/-- Operands that the state must back: tone entry, termination (R156, R157, R166; log entry 27). -/
def State.octBacked (s : State) : OctIns → Bool
  | .tone f => toneLen (s.rd (Reg.octToneLen f.tone.toNat)) ≠ 0
  | .casx f => s.termSig f.term.toNat && sigChan (s.termT1 f.term.toNat) f.chan.toNat
  | .casi f => s.termSig f.term.toNat
  | _ => true

/-- The row that an instruction is charged to (R116, R141). -/
def walkRow (i : OctIns) (k : Walk) : Nat :=
  match octWrites i with
  | a :: _ => addrRow a
  | [] => k.row

/-- A PRBS channel that the bank names already (R155). -/
def chanTaken (k : Walk) : OctIns → Bool
  | .prbs _ f => k.chans.contains f.chan.toNat
  | _ => false

/-- One octet instruction walked at word `pc` in row period `w`: the state of that row judges the
instructions charged to it (R177). -/
def State.walkOct (s : State) (d w : Nat) (own : List Nat) (pc : Nat) (i : OctIns) (k : Walk) : Walk :=
  let ps := octDests i
  let r := walkRow i k
  let mine := r = w
  let cost := octCost i
  let c := k.costs.get 0 r
  let k := k.note (mine && !s.octBacked i) pc ruValid
  let k := k.note (!s.octSrcOk mine k i) pc ruSource
  let k := k.note (!s.octDestOk mine d ps) pc ruDest
  let k := k.note (r < k.top) pc ruOrder
  let k := k.note (chanTaken k i || runsMeet ps k.written || (mine && runsMeet ps (singles own))) pc
    ruDouble
  let k := k.note (c ≤ budgetMax && budgetMax < c + cost) pc ruBudget
  let k := match i with
    | .selo f =>
      let x := k.countSel true f.path.toNat
      x.2.note (x.1 || (mine && !s.selNamedOk true f.path.toNat)) pc ruSelect
    | .mixp f => { k with scratch := f.sc.toNat :: k.scratch }
    | .prbs _ f => { k with chans := f.chan.toNat :: k.chans }
    | _ => k
  let k := { k with
    written := ps ++ k.written
    digest := foldOct s.entryT1 c i k.digest
    costs := k.costs.put 0 r (c + cost), worst := max k.worst (c + cost), row := r, top := max k.top r }
  match i with
  | .mark t => { k with tag := t.toNat }
  | _ => k

/-- The walk of an octet program, with the positions of row `w` that it leaves unwritten. -/
def State.walkOcts (s : State) (d w : Nat) (bankB : Bool) (own : List Nat) :
    Nat → Nat → Walk → Walk × Nat
  | 0, _, k => (k.note true (bankWords - 1) ruTerm, 0)
  | n + 1, pc, k =>
    if pc ≥ bankWords then (k.note true (bankWords - 1) ruTerm, 0)
    else
      let w0 := s.bankWord? true bankB pc
      let len := if s.progBad true bankB pc then 1 else octLen w0
      match s.firstBad true bankB pc (min len (bankWords - pc)) with
      | some u => ({ (k.note true pc ruRead) with ue := some u }, 0)
      | none =>
        let k := k.note (bankWords < pc + len) (bankWords - 1) ruTerm
        match decodeOct w0 (s.bankWord? true bankB (pc + 1)) (s.bankWord? true bankB (pc + 2)) with
        | none => (k.note true pc ruValid, 0)
        | some i =>
          let k := s.walkOct d w own pc i k
          if i = .endI then
            let u := openAt (k.written.filter fun a => addrRow a.1 = w) 18432 own
            (k.note (bit (s.rd Reg.octCtl) 0 && u > 0) pc ruCover, u)
          else s.walkOcts d w bankB own n (pc + len) k

/-- Octet addresses of row `w` of destination `d` at which terminations emit (R86). -/
def State.octOwn (s : State) (d w : Nat) : List Nat :=
  ((s.emitAddrs (d / 2)).filter fun a => inHalf d a && addrRow a = w).eraseDups

/-! ### The rehearsal frame (R177, R178) -/

/-- Adds the row's findings to those of the frame: the lowest failure, the greatest cost, the digest of
the last row; unwritten positions of the worst row (column) or of all rows (octet). -/
def RehResult.add (o : Option RehResult) (octet : Bool) (k : Walk) (u : Nat) : RehResult :=
  let cost := if octet then k.worst else k.cycles
  match o with
  | none => ⟨k.fail, cost, k.digest, u⟩
  | some r =>
    ⟨lowerFail r.fail k.fail, max r.cycles cost, k.digest, if octet then r.cover + u else max r.cover u⟩

/-- The target bank of the flip: true for B. -/
def State.flipBank (s : State) : Bool := s.flip.req.getLsbD 0

/-- Rehearsal of one destination in row `w`. -/
def State.judgeDest (s : State) (octet : Bool) (w : Nat) (sels chans : List Nat) (d : Nat) :
    State × List Nat × List Nat :=
  let b := s.flipBank
  if s.idleIn octet d b then (s, sels, chans)
  else
    let start := s.startOf octet d b
    let k0 := Walk.init sels chans
    let r := if octet then s.walkOcts d w b (s.octOwn d w) bankWords start k0
      else s.walkCols d b (s.colOwn d w) bankWords start k0
    let s := match r.1.ue with
      | some u => (s.foundUeAt (bankAddr octet b u)).foundUeAt (bankAddr octet b u + 4)
      | none => s
    let e := (if octet then 56 else 0) + d
    let old := (s.flip.results.find? (·.1 = e)).map (·.2)
    ({ s with flip := { s.flip with
        results := s.flip.results.insert e (RehResult.add old octet r.1 r.2) } }, r.1.sels, r.1.chans)

/-- Rehearsal of a plane in row `w`, destinations in order. -/
def State.judgePlane (s : State) (octet : Bool) (w : Nat) : State :=
  ((List.range (if octet then 16 else 56)).foldl
    (fun q d => q.1.judgeDest octet w q.2.1 q.2.2 d) (s, [], [])).1

/-- The row of the rehearsal frame that ends is judged; its rates give the interleave factors (R127). -/
def State.judgeRow (s : State) : State :=
  let w := s.clock.row
  let s := if s.flip.req.getLsbD 1 then s.judgePlane false w else s
  let s := if s.flip.req.getLsbD 2 then s.judgePlane true w else s
  { s with flip := { s.flip with judged := true } }

/-! ### Results (R127, R178, R179) -/

/-- REH, DIG and COVER of a destination: written where it passes; where it fails, valid stays 0 and the
others are not defined. -/
def State.recordDest (s : State) (e : Nat) (r : RehResult) : State :=
  let octet := 56 ≤ e
  let d := if octet then e - 56 else e
  let b := s.flipBank
  let reh := engReh octet d b
  match r.fail with
  | none =>
    ((s.wr reh (BitVec.ofNat 32 (2 ^ 31 + r.cycles % 2 ^ 16))).wr (engDig octet d b) r.digest).wr
      (engCover octet d b) (BitVec.ofNat 32 r.cover)
  | some _ =>
    let (x, s) := s.draw
    let (y, s) := s.draw
    let (z, s) := s.draw
    ((s.wr reh (x &&& 0x0000FFFF)).wr (engDig octet d b) y).wr (engCover octet d b) (z &&& 0x0003FFFF)

/-- Bits of a failure map. -/
def failMap (l : List Nat) (lo n : Nat) : W32 :=
  BitVec.ofNat 32 ((List.range n).foldl (fun v i => v + if l.contains (lo + i) then 2 ^ i else 0) 0)

/-- FLP_FAIL_MAP0-2, FLP_FAIL and its tag. -/
def State.recordFails (s : State) : State :=
  let bad := s.flip.results.filter fun q => q.2.fail.isSome
  let l := bad.map (·.1)
  let s := ((s.wr (Reg.flpFailMap 0) (failMap l 0 32)).wr (Reg.flpFailMap 1) (failMap l 32 24)).wr
    (Reg.flpFailMap 2) (failMap l 56 16)
  match bad with
  | (e, r) :: _ =>
    match r.fail with
    | some (w, rule, tag) =>
      let p := if 56 ≤ e then 2 ^ 30 + (e - 56) * 2 ^ 24 else e * 2 ^ 24
      (s.wr Reg.flpFail (BitVec.ofNat 32 (2 ^ 31 + p + rule * 2 ^ 20 + w))).wr Reg.flpFailTag
        (BitVec.ofNat 32 tag)
    | none => s
  | [] => s

/-- Interleave factors at the rates of the moment, recorded with the bank (R127). -/
def State.recordFactors (s : State) : State :=
  if !s.flip.req.getLsbD 1 then s
  else
    { s with flip := { s.flip with
        factors := (List.range 48).foldl
          (fun m l => m.put 1 ((if s.flipBank then 64 else 0) + l) (s.interleave l)) s.flip.factors } }

/-- The terminations whose entry is of kind T1, which fixes the accesses of a CASI, recorded with the octet bank
(R130). -/
def State.recordKinds (s : State) : State :=
  if !s.flip.req.getLsbD 2 then s
  else
    let l := (List.range 8192).filter s.entryT1
    { s with flip := if s.flipBank then { s.flip with t1B := l } else { s.flip with t1A := l } }

/-- Every result of the rehearsal frame is written; true when the bank passes. -/
def State.endRehearsal (s : State) : State × Bool :=
  let pass := s.flip.results.all fun q => q.2.fail.isNone
  let s := (s.flip.results.foldl (fun s q => s.recordDest q.1 q.2) s).recordFails.recordFactors.recordKinds
  ({ s with flip := { s.flip with results := [], judged := false } }, pass)

end Sys2Proof.Machine
end

