-- ==== Sys2Proof/Machine/Flip.lean ====
section
/-! DEFINITION. Bank flips (R172-R189): arming, cancellation, rehearsal, the commit point, the change of
the live banks, the fabric protocol, and program writes (R105). -/

namespace Sys2Proof.Machine

/-! ### Reasons and messages (R48, R189) -/

def frRehearsal : Nat := 1
def frCancelled : Nat := 2
def frBusy : Nat := 3
def frTargetRange : Nat := 4
def frSameBank : Nat := 5
def frNotCoordinator : Nat := 6
def frLate : Nat := 7
def frNack : Nat := 8
def frUnresolved : Nat := 9
def frNoPlane : Nat := 0xA

def fmNone : Nat := 0
def fmPropose : Nat := 1
def fmReady : Nat := 2
def fmNack : Nat := 3
def fmCommit : Nat := 4
def fmAbort : Nat := 5

/-- The modular distance from the current frame to a frame (R172). -/
def State.dist (s : State) (f : BitVec 32) : Nat := (f - s.clock.frame).toNat

/-- The flip in progress or last ended is a fabric flip. -/
def State.fabricFlip (s : State) : Bool := s.flip.req.getLsbD 3

def State.setFlip (s : State) (f : FlipSt → FlipSt) : State := { s with flip := f s.flip }

/-- COL_BANK.shadow_wr and OCT_BANK.shadow_wr: 0 while the plane's flip is COMMITTED (R105). -/
def State.shadowWr (s : State) (on : Bool) : State :=
  let s := if s.flip.req.getLsbD 1 then s.fbit F.colBank_shadowWr on else s
  if s.flip.req.getLsbD 2 then s.fbit F.octBank_shadowWr on else s

/-- FLP_STAT.state; entry into and exit from COMMITTED locks and opens the shadow. -/
def State.enterFlip (s : State) (st : Nat) : State :=
  (s.fset F.flpStat_state st).shadowWr (st ≠ flpCommitted)

/-- A message about the flip in progress. -/
def State.flipMsg (s : State) (kind : Nat) (left : Option Nat) (reason : Nat := 0) : FlipMsg :=
  { kind := BitVec.ofNat 3 kind, txn := BitVec.ofNat 16 (s.fget F.flpStat_txn), target := s.flip.target
    req := s.flip.req, reason := BitVec.ofNat 8 reason, left := left }

/-- The coordinator sends a message of its transaction: in place of the one that it sends for that transaction, and
after the frames that a COMMIT or ABORT of the transaction before still has (R183; log entry 87). -/
def State.sendFlip (s : State) (m : FlipMsg) : State :=
  s.setFlip fun x => { x with out := (x.out.filter fun o => o.txn ≠ m.txn && o.left.isSome) ++ [m] }

/-- A member's answer, sent from the next frame mark on in place of its last one (R184, R185; log entry 87). -/
def State.answerFlip (s : State) (m : FlipMsg) : State :=
  s.setFlip fun x => { x with answer := some m, answerOn := false }

/-- The answer to transaction `txn` ends. -/
def State.endAnswer (s : State) (txn : BitVec 16) : State :=
  s.setFlip fun x => { x with answer := x.answer.filter fun m => m.txn ≠ txn }

/-! ### Outcomes (R176) -/

/-- An outcome event of the flip. -/
def State.flipEvent (s : State) (e : EvName) (reason : Nat) : State :=
  s.raise e s.flip.req.toNat (if s.fabricFlip then s.fget F.flpStat_txn else 0) reason
    s.flip.target.toNat (s.rd Reg.flpArmedAt).toNat

/-- FLIP_REJECT with the request as written. -/
def State.flipReject (s : State) (reason : Nat) (req target : Nat) : State :=
  (s.fset F.flpStat_reason reason).raise Ev.flipReject req 0 reason target

/-- Ring commands that wait for the end of a flip complete (R369). -/
def State.flipEnded (s : State) (status : Nat) : State :=
  let reason := s.fget F.flpStat_reason
  let txn := s.fget F.flpStat_txn
  s.finishAll (· = .flip) fun _ => (status, reason, txn, 0)

/-- Entry into ABORTED. A coordinator sends ABORT for `n` frames; a member whose own flip fails answers
NACK (R183, R185). -/
def State.flipAbort (s : State) (reason : Nat) (n : Nat := 3) : State :=
  let s := (s.fset F.flpStat_reason reason).enterFlip flpAborted
  let s := (s.count Reg.flpCntAbort).flipEvent Ev.flipAbort reason
  let s := s.setFlip fun x => { x with results := [], judged := false, catchUp := false }
  let s :=
    if !s.fabricFlip then s
    else if s.flip.coord then s.sendFlip (s.flipMsg fmAbort (some n))
    else if reason = frRehearsal || reason = frCancelled then s.answerFlip (s.flipMsg fmNack none reason)
    else s
  s.flipEnded csAborted

/-- A flip that can still be stopped: ARMED, REHEARSING or READY (R175). -/
def State.flipStoppable (s : State) : Bool := flpArmed ≤ s.flipState && s.flipState ≤ flpReady

/-! ### Arm and cancel (R172, R173, R175) -/

/-- The first reason for which an arm of `req` and `target` is rejected; 0 for none (R173). -/
def State.armReason (s : State) (req : BitVec 4) (target : BitVec 32) : Nat :=
  let b := req.getLsbD 0
  let d := s.dist target
  if s.flipOpen then frBusy
  else if !req.getLsbD 1 && !req.getLsbD 2 then frNoPlane
  else if (req.getLsbD 1 && s.live false = b) || (req.getLsbD 2 && s.live true = b) then frSameBank
  else if d < (if req.getLsbD 3 then 9 else 3) || 2 ^ 30 < d then frTargetRange
  else if req.getLsbD 3 && !s.flag F.flpCoord_self then frNotCoordinator
  else 0

/-- An accepted arm: ARMED, with the record of the last failure and the uncertain bit cleared, and the
banks that it needs awake (R173, R179, R189, R344). It clears catch_up too, of which the spec gives no clearing (log
entry 88). -/
def State.arm (s : State) (req : BitVec 4) (target : BitVec 32) (coord : Bool) : State :=
  let s := s.setFlip fun x =>
    { x with
      req := req, target := target, coord := coord, results := [], judged := false
      unsure := false, catchUp := false, splitSaid := false }
  let s := ((s.wr Reg.flpArmedAt s.clock.frame).fbit F.flpStat_uncertain false).fbit F.flpStat_catchUp false
  let s := s.wr Reg.flpFail (setBits (s.rd Reg.flpFail) 31 31 0)
  let s := ((s.wr (Reg.flpFailMap 0) 0).wr (Reg.flpFailMap 1) 0).wr (Reg.flpFailMap 2) 0
  (s.enterFlip flpArmed).wakeEnded

/-- READY, NACK and reason of every peer start anew with a transaction. -/
def State.clearAnswers (s : State) : State :=
  (List.range 8).foldl (fun s i =>
    (s.fbit (F.flpPeer_ready i) false).fbit (F.flpPeer_nack i) false) s

/-- FLP_CMD.arm: FLP_REQ and FLP_TARGET are judged (R173). -/
def State.flipArm (s : State) : State :=
  let req := (s.rd Reg.flpReq).extractLsb' 0 4
  let target := s.rd Reg.flpTarget
  let reason := s.armReason req target
  if reason ≠ 0 then s.flipReject reason req.toNat target.toNat
  else
    let s := s.arm req target (req.getLsbD 3)
    if req.getLsbD 3 then
      let t := (s.fget F.flpCoord_lastTxn + 1) % 2 ^ 16
      ((s.fset F.flpCoord_lastTxn t).fset F.flpStat_txn t).clearAnswers
    else s

/-- FLP_CMD.cancel (R175). -/
def State.flipCancel (s : State) : State :=
  if s.flipStoppable then s.flipAbort frCancelled
  else if s.flipState = flpCommitted then s.flipEvent Ev.flipCancelLate frCancelled
  else s

/-! ### Rehearsal (R174, R178) -/

/-- A flip waits for the frame mark at which its rehearsal frame begins. -/
def State.rehearsalStart (s : State) : State :=
  if s.flipState = flpArmed && (s.fabricFlip || s.dist s.flip.target = 2) then
    let s := (s.enterFlip flpRehearsing).setFlip fun x => { x with results := [], judged := false }
    if s.fabricFlip && s.flip.coord then s.sendFlip (s.flipMsg fmPropose none) else s
  else s

/-- The rehearsal frame ends: READY or ABORTED. -/
def State.rehearsalDone (s : State) : State :=
  if s.flipState ≠ flpRehearsing then s
  else
    let r := s.endRehearsal
    if r.2 then
      let s := r.1.enterFlip flpReady
      if s.fabricFlip && !s.flip.coord then s.answerFlip (s.flipMsg fmReady none) else s
    else r.1.flipAbort frRehearsal 4

/-- REHEARSAL_END: row 8 of the rehearsal frame ends it, and is the last row judged (R174, R177). -/
def State.rehearsalEnd (s : State) : State :=
  if s.flipState ≠ flpRehearsing || !s.inLastRow then s else s.judgeRow.rehearsalDone

/-! ### The change of the live banks (R180, R181) -/

/-- The lowest clock step of R14 that holds a rehearsed cost (R29). -/
def clockStep (cycles : Nat) : Nat :=
  ((List.range 13).map fun i => 600 + 50 * i).find? (fun f => cycles * 900 ≤ 11875 * f) |>.getD 1200

/-- CLOCK_STEP_CHANGE: every engine of a plane runs at the step that its live program needs. -/
def State.setSteps (s : State) (octet : Bool) : State :=
  let b := s.live octet
  (List.range (if octet then 16 else 56)).foldl (fun s d =>
    let n := if s.idleIn octet d b then 0 else bits (s.rd (engReh octet d b)) 15 0
    s.onIsland (engIsland octet d) fun x => { x with step := clockStep n }) s

/-- The octet instructions of a program, in order. -/
def State.octProgram (s : State) (bankB : Bool) : Nat → Nat → List OctIns
  | 0, _ => []
  | n + 1, pc =>
    match s.fetchOct bankB pc with
    | .ins i => if i = .endI then [] else i :: s.octProgram bankB n (pc + octWords i)
    | _ => []

/-- Every instruction of the non-idle octet destinations of a bank. -/
def State.octBankIns (s : State) (bankB : Bool) : List OctIns :=
  (List.range 16).flatMap fun d =>
    if s.idleIn true d bankB then [] else s.octProgram bankB bankWords (s.startOf true d bankB)

/-- Octet addresses that an instruction reads. -/
def octReads : OctIns → List Nat
  | .movo f => [f.src.toNat, f.src.toNat + f.lenM1.toNat]
  | .movos f => runAddrs f.src.toNat (f.countM1.toNat + 1) (f.sstrideM1.toNat + 1)
  | .selo f =>
    [f.wSrc.toNat, f.wSrc.toNat + f.lenM1.toNat, f.pSrc.toNat, f.pSrc.toNat + f.lenM1.toNat]
  | .mix f => mixAddrs f
  | .mixp f => mixAddrs f
  | .gain f => [f.src.toNat, f.src.toNat + f.nM1.toNat]
  | .prbs true f => [f.addr.toNat, f.addr.toNat + f.nM1.toNat]
  | .casi f => [f.src.toNat, f.src.toNat + 32]
  | _ => []

/-- A channel named by a bank that becomes live restarts when its mode or polynomial differs from that of
the last bank that named it (R167). -/
def State.flipPrbs (s : State) : List OctIns → State
  | [] => s
  | .prbs c f :: r =>
    let ch := f.chan.toNat
    let s := if (s.prbsCh ch).last = some (c, f.poly) then s else s.prbsInit ch
    (s.setPrbs ch { s.prbsCh ch with last := some (c, f.poly) }).flipPrbs r
  | _ :: r => s.flipPrbs r

/-- Newly looped lanes that the live bank no longer names read as before from now on (R219). -/
def State.flipLoops (s : State) (l : List OctIns) : State :=
  let named := fun v => (l.flatMap octReads).any fun a => addrV a = v
  { s with fab := { s.fab with
      octNew := (List.range 8).foldl
        (fun m v => if named v then m else m &&& ~~~(BitVec.ofNat 8 (2 ^ v))) s.fab.octNew } }

/-- The bank of a plane changes: engines restart, and events said once per flip may be raised anew. -/
def State.setLive (s : State) (octet b : Bool) : State :=
  if octet then
    let s := s.fbit F.octBank_live b
    let l := s.octBankIns b
    let s := (List.range 16).foldl (fun s d => s.onOct d fun x =>
      { x with unwrSaid := false, eccSaid := [] }) s
    ((s.flipPrbs l).flipLoops l).setSteps true
  else
    let s := s.fbit F.colBank_live b
    let s := (List.range 56).foldl (fun s d => s.onCol d fun x =>
      { x with restart := true, unwrSaid := false, eccSaid := [] }) s
    s.setSteps false

/-- The target bank of the flip becomes live for a plane. -/
def State.makeLive (s : State) (octet : Bool) : State := s.setLive octet s.flipBank

/-- SEL_PATH_BAD may be raised again after a flip (R131). -/
def State.clearBadSaid (s : State) : State :=
  { s with paths := s.paths.foldl (fun m q =>
      m.put PathSt.init q.1 { q.2 with sel := { q.2.sel with badSaid := false } }) s.paths }

/-- BANK_FLIP: the target bank becomes live for every included plane (R180). -/
def State.bankFlip (s : State) : State :=
  let s := if s.flip.req.getLsbD 1 then s.makeLive false else s
  let s := if s.flip.req.getLsbD 2 then s.makeLive true else s
  let s := (s.clearBadSaid.enterFlip flpIdle).setFlip fun x => { x with unsure := false }
  (((s.count Reg.flpCntDone).flipEvent Ev.flipDone 0).flipEnded csOk).wakeEnded

/-- CATCH_UP_FLIP (R186): FLIP_SPLIT names the coordinator (log entry 28). -/
def State.catchUpFlip (s : State) : State :=
  let s := s.fbit F.flpStat_catchUp true
  let s := if s.flip.splitSaid then s
    else (s.count Reg.flpCntSplit).raise Ev.flipSplit (s.fget F.flpCoord_coordId)
  (s.setFlip fun x => { x with splitSaid := true }).bankFlip

/-- A member that is still READY at the frame mark of F is uncertain: it masks the planes of the flip in that frame
(R186). -/
def State.becomeUnsure (s : State) : State :=
  (s.fbit F.flpStat_uncertain true).setFlip fun x =>
    { x with unsure := true, maskCol := x.req.getLsbD 1, maskOct := x.req.getLsbD 2 }

/-- What a flip does at the frame mark of the current frame (R174, R180, R186). -/
def State.flipFrameMark (s : State) : State :=
  let here := s.dist s.flip.target = 0
  let s := s.setFlip fun x => { x with maskCol := false, maskOct := false }
  if s.flipState = flpCommitted && s.flip.unsure then s.catchUpFlip
  else if s.flipState = flpCommitted && here then s.bankFlip
  else if s.flipState = flpReady && s.flip.unsure then
    (s.flipAbort frUnresolved).setFlip fun x => { x with unsure := false }
  else if s.flipState = flpReady && s.fabricFlip && !s.flip.coord && here then s.becomeUnsure
  else (s.setFlip fun x => { x with unsure := false }).rehearsalStart

/-- A message that has another frame to go, or is repeated; none when its frames are over. -/
def FlipMsg.next (m : FlipMsg) : Option FlipMsg :=
  match m.left with
  | some (n + 2) => some { m with left := some (n + 1) }
  | some _ => Option.none
  | Option.none => some m

/-- The frame mark, for the messages: the one being sent moves on, and an answer given in the frame that ended is
sent from now on. -/
def State.flipMsgMark (s : State) : State :=
  s.setFlip fun x =>
    { x with
      out := match x.out with
        | m :: ms => (m.next.map fun m => m :: ms).getD ms
        | [] => []
      answerOn := true }

/-- Every member but this device has answered READY, with no NACK after it (R183). -/
def State.allReady (s : State) : Bool :=
  let me := s.fget F.fabCfg_deviceId
  (List.range 8).all fun i =>
    i = me || !(s.rd Reg.flpFabCfg).getLsbD i || (s.flag (F.flpPeer_ready i) && !s.flag (F.flpPeer_nack i))

/-- The row mark of the current row: the commit point of a single-device flip (R175), the decision of a
coordinator (R183). -/
def State.flipRowMark (s : State) : State :=
  if s.dist s.flip.target ≠ 1 then s
  else if !s.fabricFlip then
    (if s.flipState = flpReady && s.clock.row = 8 then s.enterFlip flpCommitted else s)
  else if s.flip.coord && s.clock.row = 0 && s.flipStoppable then
    if s.flipState = flpReady && s.allReady then
      (s.enterFlip flpCommitted).sendFlip (s.flipMsg fmCommit (some 3))
    else s.flipAbort frLate
  else s

/-! ### Fabric messages (R183-R186) -/

/-- This device takes part in fabric flips. -/
def State.isMember (s : State) : Bool :=
  s.flag F.fabCfg_en && (s.rd Reg.flpFabCfg).getLsbD (s.fget F.fabCfg_deviceId)

/-- The reason for which a member answers NACK without rehearsing; 0 for none (R184). -/
def State.nackReason (s : State) (p : Proposal) : Nat :=
  let d := s.dist p.target
  if s.flipOpen then frBusy
  else if d < 8 then frLate
  else if d < 9 || 2 ^ 30 < d then frTargetRange
  else if (p.col && s.live false = p.bank) || (p.oct && s.live true = p.bank) then frSameBank
  else if p.src.toNat ≠ s.fget F.flpCoord_coordId then frNotCoordinator
  else 0

/-- FLP_REQ [3:0] of a proposal. -/
def proposalReq (p : Proposal) : BitVec 4 :=
  BitVec.ofNat 4 (8 + 4 * b2n p.oct + 2 * b2n p.col + b2n p.bank)

/-- This member's own flip in progress is transaction `txn`. -/
def State.memberOf (s : State) (txn : BitVec 16) : Bool :=
  !s.flip.coord && s.fabricFlip && s.flipOpen && s.fget F.flpStat_txn = txn.toNat

/-- A device receives PROPOSE: one answered before changes nothing; one that it cannot follow is answered NACK, also
while its own flip goes on (R184). -/
def State.proposeReceived (s : State) (peer : Nat) (p : Proposal) : State :=
  if !s.isMember || s.flip.answered = some p.txn || s.memberOf p.txn || peer = s.fget F.fabCfg_deviceId then s
  else
    let reason := s.nackReason p
    let t := p.txn.toNat
    let s := (s.setFlip fun x => { x with answered := some p.txn }).fset F.flpCoord_lastTxn t
    if reason = 0 then
      ((s.arm (proposalReq p) p.target false).fset F.flpStat_txn t).setFlip fun x => { x with answer := none }
    else
      let s := s.fset F.flpStat_reason reason
      s.answerFlip
        { kind := BitVec.ofNat 3 fmNack, txn := p.txn, target := p.target, req := proposalReq p
          reason := BitVec.ofNat 8 reason, left := none }

/-- The coordinator's open transaction is `txn`. -/
def State.coordinates (s : State) (txn : BitVec 16) : Bool :=
  s.flip.coord && s.fabricFlip && s.flipOpen && s.fget F.flpStat_txn = txn.toNat

/-- READY counts in a frame up to F-2. -/
def State.readyReceived (s : State) (peer : Nat) (txn : BitVec 16) : State :=
  if s.coordinates txn && 2 ≤ s.dist s.flip.target && s.dist s.flip.target ≤ 2 ^ 30 then
    s.fbit (F.flpPeer_ready peer) true
  else s

def State.nackReceived (s : State) (peer : Nat) (txn : BitVec 16) (reason : Nat) : State :=
  if !s.coordinates txn then s
  else
    let s := ((s.fbit (F.flpPeer_nack peer) true).fset (F.flpPeer_nackReason peer) reason).fbit
      (F.flpPeer_ready peer) false
    if s.flipStoppable then s.flipAbort frNack else s

/-- Every non-idle destination of the included planes holds a valid rehearsal of the target bank. -/
def State.rehValid (s : State) : Bool :=
  let b := s.flipBank
  let ok := fun octet n => (List.range n).all fun d =>
    s.idleIn octet d b || bit (s.rd (engReh octet d b)) 31
  (!s.flip.req.getLsbD 1 || ok false 56) && (!s.flip.req.getLsbD 2 || ok true 16)

/-- An uncertain member resolves the transaction as committed. -/
def State.resolveCommit (s : State) : State :=
  if s.rehValid then (s.enterFlip flpCommitted).setFlip fun x => { x with catchUp := true } else s

/-- COMMIT for a transaction: the answer ends, and a READY or uncertain member commits. -/
def State.commitReceived (s : State) (txn : BitVec 16) : State :=
  let s := s.endAnswer txn
  if s.memberOf txn && s.flipState = flpReady then
    if s.flip.unsure then s.resolveCommit
    else if s.dist s.flip.target = 1 then s.enterFlip flpCommitted else s
  else s

/-- ABORT for a transaction: the answer ends, and a member goes to ABORTED (log entry 28: reason LATE). -/
def State.abortReceived (s : State) (txn : BitVec 16) : State :=
  let s := s.endAnswer txn
  if s.memberOf txn && s.flipStoppable then s.flipAbort frLate else s

/-! ### Live banks of the peers (R186, R187) -/

/-- The banks that a peer reports differ from this device's. -/
def State.splitFrom (s : State) (col oct : Bool) : Bool := col ≠ s.live false || oct ≠ s.live true

/-- Every other member has reported the old bank in this frame. -/
def State.allOld (s : State) : Bool :=
  let me := s.fget F.fabCfg_deviceId
  (List.range 8).all fun i =>
    i = me || !(s.rd Reg.flpFabCfg).getLsbD i ||
      (s.fab.heard.getLsbD i &&
        (!s.flip.req.getLsbD 1 || s.flag (F.flpPeer_colBank i) = s.live false) &&
        (!s.flip.req.getLsbD 2 || s.flag (F.flpPeer_octBank i) = s.live true))

/-- The live banks in a row 0 header of a peer. -/
def State.banksReceived (s : State) (peer : Nat) (col oct : Bool) : State :=
  let s := (s.fbit (F.flpPeer_colBank peer) col).fbit (F.flpPeer_octBank peer) oct
  let diff := s.splitFrom col oct
  let s := s.fbit (F.flpPeer_split peer) diff
  let s :=
    if diff && !s.flip.splitSaid && !s.flip.unsure then
      ((s.count Reg.flpCntSplit).raise Ev.flipSplit peer).setFlip fun x => { x with splitSaid := true }
    else s
  if s.flip.unsure && s.flipState = flpReady then
    let b := s.flipBank
    if (s.flip.req.getLsbD 1 && col = b) || (s.flip.req.getLsbD 2 && oct = b) then s.resolveCommit
    else if s.allOld then s.flipAbort frLate
    else s
  else s

/-! ### The coordinator lease (R188; log entry 28) -/

/-- Device_id at rank `r` of a rank register. -/
def rankId (v : W32) (r : Nat) : Nat := bits v (3 * r + 2) (3 * r)

/-- The rank of a device. -/
def rankOf (v : W32) (id : Nat) : Nat := ((List.range 8).find? fun r => rankId v r = id).getD 8

def State.me (s : State) : Nat := s.fget F.fabCfg_deviceId

/-- Frames in which nothing was heard of a device; none for this one. -/
def State.silence (s : State) (i : Nat) : Nat := if i = s.me then 0 else s.fget (F.flpPeer_silent i)

/-- The first device in rank order after the holder that is not silent; after the last rank comes the first (log
entry 89). -/
def State.nextHolder (s : State) : Option Nat :=
  let v := s.rd Reg.flpFabRank
  let r := rankOf v (s.fget F.flpCoord_coordId)
  ((List.range 8).map fun k => rankId v ((r + 1 + k) % 8)).find? fun i => s.silence i < 16

/-- COORD_LEASE: the holder has been silent for 16 frames and this device is next. -/
def State.coordLease (s : State) : State :=
  if s.flag F.fabCfg_en && !s.flag F.flpCoord_self && 16 ≤ s.silence (s.fget F.flpCoord_coordId) &&
      s.nextHolder = some s.me then
    s.setFlip fun x => { x with leaseDue := true }
  else s

/-- A claim of the lease in a peer's header: coord_id equal to the sender. `was` is the count of silent frames that the
header ended: a holder that was cut off adopts the claim. -/
def State.claimReceived (s : State) (peer coordId was : Nat) : State :=
  let v := s.rd Reg.flpFabRank
  if coordId = s.me then { s with fab := { s.fab with confirmed := true } }
  else if coordId ≠ peer then s
  else if !s.flag F.flpCoord_self then s.fset F.flpCoord_coordId coordId
  else if s.fab.former.getLsbD peer then s
  else if !s.fab.confirmed || 16 ≤ was || rankOf v peer < rankOf v s.me then
    s.fset F.flpCoord_coordId coordId
  else s

/-- A lease taken or withdrawn takes effect at a frame mark. -/
def State.leaseMark (s : State) : State :=
  if s.flip.leaseDue then
    let old := s.fget F.flpCoord_coordId
    let s := s.setFlip fun x => { x with leaseDue := false }
    let s := { s with fab := { s.fab with
      former := s.fab.former ||| BitVec.ofNat 8 (2 ^ old), confirmed := true } }
    ((s.fset F.flpCoord_coordId s.me).fbit F.flpCoord_self true).raise Ev.coordLease s.me
  else if s.flag F.flpCoord_self && s.fget F.flpCoord_coordId ≠ s.me then s.fbit F.flpCoord_self false
  else s

/-- Frames without a header are counted per peer at each frame mark. -/
def State.silenceMark (s : State) : State :=
  let s :=
    if !s.flag F.fabCfg_en then s
    else (List.range 8).foldl (fun s i =>
      if i = s.me || s.fab.heard.getLsbD i then s
      else s.countSat (F.flpPeer_silent i) 255 1) s
  { s with fab := { s.fab with heard := 0 } }

/-- The lease holder after reset is rank 0; identity and rank decide whether this device is it. -/
def State.leaseReset (s : State) : State :=
  let s := s.fset F.flpCoord_coordId (rankId (s.rd Reg.flpFabRank) 0)
  s.fbit F.flpCoord_self (s.flag F.fabCfg_en && s.fget F.flpCoord_coordId = s.me)

/-- A write of FLP_FAB_CFG or FLP_FAB_RANK (R189). A write that changes the rank names the device at rank 0 as the
holder at once (log entry 90). -/
def State.flpFabWrite (s : State) (rank : Bool) (be : BitVec 4) (v : W32) : State :=
  let a := if rank then Reg.flpFabRank else Reg.flpFabCfg
  let new := mergeBe (s.rd a) (v &&& if rank then 0x00FFFFFF else 0x000000FF) be
  if s.flipOpen then s.flipReject frBusy 0 0
  else if rank && new ≠ s.rd a then (s.wr a new).leaseReset
  else s.wr a new

/-! ### Program writes (R105) -/

/-- A discarded write joins the report of its frame. -/
def State.noteDiscard (s : State) (octet : Bool) (w1 w2 : Nat) (committed : Bool) : State :=
  let k := b2n octet
  let x : Discarded :=
    match s.discards.find? (·.1 = k) with
    | some (_, d) => { d with count := d.count + 1 }
    | none => ⟨BitVec.ofNat 32 (k * 2 ^ 31 + w1), BitVec.ofNat 32 w2, BitVec.ofNat 32 (b2n committed), 1⟩
  { s with discards := s.discards.insert k x }

/-- PROG_WRITE_REJECT at the frame mark that ends a frame with discarded writes. -/
def State.rejectMark (s : State) : State :=
  let l := s.discards
  let s := { s with discards := [] }
  l.foldl (fun s q =>
    s.raise (Ev.progWriteReject (q.1 = 1)) q.2.word1.toNat q.2.word2.toNat q.2.word3.toNat q.2.count) s

/-- A bank may not be written: it is live, or its flip is COMMITTED. A device in SYNCING takes every
mirrored write (R241). -/
def State.progLocked (s : State) (m : Master) (octet bankB : Bool) : Bool :=
  !(m = .mirror && s.mateState = mateSyncing) &&
    (s.live octet = bankB || (s.flipState = flpCommitted && s.flipOf octet))

/-- A shadow write cancels a flip of its plane that has not committed. -/
def State.shadowWritten (s : State) (octet bankB : Bool) : State :=
  if s.live octet ≠ bankB && s.flipStoppable && s.flipOf octet then s.flipAbort frCancelled else s

/-- REH valid of a destination of a bank is cleared. -/
def State.clearReh (s : State) (octet bankB : Bool) (d : Nat) : State :=
  s.wr (engReh octet d bankB) (setBits (s.rd (engReh octet d bankB)) 31 31 0)

/-- A write of half of a program word. -/
def State.progWrite (s : State) (m : Master) (octet bankB : Bool) (word : Nat) (high : Bool)
    (be : BitVec 4) (v : W32) : State :=
  if be = 0 then s
  else if s.progLocked m octet bankB then
    s.noteDiscard octet 0 word (s.live octet ≠ bankB)
  else
    let a := bankAddr octet bankB word + if high then 4 else 0
    let s := (s.wakeAt a).hkWrite a be v
    let s := (List.range (if octet then 16 else 56)).foldl (fun s d => s.clearReh octet bankB d) s
    s.shadowWritten octet bankB

/-- A write of START_A or START_B. -/
def State.startWrite (s : State) (m : Master) (octet : Bool) (d : Nat) (bankB : Bool) (be : BitVec 4)
    (v : W32) : State :=
  if be = 0 then s
  else if s.progLocked m octet bankB then
    s.noteDiscard octet (2 ^ 30 + d) (b2n bankB) (s.live octet ≠ bankB)
  else
    let a := engStart octet d bankB
    let s := s.wr a (mergeBe (s.rd a) (v &&& 0x8007FFFF) be)
    (s.clearReh octet bankB d).shadowWritten octet bankB

/-- The effect of a write that reaches its place: a register takes new parity (R387) and is not written while
a reset is in progress (R402); the bank behind BAR2 wakes (R344). -/
def State.reach (s : State) (bar2 : Bool) (a : Nat) (f : State → State) : State :=
  if bar2 then f (s.wakeAt a)
  else if s.flag F.rstStat_busy && !busyBlock a then s else f (s.mendReg a)

/-- A write by a master: all but MIRROR act as the host (R232, R236). -/
def State.byMaster (s : State) (m : Master) (bar2 : Bool) (a : Nat) (be : BitVec 4) (v : W32)
    (f : State → State) : State :=
  if m = .mirror then s.reach bar2 a f
  else if m ≠ .host then s.asHost bar2 a be v fun s => s.reach bar2 a f
  else if bar2 then s.hostMem a be v f else s.hostReg a be v f

/-- Plane and number of an engine. -/
def engineOf : Engine → Bool × Nat
  | .col d => (false, d.val)
  | .oct d => (true, d.val)

/-! ### Commands -/

def execFlipArm (s : State) : Host.Outcome State Fault Refusal :=
  whenUp s fun s => s.hostReg Reg.flpCmd 0xF 1 State.flipArm

def execFlipCancel (s : State) : Host.Outcome State Fault Refusal :=
  whenUp s fun s => s.hostReg Reg.flpCmd 0xF 2 State.flipCancel

def execRehearsalEnd (s : State) : Host.Outcome State Fault Refusal :=
  whenUp s fun s => s.rehearsalEnd

def execProposeReceived (peer : Peer) (p : Proposal) (s : State) : Host.Outcome State Fault Refusal :=
  whenUp s fun s => if p.con then s else s.proposeReceived peer.val p

def execReadyReceived (peer : Peer) (con : Bool) (txn : BitVec 16) (s : State) : Host.Outcome State Fault Refusal :=
  whenUp s fun s => if con then s else s.readyReceived peer.val txn

def execNackReceived (peer : Peer) (con : Bool) (txn : BitVec 16) (reason : BitVec 8) (s : State) :
    Host.Outcome State Fault Refusal :=
  whenUp s fun s => if con then s else s.nackReceived peer.val txn reason.toNat

def execCommitReceived (_peer : Peer) (con : Bool) (txn : BitVec 16) (s : State) : Host.Outcome State Fault Refusal :=
  whenUp s fun s => if con then s else s.commitReceived txn

def execAbortReceived (_peer : Peer) (con : Bool) (txn : BitVec 16) (s : State) : Host.Outcome State Fault Refusal :=
  whenUp s fun s => if con then s else s.abortReceived txn

def execCoordLease (s : State) : Host.Outcome State Fault Refusal :=
  whenUp s fun s => s.coordLease

def execFlpFabCfgWrite (rank : Bool) (be : BitVec 4) (v : W32) (s : State) :
    Host.Outcome State Fault Refusal :=
  whenUp s fun s =>
    s.hostReg (if rank then Reg.flpFabRank else Reg.flpFabCfg) be v fun s => s.flpFabWrite rank be v

def execBankWordWrite (m : Master) (plane : Plane) (bank : Bool) (word : BitVec 19) (high : Bool)
    (be : BitVec 4) (v : W32) (s : State) : Host.Outcome State Fault Refusal :=
  whenUp s fun s =>
    let o := plane = .octet
    let a := bankAddr o bank word.toNat + if high then 4 else 0
    s.byMaster m true a be v fun s => s.progWrite m o bank word.toNat high be v

def execStartWrite (m : Master) (e : Engine) (bank : Bool) (be : BitVec 4) (v : W32) (s : State) :
    Host.Outcome State Fault Refusal :=
  whenUp s fun s =>
    let (o, d) := engineOf e
    s.byMaster m false (engStart o d bank) be v fun s => s.startWrite m o d bank be v

end Sys2Proof.Machine
end

