-- ==== Sys2Proof/Machine/Timing.lean ====
section
/-! DEFINITION. The sync block (R246-R267): slots and their quality, qualification, selection, the states
of the DPLL, phase steps, holdover and the learned models. -/

namespace Sys2Proof.Machine

/-! ### Codes -/

def tmFreeRun : Nat := 0
def tmAcquiring : Nat := 1
def tmLocked : Nat := 2
def tmHoldover : Nat := 3
def tmLost : Nat := 4

/-- TMG_STAT.sel: a fabric or mate lane, and none. -/
def selFollow : Nat := 14
def selNone : Nat := 15

def State.tmState (s : State) : Nat := s.fget F.tmgStat_state

/-- A history bit of TMG_STICKY (R268). -/
def State.tmSticky (s : State) (b : Nat) : State :=
  s.sticky Reg.tmgSticky Reg.tmgIntEn (BitVec.ofNat 32 (2 ^ b)) Ev.tmgEvent

def State.setTmg (s : State) (f : TmgSt → TmgSt) : State := { s with tmg := f s.tmg }

/-- Entry into a timing state: history bit and TMG_STATE (R258). FREE_RUN, HOLDOVER and LOST make R262
due at the next lock, and that lock alone may align. -/
def State.enterTm (s : State) (st : Nat) : State :=
  let s := (s.fset F.tmgStat_state st).tmSticky st
  let s := s.raise Ev.tmgState 0 0 st
  if st = tmAcquiring then s.setTmg fun x => { x with ppsAsk := false }
  else if st = tmLocked then s.setTmg fun x => { x with ppsAsk := x.ppsDue, ppsDue := false }
  else s.setTmg fun x => { x with ppsAsk := false, ppsDue := true }

/-! ### Signed registers -/

/-- A register read as two's complement. -/
def State.sreg (s : State) (a : Nat) : Int := signed 32 (s.rd a).toNat

def State.setSreg (s : State) (a : Nat) (i : Int) : State := s.wr a (BitVec.ofNat 32 (unsigned 32 i))

/-! ### Quality levels (R250, R251) -/

/-- The rank of a code; 99 for QL-INV. -/
def qlRank (opt2 : Bool) (ql : Nat) : Nat :=
  let t : List (Nat × Nat) :=
    if opt2 then
      [(0x1, 1), (0x0, 2), (0x7, 3), (0x4, 4), (0xD, 5), (0xA, 6), (0xC, 7), (0xE, 8), (0xF, 9)]
    else [(0x2, 1), (0x4, 2), (0x8, 3), (0xB, 4), (0xF, 5)]
  ((t.find? (·.1 = ql)).map (·.2)).getD 99

/-- Source field of a slot's applied configuration; 53-62 act as 63 (R246). -/
def State.slotSrc (s : State) (i : Nat) : Nat :=
  let v := bits (s.refCfg i) 31 26
  if v ≤ 52 then v else 63

def State.slotPrio (s : State) (i : Nat) : Nat := bits (s.refCfg i) 25 22

/-- Frequency code of REFINj; 6-15 act as 0 (R268). -/
def State.refinFreq (s : State) (j : Nat) : Nat :=
  let v := bits (s.rd Reg.tmgRefin) (4 * j + 3) (4 * j)
  if v ≤ 5 then v else 0

/-- The source is allowed (R246). -/
def State.slotAllowed (s : State) (i : Nat) : Bool :=
  let v := s.slotSrc i
  if v < 48 then s.role v = roleSdh || s.role v = roleNative
  else if v < 52 then s.refinFreq (v - 48) ≠ 0
  else v = 52 && s.flag F.tmgRefin_finEn

/-- The source has signal (R247, R252). -/
def State.slotSignal (s : State) (i : Nat) : Bool :=
  let v := s.slotSrc i
  if v < 48 then
    s.stage v = stageActive &&
      (if s.isSdh v then !s.flag (F.ltmStat_los v) && !s.flag (F.ltmStat_lof v) && !s.flag (F.ltmStat_msAis v)
       else !s.flag (F.sdsStat_los v) && !(s.lane v).lof)
  else v < 53 && !s.tmg.noSignal.contains (v - 48)

/-- The QL of a slot (R251); none for a lane's QL-INV. -/
def State.slotQl (s : State) (i : Nat) : Option Nat :=
  let v := s.slotSrc i
  let c := s.refCfg i
  if bit c 21 || 48 ≤ v then some (bits c 20 17)
  else if s.isSdh v then (if s.flag (F.ltmOhRx_s1Valid v) then some (s.fget (F.ltmOhRx_s1 v) % 16) else none)
  else (s.lane v).qlAcc.map (·.toNat)

/-- The rank of a slot's QL. -/
def State.slotRank (s : State) (i : Nat) : Nat :=
  match s.slotQl i with
  | some q => qlRank (s.flag F.tmgCfg_opt2) q
  | none => 99

/-- A QL that no qualified slot and no output may have: DNU, DUS or INV. -/
def badRank (opt2 : Bool) (r : Nat) : Bool := (if opt2 then 9 else 5) ≤ r

/-! ### Qualification (R252) -/

/-- A limit in ppt from units of 0.01 ppm, kept in range. -/
def limitPpt (v lo hi : Nat) : Int := (clamp lo hi v : Nat) * 10000

def State.hardLimit (s : State) : Int := limitPpt (s.fget F.tmgLimits_hard) 10 10000
def State.softLimit (s : State) : Int := min (limitPpt (s.fget F.tmgLimits_soft) 10 10000) s.hardLimit

/-- OSCIN has been detected and has not stopped (R248). -/
def State.oscPresent (s : State) : Bool := s.tmg.oscSeen && !s.flag F.tmgStat_oscFail

/-- All conditions of R252 but their duration. -/
def State.slotOk (s : State) (i : Nat) : Bool :=
  s.slotAllowed i && s.slotSignal i && s.flag (F.tmgRefStat_inLimit i) && s.oscPresent &&
    (!s.flag F.tmgCfg_qlEn || !badRank (s.flag F.tmgCfg_opt2) (s.slotRank i))

def State.slotQualified (s : State) (i : Nat) : Bool := s.flag (F.tmgRefStat_qualified i)

/-- A slot is not qualified, and its wait starts anew. -/
def State.disqualify (s : State) (i : Nat) : State :=
  (s.fbit (F.tmgRefStat_qualified i) false).setTmg fun x => { x with waits := x.waits.put 0 i 0 }

/-- Evaluations in the wait of R252: one a millisecond. -/
def State.waitEvals (s : State) : Nat := 1000 * min 720 (s.fget F.tmgCfg_refWtr)

def slots : List Nat := List.range 12

/-- Status of a slot: signal, QL in use, the wait that runs. -/
def State.refreshSlot (s : State) (i : Nat) : State :=
  let s := s.fbit (F.tmgRefStat_sigOk i) (s.slotAllowed i && s.slotSignal i)
  let s := s.fset (F.tmgRefStat_ql i) ((s.slotQl i).getD Config.qlInv.toNat)
  s.fbit (F.tmgRefStat_wtrRun i) (s.slotOk i && !s.slotQualified i)

/-- The signal condition of a slot fails: disqualified in that row, and the DPLL freezes when the slot is
selected (R252, R257). -/
def State.signalFails (s : State) (i : Nat) : State :=
  if s.slotAllowed i && s.slotSignal i then s
  else
    let s := s.disqualify i
    let s := if s.fget F.tmgStat_sel = i then s.setTmg fun x => { x with frozen := true } else s
    s.refreshSlot i

/-- Disqualification and qualification of one slot at an evaluation: when its conditions have held for the wait, or
when they hold at the first judgement since reset (R252, R256). -/
def State.judgeSlot (s : State) (i : Nat) : State :=
  let ok := s.slotOk i
  let s := if s.slotQualified i && !ok then s.disqualify i else s
  let n := if ok then s.tmg.waits.get 0 i + 1 else 0
  let known := s.tmg.measured.contains i
  let due := (known && !s.tmg.started.contains i) || s.waitEvals < n
  let s := if ok && !s.slotQualified i && due then s.fbit (F.tmgRefStat_qualified i) true else s
  s.setTmg fun x =>
    { x with
      waits := x.waits.put 0 i (min n (s.waitEvals + 1))
      started := if known then setMember x.started i true else x.started }

/-- SUSPECT shows either cause (R254); TMG_SUSPECT is raised on entry. -/
def State.showSuspect (s : State) (i : Nat) : State :=
  let was := s.flag (F.tmgRefStat_suspect i)
  let now := s.tmg.drifted = some i || s.tmg.odd.any (·.1 = i)
  let s := s.fbit (F.tmgRefStat_suspect i) now
  if now && !was then (s.tmSticky 8).raise Ev.tmgSuspect i else s

/-- Slot `i` belongs to a pair. -/
def inPair (i k : Nat) : Bool := k / 12 = i || k % 12 = i

/-- A slot's configuration takes effect; another source starts unqualified and unmeasured. -/
def State.applySlot (s : State) (i : Nat) : State :=
  let old := s.slotSrc i
  let s := s.setTmg fun x =>
    { x with refNow := x.refNow.put (regReset (Reg.tmgRefCfg i)) i (s.rd (Reg.tmgRefCfg i)) }
  if s.slotSrc i = old then s
  else
    let s := ((s.disqualify i).fbit (F.tmgRefStat_inLimit i) false).fbit (F.tmgRefStat_soft i) false
    let s := s.setTmg fun x =>
      { x with
        measured := setMember x.measured i false
        pairs := x.pairs.filter fun q => !inPair i q.1
        odd := x.odd.filter fun q => !inPair i q.2
        drifted := if x.drifted = some i then none else x.drifted }
    slots.foldl State.showSuspect s

/-! ### Following a master or a mate (R223, R244) -/

/-- The lowest-numbered ACTIVE lane of a role that `p` admits without frame-phase error in the last frame. -/
def State.refLaneOf (s : State) (role : Nat) (p : Nat → Bool) : Option Nat :=
  (List.range 48).find? fun l =>
    s.role l = role && s.stage l = stageActive && !(s.lane l).fpeLast && p l

/-- The reference lane of a device that follows. -/
def State.followLane (s : State) : Option Nat :=
  let role := s.fget F.fabStat_tmRole
  let st := s.mateState
  if role = 2 then s.refLaneOf roleFabric fun l => s.fget (F.fabLane_peer l) = s.fget F.fabStat_tmId
  else if (st = mateSyncing || st = mateStandby) && role ≤ 1 then s.refLaneOf roleMate fun _ => true
  else none

/-! ### The choice (R255, R256) -/

/-- The keys of R255. -/
def State.slotKeys (s : State) (i : Nat) : List Nat :=
  [if s.flag F.tmgCfg_qlEn then s.slotRank i else 0, s.slotPrio i, b2n (s.flag (F.tmgRefStat_suspect i)),
    b2n (s.fget F.tmgStat_sel ≠ i), i]

/-- A list of keys comes before another. -/
def keysBefore : List Nat → List Nat → Bool
  | a :: as, b :: bs => a < b || (a = b && keysBefore as bs)
  | _, _ => false

/-- Slots that may be chosen. -/
def State.candidates (s : State) : List Nat := slots.filter fun i => s.slotQualified i && s.slotPrio i ≠ 0

/-- The first candidate. -/
def State.bestSlot (s : State) : Option Nat :=
  s.candidates.foldl (fun b i =>
    match b with
    | none => some i
    | some j => if keysBefore (s.slotKeys i) (s.slotKeys j) then some i else b) none

/-- The slot that R256 chooses. -/
def State.chooseSlot (s : State) : Option Nat :=
  let v := s.tmg.selNow
  let want := bits v 3 0
  let cur := s.fget F.tmgStat_sel
  if bit v 31 && s.candidates.contains want then some want
  else if s.flag F.tmgCfg_revertive then s.bestSlot
  else if s.candidates.contains cur then
    match s.bestSlot with
    | some b => if s.flag F.tmgCfg_qlEn && s.slotRank b < s.slotRank cur then some b else some cur
    | none => none
  else s.bestSlot

/-- A slot whose source is 1 PPS. -/
def State.ppsSlot (s : State) (i : Nat) : Bool :=
  i < 12 && 48 ≤ s.slotSrc i && s.slotSrc i < 52 && s.refinFreq (s.slotSrc i - 48) = 5

/-- The bandwidth step that a loop starts with (R259). -/
def State.firstBw (s : State) : Nat := if s.ppsSlot (s.fget F.tmgStat_sel) then 3 else 0

/-- The last bandwidth step. -/
def State.finalBw (s : State) : Nat :=
  let v := s.fget F.tmgDpll_finalBw
  let v := if v = 0 || 6 ≤ v then 2 else v
  if s.ppsSlot (s.fget F.tmgStat_sel) then max 3 v else v

/-- ACQUIRING starts at the first bandwidth. -/
def State.acquire (s : State) : State := (s.enterTm tmAcquiring).fset F.tmgStat_bw s.firstBw

/-- The device takes its timing from a fabric master, holds over for want of one, or follows its mate: the choice of
R256 is not made (R223, R244, R257). -/
def State.follows (s : State) : Bool :=
  let role := s.fget F.fabStat_tmRole
  role = 2 || role = 3 || s.mateState = mateSyncing || s.mateState = mateStandby && role ≤ 1

/-! ### Models and holdover (R263, R265) -/

/-- The oscillator temperature in 0.01 degC. -/
def State.theta (s : State) : Int := signed 16 (s.fget F.tmgOscTemp_theta)

/-- T(theta) in 10^-10 ppt. -/
def State.tempPart (s : State) (theta : Int) : Int :=
  let d := theta - 2500
  s.sreg (Reg.tmgTc 1) * d * 10 ^ 8 + s.sreg (Reg.tmgTc 2) * d ^ 2 * 10 ^ 4 + s.sreg (Reg.tmgTc 3) * d ^ 3

/-- Hours powered in 0.001 h: whole hours, and the frames begun since. -/
def State.hoursNow (s : State) : Int :=
  ((s.rd Reg.tmgAgeHours).toNat * 1000 + (s.clock.frames - s.tmg.hourAt) / 28800 : Nat)

/-- A(t) in 10^-10 ppt. -/
def State.agePart (s : State) (t : Int) : Int :=
  ageingOf (s.sreg Reg.tmgAgeA) (s.sreg Reg.tmgAgeB) (max 1 (s.fget F.tmgAgeTau_tau)) t

/-- c0 + T + A at the moment, in 10^-10 ppt. -/
def State.modelNow (s : State) : Int :=
  s.sreg (Reg.tmgTc 0) * 10 ^ 10 + s.tempPart s.theta + s.agePart s.hoursNow

/-- FREE_RUN: the DPLL produces OSCIN corrected to nominal by the models (R263). -/
def State.freeOut (s : State) : State := s.setSreg Reg.tmgFreq (rounded (-s.modelNow) (10 ^ 10))

/-- The 30 newest eligible records that end at least 5 minutes ago. -/
def State.holdWindow (s : State) : List Minute := ((s.tmg.minutes.drop 5).filter (·.eligible)).take 30

/-- The holdover base of the moment; none with fewer than 10 eligible records. -/
def State.formBase (s : State) : Option HoldBase :=
  let w := s.holdWindow
  if w.length < 10 then none
  else some ⟨meanOf (w.map (·.offset)), meanOf (w.map (·.theta)),
    meanOf (w.map fun m => (m.hours : Int) * 1000), deviationOf (w.map (·.offset))⟩

/-- y(t) in ppt. -/
def State.holdValue (s : State) (b : HoldBase) : Int :=
  rounded (b.y * 10 ^ 10 + s.tempPart b.theta - s.tempPart s.theta + s.agePart b.t - s.agePart s.hoursNow) (10 ^ 10)

/-- e(t) in ppt. -/
def State.holdError (s : State) (b : HoldBase) : Int :=
  rounded (b.e0 * 8640000 + (s.fget F.tmgHoK_kT : Int) * (s.theta - b.theta).natAbs * 86400 +
    (s.fget F.tmgHoK_kA : Int) * s.tmg.lost * 100) 8640000

/-- The temperature is invalid or outside the modelled range (TMG_STAT.temp_bad). -/
def State.tempBad (s : State) : Bool :=
  let lo := signed 16 (s.fget F.tmgTrange_tMin) * 10
  let hi := signed 16 (s.fget F.tmgTrange_tMax) * 10
  !s.flag F.tmgOscTemp_valid || (lo ≤ hi && (s.theta < lo || hi < s.theta))

/-- No reference is left in ACQUIRING or LOCKED: HOLDOVER or FREE_RUN (R258, R263). -/
def State.loseRef (s : State) : State :=
  match s.formBase with
  | some b =>
    ((s.setTmg fun x => { x with base := some b, lost := 0 }).setSreg Reg.tmgHoValue (s.holdValue b)).enterTm
      tmHoldover
  | none =>
    ((s.setTmg fun x => { x with base := none, lost := 0 }).freeOut).enterTm tmFreeRun

/-! ### The evaluation (R256-R258, R266) -/

/-- A change of reference in LOCKED: with pbo = 1 the phase of the new reference is built out; with pbo = 0 what the
output has to move to it joins the pending phase, and how much that is nothing in the model says (R260; log entry
3). It is no first lock of R262. -/
def State.pullIn (s : State) : State :=
  let s := s.setTmg fun x => { x with ppsAsk := false }
  if s.flag F.tmgDpll_pbo then s
  else
    let q := s.draw
    q.2.setSreg Reg.tmgPhasePend (q.2.sreg Reg.tmgPhasePend + signed 32 q.1.toNat)

/-- A change of the choice, and what it makes of the DPLL's state. -/
def State.setChoice (s : State) (new : Nat) : State :=
  let old := s.fget F.tmgStat_sel
  if new = old then s
  else
    let s := ((s.fset F.tmgStat_sel new).tmSticky 5).raise Ev.tmgRefSwitch new
    let st := s.tmState
    if new = selNone then (if st = tmAcquiring || st = tmLocked then s.loseRef else s)
    else if st = tmLocked then s.pullIn
    else if st = tmLost && !s.oscPresent then s
    else s.acquire

/-- REF_SELECTION: every 8th frame mark. -/
def State.refSelection (s : State) : State :=
  if s.clock.frame.toNat % 8 ≠ 0 then s
  else
    let s := slots.foldl State.judgeSlot s
    let s := s.setTmg fun x => { x with frozen := false, selNow := s.rd Reg.tmgSel }
    let s := slots.foldl State.applySlot s
    let s := slots.foldl State.refreshSlot s
    match s.followLane with
    | some _ => s.setChoice selFollow
    | none => s.setChoice (if s.follows then selNone else s.chooseSlot.getD selNone)

/-- The QL of the selected reference. -/
def State.selQl (s : State) : Nat :=
  let sel := s.fget F.tmgStat_sel
  if sel = selFollow then
    match (s.lane (s.fget F.fabStat_refLane)).qlAcc with
    | some q => q.toNat
    | none => Config.qlInv.toNat
  else if sel < 12 then (s.slotQl sel).getD Config.qlInv.toNat
  else s.fget F.tmgCfg_ownQl

/-- The egress QL of the frame that begins, and the lane that is sent DNU in it (R266). -/
def State.refreshQl (s : State) : State :=
  let st := s.tmState
  let s := s.setTmg fun x => { x with dnuLane := s.refLane? }
  s.fset F.tmgStat_egressQl
    (if st = tmLocked then s.selQl else if st = tmLost then 0xF else s.fget F.tmgCfg_ownQl)

/-- The reference lane of the frame that begins (R223). -/
def State.refreshRefLane (s : State) : State :=
  match s.followLane with
  | some l => s.fset F.fabStat_refLane l
  | none => s

/-! ### Phase steps (R260-R262) -/

/-- The pending phase moves at the slope: 1.25 ps a frame for each 0.01 ppm. -/
def State.movePhase (s : State) : State :=
  let p := s.sreg Reg.tmgPhasePend
  if p = 0 then s
  else
    let q := s.tmg.pendQ + 5 * clamp 5 750 (s.fget F.tmgDpll_slope)
    let n : Int := (q / 4 : Nat)
    let p' := if p < 0 then min 0 (p + n) else max 0 (p - n)
    (s.setSreg Reg.tmgPhasePend p').setTmg fun x => { x with pendQ := if p' = 0 then 0 else q % 4 }

/-- TMG_PHASE_STEP (R261). -/
def State.phaseStep (s : State) (v : W32) : State :=
  let x := signed 32 v.toNat
  let new := s.sreg Reg.tmgPhasePend + x
  let st := s.mateState
  if x < -500000 || 500000 < x || new < -10000000 || 10000000 < new || 2 ≤ s.fget F.fabStat_tmRole ||
      st = mateSyncing || st = mateStandby then
    (s.tmSticky 9).raise Ev.tmgStepReject
  else s.setSreg Reg.tmgPhasePend new

/-- The selected slot's edges can place the frame mark. -/
def State.ppsSource (s : State) : Bool :=
  let sel := s.fget F.tmgStat_sel
  s.ppsSlot sel || (sel < 12 && s.slotSrc sel = 52)

/-- PPS_ALIGN_STEP (R262): the first lock to a 1 PPS or FRAME_IN slot has found the frame mark `away` ns after the
nearest source edge. More than 1 us from the edge plus TMG_PPS_OFS, it is moved onto that point at the mark of frame
N + 2. For 1 PPS that frame number is a multiple of 8,000; which one the spec leaves open (log entry 3). -/
def State.ppsAlignStep (s : State) (away : Int) : State :=
  if s.flag F.tmgCfg_ppsPhase && s.fget F.fabStat_tmRole ≤ 1 && s.tmState = tmLocked && s.ppsSource &&
      s.tmg.ppsAsk && 1000 < (away - s.sreg Reg.tmgPpsOfs).natAbs && s.clock.step.isNone then
    let s := s.setTmg fun x => { x with ppsAsk := false }
    if s.ppsSlot (s.fget F.tmgStat_sel) then
      let q := s.draw
      q.2.decideStep (.number (BitVec.ofNat 32 (q.1.toNat % 536871 * 8000)))
    else s.decideStep .next
  else s

/-- The step of the frame mark that begins the current frame (R224, R262): CON in its 9 rows, an armed flip
cancelled. -/
def State.stepMark (s : State) (k : StepTo) : State :=
  let s := (s.count Reg.fabCntStep).raise Ev.fabAlignStep
  let s := if s.flipStoppable then s.flipAbort frCancelled else s
  { s with
    clock := { s.clock with stepCon := 9 }
    fab := { s.fab with phased := s.fab.phased || k = .master } }

/-! ### Events -/

/-- OSCIN_STOP (R21, R248): of an OSCIN that has been detected. -/
def State.oscinStop (s : State) : State :=
  if !s.oscPresent then s
  else
    let s := { (s.fbit F.tmgStat_oscFail true).tmSticky 6 with clock := { s.clock with backup := true } }
    if s.tmState = tmLost then s else s.enterTm tmLost

/-- OSCIN_RETURN (R248, R258): 1 s of edges at the frequency of code `freq`. The first since boot detects OSCIN and
its frequency; later ones must show that frequency. -/
def State.oscinReturn (s : State) (freq : Nat) : State :=
  if !s.tmg.oscSeen then
    let s := (s.fset F.tmgStat_oscFreq freq).setTmg fun x => { x with oscSeen := true }
    { s with clock := { s.clock with backup := false } }
  else if !s.flag F.tmgStat_oscFail || freq ≠ s.fget F.tmgStat_oscFreq then s
  else
    let s := { s.fbit F.tmgStat_oscFail false with clock := { s.clock with backup := false } }
    if s.tmState ≠ tmLost then s
    else if s.fget F.tmgStat_sel = selNone then s.freeOut.enterTm tmFreeRun
    else s.acquire

/-- An external input loses signal (R247). -/
def State.refinLoss (s : State) (j : Nat) : State :=
  let s := s.setTmg fun x => { x with noSignal := setMember x.noSignal j true }
  slots.foldl (fun s i => if s.slotSrc i = 48 + j then s.signalFails i else s) s

def State.refinReturn (s : State) (j : Nat) : State :=
  let s := s.setTmg fun x => { x with noSignal := setMember x.noSignal j false }
  slots.foldl (fun s i => if s.slotSrc i = 48 + j then s.refreshSlot i else s) s

/-- The 30-minute sum and count of the eligible records that precede (R264). -/
def State.driftMean (s : State) : Int × Nat :=
  let l := ((s.tmg.minutes.filter (·.eligible)).take 30).map (·.offset)
  (sumOf l, l.length)

/-- Drift is declared: the records of the 30 minutes before are excluded, and the slot is SUSPECT (R254, R264). -/
def State.driftDeclare (s : State) (i : Nat) : State :=
  let s := ((s.fbit F.tmgStat_drift true).tmSticky 7).raise Ev.tmgDrift i
  (s.setTmg fun x =>
    { x with
      minutes := (x.minutes.take 30).map (fun m => { m with eligible := false }) ++ x.minutes.drop 30
      drifted := some i, calm := 0 }).showSuspect i

/-- The 10 s mean of the selected reference against the records: declared beyond the threshold; the seconds below half
of it are counted towards the end (R264). -/
def State.driftCheck (s : State) (i : Nat) (ofs10 : Int) : State :=
  let m := s.driftMean
  let thr := limitPpt (s.fget F.tmgHo_driftThr) 1 200
  let d : Int := (ofs10 * (m.2 : Int) - m.1).natAbs
  if s.fget F.tmgStat_sel ≠ i || m.2 = 0 then s
  else if s.flag F.tmgStat_drift then
    s.setTmg fun x => { x with calm := if 2 * d < thr * (m.2 : Int) then min 1800 (x.calm + 1) else 0 }
  else if thr * (m.2 : Int) < d then s.driftDeclare i
  else s

/-- Two qualified slots of equal QL and priority (R254). -/
def State.equalSlots (s : State) (i j : Nat) : Bool :=
  s.slotQualified i && s.slotQualified j && s.slotQl i = s.slotQl j && s.slotPrio i = s.slotPrio j

/-- The second of a pair of slots is over: how long their offsets have been apart, and how long close (R254). -/
def State.pairSecond (s : State) (i j : Nat) : State :=
  let d : Int := (s.sreg (Reg.tmgRefOfs10 i) - s.sreg (Reg.tmgRefOfs10 j)).natAbs
  let thr := limitPpt (s.fget F.tmgHo_disThr) 10 1000
  let k := 12 * i + j
  s.setTmg fun x =>
    let q := x.pairs.get (0, 0) k
    let apart := if s.equalSlots i j && thr < d then min 10 (q.1 + 1) else 0
    let close := if 2 * d < thr then min 10 (q.2 + 1) else 0
    { x with pairs := x.pairs.put (0, 0) k (apart, close) }

/-- REF_OFFSET_UPDATE (R252, R253, R254, R264). The DPLL takes nothing from it while its frequency is frozen (R257). -/
def State.refOffset (s : State) (i : Nat) (ofs1 ofs10 : Int) : State :=
  let s := (s.setSreg (Reg.tmgRefOfs i) ofs1).setSreg (Reg.tmgRefOfs10 i) ofs10
  let s := s.setTmg fun x => { x with measured := setMember x.measured i true }
  let s := s.fbit (F.tmgRefStat_inLimit i) ((ofs1.natAbs : Int) ≤ s.hardLimit)
  let soft := s.softLimit < (ofs1.natAbs : Int)
  let was := s.flag (F.tmgRefStat_soft i)
  let s := s.fbit (F.tmgRefStat_soft i) soft
  let s := if soft && !was then s.raise Ev.tmgSoftLimit i else s
  let s := if s.fget F.tmgStat_sel = i && s.tmState = tmLocked && !s.tmg.frozen then
      s.setSreg Reg.tmgFreq (rounded (ofs1 * 10 ^ 10 - s.modelNow) (10 ^ 10)) else s
  let s := (List.range i).foldl (State.pairSecond · · i) s
  s.driftCheck i ofs10

/-- REF_QUALIFY: the wait has run out; the next evaluation qualifies the slot (R252, R256; log entry 67). -/
def State.refQualify (s : State) (i : Nat) : State :=
  if s.slotOk i && !s.slotQualified i then
    s.setTmg fun x => { x with waits := x.waits.put 0 i s.waitEvals }
  else s

/-- The slot of a disagreeing pair that becomes SUSPECT: the farther from the holdover value taken as a
modelled offset, or from 0; the higher index on a tie (R254). -/
def State.fartherSlot (s : State) (i j : Nat) : Nat :=
  let mid := match s.formBase with
    | some b => s.holdValue b + rounded s.modelNow (10 ^ 10)
    | none => 0
  let di := (s.sreg (Reg.tmgRefOfs10 i) - mid).natAbs
  let dj := (s.sreg (Reg.tmgRefOfs10 j) - mid).natAbs
  if di = dj then max i j else if di > dj then i else j

/-- REF_SUSPECT (R254): a pair has been apart for 10 seconds in a row, or close again for as long. -/
def State.refSuspect (s : State) (i j : Nat) (disagree : Bool) : State :=
  let k := 12 * min i j + max i j
  let q := s.tmg.pairs.get (0, 0) k
  if i = j then s
  else if disagree then
    if 10 ≤ q.1 && !s.tmg.odd.any (·.2 = k) then
      let f := s.fartherSlot i j
      (s.setTmg fun x => { x with odd := (f, k) :: x.odd }).showSuspect f
    else s
  else if 10 ≤ q.2 then
    ((s.setTmg fun x => { x with odd := x.odd.filter (·.2 ≠ k) }).showSuspect i).showSuspect j
  else s

/-- DPLL_LOCK (R258). -/
def State.dpllLock (s : State) : State := if s.tmState = tmAcquiring then s.enterTm tmLocked else s

/-- DPLL_LOCK_LOSS: ACQUIRING at the first bandwidth. -/
def State.dpllLockLoss (s : State) : State := if s.tmState = tmLocked then s.acquire else s

/-- DPLL_BW_STEP (R259). -/
def State.dpllBwStep (s : State) : State :=
  let b := s.fget F.tmgStat_bw
  if (s.tmState = tmAcquiring || s.tmState = tmLocked) && b < s.finalBw then s.fset F.tmgStat_bw (b + 1) else s

/-- LOST by temperature (R263). -/
def State.judgeTemp (s : State) : State :=
  let s := s.fbit F.tmgStat_tempBad s.tempBad
  if s.tmState = tmHoldover && s.tempBad then s.enterTm tmLost else s

/-- While it is not LOCKED to a reference, TMG_HO_VALUE shows the value that holdover would take (R263). -/
def State.showHold (s : State) : State :=
  match s.formBase with
  | some b => s.setSreg Reg.tmgHoValue (s.holdValue b)
  | none => s

/-- In HOLDOVER, and in LOST entered from it, the DPLL takes the holdover value of the second. -/
def State.holdSecond (s : State) (b : HoldBase) : State :=
  let s := s.setTmg fun x => { x with lost := x.lost + 1 }
  let y := s.holdValue b
  let e := s.holdError b
  let s := ((s.setSreg Reg.tmgHoValue y).setSreg Reg.tmgFreq y).setSreg Reg.tmgHoErr e
  if s.tmState = tmHoldover && ((clamp 1 4600 (s.fget F.tmgHo_hoLimit) * 1000 : Nat) : Int) < e then
    s.enterTm tmLost
  else s.judgeTemp

/-- HOLDOVER_UPDATE: a second has passed. In FREE_RUN the output follows the models. -/
def State.holdoverUpdate (s : State) : State :=
  let st := s.tmState
  if st = tmFreeRun then s.freeOut.showHold
  else if st = tmAcquiring then s.showHold
  else
    match s.tmg.base with
    | none => s
    | some b => if st = tmHoldover || (st = tmLost && s.oscPresent) then s.holdSecond b else s

/-- An eligible record updates the models (R265): the measured offset with the ageing part removed, which is -A(t) in
it, as the DPLL's offset is minus that of the oscillator (R263). -/
def State.learn (s : State) (offset theta : Int) : State :=
  let sel := s.fget F.tmgStat_sel
  let opt2 := s.flag F.tmgCfg_opt2
  if s.flag F.tmgCfg_learnEn && qlRank opt2 s.selQl ≤ qlRank opt2 (s.fget F.tmgCfg_learnQl) &&
      !(sel < 12 && s.flag (F.tmgRefStat_suspect sel)) then
    let v := rounded (offset * 10 ^ 10 + s.agePart s.hoursNow) (10 ^ 10)
    s.setTmg fun x =>
      { x with
        bins := x.bins.insert ((theta + 5000) / 100).toNat v
        daySum := x.daySum + offset, dayHours := x.dayHours + s.hoursNow, dayCount := x.dayCount + 1 }
  else s

/-- TMG_AGE_HOURS half a minute ago, at the middle of the minute that ends. -/
def State.middleHours (s : State) : Nat :=
  let h := (s.rd Reg.tmgAgeHours).toNat
  if s.clock.frames < s.tmg.hourAt + 240000 then h - 1 else h

/-- MINUTE_RECORD (R263, R264, R265). -/
def State.minuteRecord (s : State) (offset theta : Int) (whole : Bool) : State :=
  let ok := whole && s.tmState = tmLocked && s.fget F.tmgStat_bw = s.finalBw &&
    s.flag F.tmgOscTemp_valid && !s.flag F.tmgStat_drift
  let m : Minute := ⟨offset, theta, s.middleHours, ok⟩
  let s := s.setTmg fun x => { x with minutes := (m :: x.minutes).take 128 }
  if ok then s.learn offset theta else s

/-- DRIFT_CLEAR (R254, R264): 30 minutes in a row below half the threshold. -/
def State.driftClear (s : State) : State :=
  if !s.flag F.tmgStat_drift || s.tmg.calm < 1800 then s
  else
    slots.foldl State.showSuspect
      ((s.fbit F.tmgStat_drift false).setTmg fun x => { x with drifted := none, calm := 0 })

/-- The filled bins: the temperature from 25 degC in K, and the offset of the oscillator, minus the recorded one. -/
def State.binPoints (s : State) : List (Int × Int) := s.tmg.bins.map fun q => ((q.1 : Int) - 75, -q.2)

/-- MODEL_REFIT_HOURLY (R265). -/
def State.refitHourly (s : State) : State :=
  let s := (s.count Reg.tmgAgeHours).setTmg fun x => { x with hourAt := s.clock.frames }
  let ps := s.binPoints
  match ps.head?, ps.getLast? with
  | some lo, some hi =>
    if s.flag F.tmgCfg_learnEn && 4 ≤ ps.length && 10 ≤ hi.1 - lo.1 then
      let s := (List.range 4).foldl (fun s i => s.setSreg (Reg.tmgTc i) (cubicFit i ps)) s
      (s.fset F.tmgTrange_tMin (unsigned 16 ((lo.1 + 25) * 10))).fset F.tmgTrange_tMax
        (unsigned 16 ((hi.1 + 25) * 10))
    else s
  | _, _ => s

/-- The day that ends joins the daily means. -/
def State.closeDay (s : State) : State :=
  if s.tmg.dayCount = 0 then s
  else s.setTmg fun x =>
    { x with
      days := x.days ++ [(rounded x.dayHours x.dayCount, rounded x.daySum x.dayCount)]
      daySum := 0, dayHours := 0, dayCount := 0 }

/-- MODEL_REFIT_DAILY (R265). -/
def State.refitDaily (s : State) : State :=
  if !s.flag F.tmgCfg_learnEn then s
  else
    let s := s.closeDay
    let ps := s.tmg.days
    if ps.length < 7 then s
    else
      let s := (s.setSreg Reg.tmgAgeA (Config.ageFit 0 ps)).setSreg Reg.tmgAgeB (Config.ageFit 1 ps)
      s.fset F.tmgAgeTau_tau (clamp 1 65535 (Config.ageFit 2 ps).toNat)

/-- CLEAR_LEARN (R265). -/
def State.clearLearn (s : State) : State :=
  (s.wr Reg.tmgTrange 0x80007FFF).setTmg fun x => { x with bins := [] }

/-- The oscillator temperature: of on-die sensor 0 with use_die = 1, else of the thermistor, which reads open or
short where there is no resistance (R249; log entry 93). -/
def State.readTheta (s : State) (ohms : Option Nat) : Option Int :=
  if s.flag F.tmgNtc_useDie then
    (if s.flag (F.nrgSensor_valid 0) then some (10 * signed 16 (s.fget (F.nrgSensor_temp 0))) else none)
  else ohms.map fun r => ntcTheta (s.fget F.tmgNtc_beta) r

/-- OSC_TEMP_READ (R249). -/
def State.oscTemp (s : State) (ohms : Option Nat) : State :=
  let s := match s.readTheta ohms with
    | some x => (s.fset F.tmgOscTemp_theta (unsigned 16 x)).fbit F.tmgOscTemp_valid (-5000 ≤ x && x ≤ 13000)
    | none => s.fbit F.tmgOscTemp_valid false
  s.judgeTemp

/-! ### Output pins (R267) -/

/-- SYNCOUTj is held low. -/
def State.syncoutLow (s : State) (j : Nat) : Bool :=
  let opt2 := s.flag F.tmgCfg_opt2
  let i := s.fget (F.tmgSyncout_slot j)
  let sq := qlRank opt2 (s.fget (F.tmgSyncout_sqQl j))
  let low := fun r => badRank opt2 r || sq < r
  !s.flag (F.tmgSyncout_en j) ||
    (if s.flag (F.tmgSyncout_src j) then 12 ≤ i || !s.slotQualified i || low (s.slotRank i)
     else low (qlRank opt2 (s.fget F.tmgStat_egressQl)))

/-- The clock of SYNCOUTj while it is not held low: 0 2.048 MHz, 1 1.544 MHz, 2 8 kHz, 3 10 MHz, 4 1 PPS, 5 19.44 MHz; codes
6 and 7 act as 0 (R268). -/
def State.syncoutFreq (s : State) (j : Nat) : Option Nat :=
  let f := s.fget (F.tmgSyncout_freq j)
  if s.syncoutLow j then none else some (if f ≤ 5 then f else 0)

/-- FRAME_OUT rises at the mark of the current frame. -/
def State.frameOutRises (s : State) : Bool :=
  s.flag F.tmgFrameOut_en && (!s.flag F.tmgFrameOut_pps || s.clock.frame.toNat % 8000 = 0)

/-- A 1 PPS SYNCOUT from the DPLL rises at the mark of the current frame, as FRAME_OUT does with pps = 1. -/
def State.syncoutRises (s : State) (j : Nat) : Bool :=
  s.syncoutFreq j = some 4 && !s.flag (F.tmgSyncout_src j) && s.clock.frame.toNat % 8000 = 0

/-! ### Commands -/

def execOscinStop (s : State) : Host.Outcome State Fault Refusal := whenUp s fun s => s.oscinStop

def execOscinReturn (freq : Fin 5) (s : State) : Host.Outcome State Fault Refusal :=
  whenUp s fun s => s.oscinReturn freq.val

def execRefinSignalLoss (input : Fin 5) (s : State) : Host.Outcome State Fault Refusal :=
  whenUp s fun s => s.refinLoss input.val

def execRefinSignalReturn (input : Fin 5) (s : State) : Host.Outcome State Fault Refusal :=
  whenUp s fun s => s.refinReturn input.val

def execOscTempRead (ohms : Option Nat) (s : State) : Host.Outcome State Fault Refusal :=
  whenUp s fun s => s.oscTemp ohms

def execRefOffsetUpdate (slot : Fin 12) (ofs1 : Int) (ofs10 : Int) (s : State) :
    Host.Outcome State Fault Refusal :=
  whenUp s fun s => s.refOffset slot.val ofs1 ofs10

def execRefQualify (slot : Fin 12) (s : State) : Host.Outcome State Fault Refusal :=
  whenUp s fun s => s.refQualify slot.val

def execRefDisqualify (slot : Fin 12) (s : State) : Host.Outcome State Fault Refusal :=
  whenUp s fun s => s.signalFails slot.val

def execRefSuspect (slot : Fin 12) (other : Fin 12) (disagree : Bool) (s : State) :
    Host.Outcome State Fault Refusal :=
  whenUp s fun s => s.refSuspect slot.val other.val disagree

def execDpllLock (s : State) : Host.Outcome State Fault Refusal := whenUp s fun s => s.dpllLock

def execDpllLockLoss (s : State) : Host.Outcome State Fault Refusal := whenUp s fun s => s.dpllLockLoss

def execDpllBwStep (s : State) : Host.Outcome State Fault Refusal := whenUp s fun s => s.dpllBwStep

def execHoldoverUpdate (s : State) : Host.Outcome State Fault Refusal :=
  whenUp s fun s => s.holdoverUpdate

def execMinuteRecord (offset : Int) (theta : Int) (wholeMinute : Bool) (s : State) :
    Host.Outcome State Fault Refusal :=
  whenUp s fun s => s.minuteRecord offset theta wholeMinute

def execDriftClear (s : State) : Host.Outcome State Fault Refusal := whenUp s fun s => s.driftClear

def execModelRefitHourly (s : State) : Host.Outcome State Fault Refusal := whenUp s fun s => s.refitHourly

def execModelRefitDaily (s : State) : Host.Outcome State Fault Refusal := whenUp s fun s => s.refitDaily

def execClearLearn (s : State) : Host.Outcome State Fault Refusal := 
  whenUp s fun s => s.hostReg Reg.tmgCtl 0x1 1 State.clearLearn

def execTmgPhaseStepWrite (v : W32) (s : State) : Host.Outcome State Fault Refusal :=
  whenUp s fun s => s.hostReg Reg.tmgPhaseStep 0xF v fun s => s.phaseStep v

def execPpsAlignStep (away : Int) (s : State) : Host.Outcome State Fault Refusal :=
  whenUp s fun s => s.ppsAlignStep away

end Sys2Proof.Machine
end

