-- ==== Sys2Proof/Machine/Fabric.lean ====
section
/-! DEFINITION. Fabrics of up to eight devices (R214-R226): identity, loop lanes, the timing master and
its followers, and the failure of peers. -/

namespace Sys2Proof.Machine

/-! ### Identity (R215, R216) -/

/-- A lane is beyond DETECT (R216; log entry 30): TRAIN, LOCK, CAPS or ACTIVE. -/
def State.beyondDetect (s : State) (l : Nat) : Bool := 2 ≤ s.stage l && s.stage l ≤ 5

/-- A lane of role FABRIC or MATE is beyond DETECT. -/
def State.identityHeld (s : State) : Bool :=
  (List.range 48).any fun l => (s.role l = roleFabric || s.role l = roleMate) && s.beyondDetect l

/-- A write of FAB_CFG: with the identity held, device_id and fabric_id are discarded with FAB_CFG_REJECT and the
rest is applied (log entry 30). With en = 0 this device has no timing role; identity and enable decide
whether it holds the coordinator lease (log entry 28). -/
def State.fabCfgWrite (s : State) (be : BitVec 4) (v : W32) : State :=
  let old := s.rd Reg.fabCfg
  let new := mergeBe old (v &&& 0xFFF00000) be
  let s :=
    if (be.getLsbD 3 || be.getLsbD 2) && s.identityHeld then
      (s.wr Reg.fabCfg ((old &&& 0x7FFFFFFF) ||| (new &&& 0x80000000))).raise Ev.fabCfgReject
    else s.wr Reg.fabCfg new
  let s := if s.flag F.fabCfg_en then s else (s.fset F.fabStat_tmRole 0).fbit F.fabStat_aligned false
  s.fbit F.flpCoord_self (s.flag F.fabCfg_en && s.fget F.flpCoord_coordId = s.me)

/-- A write of FAB_LANE: peer unless the lane is beyond DETECT; a 1 clears fpe. -/
def State.fabLaneWrite (s : State) (l : Nat) (be : BitVec 4) (v : W32) : State :=
  if !be.getLsbD 3 then s
  else
    let peer := bits v 30 28
    let s :=
      if s.beyondDetect l then s.raise Ev.fabCfgReject l
      else s.fset (F.fabLane_peer l) peer
    if bit v 27 then s.fbit (F.fabLane_fpe l) false else s

/-! ### Loop lanes (R219) -/

/-- FAB_LOOP_APPLY at the frame mark of the current frame. A termination with a path on a newly looped lane fails
(R218). -/
def State.loopMark (s : State) : State :=
  let new := BitVec.ofNat 8 (s.fget F.fabLoop_loop)
  let old := BitVec.ofNat 8 (s.fget F.fabLoop_loopLive)
  let s := s.fset F.fabLoop_loopLive new.toNat
  let s := if new &&& ~~~old = 0 then s
    else (s.termsOn.filter s.termLooped).foldl State.refreshTerm s
  { s with fab := { s.fab with
      loopNew := new ^^^ old, octNew := (s.fab.octNew ||| (new &&& ~~~old)) &&& new } }

/-! ### Timing master and followers (R222-R224) -/

def tmAlone : Nat := 0
def tmMaster : Nat := 1
def tmFollower : Nat := 2
def tmHolds : Nat := 3

def State.tmRole (s : State) : Nat := s.fget F.fabStat_tmRole

def State.setFab (s : State) (f : FabSt → FabSt) : State := { s with fab := f s.fab }

/-- Rank of a device for the role of timing master. -/
def State.tmRank (s : State) (i : Nat) : Nat := rankOf (s.rd Reg.fabTmRank) i

/-- Devices to which this device has a fabric lane. -/
def State.fabPeers (s : State) : List Nat :=
  (List.range 8).filter fun i =>
    i ≠ s.me && (List.range 48).any fun l => s.role l = roleFabric && s.fget (F.fabLane_peer l) = i

def State.peerFailed (s : State) (i : Nat) : Bool := s.flag (F.fabPeer_failed i)

/-- The earliest-ranked of a list of devices. -/
def State.earliest (s : State) : List Nat → Option Nat
  | [] => none
  | i :: is =>
    match s.earliest is with
    | some j => if s.tmRank i < s.tmRank j then some i else some j
    | none => some i

/-- The earliest-ranked peer that claims the role and is not failed. -/
def State.claimant (s : State) : Option Nat :=
  s.earliest ((List.range 8).filter fun i => i ≠ s.me && s.flag (F.fabPeer_tmClaim i) && !s.peerFailed i)

/-- This device ranks first among itself and its peers that are not failed. -/
def State.ranksFirst (s : State) : Bool :=
  s.fabPeers.all fun i => s.peerFailed i || s.tmRank s.me < s.tmRank i

/-- The master as known to this device becomes `id`. -/
def State.setMaster (s : State) (role id : Nat) : State :=
  let changed := s.tmRole = tmAlone || s.fget F.fabStat_tmId ≠ id
  let s := (s.fset F.fabStat_tmRole role).fset F.fabStat_tmId id
  if changed then s.raise Ev.fabTmChange id else s

/-- A device that does not hold the role follows the claimant; with none reachable it holds over (R222,
R223). -/
def State.followMaster (s : State) : State :=
  if !s.flag F.fabCfg_en || s.tmRole = tmMaster then s
  else
    match s.claimant with
    | some i => s.setMaster tmFollower i
    | none => if s.tmRole = tmFollower then s.fset F.fabStat_tmRole tmHolds else s

/-- The device takes the role, with its own frame number and phase. -/
def State.becomeMaster (s : State) : State :=
  s.setMaster tmMaster s.me

/-- A fabric lane is ACTIVE and no claim is received. -/
def State.unclaimed (s : State) : Bool :=
  ((List.range 48).any fun l => s.role l = roleFabric && s.stage l = stageActive) && s.claimant = none

/-- TM_CLAIM: 16 frames with a fabric lane ACTIVE and no claim received. -/
def State.tmClaim (s : State) : State :=
  if s.flag F.fabCfg_en && s.tmRole ≠ tmMaster && s.unclaimed && 16 ≤ s.fab.claimRun && s.ranksFirst then
    s.becomeMaster
  else s

/-- TM_WITHDRAW: an earlier-ranked claim was received. -/
def State.tmWithdraw (s : State) : State :=
  match s.claimant with
  | some i =>
    if s.tmRole = tmMaster && s.tmRank i < s.tmRank s.me then s.setFab fun x => { x with dropDue := true }
    else s
  | none => s

/-- TM_TAKEOVER: the master has failed and this device is the earliest-ranked of those left. -/
def State.tmTakeover (s : State) : State :=
  if s.flag F.fabCfg_en && s.tmRole = tmHolds && s.peerFailed (s.fget F.fabStat_tmId) && s.ranksFirst then
    s.setFab fun x => { x with claimDue := true }
  else s

/-- A claim or withdrawal due at the frame mark of the current frame. -/
def State.masterMark (s : State) : State :=
  let claim := s.fab.claimDue
  let drop := s.fab.dropDue
  let s := s.setFab fun x => { x with claimDue := false, dropDue := false }
  if drop && s.tmRole = tmMaster then
    let s := (s.fbit F.fabStat_aligned false).setFab fun x => { x with phased := false }
    match s.claimant with
    | some i => s.setMaster tmFollower i
    | none => s.fset F.fabStat_tmRole tmHolds
  else if claim && s.flag F.fabCfg_en && s.tmRole = tmHolds && s.claimant = none then s.becomeMaster
  else s

/-- FAB_ALIGNED: the offset has been at its target for 8 frames, and the follower holds it there from now on (R223). -/
def State.fabAligned (s : State) : State :=
  if s.followLane.isSome && 8 ≤ s.fab.alignRun then (s.fbit F.fabStat_aligned true).setFab fun x => { x with phased := true } else s

/-- FAB_ALIGN_STEP: a follower without an aligned phase decides to step at the mark of frame N + 2, which then begins
the frame that the master begins (R224; log entry 91). -/
def State.fabAlignStep (s : State) : State :=
  if s.followLane.isSome && !s.fab.phased && s.fab.masterNum.isSome && s.clock.step.isNone then
    s.decideStep .master
  else s

/-! ### Peers (R225) -/

/-- Fabric lanes from a peer. -/
def State.lanesFrom (s : State) (i : Nat) : List Nat :=
  (List.range 48).filter fun l => s.role l = roleFabric && s.fget (F.fabLane_peer l) = i

/-- A row period is over: what every lane from each peer delivered in it. -/
def State.rowsMark (s : State) : State :=
  let bad := fun i => (s.lanesFrom i).all fun l => !(s.lane l).rowNow || (s.lane l).badNow
  let runs := s.fabPeers.foldl (fun m i => m.put 0 i (if bad i then min 9 (s.fab.badRows.get 0 i + 1) else 0)) s.fab.badRows
  (List.range 48).foldl (fun s l => s.onLane l fun x => { x with rowNow := false, badNow := false })
    (s.setFab fun x => { x with badRows := runs })

/-- FAB_PEER_FAIL: nine row periods with only bad rows from the peer. -/
def State.fabPeerFail (s : State) (i : Nat) : State :=
  if i = s.me || s.peerFailed i || !s.fabPeers.contains i || s.fab.badRows.get 0 i < 9 then s
  else (((s.fbit (F.fabPeer_failed i) true).count Reg.fabCntPfail).report Ev.fabPeerFail i).followMaster

/-- FAB_PEER_OK: eight frames with a lane from the peer that delivered no bad row. -/
def State.fabPeerOk (s : State) (i : Nat) : State :=
  if s.peerFailed i && 8 ≤ s.fab.goodRows.get 0 i then ((s.fbit (F.fabPeer_failed i) false).raise Ev.fabPeerOk i).followMaster else s

/-- Fabric lanes from a peer that delivered no bad row in the frame that ends. -/
def State.lanesOk (s : State) (i : Nat) : Nat :=
  ((s.lanesFrom i).filter fun l => s.stage l = stageActive && !(s.lane l).badRow).length

/-- A frame of a fabric or mate lane is over. -/
def State.rollLane (s : State) (l : Nat) : State :=
  s.onLane l fun x =>
    { x with badRow := false, fpeLast := x.fpeRow, fpeRow := false, sigSeen := false, sigAway := false }

/-- The reference lane was at its target throughout the frame that ends (R223). -/
def State.atTarget (s : State) : Bool :=
  match s.followLane with
  | some l => (s.lane l).sigSeen && !(s.lane l).sigAway && !(s.lane l).fpeRow
  | none => false

/-- The frame mark, for the lanes of the fabric. -/
def State.fabricMark (s : State) : State :=
  let s := s.fabPeers.foldl (fun s i =>
    let n := s.lanesOk i
    (s.fset (F.fabPeer_lanesOk i) n).setFab fun x =>
      { x with goodRows := x.goodRows.put 0 i (if n = 0 then 0 else min 8 (x.goodRows.get 0 i + 1)) }) s
  let s := s.setFab fun x =>
    { x with
      claimRun := if s.unclaimed then min 16 (x.claimRun + 1) else 0
      alignRun := if s.atTarget then min 8 (x.alignRun + 1) else 0 }
  (List.range 48).foldl State.rollLane s

/-- The fabric fields of a row 0 header from a peer (R188, R215, R222, R225). -/
def State.peerHeader (s : State) (l : Nat) (h : Header) : State :=
  let i := s.fget (F.fabLane_peer l)
  if i = s.me then s
  else
    let s := (s.fset (F.fabPeer_heartbeat i) h.heartbeat.toNat).fbit (F.fabPeer_tmClaim i) h.timingMaster
    let was := s.silence i
    let s := (s.fset (F.flpPeer_silent i) 0).setFab fun x =>
      { x with heard := x.heard ||| BitVec.ofNat 8 (2 ^ i) }
    ((s.banksReceived i h.colBank h.octBank).claimReceived i h.coordId.toNat was).followMaster

/-! ### Commands -/

def execFabCfgWrite (be : BitVec 4) (v : W32) (s : State) : Host.Outcome State Fault Refusal :=
  whenUp s fun s => s.hostReg Reg.fabCfg be v fun s => s.fabCfgWrite be v

def execFabLaneWrite (lane : Lane) (be : BitVec 4) (v : W32) (s : State) :
    Host.Outcome State Fault Refusal :=
  whenUp s fun s => s.hostReg (Reg.fabLane lane.val) be v fun s => s.fabLaneWrite lane.val be v

def execTmClaim (s : State) : Host.Outcome State Fault Refusal := whenUp s fun s => s.tmClaim

def execTmWithdraw (s : State) : Host.Outcome State Fault Refusal := whenUp s fun s => s.tmWithdraw

def execTmTakeover (s : State) : Host.Outcome State Fault Refusal := whenUp s fun s => s.tmTakeover

def execFabAligned (s : State) : Host.Outcome State Fault Refusal := whenUp s fun s => s.fabAligned

def execFabAlignStep (s : State) : Host.Outcome State Fault Refusal :=
  whenUp s fun s => s.fabAlignStep

def execFabPeerFail (peer : Peer) (s : State) : Host.Outcome State Fault Refusal :=
  whenUp s fun s => s.fabPeerFail peer.val

def execFabPeerOk (peer : Peer) (s : State) : Host.Outcome State Fault Refusal :=
  whenUp s fun s => s.fabPeerOk peer.val

end Sys2Proof.Machine
end

