-- ==== Sys2Proof/Machine/MateLink.lean ====
section
/-! DEFINITION. The link of a mate pair (R227-R242): heartbeats, reachability and failure, takeover, the
mate fields of a header, the order in which records are sent, and epochs. The records received are in
Machine/Mate.lean. -/

namespace Sys2Proof.Machine

def State.setMate (s : State) (f : MateSt → MateSt) : State := { s with mate := f s.mate }

/-- MAT_STAT.mirror_lane, and a broken mirror that finds a mate lane again (R236, R241). -/
def State.refreshMateLane (s : State) : State :=
  (s.fset F.matStat_mirrorLane (s.mateLane?.getD 0x3F)).mendMirror

/-! ### Takeover (R231, R240) -/

/-- A bin in progress at a takeover (R293). -/
def Bin.takeover (b : Bin) : Bin := { b with flags := b.flags ||| 0b01001 }

/-- The takeover mark on the bins in progress of one path. -/
def PmPath.takeover (x : PmPath) : PmPath := { x with cur15 := x.cur15.takeover, cur24 := x.cur24.takeover }

/-- One change applied to the counter memory of every path. -/
def State.everyPm (s : State) (f : PmPath → PmPath) : State :=
  { s with pm := { s.pm with
      idle := f s.pm.idle, paths := s.pm.paths.map fun q => (q.1, f q.2) } }

/-- A waiting MATE_RESYNC completes. -/
def State.resyncEnded (s : State) (status : Nat) : State :=
  s.finishAll (fun w => w = .resync) fun _ => (status, 0, 0, 0)

/-! ### Heartbeats (R229, R230) -/

/-- Row periods without a good beat after which a channel is silent: 8 frames. -/
def silentRows : Nat := 72

/-- A good beat on the header channel, and on the pin channel. -/
def State.laneBeat (s : State) : State :=
  (s.fbit F.matStat_hbLane true).setMate fun x => { x with laneAge := 0, beatNow := true }
def State.pinBeat (s : State) : State := (s.fbit F.matStat_hbPin true).setMate fun x => { x with pinAge := 0 }

/-- A row period has begun since the last beat of either channel; the first row of a frame begins at its frame mark. -/
def State.ageBeats (s : State) : State :=
  s.setMate fun x => { x with laneAge := min silentRows (x.laneAge + 1), pinAge := min silentRows (x.pinAge + 1) }

/-- A frame of the mate function is over: beats in a row (R230), frames in which the standby's mirror_seq stood still
while records were outstanding (R236), MATE_WRITE_REJECT may be raised anew (R232), and MATE_HB_OUT toggles (R229). -/
def State.mateFrame (s : State) : State :=
  s.setMate fun x =>
    { x with
      beatRun := if x.beatNow then min 8 (x.beatRun + 1) else 0, beatNow := false
      stall := if x.unacked = [] || x.peerSeq ≠ x.lastPeer then 0 else min 2 (x.stall + 1)
      lastPeer := x.peerSeq, refused := false, hbOut := !x.hbOut }

/-- Neither channel has had a good beat for 8 frames. -/
def State.mateSilent (s : State) : Bool := silentRows ≤ s.mate.laneAge && silentRows ≤ s.mate.pinAge

/-! ### The epoch that waits (R239) -/

/-- Every record up to the last one sent before the marker has been applied. -/
def State.epochWhole (s : State) : Bool :=
  (BitVec.ofNat 16 (s.fget F.matMir_appliedSeq) - s.mate.heardSeq).toNat < 2 ^ 15

/-- EPOCH_APPLY at a frame mark: the staged records replace the standby's own values (R239). -/
def State.epochApply (s : State) : State :=
  match s.mate.heard with
  | none => s
  | some e =>
    if s.mateState ≠ mateStandby || !s.clock.frameDue || !s.epochWhole then s
    else
      ((s.fillEpoch s.mate.staged).wr Reg.matCommit e).setMate fun x =>
        { x with staged := [], heard := none, marker := some e }

/-- The mate is declared failed: takeover by state. -/
def State.loseMate (s : State) : State :=
  let st := s.mateState
  let s := ((s.fbit F.matStat_mateOk false).fbit F.matStat_hbLane false).fbit F.matStat_hbPin false
  let s := s.resyncEnded csAborted
  if st = mateSyncing then
    ((s.enterMate mateAlone).fbit F.matStat_imageBad true).report Ev.mateTakeoverFail
  else if st = mateStandby then
    (((s.enterMate mateDual).everyPm PmPath.takeover).count Reg.matCntTake |>.report Ev.mateFail).raise
      Ev.mateTakeover
  else if st = mateActive then (s.enterMate mateDual).report Ev.mateFail
  else s

/-- MATE_FAIL: neither channel has had a good beat for 8 frames. A marker already received is applied first (R233). -/
def State.mateFail (s : State) : State := if s.mateSilent then s.epochApply.loseMate else s

/-- MATE_REACHABLE: eight frames in a row with a good header beat. -/
def State.mateReachable (s : State) : State :=
  if 8 ≤ s.mate.beatRun && !s.flag F.matStat_mateOk then (s.fbit F.matStat_mateOk true).mateStep true true else s

/-- MATE_HB_CHANNEL: one channel has been silent for 8 frames, the other not. -/
def State.mateHbChannel (s : State) (pin : Bool) : State :=
  let lost := if pin then F.matStat_hbPin else F.matStat_hbLane
  let ages := if pin then (s.mate.pinAge, s.mate.laneAge) else (s.mate.laneAge, s.mate.pinAge)
  if s.flag lost && silentRows ≤ ages.1 && ages.2 < silentRows then
    (s.fbit lost false).raise Ev.mateHbChannel (b2n pin)
  else s

/-! ### MAT_CTL (R231, R240, R241) -/

/-- A write of MAT_CTL: enable, resync, release. -/
def State.matCtlWrite (s : State) (be : BitVec 4) (v : W32) : State :=
  if !be.getLsbD 3 then s
  else
    let was := s.flag F.matCtl_en
    let s := s.fbit F.matCtl_en (bit v 31)
    let s := if bit v 29 then s.fbit F.matStat_imageBad false else s
    if !bit v 31 then (if was then (s.enterMate mateAlone).resyncEnded csAborted else s)
    else
      let s := if bit v 30 then s.startResync else s
      s.mateStep (!was) true

/-! ### The header (R229, R231, R236-R239) -/

/-- Records up to and with seq `n` are acknowledged. -/
def acked (n : BitVec 16) (l : List QueuedRec) : List QueuedRec :=
  if l.any fun q => q.body.seq = n then (l.dropWhile fun q => q.body.seq ≠ n).drop 1 else l

/-- The mate's answers that an ACTIVE device reads: its mirror_seq and the epoch that it has applied. -/
def State.mateAnswers (s : State) (h : Header) : State :=
  let s := s.setMate fun x => { x with unacked := acked h.mirrorSeq x.unacked, peerSeq := h.mirrorSeq }
  let s := s.fset F.matMir_appliedSeq h.mirrorSeq.toNat
  if h.epochCommit then s.wr Reg.matCommit h.epoch else s

/-- The mate has entered STANDBY: the resync that this device ran is over (R242; log entry 32). -/
def State.mateSynced (s : State) : State :=
  ((s.wr Reg.matResync 0).setMate fun x => { x with startDue := false, image := none, endBanks := none }).resyncEnded
    csOk

/-- MATE_DIVERGE: the active's live banks differ from those of the standby (R237). -/
def State.mateDiverge (s : State) (col oct : Bool) : State :=
  if s.mateState = mateStandby && s.mate.peerState.toNat = mateActive && s.splitFrom col oct then
    (s.raise Ev.mateDiverge).enterMate mateSyncing
  else s

/-- The mate fields of a header on an ACTIVE mate lane. -/
def State.mateHeader (s : State) (h : Header) : State :=
  let was := s.mate.peerState
  let s := s.setMate fun x => { x with peerState := h.mateState }
  let st := s.mateState
  let s := if st = mateActive then s.mateAnswers h else s
  let s := if st = mateActive && was = 1 && h.mateState = 2 then s.mateSynced else s
  let s :=
    if (st = mateStandby || st = mateSyncing) && h.epochCommit && s.mate.marker ≠ some h.epoch then
      s.setMate fun x =>
        { x with heard := some h.epoch, heardSeq := if x.heard = some h.epoch then x.heardSeq else h.mirrorSeq }
    else s
  if s.flag F.matStat_mateOk then
    (s.mateStep (was ≠ h.mateState) (was = 0 || was = 4)).mateDiverge h.colBank h.octBank
  else s

/-! ### Sending records (R235, R236, R241) -/

/-- Words of the image in BAR2: program banks, path words 0-2 and 5-7, service tables. -/
def imageMem : Nat := 4194304 + 1572864 + 524288

/-- BAR2 offset of image word `k`. -/
def imageMemAt (k : Nat) : Nat :=
  if k < 4194304 then 4 * k
  else if k < 4194304 + 1572864 then
    pathAddr ((k - 4194304) / 6) ([0, 1, 2, 5, 6, 7].getD ((k - 4194304) % 6) 0)
  else 0x1800000 + 4 * (k - 4194304 - 1572864)

/-- REH, DIG and COVER of both banks. -/
def rehearsalReg (a : Nat) : Bool :=
  (List.range 56).any (fun d => [Reg.colRehA d, Reg.colRehB d, Reg.colDigA d, Reg.colDigB d, Reg.colCoverA d,
    Reg.colCoverB d].contains a) ||
  (List.range 16).any fun d => [Reg.octRehA d, Reg.octRehB d, Reg.octDigA d, Reg.octDigB d, Reg.octCoverA d,
    Reg.octCoverB d].contains a

/-- Registers of the image, in offset order. -/
def imageRegs : List Nat := ((List.range 0x40000).map (4 * ·)).filter fun a => mirroredReg a || rehearsalReg a

/-- The four tone samples at an address, the first in [31:24] (R171). -/
def State.toneWord (s : State) (a : Nat) : W32 :=
  let x := fun i => Sparse.get (0 : BitVec 8) s.tone (a + i)
  x 0 ++ x 1 ++ x 2 ++ x 3

/-- The records of one register. The tone memory goes through its access registers, in their place: the address 0,
every word of the memory, and the address as it stands. -/
def State.imageRegRecs (s : State) (a : Nat) : List MirrorRec :=
  let r := mirrorRec false a 0xF (s.rd a)
  if a = Reg.octToneAddr then
    mirrorRec false a 0xF 0 ::
      ((List.range 262144).map fun k => mirrorRec false Reg.octToneData 0xF (s.toneWord (4 * k))) ++ [r]
  else if a = Reg.octToneData then [] else [r]

/-- Image word `k` behind BAR2 and BAR0; none past them. -/
def State.imageWord (s : State) (k : Nat) : Option MirrorRec :=
  if k < imageMem then some (mirrorRec true (imageMemAt k) 0xF (s.hkRead (imageMemAt k)).1)
  else (imageRegs.flatMap s.imageRegRecs)[k - imageMem]?

/-- A record goes out with the next seq and its CRC (log entry 33). -/
def State.sendRecord (s : State) (kind : BitVec 4) (r : MirrorRec) : State :=
  let r := { r with seq := s.mate.nextSeq }
  let q : QueuedRec := ⟨kind, { r with crc := recordCrc kind r }⟩
  let s := s.fset F.matMir_sentSeq s.mate.nextSeq.toNat
  let s := s.setMate fun x =>
    { x with nextSeq := x.nextSeq + 1, unacked := x.unacked ++ [q], line := x.line ++ [q] }
  ({ s with io := { s.io with sent := s.io.sent ++ [q] } }).speed 100 1

/-- One word of the image goes out; an uncorrectable one is found (R339). -/
def State.sendImageRec (s : State) (k : Nat) (r : MirrorRec) : State :=
  let s := if k < imageMem then (s.hkRead (imageMemAt k)).2 else s
  let s := (s.sendRecord 3 r).setMate fun x => { x with image := some (k + 1) }
  s.fset F.matResync_doneKib ((k + 1) / 256)

/-- The image end record, with the live banks (log entry 34). -/
def State.sendImageEnd (s : State) : State :=
  let v := b2n (s.live false) + 2 * b2n (s.live true)
  (s.sendRecord 5 (mirrorRec false 0 0xF (BitVec.ofNat 32 v))).setMate fun x =>
    { x with image := none, tail := none, endBanks := some (s.live false, s.live true) }

/-- The epoch state of the image, as it stood when the image came to it. -/
def State.sendTail (s : State) (k : Nat) : List MirrorRec → State
  | r :: rs => (s.sendImageRec k r).setMate fun x => { x with tail := some rs }
  | [] => s.sendImageEnd

/-- The next record of the image: BAR2, BAR0, the epoch state, and its end. -/
def State.sendImage (s : State) (k : Nat) : State :=
  match s.imageWord k with
  | some r => s.sendImageRec k r
  | none => s.sendTail k (s.mate.tail.getD s.epochRecs)

/-- MIRROR_RECORD_SEND: the start record, the image, then the queue. -/
def State.mirrorSend (s : State) : State :=
  if s.mateState ≠ mateActive || s.mateLane?.isNone then s
  else if s.mate.startDue then
    (s.sendRecord 4 (mirrorRec false 0 0xF 0)).setMate fun x => { x with startDue := false }
  else
    match s.mate.image, s.mate.queue with
    | some k, _ => s.sendImage k
    | none, q :: qs => (s.setMate fun x => { x with queue := qs }).sendRecord q.kind q.body
    | none, [] => s

/-- MIRROR_RESEND: the standby's mirror_seq has not advanced for 2 frames, so the outstanding records go out again. -/
def State.mirrorResend (s : State) : State :=
  if s.mateState ≠ mateActive || s.mate.unacked = [] || s.mate.stall < 2 then s
  else
    let s := s.setMate fun x => { x with line := x.unacked, stall := 0 }
    ({ s with io := { s.io with sent := s.io.sent ++ s.mate.unacked } }).count Reg.matCntResend

/-! ### Epochs (R238, R239) -/

/-- What an ACTIVE device does at an epoch boundary: an epoch whose marker was never sent is abandoned, and
a new snapshot is queued. One that overflows the queue is never whole, so its marker is not sent. -/
def State.activeBoundary (s : State) : State :=
  let s := if s.mate.epochOut then (s.count Reg.matCntLate).raise Ev.mateEpochLate else s
  let recs := s.epochRecs
  let s := s.setMate fun x =>
    { x with queue := x.queue.filter fun q => q.kind ≠ 2, epochOut := true, epochCut := false, marker := none }
  let room := mirrorMax - ((s.mate.queue ++ s.mate.unacked).filter fun q => q.kind.toNat ≤ 2).length
  if recs.length ≤ room then s.setMate fun x => { x with queue := x.queue ++ recs.map (QueuedRec.mk 2) }
  else ((s.setMate fun x => { x with epochCut := true }).fbit F.matStat_mirrorBroken true).mendMirror

/-- EPOCH_BOUNDARY at the frame mark of the current frame. -/
def State.epochMark (s : State) : State :=
  if s.clock.frame.toNat % 8000 ≠ 0 then s
  else
    let s := s.count Reg.matEpoch
    if s.mateState = mateActive then s.activeBoundary
    else if s.mate.heard.isNone then s.setMate fun x => { x with staged := [] }
    else s

/-- EPOCH_COMMIT_SEND: the last record of the snapshot has been sent. The epoch is the one that has ended. -/
def State.epochCommitSend (s : State) : State :=
  let m := s.mate
  if s.mateState = mateActive && m.epochOut && !m.epochCut && m.queue.all (fun q => q.kind ≠ 2) then
    s.setMate fun x => { x with epochOut := false, marker := some (s.rd Reg.matEpoch - 1) }
  else s

/-- A bank change of an ACTIVE device after the image end record restarts the resync (R242). -/
def State.imageMark (s : State) : State :=
  match s.mate.endBanks with
  | some (c, o) => if s.splitFrom c o then s.startResync else s
  | none => s

/-! ### Commands -/

def execMateHbEdge (s : State) : Host.Outcome State Fault Refusal :=
  whenUp s State.pinBeat

def execMateFail (s : State) : Host.Outcome State Fault Refusal := whenUp s fun s => s.mateFail

def execMateReachable (s : State) : Host.Outcome State Fault Refusal := whenUp s fun s => s.mateReachable

def execMateHbChannel (pin : Bool) (s : State) : Host.Outcome State Fault Refusal :=
  whenUp s fun s => s.mateHbChannel pin

def execMateEnableWrite (be : BitVec 4) (v : W32) (s : State) : Host.Outcome State Fault Refusal :=
  whenUp s fun s => s.hostReg Reg.matCtl be v fun s => s.matCtlWrite be v

def execMateResyncRequest (s : State) : Host.Outcome State Fault Refusal :=
  whenUp s fun s => s.hostReg Reg.matCtl 0x8 0x40000000 State.startResync

def execMateRelease (s : State) : Host.Outcome State Fault Refusal :=
  whenUp s fun s =>
    s.hostReg Reg.matCtl 0x8 0x20000000 fun s => (s.fbit F.matStat_imageBad false).mateStep true

def execMirrorRecordSend (s : State) : Host.Outcome State Fault Refusal := whenUp s fun s => s.mirrorSend

def execMirrorResend (s : State) : Host.Outcome State Fault Refusal := whenUp s fun s => s.mirrorResend

def execEpochCommitSend (s : State) : Host.Outcome State Fault Refusal :=
  whenUp s fun s => s.epochCommitSend

end Sys2Proof.Machine
end

