-- ==== Sys2Proof/Machine/SdhCommands.lean ====
section
/-! DEFINITION. The commands of SDH and SONET line termination and of the path table (R57-R83): each is
the change of Machine/Sdh.lean or Machine/Paths.lean, followed by the terminations whose feed hangs on
the lane (R88). -/

namespace Sys2Proof.Machine

/-- A change on an SDH lane, and what the terminations fed from the lane make of it. -/
def State.onSdhLane (s : State) (l : Nat) (f : State → State) : State := (f s).refreshTerms l

/-- LOS_DECLARE (R60). -/
def State.losDeclare (s : State) (l : Nat) : State :=
  s.whenSdh l fun s => s.onSdhLane l fun s => s.ltmCondition l ltmLos true

/-- LOS_CLEAR (R60): the module must be present. -/
def State.losClear (s : State) (l : Nat) : State :=
  s.whenSdh l fun s =>
    if s.flag (F.sdsCfg_modPresent l) then s.onSdhLane l fun s => s.ltmCondition l ltmLos false else s

def execLosDeclare (lane : Lane) (s : State) : Host.Outcome State Fault Refusal :=
  whenUp s fun s => s.losDeclare lane.val

def execLosClear (lane : Lane) (s : State) : Host.Outcome State Fault Refusal :=
  whenUp s fun s => s.losClear lane.val

def execSdhOof (lane : Lane) (s : State) : Host.Outcome State Fault Refusal :=
  whenUp s fun s => s.sdhOof lane.val

def execSdhLofDeclare (lane : Lane) (s : State) : Host.Outcome State Fault Refusal :=
  whenUp s fun s => s.onSdhLane lane.val fun s => s.sdhLofDeclare lane.val

def execSdhLofClear (lane : Lane) (s : State) : Host.Outcome State Fault Refusal :=
  whenUp s fun s => s.onSdhLane lane.val fun s => s.sdhLofClear lane.val

def execMsAisChange (lane : Lane) (present : Bool) (s : State) : Host.Outcome State Fault Refusal :=
  whenUp s fun s => s.onSdhLane lane.val fun s => s.msAisChange lane.val present

def execMsRdiChange (lane : Lane) (present : Bool) (s : State) : Host.Outcome State Fault Refusal :=
  whenUp s fun s => s.msRdiChange lane.val present

def execB2WindowEnd (lane : Lane) (degrade : Bool) (errors : Nat) (s : State) :
    Host.Outcome State Fault Refusal :=
  whenUp s fun s => s.b2WindowEnd lane.val degrade errors

def execJ0Accept (lane : Lane) (trace : List Octet) (s : State) : Host.Outcome State Fault Refusal :=
  whenUp s fun s => s.j0Accept lane.val trace

def execKInconsistent (lane : Lane) (s : State) : Host.Outcome State Fault Refusal :=
  whenUp s fun s => s.kInconsistent lane.val

def execS1Accept (lane : Lane) (s1 : BitVec 4) (s : State) : Host.Outcome State Fault Refusal :=
  whenUp s fun s => s.s1Accept lane.val s1.toNat

def execLtmCfgWrite (lane : Lane) (be : BitVec 4) (v : W32) (s : State) :
    Host.Outcome State Fault Refusal :=
  whenUp s fun s => s.hostReg (Reg.ltmCfg lane.val) be v fun s =>
    s.onSdhLane lane.val fun s => s.ltmCfgWrite lane.val be v

def execLtmAuCfgWrite (lane : Lane) (n : AuNo) (be : BitVec 4) (v : W32) (s : State) :
    Host.Outcome State Fault Refusal :=
  whenUp s fun s => s.hostReg (Reg.ltmAuCfg lane.val n.toNat) be v fun s =>
    s.ltmAuCfgWrite lane.val n.toNat be v

def execAuPtrNorm (lane : Lane) (n : AuNo) (s : State) : Host.Outcome State Fault Refusal :=
  whenUp s fun s => s.onSdhLane lane.val fun s => s.auPtrNorm lane.val n.toNat

def execAuAis (lane : Lane) (n : AuNo) (s : State) : Host.Outcome State Fault Refusal :=
  whenUp s fun s => s.onSdhLane lane.val fun s => s.auLost lane.val n.toNat 1

def execAuLop (lane : Lane) (n : AuNo) (s : State) : Host.Outcome State Fault Refusal :=
  whenUp s fun s => s.onSdhLane lane.val fun s => s.auLost lane.val n.toNat 2

def execC2Accept (lane : Lane) (n : AuNo) (c2 : Octet) (s : State) : Host.Outcome State Fault Refusal :=
  whenUp s fun s => s.c2Accept lane.val n.toNat c2.toNat

def execJ1Accept (lane : Lane) (n : AuNo) (trace : List Octet) (s : State) :
    Host.Outcome State Fault Refusal :=
  whenUp s fun s => s.j1Accept lane.val n.toNat trace

def execHpUneqChange (lane : Lane) (n : AuNo) (present : Bool) (s : State) :
    Host.Outcome State Fault Refusal :=
  whenUp s fun s => s.hpUneqChange lane.val n.toNat present

def execHpRdiChange (lane : Lane) (n : AuNo) (present : Bool) (s : State) :
    Host.Outcome State Fault Refusal :=
  whenUp s fun s => s.hpRdiChange lane.val n.toNat present

/-- The counts of a TU interpreter say that it enters state `st` (R66, R72). -/
def State.tuDue (s : State) (t st : Nat) : Bool :=
  let x := (s.term t).tu
  if st = 0 then x.ptr.found (4 * s.tuLen t - 1) true else if st = 1 then x.ptr.allOnes else x.ptr.lost

/-- TU_PTR_CHANGE of an asynchronously mapped termination (R88): held while its feed's lane has a
defect or its AU is not in NORM. -/
def State.tuTerm (s : State) (t st : Nat) : State :=
  if s.termOn t && !bit (s.termW t 0) 29 && st ≤ 2 && s.tuLive t && s.tuDue t st then
    (s.onTerm t fun x =>
      { x with tu := { x.tu with
        state := BitVec.ofNat 2 st, offset := if st = 0 then ptrOffset x.tu.ptr.last else x.tu.offset
        just := 0 } }).refreshTerm t
  else s

def State.tuPtrChange (s : State) (tu : TuRef) (st : Nat) : State :=
  match tu with
  | .path p => s.tuPath p.toNat st
  | .term t => s.tuTerm t.toNat st

def execTuPtrChange (tu : TuRef) (state : BitVec 2) (s : State) : Host.Outcome State Fault Refusal :=
  whenUp s fun s => s.tuPtrChange tu state.toNat

def execLomChange (lane : Lane) (n : AuNo) (present : Bool) (s : State) :
    Host.Outcome State Fault Refusal :=
  whenUp s fun s => s.lomChange lane.val n.toNat present

def execLpLabelAccept (path : PathId) (label : Octet) (s : State) : Host.Outcome State Fault Refusal :=
  whenUp s fun s => s.lpLabelAccept path.toNat label

def execJ2Accept (path : PathId) (trace : List Octet) (s : State) : Host.Outcome State Fault Refusal :=
  whenUp s fun s => s.j2Accept path.toNat trace

def execLpRdiChange (path : PathId) (present : Bool) (s : State) : Host.Outcome State Fault Refusal :=
  whenUp s fun s => s.lpRdiChange path.toNat present

end Sys2Proof.Machine
end

