-- ==== Sys2Proof/Machine/Lanes.lean ====
section
/-! DEFINITION. Serial lanes (R47-R54, R269-R284): roles and rates, bring-up, the capability exchange,
failures and backoff, the Amenamin framer, loss of signal, power states and the lane PRBS test. -/

namespace Sys2Proof.Machine

/-! ### Stages -/

def stOff : Nat := 0
def stDetect : Nat := 1
def stTrain : Nat := 2
def stLock : Nat := 3
def stCaps : Nat := 4
def stBackoff : Nat := 6
def stTest : Nat := 7

/-- Power states of SDS_STAT.pwr (R278). -/
def pwrActive : Nat := 0
def pwrStandby : Nat := 1
def pwrDeep : Nat := 2
def pwrOff : Nat := 3

/-- A history bit of SDS_STICKY (R284): 0 up, 1 down, 2 backoff, 3 caps_mismatch, 4 low_density, 5 wake,
6 cfg_reject. -/
def State.laneSticky (s : State) (l b : Nat) : State :=
  s.sticky (Reg.sdsSticky l) (Reg.sdsIntEn l) (BitVec.ofNat 32 (2 ^ b)) Ev.laneEvent l

def State.lanePwr (s : State) (l : Nat) : Nat := s.fget (F.sdsStat_pwr l)

/-- The stages in which the CDR runs (R277). -/
def State.cdrStage (s : State) (l : Nat) : Bool :=
  let st := s.stage l
  if s.isSdh l then [stLock, stageActive, stTest].contains st
  else [stTrain, stLock, stCaps, stageActive, stTest].contains st

/-- The CDR runs: windows are measured (R277). -/
def State.cdrRuns (s : State) (l : Nat) : Bool := s.cdrStage l && s.lanePwr l = pwrActive

/-- Status that follows from the stage: while the CDR does not run nothing is frozen and LOS is not
declared (R277); cdr_lock while it runs unfrozen (log entry 35). -/
def State.refreshCdr (s : State) (l : Nat) : State :=
  let on := s.cdrRuns l
  let s := if on then s
    else
      ((s.fbit (F.sdsStat_frozen l) false).fbit (F.sdsStat_los l) false).onLane l fun x => { x with lowRun := 0 }
  s.fbit (F.sdsStat_cdrLock l) (on && !s.flag (F.sdsStat_frozen l))

/-- What LOCK starts with: the framer hunts, an SDH framer in OOF, and no block is seen (R52, R59, R273). LOF
stands until 24 frames IN_FRAME have ended it (R53). The OOF that an SDH framer starts in does not count in
LTM_OOF_CNT (log entry 72). -/
def State.enterLock (s : State) (l : Nat) : State :=
  let s := s.onLane l fun x =>
    { x with
      framer := .hunt, cands := [], patBad := 0, numBad := 0, frameRun := 0, inFrameNow := false
      capsSeen := false, capsSent := false, capsAgree := false, bothAgree := false }
  s.whenSdh l fun s => s.ltmSet l ltmOof true

/-- What ACTIVE starts with (R24, R83, R272, R275, R281): the termination delays of SDS_LAT are measured,
at most 1.6 us each, and otherwise open (log entry 3). -/
def State.enterActive (s : State) (l : Nat) : State :=
  let (a, s) := s.draw
  let (b, s) := s.draw
  let s := (s.fset (F.sdsLat_rxNs l) (a.toNat % 1601)).fset (F.sdsLat_txNs l) (b.toNat % 1601)
  let s := (s.fset (F.sdsStat_failCnt l) 0).count (Reg.sdsCntUp l)
  let s := s.onLane l fun x => { x with idleRun := false }
  let s := if s.isSdh l then (s.fbit (F.ltmOhRx_kValid l) false).fbit (F.ltmOhRx_s1Valid l) false else s
  (s.raise Ev.laneUp l).laneSticky l 0

/-- Exit from ACTIVE (R277); one that LOS or LOF caused reports a fault (R380). -/
def State.leaveActive (s : State) (l : Nat) (fault : Bool) : State :=
  let s := if fault then s.report Ev.laneDown l else s.raise Ev.laneDown l
  (s.onLane l fun x => { x with idleRun := false }).laneSticky l 1

/-- The timer of a stage: TRAIN, CAPS and BACKOFF start theirs; that of TRAIN goes on in LOCK (R272, R275). -/
def stageTimer (st : Nat) (old : Option Nat) : Option Nat :=
  if st = stTrain || st = stCaps || st = stBackoff then some 0 else if st = stLock then old else none

/-- What a lane forgets with its stage: the run of the received QL. The generator of a pattern starts anew. -/
def LaneSt.newStage (x : LaneSt) (st : Nat) : LaneSt :=
  { x with qlRun := 0, timer := stageTimer st x.timer, txPrbs := BitVec.allOnes 31 }

/-- A lane changes stage. -/
def State.goStage (s : State) (l st : Nat) (fault : Bool := false) : State :=
  let was := s.stage l
  let s := if was = stageActive && st ≠ stageActive then s.leaveActive l fault else s
  let s := s.onCondition l fun s =>
    let s := s.fset (F.sdsStat_stage l) st
    let s := if st = was then s else s.onLane l fun x => x.newStage st
    let s := if st = stLock then s.enterLock l else s
    s.refreshCdr l
  let s := if st = stageActive && was ≠ stageActive then s.enterActive l else s
  (s.refreshTerms l).refreshMateLane

/-- A lane is running: its role is not OFF and its PLL is not stopped. -/
def State.awake (s : State) (l : Nat) : Bool :=
  let d := (s.lane l).deep
  s.role l ≠ 0 && s.lanePwr l ≤ pwrStandby && d ≠ .stopped && d ≠ .exiting

/-- The lane leaves DEEP at once. -/
def State.leaveDeep (s : State) (l : Nat) : State :=
  ((s.fset (F.sdsStat_pwr l) pwrActive).fbit (F.sdsStat_pendingEnable l) false).onLane l fun x =>
    { x with deep := .none }

/-! ### Failures and backoff (R275) -/

/-- BACKOFF: the lane is in DEEP. -/
def State.enterBackoff (s : State) (l : Nat) : State :=
  let s := (s.fset (F.sdsStat_pwr l) pwrDeep).onLane l fun x => { x with deep := .stopped }
  ((s.goStage l stBackoff).raise Ev.laneBackoff l).laneSticky l 2

/-- A failure of bring-up. -/
def State.laneFailure (s : State) (l : Nat) : State :=
  let n := min 8 (s.fget (F.sdsStat_failCnt l) + 1)
  let s := (s.fset (F.sdsStat_failCnt l) n).count (Reg.sdsCntFail l)
  if n = 8 then s.enterBackoff l else s.goStage l stDetect

/-- BACKOFF ends with DETECT and fail_cnt cleared. -/
def State.endBackoff (s : State) (l : Nat) : State :=
  ((s.leaveDeep l).fset (F.sdsStat_failCnt l) 0).goStage l stDetect

/-- What a detection finds: the partner's termination, or mod_present of an SDH lane (R272, R273). -/
def State.detects (s : State) (l : Nat) (found : Bool) : Bool :=
  if s.isSdh l then s.flag (F.sdsCfg_modPresent l) else found

/-- The stage after a successful detection. -/
def State.afterDetect (s : State) (l : Nat) : Nat := if s.isSdh l then stLock else stTrain

/-- Frames from a failed probe to the next one (10 ms), from one retry of BACKOFF to the next (1 s), for which TRAIN and
LOCK may last (50 ms), and CAPS (R272, R275). -/
def probeFrames : Nat := 80
def retryFrames : Nat := 8000
def trainFrames : Nat := 400
def capsFrames : Nat := 8

/-- RX_DETECT_PROBE: on entry into DETECT, and 10 ms after a probe that failed. -/
def State.rxDetect (s : State) (l : Nat) (found : Bool) : State :=
  if s.stage l ≠ stDetect || !s.awake l || (s.lane l).timer.any (· < probeFrames) then s
  else if s.detects l found then s.goStage l (s.afterDetect l)
  else
    let s := s.laneFailure l
    if s.stage l = stDetect then s.onLane l fun x => { x with timer := some 0 } else s

/-- BACKOFF_RETRY: each second one detection; a failure is counted and the lane stays in BACKOFF (log entry 37). -/
def State.backoffRetry (s : State) (l : Nat) (found : Bool) : State :=
  if s.stage l ≠ stBackoff || (s.lane l).deep = .exiting || (s.lane l).timer.all (· < retryFrames) then s
  else if s.detects l found then
    ((s.leaveDeep l).fset (F.sdsStat_failCnt l) 0).goStage l (s.afterDetect l)
  else (s.count (Reg.sdsCntFail l)).onLane l fun x => { x with timer := x.timer.map (· - retryFrames) }

/-- LANE_RETRY. -/
def State.laneRetry (s : State) (l : Nat) : State := if s.stage l = stBackoff then s.endBackoff l else s

/-! ### Training (R272) -/

/-- LANE_TRAINED. -/
def State.laneTrained (s : State) (l : Nat) : State :=
  if s.stage l = stTrain && s.awake l then s.goStage l stLock else s

/-- LANE_RETRAIN. -/
def State.laneRetrain (s : State) (l : Nat) : State :=
  if s.isAmenamin l && s.awake l && (s.stage l = stLock || s.stage l = stCaps) then s.goStage l stTrain else s

/-- TRAIN_TIMEOUT: the timer runs from TRAIN until CAPS is reached. -/
def State.trainTimeout (s : State) (l : Nat) : State :=
  if s.isAmenamin l && s.awake l && (s.stage l = stTrain || s.stage l = stLock) &&
      (s.lane l).timer.any (trainFrames ≤ ·) then s.laneFailure l
  else s

/-! ### The capability exchange (R215, R228, R274) -/

/-- The first check that a capability block fails, in code order; 0 for none. -/
def State.capsWhy (s : State) (l : Nat) (c : CapsBlock) : Nat :=
  let r := s.role l
  let me := s.fget F.fabCfg_deviceId
  let side := s.flag F.matStat_side
  let idOk :=
    if r = roleFabric then c.deviceId = s.fget (F.fabLane_peer l) && c.deviceId ≠ me
    else r ≠ roleMate || c.deviceId = me
  let sideOk := if r = roleFabric then c.side = side else r ≠ roleMate || c.side ≠ side
  if c.format ≠ 1 then 2
  else if c.role ≠ r then 3
  else if c.rate + 4 ≠ s.rate l then 4
  else if !idOk then 5
  else if r ≠ roleNative && c.fabricId ≠ s.fget F.fabCfg_fabricId then 6
  else if !sideOk then 7
  else if r = roleMate && c.revision ≠ 0xB0 then 8
  else 0

/-- SDS_CAPS_RX of an accepted block. -/
def capsReg (c : CapsBlock) : W32 :=
  BitVec.ofNat 32 (c.role * 2 ^ 29 + c.deviceId * 2 ^ 26 + b2n c.side * 2 ^ 25 + b2n c.agree * 2 ^ 24 +
    c.fabricId * 2 ^ 16 + c.revision * 2 ^ 8 + c.rates * 2 ^ 5 + c.rate * 2 ^ 3)

/-- A mate lane whose partner shows the same side (R228). -/
def State.judgeSide (s : State) (l : Nat) (c : CapsBlock) : State :=
  if s.role l ≠ roleMate then s
  else if c.side = s.flag F.matStat_side then
    (if s.flag F.matStat_sideConflict then s
     else (s.fbit F.matStat_sideConflict true).raise Ev.mateSideConflict l)
  else s.fbit F.matStat_sideConflict false

/-- CAPS_BLOCK_RECEIVED: a block with a correct CRC, in CAPS or later. -/
def State.capsBlock (s : State) (l : Nat) (received : CapsBlock) : State :=
  if !s.isAmenamin l || !s.awake l || (s.stage l ≠ stCaps && s.stage l ≠ stageActive) then s
  else
  let c := (s.lane l).caps.merge received
  let s := s.onLane l fun x => { x with caps := c }
  if !c.crcOk then s
  else
    let why := s.capsWhy l c
    let s := (s.wr (Reg.sdsCapsRx l) (capsReg c)).fset (F.sdsStat_capsWhy l) why
    let s := s.onLane l fun x =>
      { x with
        capsSeen := true, capsAgree := why = 0
        bothAgree := why = 0 && c.seen && c.agree }
    s.judgeSide l c

/-- CAPS_TIMEOUT: 8 frames in CAPS without agreement on both ends. -/
def State.capsTimeout (s : State) (l : Nat) : State :=
  let x := s.lane l
  if s.stage l ≠ stCaps || !s.awake l || x.bothAgree || x.timer.all (· < capsFrames) then s
  else
    let why := if !x.capsSeen then 1 else if x.capsAgree then 9 else s.fget (F.sdsStat_capsWhy l)
    let s := s.fset (F.sdsStat_capsWhy l) why
    let s := if 2 ≤ why && why ≤ 8 then (s.raise Ev.laneCapsMismatch l 0 why).laneSticky l 3 else s
    s.laneFailure l

/-! ### The Amenamin framer (R52-R54) -/

/-- The framer of an Amenamin lane runs from LOCK on. -/
def State.framerRuns (s : State) (l : Nat) : Bool :=
  s.isAmenamin l && s.awake l && [stLock, stCaps, stageActive].contains (s.stage l)

/-- The first candidate of the hunt that qualifies: its third consecutive frame (R52). -/
def State.qualified (s : State) (l : Nat) : Option Cand := (s.lane l).cands.find? (3 ≤ ·.run)

/-- AMENAMIN_IN_FRAME: a candidate qualifies, and the framer is IN_FRAME at its offset. -/
def State.amenaminInFrame (s : State) (l : Nat) : State :=
  if !s.framerRuns l || (s.lane l).framer = .inFrame then s
  else
    match s.qualified l with
    | none => s
    | some c =>
      let s := s.onCondition l fun s => s.onLane l fun x =>
        { x with
          framer := .inFrame, cands := [], align := c.offset, lastNum := c.last, numAge := c.age, patBad := 0
          numBad := 0, frameRun := 0 }
      (if s.stage l = stLock then s.onLane l fun x => { x with inFrameNow := true } else s).refreshTerms l

/-- The framer leaves IN_FRAME: the hunt starts anew, and no run of a header field goes on (R52, R251). -/
def State.framerLost (s : State) (l : Nat) : State :=
  if (s.lane l).framer ≠ .inFrame then s
  else
    let s := s.count (Reg.sdsCntOof l)
    (s.onCondition l fun s => s.onLane l fun x =>
      { x with framer := .oof, cands := [], patBad := 0, numBad := 0, frameRun := 0, qlRun := 0 }).refreshTerms l

/-- AMENAMIN_OOF: 4 consecutive failed patterns or 2 consecutive discontinuous frame numbers. -/
def State.amenaminOof (s : State) (l : Nat) : State :=
  if s.framerRuns l && (4 ≤ (s.lane l).patBad || 2 ≤ (s.lane l).numBad) then s.framerLost l else s

/-- AMENAMIN_LOF_DECLARE: 24 frames out of IN_FRAME since OOF. In ACTIVE the lane goes to DETECT, but within
the second of idle_ok (R277). -/
def State.amenaminLof (s : State) (l : Nat) : State :=
  if !s.framerRuns l || (s.lane l).framer ≠ .oof || (s.lane l).frameRun < lofFrames then s
  else
    let s := (s.onCondition l fun s => s.onLane l fun x => { x with lof := true }).refreshTerms l
    if s.stage l = stageActive && !(s.lane l).idleRun then s.goStage l stDetect true else s

/-- AMENAMIN_LOF_CLEAR: 24 frames in IN_FRAME. -/
def State.amenaminLofClear (s : State) (l : Nat) : State :=
  if (s.lane l).framer = .inFrame && s.isAmenamin l && lofFrames ≤ (s.lane l).frameRun then
    (s.onCondition l fun s => s.onLane l fun x => { x with lof := false }).refreshTerms l
  else s

/-! ### Density and LOS (R277) -/

/-- Amenamin LOS: DETECT with idle_ok = 0; with idle_ok = 1 the framer hunts as from OOF for up to 1 s. -/
def State.amenaminLos (s : State) (l : Nat) : State :=
  if s.flag (F.sdsStat_los l) then s
  else
    let s := (s.onCondition l fun s => s.fbit (F.sdsStat_los l) true).refreshTerms l
    if s.stage l ≠ stageActive then s
    else if s.flag (F.sdsCfg_idleOk l) then
      (s.onLane l fun x => { x with idleRun := true, idleAge := 0 }).framerLost l
    else s.goStage l stDetect true

/-- A window that freezes the loops. -/
def State.freezeLane (s : State) (l : Nat) : State :=
  let s :=
    if s.flag (F.sdsStat_frozen l) then s
    else
      ((((s.fbit (F.sdsStat_frozen l) true).fbit (F.sdsStat_cdrLock l) false).count (Reg.sdsCntFreeze l)).raise
        Ev.laneLowDensity l).laneSticky l 4
  let s := s.onLane l fun x =>
    { x with lowRun := x.lowRun + 1, losClean := if 20 ≤ x.lowRun + 1 then 0 else min 250 (x.losClean + 1) }
  if s.isAmenamin l && 20 ≤ (s.lane l).lowRun then s.amenaminLos l else s

/-- An SDH lane leaves LOCK for ACTIVE when its CDR is locked and its framer has reached IN_FRAME (R273). -/
def State.sdhLocked (s : State) (l : Nat) : State :=
  if s.isSdh l && s.awake l && s.stage l = stLock && (s.lane l).inFrameNow && s.flag (F.sdsStat_cdrLock l) then
    (s.onLane l fun x => { x with inFrameNow := false }).goStage l stageActive
  else s

/-- DENSITY_WINDOW. -/
def State.densityWindow (s : State) (l : Nat) (low : Bool) : State :=
  if !s.cdrRuns l then s
  else if low then s.freezeLane l
  else
    (((s.fbit (F.sdsStat_frozen l) false).fbit (F.sdsStat_cdrLock l) true).onLane l fun x =>
      { x with lowRun := 0, losClean := min 250 (x.losClean + 1) }).sdhLocked l

/-- LANE_LOS_CLEAR: 250 us without a run of 20 frozen windows. -/
def State.laneLosClear (s : State) (l : Nat) : State :=
  if s.isAmenamin l && 250 ≤ (s.lane l).losClean then
    (s.onCondition l fun s => s.fbit (F.sdsStat_los l) false).refreshTerms l
  else s

/-- IDLE_OK_EXPIRY: 1 s after LOS was declared. -/
def State.idleOkExpiry (s : State) (l : Nat) : State :=
  if !(s.lane l).idleRun || (s.lane l).idleAge < 8000 then s
  else
    let s := s.onLane l fun x => { x with idleRun := false }
    if s.stage l = stageActive && (s.flag (F.sdsStat_los l) || (s.lane l).lof) then s.goStage l stDetect true
    else s

/-! ### Power states (R278-R280, R325; log entry 35) -/

/-- The power state asked for: the deeper of SDS_CTL.pwr and the planner's. -/
def State.wantedPwr (s : State) (l : Nat) : Nat :=
  if (s.lane l).shedDeep then pwrDeep else min pwrDeep (s.fget (F.sdsCtl_pwr l))

/-- The exit from DEEP starts: 400 us. -/
def State.startExit (s : State) (l : Nat) : State :=
  (s.fbit (F.sdsStat_pendingEnable l) false).onLane l fun x => { x with deep := .exiting }

/-- A change of the power state asked for acts on a lane: a DEEP entry begins, or is cancelled before the
point of no return; after it the entry completes and the exit follows. -/
def State.askPower (s : State) (l : Nat) : State :=
  let d := (s.lane l).deep
  let deep := s.wantedPwr l = pwrDeep
  if s.role l = 0 || s.stage l = stBackoff then s
  else if deep then
    (if d = .none then s.onLane l fun x => { x with deep := .requested }
     else s.fbit (F.sdsStat_pendingEnable l) false)
  else if d = .requested then s.onLane l fun x => { x with deep := .none }
  else if d = .stopped then
    (if s.lanePwr l = pwrDeep then s.startExit l else s.fbit (F.sdsStat_pendingEnable l) true)
  else s

/-- DEEP is complete at the row mark after the point of no return; the exit follows at once where it was
asked for. -/
def State.deepComplete (s : State) (l : Nat) : State :=
  let s := s.onCondition l fun s => (s.fset (F.sdsStat_pwr l) pwrDeep).refreshCdr l
  if s.wantedPwr l = pwrDeep then s else s.startExit l

/-- The row mark, for the power of one lane: the transmitter goes idle or resumes, STANDBY takes effect in
ACTIVE and ends. -/
def State.powerMark (s : State) (l : Nat) : State :=
  let d := (s.lane l).deep
  let w := s.wantedPwr l
  if s.role l = 0 || s.stage l = stBackoff then s
  else if d = .requested then s.onLane l fun x => { x with deep := .idle }
  else if d = .idle then (if w = pwrDeep then s else s.onLane l fun x => { x with deep := .none })
  else if d = .stopped && s.lanePwr l ≠ pwrDeep then s.deepComplete l
  else if d = .none && w = pwrDeep then s.onLane l fun x => { x with deep := .requested }
  else if d = .none && w = pwrStandby && s.stage l = stageActive && s.lanePwr l = pwrActive then
    s.onCondition l fun s => (s.fset (F.sdsStat_pwr l) pwrStandby).refreshCdr l
  else if d = .none && w ≠ pwrStandby && s.lanePwr l = pwrStandby then
    s.onCondition l fun s => (s.fset (F.sdsStat_pwr l) pwrActive).refreshCdr l
  else s

/-- DEEP_POINT_OF_NO_RETURN: the PLL stops; a lane in ACTIVE will resume at LOCK, any other at DETECT. -/
def State.deepStop (s : State) (l : Nat) : State :=
  if (s.lane l).deep ≠ .idle then s
  else
    let back := if s.stage l = stageActive then stLock else stDetect
    let s := s.onLane l fun x => { x with deep := .stopped, resume := BitVec.ofNat 4 back }
    s.goStage l back

/-- DEEP_EXIT_DONE. -/
def State.deepExitDone (s : State) (l : Nat) : State :=
  if (s.lane l).deep ≠ .exiting then s
  else (s.leaveDeep l).goStage l (s.lane l).resume.toNat

/-- LANE_WAKE: SDS_CTL.pwr becomes ACTIVE; a lane in BACKOFF will go to TRAIN, an SDH lane to DETECT. -/
def State.laneWake (s : State) (l : Nat) : State :=
  if !s.flag (F.sdsCfg_wakeRx l) || (s.lanePwr l ≠ pwrStandby && s.lanePwr l ≠ pwrDeep) ||
      (s.lane l).deep = .exiting then s
  else
    let s := ((s.fset (F.sdsCtl_pwr l) pwrActive).raise Ev.laneWake l).laneSticky l 5
    if s.stage l = stBackoff then
      let back := if s.isSdh l then stDetect else stTrain
      ((s.fset (F.sdsStat_failCnt l) 0).onLane l fun x => { x with resume := BitVec.ofNat 4 back }).startExit l
    else s.askPower l

/-! ### Tests (R283) -/

/-- SDS_CTL.test is written. -/
def State.laneTest (s : State) (l : Nat) (on : Bool) : State :=
  (s.fbit (F.sdsCtl_test l) on).onLane l fun x => { x with testDue := some on }

/-- LANE_PRBS_INJECT: one transmitted bit is inverted while the generator runs. -/
def State.prbsInject (s : State) (l : Nat) : State :=
  if s.stage l = stTest && s.flag (F.sdsPrbs_txEn l) then s.onLane l fun x => { x with injected := x.injected + 1 }
  else s

/-- The lane PRBS checker runs. -/
def State.checkerRuns (s : State) (l : Nat) : Bool := s.stage l = stTest && s.flag (F.sdsPrbs_rxEn l)

/-- The 48-bit count of checked bits. -/
def State.prbsBits (s : State) (l : Nat) : Nat :=
  (s.rd (Reg.sdsPrbsBitsLo l)).toNat + 2 ^ 32 * s.fget (F.sdsPrbsBitsHi_bitsHi l)

/-- Checked bits and their errors are counted. -/
def State.prbsCount (s : State) (l n errors : Nat) : State :=
  let v := s.prbsBits l + n
  ((s.wr (Reg.sdsPrbsBitsLo l) (BitVec.ofNat 32 v)).fset (F.sdsPrbsBitsHi_bitsHi l) (v / 2 ^ 32)).count
    (Reg.sdsPrbsErr l) errors

/-- Errors of the row period that ended, counted while in sync (log entry 35). -/
def State.prbsRow (s : State) (errs : List (Nat × Nat)) (l : Nat) : State :=
  if s.checkerRuns l && s.flag (F.sdsPrbs_inSync l) then
    s.prbsCount l (laneRowBits (s.rate l)) (((errs.find? (·.1 = l)).map (·.2)).getD 0)
  else s

/-- SDS_PRBS_IN_SYNC. -/
def State.prbsInSync (s : State) (l : Nat) : State :=
  if s.checkerRuns l then s.fbit (F.sdsPrbs_inSync l) true else s

/-- SDS_PRBS_SYNC_LOST: a block of 1,024 bits, counted, with 256 errors or more. -/
def State.prbsSyncLost (s : State) (l errors : Nat) : State :=
  if s.checkerRuns l && s.flag (F.sdsPrbs_inSync l) && 256 ≤ errors then
    ((s.prbsCount l 1024 errors).fbit (F.sdsPrbs_inSync l) false).fbit (F.sdsPrbs_syncLost l) true
  else s

/-- SDS_PRBS_BITS_LO_READ: bits 47:32 are latched for the next read of SDS_PRBS_BITS_HI. -/
def State.prbsLoRead (s : State) (l : Nat) : State :=
  { s with latch := s.latch.insert (Reg.sdsPrbsBitsHi l) (s.rd (Reg.sdsPrbsBitsHi l)) }.readBack
    (s.rd (Reg.sdsPrbsBitsLo l))

/-! ### Configuration (R269-R271) -/

/-- A combination that R269 allows. -/
def laneCfgOk (role rate : Nat) : Bool :=
  rate ≠ 7 && (role = 0 || (1 ≤ role && role ≤ 3 && 4 ≤ rate) || (role = 4 && rate ≤ 3))

/-- LANE_CFG_WRITE. A RETIRED device discards it (R409). -/
def State.laneCfgWrite (s : State) (l : Nat) (be : BitVec 4) (v : W32) : State :=
  if s.retired then s
  else
    let old := s.rd (Reg.sdsCfg l)
    let new := mergeBe old (v &&& 0xFFFE0000) be
    if !laneCfgOk (bits new 31 29) (bits new 28 26) then (s.raise Ev.laneCfgReject l).laneSticky l 6
    else
      let s := s.wr (Reg.sdsCfg l) new
      if !s.isSdh l then s
      else if !bit old 21 && bit new 21 && s.stage l = stBackoff then s.endBackoff l
      else if bit old 21 && !bit new 21 && s.stage l = stageActive then s.goStage l stDetect
      else s

/-- The defect and pointer state of a lane whose role becomes LINE_SDH starts afresh (R83); the AU entries that are
stored act. -/
def State.freshLtm (s : State) (l : Nat) : State :=
  let s := (s.wr (Reg.ltmStat l) (regReset (Reg.ltmStat l))).wr (Reg.ltmOhRx l) (regReset (Reg.ltmOhRx l))
  (List.range 64).foldl (fun s n =>
    let s := (s.wr (Reg.ltmAuStat l n) (regReset (Reg.ltmAuStat l n))).fset (F.ltmAuDly_delay l n) 0
    s.onAu l n fun _ => { AuSt.init with cfg := s.auStored l n }) s

/-- LANE_CFG_APPLY: another role or rate takes the lane through OFF to DETECT; what hangs on its geometry is
judged again (R58, R65). -/
def State.laneCfgApply (s : State) (l : Nat) : State :=
  let role := s.fget (F.sdsCfg_role l)
  let rate := s.fget (F.sdsCfg_rate l)
  if role = s.role l && rate = s.rate l then s
  else
    let was3 := s.au3 l
    let s := s.goStage l stOff
    let s := if role = roleSdh && s.role l ≠ roleSdh then s.freshLtm l else s
    let s := s.setLane l { LaneSt.init with role := BitVec.ofNat 3 role, rate := BitVec.ofNat 3 rate }
    let s := (s.fset (F.sdsStat_failCnt l) 0).fset (F.sdsStat_capsWhy l) 0
    let s := (s.fset (F.sdsStat_pwr l) (if role = 0 then pwrOff else pwrActive)).fbit
      (F.sdsStat_pendingEnable l) false
    let lost3 := was3 && rate = 3
    let s := if s.isSdh l then ((s.judgeAus l lost3).restartAus l (List.range 64)).judgeAuAny l else s
    let s := (s.rejudgeLane l).goStage l (if role = 0 then stOff else stDetect)
    s.askPower l

/-- A test asked for begins or ends at the frame mark. -/
def State.testMark (s : State) (l : Nat) : State :=
  let due := (s.lane l).testDue
  let s := if due = none then s else s.onLane l fun x => { x with testDue := none }
  if s.role l = 0 then s
  else
    match due with
    | some true =>
      if s.stage l = stTest then s
      else (((s.leaveDeep l).fbit (F.sdsPrbs_inSync l) false).goStage l stTest)
    | some false =>
      if s.stage l = stTest then
        ((s.fset (F.sdsStat_failCnt l) 0).fbit (F.sdsPrbs_inSync l) false).goStage l stDetect
      else s
    | none => s

/-- LANE_CAPS_ENTRY and LANE_ACTIVE_ENTRY at the frame mark. -/
def State.stageMark (s : State) (l : Nat) : State :=
  let x := s.lane l
  if !s.awake l then s
  else if s.stage l = stLock && x.inFrameNow && !s.isSdh l then
    (s.onLane l fun x => { x with inFrameNow := false }).goStage l stCaps
  else if s.stage l = stCaps && x.bothAgree then s.goStage l stageActive
  else s

/-- A frame has ended for the framer of a lane (R53, R59), for its timers, and for the run of its received QL: a frame
without a header ends the run (R251). caps_seen is sent from the frame after the acceptance (R274). -/
def State.frameCount (s : State) (l : Nat) : State :=
  if s.role l = 0 then s
  else s.onLane l fun x =>
    { x with
      frameRun := min lofFrames (x.frameRun + 1), qlRun := if x.headed then x.qlRun else 0, headed := false
      capsSent := x.capsSeen, timer := x.timer.map (· + 1), idleAge := if x.idleRun then x.idleAge + 1 else 0 }

/-! ### Equalization (R271) -/

/-- The settings of a profile in force: transmit swing in mV, the three cursors in 1/64 of it, receive peaking in dB and
DC gain in -dB. -/
def LaneSt.swing (x : LaneSt) : Nat := 200 + 50 * min 20 (bits x.eq.1 22 18)
def LaneSt.pre (x : LaneSt) : Nat := bits x.eq.1 31 28
def LaneSt.post (x : LaneSt) : Nat := bits x.eq.1 27 23
def LaneSt.main (x : LaneSt) : Nat := 64 - x.pre - x.post
def LaneSt.peaking (x : LaneSt) : Nat := bits x.eq.2 31 28
def LaneSt.dcGain (x : LaneSt) : Nat := bits x.eq.2 27 25

/-- The profile of a lane, as it stands, applies at the frame mark in whatever stage (R270, R271). -/
def State.profileMark (s : State) (l : Nat) : State :=
  let p := s.fget (F.sdsCfg_prof l)
  if s.role l = 0 then s
  else s.onLane l fun x => { x with eq := (s.rd (Reg.sdsProf0 p), s.rd (Reg.sdsProf1 p)) }

/-- The frame mark, for one lane: writes before stage changes (R270). -/
def State.laneMark (s : State) (l : Nat) : State :=
  ((((s.frameCount l).laneCfgApply l).profileMark l).testMark l).stageMark l

/-! ### Headers (R47, R48, R251) -/

/-- The QL of a header: accepted when it is identical in 8 frames (R251). -/
def headerQl (x : LaneSt) (ql : BitVec 4) : LaneSt :=
  let n := if ql = x.qlLast then x.qlRun + 1 else 1
  { x with qlLast := ql, qlRun := n, qlAcc := if 8 ≤ n then some ql else x.qlAcc }

/-- HEADER_ROW0_RECEIVED. The flip, fabric and mate fields count on an ACTIVE lane only (R276). A heartbeat
is good when it is one above the last (R225, R229). -/
def State.headerReceived (s : State) (l : Nat) (received : Header) : State :=
  if !s.framerRuns l || (s.lane l).framer ≠ .inFrame then s
  else
    let h := (s.lane l).hdr.merge received
    let lost := received.con0.getLsbD 3
    let good := received.con0 = 0 && (s.lane l).heartbeat.any fun b => h.heartbeat = b + 1
    let s := s.onLane l fun x =>
      { (if lost then { x with qlRun := 0 } else headerQl x h.ql) with
        hdr := h, heartbeat := if lost then x.heartbeat else some h.heartbeat, headed := true }
    let s := if good then s else s.badArrival l
    let s := if s.followLane = some l && received.con0 &&& 3 = 0 then
        s.setFab fun x => { x with masterNum := some h.frameNumber } else s
    let s := if s.role l = roleMate && good then s.laneBeat else s
    if s.stage l ≠ stageActive then s
    else if s.role l = roleFabric then s.peerHeader l h
    else if s.role l = roleMate then s.mateHeader h
    else s

/-! ### Commands -/

def execSdhInFrame (lane : Lane) (s : State) : Host.Outcome State Fault Refusal :=
  whenUp s fun s => (s.sdhInFrame lane.val).sdhLocked lane.val

def execHeaderRow0Received (lane : Lane) (h : Header) (s : State) : Host.Outcome State Fault Refusal :=
  whenUp s fun s => s.headerReceived lane.val h

def execAmenaminInFrame (lane : Lane) (s : State) : Host.Outcome State Fault Refusal :=
  whenUp s fun s => s.amenaminInFrame lane.val

def execAmenaminOof (lane : Lane) (s : State) : Host.Outcome State Fault Refusal :=
  whenUp s fun s => s.amenaminOof lane.val

def execAmenaminLofDeclare (lane : Lane) (s : State) : Host.Outcome State Fault Refusal :=
  whenUp s fun s => s.amenaminLof lane.val

def execAmenaminLofClear (lane : Lane) (s : State) : Host.Outcome State Fault Refusal :=
  whenUp s fun s => s.amenaminLofClear lane.val

def execLaneCfgWrite (lane : Lane) (be : BitVec 4) (v : W32) (s : State) :
    Host.Outcome State Fault Refusal :=
  whenUp s fun s => s.hostReg (Reg.sdsCfg lane.val) be v fun s => s.laneCfgWrite lane.val be v

def execRxDetectProbe (lane : Lane) (found : Bool) (s : State) : Host.Outcome State Fault Refusal :=
  whenUp s fun s => s.rxDetect lane.val found

def execLaneTrained (lane : Lane) (s : State) : Host.Outcome State Fault Refusal :=
  whenUp s fun s => s.laneTrained lane.val

def execLaneRetrain (lane : Lane) (s : State) : Host.Outcome State Fault Refusal :=
  whenUp s fun s => s.laneRetrain lane.val

def execCapsBlockReceived (lane : Lane) (c : CapsBlock) (s : State) : Host.Outcome State Fault Refusal :=
  whenUp s fun s => s.capsBlock lane.val c

def execCapsTimeout (lane : Lane) (s : State) : Host.Outcome State Fault Refusal :=
  whenUp s fun s => s.capsTimeout lane.val

def execTrainTimeout (lane : Lane) (s : State) : Host.Outcome State Fault Refusal :=
  whenUp s fun s => s.trainTimeout lane.val

def execBackoffRetry (lane : Lane) (found : Bool) (s : State) : Host.Outcome State Fault Refusal :=
  whenUp s fun s => s.backoffRetry lane.val found

def execLaneRetry (lane : Lane) (s : State) : Host.Outcome State Fault Refusal :=
  whenUp s fun s => s.hostReg (Reg.sdsCtl lane.val) 0x8 0x10000000 fun s => s.laneRetry lane.val

def execDensityWindow (lane : Lane) (low : Bool) (s : State) : Host.Outcome State Fault Refusal :=
  whenUp s fun s => s.densityWindow lane.val low

def execLaneLosClear (lane : Lane) (s : State) : Host.Outcome State Fault Refusal :=
  whenUp s fun s => s.laneLosClear lane.val

def execIdleOkExpiry (lane : Lane) (s : State) : Host.Outcome State Fault Refusal :=
  whenUp s fun s => s.idleOkExpiry lane.val

def execLanePowerRequest (lane : Lane) (pwr : BitVec 2) (s : State) : Host.Outcome State Fault Refusal :=
  whenUp s fun s => s.fromHost (Reg.sdsCtl lane.val) fun s =>
    (s.fset (F.sdsCtl_pwr lane.val) pwr.toNat).askPower lane.val

def execDeepPointOfNoReturn (lane : Lane) (s : State) : Host.Outcome State Fault Refusal :=
  whenUp s fun s => s.deepStop lane.val

def execDeepExitDone (lane : Lane) (s : State) : Host.Outcome State Fault Refusal :=
  whenUp s fun s => s.deepExitDone lane.val

def execLaneWake (lane : Lane) (s : State) : Host.Outcome State Fault Refusal :=
  whenUp s fun s => s.laneWake lane.val

def execLaneTest (lane : Lane) (on : Bool) (s : State) : Host.Outcome State Fault Refusal :=
  whenUp s fun s => s.fromHost (Reg.sdsCtl lane.val) fun s => s.laneTest lane.val on

def execLanePrbsInject (lane : Lane) (s : State) : Host.Outcome State Fault Refusal :=
  whenUp s fun s => s.hostReg (Reg.sdsPrbs lane.val) 0x8 0x04000000 fun s => s.prbsInject lane.val

def execSdsPrbsInSync (lane : Lane) (s : State) : Host.Outcome State Fault Refusal :=
  whenUp s fun s => s.prbsInSync lane.val

def execSdsPrbsSyncLost (lane : Lane) (errors : Nat) (s : State) : Host.Outcome State Fault Refusal :=
  whenUp s fun s => s.prbsSyncLost lane.val errors

def execSdsPrbsBitsLoRead (lane : Lane) (s : State) : Host.Outcome State Fault Refusal :=
  whenUp s fun s => s.toHost fun s => s.prbsLoRead lane.val

end Sys2Proof.Machine
end

