-- ==== Sys2Proof/Machine/Monitor.lean ====
section
/-! DEFINITION. The path monitor (R285-R296): PM seconds, classification, availability, bins, threshold
crossings, and the reading and clearing of bins. -/

namespace Sys2Proof.Machine

/-! ### The second now running (R287, R288, R294) -/

/-- A path is evaluated: valid, monitored, pm_en. -/
def State.pmHeld (s : State) (p : Nat) : Bool :=
  match (s.path p).entry with
  | some (w0, _, _) => bit w0 24 && bit (s.pathWord p 7) 31
  | none => false

/-- fe_en of word 7. -/
def State.pmFar (s : State) (p : Nat) : Bool := bit (s.pathWord p 7) 30

/-- A near-end defect of word 3 is present: lane_fail, ais, lop, tim, uneq, plm, sf or term_fail. -/
def State.pmNearDefect (s : State) (p : Nat) : Bool := s.pathWord p 3 &&& 0xFD400000 ≠ 0

/-- The termination whose delivery path this is. -/
def State.deliveredBy (s : State) (p : Nat) : Option Nat := s.termsOn.find? fun t => s.termPath t 2 = p

/-- Type of a path's entry. -/
def State.pathType (s : State) (p : Nat) : Nat :=
  match (s.path p).entry with
  | some (w0, _, _) => bits w0 30 27
  | none => 0

/-- The entry is structural on an SDH lane (R56). -/
def State.pathStructural (s : State) (p : Nat) : Bool :=
  match (s.path p).entry with
  | some (w0, w1, w2) => s.structural (PathGeo.ofWords w0 w1 w2)
  | none => false

/-- The far-end defect of R287. -/
def State.pmFarDefect (s : State) (p : Nat) : Bool :=
  let t := s.pathType p
  if (1 ≤ t && t ≤ 4) || (5 ≤ t && t ≤ 7 && s.pathStructural p) then bit (s.pathWord p 3) 23
  else if t = 8 || t = 9 then (s.deliveredBy p).any fun t => s.termFlag t stRai
  else false

/-- The paths that the monitor keeps apart: those of the path table, and those once evaluated. -/
def State.pmPaths (s : State) : List Nat :=
  let a := s.pathList.map (·.1)
  a ++ (s.pm.paths.map (·.1)).filter fun p => !a.contains p

/-- The defects at a row mark. -/
def State.pmRowMark (s : State) : State :=
  s.pmPaths.foldl (fun s p =>
    if s.pmHeld p then
      let ne := s.pmNearDefect p
      let fe := s.pmFarDefect p
      if ne || fe then s.onPm p fun x => { x with neDef := x.neDef || ne, feDef := x.feDef || fe } else s
    else if (s.pmPath p).live then s.onPm p fun x => { x with live := false }
    else s) s

/-! ### Classification (R287, R289) -/

/-- Near-end and far-end blocks of a path in a second of `n` frames. ESFs of a T1 termination are counted
by where its multiframe stands at the end. -/
def State.pmBlockCounts (s : State) (p n : Nat) : Nat × Nat :=
  let t := s.pathType p
  if 1 ≤ t && t ≤ 4 then (n, n)
  else if 5 ≤ t && t ≤ 7 then (if s.pathStructural p then (n / 4, n / 4) else (0, 0))
  else if t = 8 then
    match s.deliveredBy p with
    | some d => if bit (s.termW d 0) 28 && !s.termFlag d stCrc4Off then (n / 8, n / 8) else (0, 0)
    | none => (0, 0)
  else if t = 9 then
    match s.deliveredBy p with
    | some d =>
      let k := ((s.term d).rx.mfPos.getD 0 + 1) % 24
      if bit (s.termW d 0) 28 then ((n + 23 - k) / 24, 0) else (0, 0)
    | none => (0, 0)
  else if t = 11 then
    match (s.path p).entry with
    | some (w0, _, _) => if s.isAmenamin (bits w0 23 18) then (9 * n, 0) else (0, 0)
    | none => (0, 0)
  else (0, 0)

/-- The class of a second of one direction: a defect second, `e` errored blocks of `b`. -/
def classify (defect : Bool) (b e : Nat) : Second :=
  let ses := defect || (1 ≤ b && 3 * b ≤ 10 * e)
  ⟨defect || 1 ≤ e, ses, if ses then 0 else e⟩

/-- A second that is neither ES nor SES. -/
def Second.clean : Second := ⟨false, false, 0⟩

/-- The second of one path that ends; the next one starts with no defect and no error. -/
def PmPath.endSecond (x : PmPath) (blocks : Nat × Nat) (far live : Bool) : PmPath :=
  let ne := classify x.neDef blocks.1 x.neErr
  let fe := if x.neDef || !far then Second.clean else classify x.feDef blocks.2 x.feErr
  { x with
    neDef := false, feDef := false, neErr := 0, feErr := 0, live := live
    queue := x.queue ++ [(ne, fe, x.live)] }

/-! ### Availability (R290; log entry 38) -/

/-- Ten evaluated seconds in a row for which `f` holds. -/
def tenOf (q : List (Second × Second × Bool)) (f : Second × Second × Bool → Bool) : Bool :=
  10 ≤ q.length && (q.take 10).all fun x => x.2.2 && f x

/-- Whether a direction is unavailable in the oldest second of the queue. -/
def nextDown (was : Bool) (q : List (Second × Second × Bool)) (ses : Second × Second × Bool → Bool) : Bool :=
  if was then !tenOf q (fun x => !ses x) else tenOf q ses

/-! ### Bins (R291-R293) -/

/-- One counter of a bin grows; saturating it counts once. -/
def satAdd (n k : Nat) : Nat × Bool := if n + k < 2 ^ 32 then (n + k, false) else (2 ^ 32 - 1, n < 2 ^ 32 - 1)

/-- The four counters of a direction grow; the number of counters that saturated. -/
def addAll (l ks : List Nat) : List Nat × Nat :=
  let r := (List.zip l ks).map fun p => satAdd p.1 p.2
  (r.map (·.1), (r.filter (·.2)).length)

/-- A committed second goes into a bin: what each direction adds. -/
def Bin.commit (b : Bin) (ne fe : List Nat) : Bin × Nat :=
  let x := addAll b.ne ne
  let y := addAll b.fe fe
  ({ b with
      seconds := b.seconds + 1, ne := x.1, fe := y.1
      flags := if x.2 + y.2 > 0 then b.flags ||| 0b00100 else b.flags }, x.2 + y.2)

/-- What one direction adds: es, ses, bbe and uas. -/
def secondAdds (c : Second) (pathDown down : Bool) : List Nat :=
  if pathDown then [0, 0, 0, b2n down] else [b2n c.es, b2n c.ses, c.bbe, 0]

/-- A bin as it closes. -/
def Bin.close (b : Bin) (len : Nat) (step untimed : Bool) : Bin :=
  let f := if b.seconds < len || step then b.flags ||| 0b00001 else b.flags
  { b with flags := if untimed then f ||| 0b00010 else f }

/-- A bin that begins. -/
def Bin.fresh (start : W32) : Bin := { Bin.init with start := start }

/-! ### Threshold crossings (R296) -/

/-- A threshold as it acts: 0 is off. -/
def tcaThr (v : Nat) : Nat := min 900 v

/-- The counters that R296 watches, by their place in PMN_BIN_DATA (log entry 38), as value before, value
after, threshold. -/
def State.tcaWatch (s : State) (p : Nat) (old new : Bin) : List (Nat × Nat × Nat × Nat) :=
  let k := bits (s.pathWord p 7) 28 26
  let es := tcaThr (s.fget (F.pmnTca_esThr k))
  let ses := tcaThr (s.fget (F.pmnTca_sesThr k))
  [(0, old.ne.getD 0 0, new.ne.getD 0 0, es), (1, old.ne.getD 1 0, new.ne.getD 1 0, ses),
    (4, old.fe.getD 0 0, new.fe.getD 0 0, es), (5, old.fe.getD 1 0, new.fe.getD 1 0, ses)]

/-- PM_TCA, once per counter per bin, at an increment that leaves the counter at or above its threshold. -/
def State.judgeTca (s : State) (p : Nat) (old new : Bin) : State :=
  (List.range 4).foldl (fun s i =>
    match (s.tcaWatch p old new)[i]? with
    | some (c, a, b, thr) =>
      if thr ≠ 0 && a < b && thr ≤ b && !(s.pmPath p).cur15.tca.getD i false then
        let s := s.onPm p fun x => { x with cur15 := { x.cur15 with tca := x.cur15.tca.set i true } }
        (s.count Reg.pmnCntTca).raise Ev.pmTca p c
      else s
    | none => s) s

/-! ### The commit (R291) -/

/-- The oldest second of one path's counter memory goes into its bins. -/
def PmPath.commit (x : PmPath) (far : Bool) : PmPath × Nat :=
  match x.queue with
  | [] => (x, 0)
  | (n, f, live) :: q =>
    let ne := nextDown x.ne x.queue fun c => c.1.ses
    let fe := nextDown x.fe x.queue fun c => c.2.1.ses
    let x := { x with queue := q, ne := ne, fe := fe }
    if !live then (x, 0)
    else
      let down := ne || (far && fe)
      let a := secondAdds n down ne
      let b := secondAdds f down (far && fe)
      let c15 := x.cur15.commit a b
      let c24 := x.cur24.commit a b
      ({ x with cur15 := c15.1, cur24 := c24.1 }, c15.2 + c24.2)

/-- The bins that end with the committed second are replaced by new ones. -/
def PmPath.closeBins (x : PmPath) (next : Stamp) (untimed : Bool) : PmPath :=
  let x :=
    if next.bin15 then
      { x with prev15 := x.cur15.close 900 next.step untimed, cur15 := Bin.fresh next.start }
    else x
  if next.bin24 then
    { x with prev24 := x.cur24.close 86400 next.step untimed, cur24 := Bin.fresh next.start }
  else x

/-- The eight counters of a bin in the order of R292. -/
def Bin.counters (b : Bin) : List Nat := b.ne ++ b.fe

/-- A counter that could not be incremented: all-ones, with sat and incomplete (R384). -/
def Bin.lose (b : Bin) (c : Nat) : Bin :=
  let b := if c < 4 then { b with ne := b.ne.set c (2 ^ 32 - 1) } else { b with fe := b.fe.set (c - 4) (2 ^ 32 - 1) }
  { b with flags := b.flags ||| 0b00101 }

/-- The counters of a bin of a path that have grown from `old` to `new` and whose words are uncorrectable. -/
def State.lostCounters (s : State) (p k : Nat) (old new : Bin) : List Nat :=
  (List.range 8).filter fun c =>
    old.counters.getD c 0 ≠ new.counters.getD c 0 && s.ueKey (counterKey (.bin p k c))

/-- What a commit leaves of the current bins where words of the counter memory are uncorrectable (R384). -/
def State.loseBins (s : State) (p : Nat) (old new : PmPath) : State × PmPath :=
  let a := s.lostCounters p 0 old.cur15 new.cur15
  let b := s.lostCounters p 2 old.cur24 new.cur24
  let s := a.foldl (fun s c => s.rewriteCounter (.bin p 0 c)) s
  (b.foldl (fun s c => s.rewriteCounter (.bin p 2 c)) s,
    { new with cur15 := a.foldl Bin.lose new.cur15, cur24 := b.foldl Bin.lose new.cur24 })

/-- One path's commit with its saturations and crossings. -/
def State.commitPath (s : State) (p : Nat) : State :=
  let old := s.pmPath p
  let q := old.commit (s.pmFar p)
  let b := s.loseBins p old q.1
  let r := (b.2, q.2)
  let s := (b.1.onPm p fun _ => r.1).count Reg.pmnCntSat r.2
  s.judgeTca p old.cur15 r.1.cur15

/-- Paths with rec_en = 1, in path ID order (R294). -/
def State.recPaths (s : State) : List Nat :=
  (s.mem.filter fun c => 0x1000000 ≤ c.1 && c.1 < 0x1800000 && c.1 % 32 = 31 && c.2.getLsbD 5).map
    fun c => (c.1 - 0x1000000) / 32

/-- PM interval records of a 15-minute close: every path with rec_en is due one; records still due from the
close before are lost (R309). -/
def State.dueRecords (s : State) : State :=
  let s := s.count Reg.hstCntMiss s.pm.walk.length
  { s with pm := { s.pm with walk := s.recPaths } }

/-- PM second s-9 is committed; `next` is the stamp of the second after it. -/
def State.commitSecond (s : State) (next : Stamp) : State :=
  let s := s.pmPaths.foldl State.commitPath s
  let s := { s with pm := { s.pm with idle := (s.pm.idle.commit false).1 } }
  let s := s.countSat F.pmnStat_committed (2 ^ 31 - 1) 1
  let untimed := !s.flag F.pmnStat_taiValid
  let s := s.everyPm fun x => x.closeBins next untimed
  if next.bin15 then s.dueRecords else s

/-! ### The boundary (R285, R286, R291) -/

/-- The stamp of the second that begins: TAI and the bins that begin with it. A write of PMN_TAI that differs
from the counted value is a step; so is the first one. -/
def State.nextStamp (s : State) : Stamp :=
  let timed := s.flag F.pmnStat_taiValid
  let counted := s.rd Reg.pmnTai + 1
  let ofs := 900 * min 95 (s.fget F.pmnCfg_dayOfs)
  if !timed then
    let n := s.pm.seconds
    ⟨BitVec.ofNat 32 n, n % 900 = 0, n % 86400 = 0, false⟩
  else
    let v := s.pm.taiDue.getD counted
    let step := s.pm.taiDue.any fun d => d ≠ counted
    let t := v.toNat
    ⟨v, step || t % 900 = 0, step || ((t : Int) - ofs) % 86400 = 0, step⟩

/-- The second that ended is classified for every path. -/
def State.endSecond (s : State) : State :=
  let n := s.clock.frames - s.pm.began
  let s := s.pmPaths.foldl (fun s p =>
    let blocks := s.pmBlockCounts p n
    let far := s.pmFar p
    let live := s.pmHeld p
    s.onPm p fun x => x.endSecond blocks far live) s
  { s with pm := { s.pm with idle := s.pm.idle.endSecond (0, 0) false false } }

/-- Paths evaluated from the first second on. -/
def State.startSecond (s : State) : State :=
  s.pmPaths.foldl (fun s p =>
    if s.pmHeld p then
      s.onPm p fun x => { x with live := true, neDef := false, feDef := false, neErr := 0, feErr := 0 }
    else s) s

/-- PM_SECOND at the frame mark of the current frame. The seconds count from the first boundary after
reset. -/
def State.pmMark (s : State) : State :=
  if s.clock.frame.toNat % 8000 ≠ 0 then s
  else
    let first := s.pm.stamps = []
    let stamp := s.nextStamp
    let s := if first then s.startSecond else s.endSecond
    let s := if s.flag F.pmnStat_taiValid then s.wr Reg.pmnTai stamp.start else s
    let s := { s with pm := { s.pm with
      taiDue := none, seconds := s.pm.seconds + 1, stamps := s.pm.stamps ++ [stamp]
      began := s.clock.frames } }
    let s := if first then s.everyPm fun x =>
        { x with cur15 := { x.cur15 with start := stamp.start }, cur24 := { x.cur24 with start := stamp.start } }
      else s
    match s.pm.stamps with
    | _ :: next :: rest =>
      if rest.length = 9 then
        let s := s.commitSecond next
        { s with pm := { s.pm with stamps := s.pm.stamps.drop 1 } }
      else s
    | _ => s

/-! ### Host access (R286, R295) -/

/-- PMN_TAI: the TAI of the next PM second; tai_valid is set. -/
def State.taiWrite (s : State) (be : BitVec 4) (v : W32) : State :=
  if be = 0 then s
  else
    let new := mergeBe (s.rd Reg.pmnTai) v be
    { s.fbit F.pmnStat_taiValid true with pm := { s.pm with taiDue := some new } }

/-- The bin that PMN_BIN_SEL names. -/
def PmPath.bin (x : PmPath) (k : Nat) : Bin :=
  match k with
  | 0 => x.cur15
  | 1 => x.prev15
  | 2 => x.cur24
  | _ => x.prev24

/-- The ten words of PMN_BIN_DATA. -/
def PmPath.binWords (x : PmPath) (k : Nat) : List W32 :=
  let b := x.bin k
  let w0 := b.flags.toNat * 2 ^ 27 + b2n x.ne * 2 ^ 26 + b2n x.fe * 2 ^ 25 + b.seconds % 2 ^ 17
  [BitVec.ofNat 32 w0] ++ (b.ne ++ b.fe).map (BitVec.ofNat 32) ++ [b.start]

/-- PMN_BIN_SEL: the bin is copied into PMN_BIN_DATA in one step. -/
def State.binSelWrite (s : State) (be : BitVec 4) (v : W32) : State :=
  if be = 0 then s
  else
    let s := s.wr Reg.pmnBinSel (mergeBe (s.rd Reg.pmnBinSel) (v &&& 0x000FFFFF) be)
    let ws := (s.pmPath (s.fget F.pmnBinSel_path)).binWords (s.fget F.pmnBinSel_bin)
    (List.range 10).foldl (fun s j => s.wr (Reg.pmnBinData j) (ws.getD j 0)) s

/-- A bin that the host has cleared. -/
def Bin.cleared (b : Bin) : Bin :=
  { b with seconds := 0, ne := [0, 0, 0, 0], fe := [0, 0, 0, 0], flags := b.flags ||| 0b10000 }

/-- PMN_BIN_CTL.clear: the current bins of the selected path. -/
def State.binClear (s : State) : State :=
  s.onPm (s.fget F.pmnBinSel_path) fun x => { x with cur15 := x.cur15.cleared, cur24 := x.cur24.cleared }

def execPmnTaiWrite (be : BitVec 4) (v : W32) (s : State) : Host.Outcome State Fault Refusal :=
  whenUp s fun s => s.hostReg Reg.pmnTai be v fun s => s.taiWrite be v

def execPmnBinSelWrite (be : BitVec 4) (v : W32) (s : State) : Host.Outcome State Fault Refusal :=
  whenUp s fun s => s.hostReg Reg.pmnBinSel be v fun s => s.binSelWrite be v

def execPmnBinClear (s : State) : Host.Outcome State Fault Refusal :=
  whenUp s fun s => s.hostReg Reg.pmnBinCtl 0xF 1 State.binClear

end Sys2Proof.Machine
end

