-- ==== Sys2Proof/Machine/Store.lean ====
section
/-! DEFINITION. The history store: the store port's states, flushes, the store erase, reading back and
marking (R305-R316). The rows say when a drive, a link or a timer did something; what the port does then
stands here. -/

namespace Sys2Proof

/-! ### The anchor -/

/-- The format of an anchor (R307). -/
def anchorFormat : W32 := 0x4B570001

/-- CRC-32C over bytes 0-27, by the fold of R120 (log entry 96). -/
def Anchor.check (a : Anchor) : W32 :=
  Machine.foldValues 0xFFFFFFFF
    [a.format, a.seq, a.head.extractLsb' 0 32, a.head.extractLsb' 32 32, a.ringLen, a.erases, a.reserved]

/-- A copy that may be adopted. -/
def Anchor.valid (a : Anchor) : Bool := a.format = anchorFormat && a.crc = a.check

end Sys2Proof

namespace Sys2Proof.Machine

/-! ### States of the port (R311) -/

def hsOff : Nat := 0
def hsPowering : Nat := 1
def hsInit : Nat := 2
def hsFlushing : Nat := 3
def hsReady : Nat := 4
def hsShutdown : Nat := 5
def hsFailed : Nat := 6
def hsErasing : Nat := 7

def State.store (s : State) : Nat := s.fget F.hstStat_state

/-- Entry into a state of the port. -/
def State.toStore (s : State) (st : Nat) : State :=
  { s.fset F.hstStat_state st with hst := { s.hst with since := s.clock.frames } }

/-- The port has made progress. -/
def State.storeMoves (s : State) : State := { s with hst := { s.hst with since := s.clock.frames } }

/-- Milliseconds and seconds have passed since the last progress, by frames (R18). -/
def State.storeMs (s : State) (ms : Nat) : Bool := s.hst.since + 8 * ms ≤ s.clock.frames
def State.storeSec (s : State) (n : Nat) : Bool := s.hst.since + 8000 * n ≤ s.clock.frames

/-- HST_STAT.fail_why (R316). -/
def whyNoLink : Nat := 1
def whyNotReady : Nat := 2
def whyIdentify : Nat := 3
def whyError : Nat := 4
def whyTimeout : Nat := 5
def whyCfs : Nat := 6
def whyNoAnchor : Nat := 7

/-- The port may act: HST_CFG.en, no power failure, and the device not retired (R311, R321, R409). -/
def State.storeAllowed (s : State) : Bool :=
  s.flag F.hstCfg_en && !s.flag F.nrgStat_pfail && !s.retired

/-- A STORE_MARK waits for its marker: it needs the drive (R320; log entry 42). -/
def State.markWaits (s : State) : Bool :=
  s.hif.busy.any fun q => match q.2.2 with | .storeMark _ => true | _ => false

/-- A flush is due and is not shed (R311, R319). -/
def State.mayFlush (s : State) : Bool :=
  s.hst.flushDue && (s.fget F.nrgStat_level < 3 || s.markWaits)

/-- The drive is powered and enumerated: its link is up. -/
def State.driveUp (s : State) : Bool :=
  s.store = hsInit || s.store = hsFlushing || s.store = hsReady || s.store = hsShutdown ||
    s.store = hsErasing

/-- The drive can serve a read now. -/
def State.driveReady (s : State) : Bool := s.store = hsFlushing || s.store = hsReady

/-- ST_PWR_EN and ST_PERST_N go low. -/
def State.cutPower (s : State) : State :=
  let s := s.fset F.hstStat_linkRate 0
  { s with hst := { s.hst with pwrEn := false, perstN := false, flushing := 0 } }

/-- Commands that wait for the drive complete with NO_STORE (R312, R313, R321). -/
def State.noStore (s : State) : State :=
  let s := { s with hst := { s.hst with readDue := false } }
  s.finishAll
    (fun w => match w with | .storeRead => true | .storeMark _ => true | _ => false)
    (fun w => match w with
      | .storeMark (some n) => (csNoStore, 0, n % 2 ^ 32, n / 2 ^ 32)
      | _ => (csNoStore, 0, 0, 0))

/-- The port goes to FAILED: STORE_FAIL with the cause (R311, R382). -/
def State.storeFails (s : State) (why : Nat) : State :=
  let s := (s.toStore hsFailed).fset F.hstStat_failWhy why
  (((s.cutPower).count Reg.hstCntFail).report Ev.storeFail 0 0 why).noStore

/-- OFF at once, with what was under way abandoned (R311, R321). -/
def State.storeOff (s : State) : State := ((s.toStore hsOff).cutPower).noStore

/-! ### Flush and erase -/

/-- FLUSHING begins: the flush covers every staged record. -/
def State.beginFlush (s : State) : State :=
  let s := s.toStore hsFlushing
  { s with hst := { s.hst with flushing := s.hst.staging.length, flushDue := false } }

/-- ERASING begins: staged records are discarded and numbers restart from 0 (R315). -/
def State.beginErase (s : State) : State :=
  let s := (s.toStore hsErasing).setHstHead 0
  { s with hst := { s.hst with
      staging := [], flushing := 0, stored := [], erasePend := true, formatted := false } }

/-- POWERING begins. -/
def State.beginPower (s : State) : State :=
  let s := s.toStore hsPowering
  { s with hst := { s.hst with pwrEn := true, perstN := false } }

/-- OFF and READY are left when there is something to do (R311, R312, R315, R319). -/
def State.storeKick (s : State) : State :=
  if !s.storeAllowed then s
  else if s.store = hsOff then
    if s.mayFlush || s.hst.erasePend || s.hst.readDue then s.beginPower else s
  else if s.store = hsReady then
    if s.hst.erasePend then s.beginErase else if s.mayFlush then s.beginFlush else s
  else s

/-- What follows a flush or an erase: SHUTDOWN, or READY while pwr_cut = 0. -/
def State.storeRests (s : State) : State :=
  if s.flag F.hstCfg_pwrCut then s.toStore hsShutdown
  else (s.toStore hsReady).storeKick

/-! ### Reading back (R312) -/

/-- HST_OLDEST. -/
def State.hstOldest (s : State) : Nat :=
  (s.rd Reg.hstOldestLo).toNat + 2 ^ 32 * (s.rd Reg.hstOldestHi).toNat

/-- Eight words that the spec does not give: a record that another run wrote to the drive. -/
def State.drawWords : Nat → State → List W32 × State
  | 0, s => ([], s)
  | n + 1, s =>
    let r := s.draw
    let q := State.drawWords n r.2
    (r.1 :: q.1, q.2)

/-- The record in staging or, if the drive can serve it, in the drive. -/
def State.fetchRecord (s : State) (n : Nat) : List W32 × State :=
  match (s.hst.staging ++ s.hst.stored).find? (·.number = n) with
  | some r => (r.words, s)
  | none => State.drawWords 8 s

/-- The DMA of a run of words to the host. -/
def State.postWords (s : State) (a : Nat) (ws : List W32) : State :=
  let cells := (List.zip (List.range ws.length) ws).map fun q => (a + 4 * q.1, q.2)
  { s.speed 97 (4 * ws.length) with io := { s.io with posted := s.io.posted ++ cells } }

/-- Why record `n` cannot be delivered. -/
def State.readError (s : State) (n : Nat) : Option Nat :=
  if n < s.hstOldest then some csStale else if n ≥ s.hstHead then some csNotYet else none

/-- Delivers up to `k` records from `n` on to address `a`; answers the count and the status. A record that
is not in staging is served by the drive. -/
def State.deliverRecords : Nat → Nat → Nat → Nat → State → Nat × Nat × State
  | 0, _, _, done, s => (done, csOk, s)
  | k + 1, n, a, done, s =>
    match s.readError n with
    | some e => (done, e, s)
    | none =>
      let drive := n < s.hstFirst
      let r := s.fetchRecord n
      let s := r.2.postWords a r.1
      let s := if drive then s.speed 99 32 else s
      State.deliverRecords k (n + 1) (a + 32) (done + 1) s

/-- Count, first number and address of a STORE_READ (R369). -/
def CmdEntry.readCount (c : CmdEntry) : Nat := bits (c.w 1) 16 0
def CmdEntry.readFirst (c : CmdEntry) : Nat := (c.w 2).toNat + 2 ^ 32 * (c.w 3).toNat
def CmdEntry.address (c : CmdEntry) : Nat := (c.w 4).toNat + 2 ^ 32 * (c.w 5).toNat

/-- The read is carried out and completes. -/
def State.serveRead (s : State) (r : Nat) (c : CmdEntry) : State :=
  let q := State.deliverRecords c.readCount c.readFirst c.address 0 s
  q.2.2.finish r c q.2.1 0 q.1

/-- The first record of a read is to be had from the drive. -/
def State.readNeedsDrive (s : State) (c : CmdEntry) : Bool :=
  (s.readError c.readFirst).isNone && c.readFirst < s.hstFirst

/-- STORE_READ (R312): served at once, once the drive has been powered, or with NO_STORE. -/
def State.storeReadCmd (s : State) (r : Nat) (c : CmdEntry) : State :=
  if !s.readNeedsDrive c || s.driveReady then s.serveRead r c
  else if !s.storeAllowed || s.store = hsFailed then s.finish r c csNoStore
  else
    let s := s.awaitOn r c .storeRead
    { s with hst := { s.hst with readDue := true } }.storeKick

/-- The reads that wait are served, unless DMA pauses (R366). -/
def State.serveReads (s : State) : State :=
  if !s.dmaOn then s
  else
  let due := s.hif.busy.filter fun q => q.2.2 = .storeRead
  let s := { s with
    hif := { s.hif with busy := s.hif.busy.filter fun q => q.2.2 ≠ .storeRead }
    hst := { s.hst with readDue := false } }
  due.foldl (fun s q => s.serveRead q.1 q.2.1) s

/-- STORE_MARK (R309, R313): the marker is staged, and the command waits until it is stored. -/
def State.storeMarkCmd (s : State) (r : Nat) (c : CmdEntry) : State :=
  let s := s.stageRecord 4 3 (bits (c.w 1) 15 0) [c.w 6, c.w 7, c.w 8, c.w 9, 0, s.tai, s.clock.frame]
  let n := s.hstHead - 1
  if !s.storeAllowed || s.store = hsFailed then s.finish r c csNoStore 0 (n % 2 ^ 32) (n / 2 ^ 32)
  else (s.awaitOn r c (.storeMark (some n))).storeKick

/-! ### Initialisation (R306, R307) -/

/-- The higher of two anchor sequences, compared modulo 2^32. -/
def seqAbove (a b : W32) : Bool := a ≠ b && (a - b).toNat < 2 ^ 31

/-- The valid anchor with the higher sequence, and whether it is the second copy. -/
def driveCopy (d : DriveInfo) : Option (Anchor × Bool) :=
  match d.anchorA.valid, d.anchorB.valid with
  | true, true => some (if seqAbove d.anchorB.seq d.anchorA.seq then (d.anchorB, true) else (d.anchorA, false))
  | true, false => some (d.anchorA, false)
  | false, true => some (d.anchorB, true)
  | false, false => none

def driveAnchor (d : DriveInfo) : Option Anchor := (driveCopy d).map (·.1)

/-- The device writes an anchor: its sequence grows, and the copies alternate. -/
def State.writeAnchor (s : State) (head : Nat) (erases : W32) : State :=
  let a : Anchor := ⟨anchorFormat, s.hst.anchorSeq + 1, BitVec.ofNat 64 head, s.rd Reg.hstRing, erases, 0, 0⟩
  let a := { a with crc := a.check }
  let x := s.hst
  { s with hst := { x with
      anchorSeq := a.seq, erases := erases, nextCopy := !x.nextCopy
      anchor0 := if x.nextCopy then x.anchor0 else some a, anchor1 := if x.nextCopy then some a else x.anchor1 } }

/-- Ring length L: LBAs 2 to R_end (R307). -/
def driveRing (d : DriveInfo) : Nat := min (d.size - 1) 976562499 - 1

/-- The anchor is adopted: staged records are numbered from its head on. What the drive holds below the
head is known only if the anchor is the one that this device wrote last. -/
def State.adopt (s : State) (a : Anchor) : State :=
  let mine := a.seq = s.hst.anchorSeq && a.erases = s.hst.erases && a.head.toNat = s.hstFirst
  let l := (s.rd Reg.hstRing).toNat
  let was := s.hstFirst
  let st := numberFrom l a.head.toNat s.hst.staging
  let s := (s.setHstHead (a.head.toNat + st.length)).fbit F.hstStat_anchorOk true
  let move (w : Waiting) : Waiting :=
    match w with
    | .storeMark (some n) => .storeMark (some (a.head.toNat + (n - was)))
    | w => w
  { s with
    hst := { s.hst with
      staging := st
      stored := if mine then s.hst.stored else []
      anchorSeq := a.seq
      erases := a.erases }
    hif := { s.hif with busy := s.hif.busy.map fun q => (q.1, q.2.1, move q.2.2) } }

/-- What initialising shows of the drive: its anchors, of which the one that is not in force is written next, and what
it supports. -/
def State.knowDrive (s : State) (d : DriveInfo) : State :=
  let second := ((driveCopy d).map (·.2)).getD true
  { s with hst := { s.hst with
      crypto := d.crypto, anchor0 := some d.anchorA, anchor1 := some d.anchorB, nextCopy := !second } }

/-- INIT is done: FLUSHING, or ERASING, or FAILED. A flush that is shed is not started (R319). -/
def State.initDone (s : State) (d : DriveInfo) : State :=
  if !d.usable then s.storeFails whyIdentify
  else
    let s := (s.wr Reg.hstRing (BitVec.ofNat 32 (driveRing d))).knowDrive d
    let s := s.wr Reg.hstSmart (BitVec.ofNat 32 (d.critWarn.toNat * 2 ^ 24 + d.usedPct.toNat * 2 ^ 16))
    let s := if d.critWarn = 0 then s else s.raise Ev.storeHealth 0 0 0 d.critWarn.toNat
    match (if d.formatOk then driveAnchor d else none) with
    | none =>
      if s.hst.erasePend || s.flag F.hstCfg_autoFmt then s.beginErase
      else s.storeFails (if d.formatOk then whyNoAnchor else whyIdentify)
    | some a =>
      let s := s.adopt a
      if s.hst.erasePend then s.beginErase
      else
        let s := (s.toStore hsReady).serveReads
        if s.fget F.nrgStat_level < 3 || s.markWaits then s.beginFlush else s.storeRests

/-- A flush completes: the records it covers count as stored, and leave staging (R311, R312). -/
def State.flushed (s : State) : State :=
  let n := s.hst.flushing
  let first := s.hstFirst
  let l := (s.rd Reg.hstRing).toNat
  let lbas := if n = 0 then 0 else (first + n - 1) / 128 - first / 128 + 1
  let gone := s.hst.staging.take n
  let s := ((s.count Reg.hstCntFlush).speed 98 (4096 * lbas + 4096))
  let keep := (s.hst.stored ++ gone).filter fun r => s.hstHead ≤ r.number + 128 * l
  let s := { s with hst := { s.hst with
    staging := s.hst.staging.drop n
    flushing := 0
    stored := keep
    lastFlush := s.clock.frames } }.writeAnchor (first + n) s.hst.erases
  let s := s.finishAll
    (fun w => match w with | .storeMark (some m) => m < first + n | .storeMark none => true | _ => false)
    (fun w => match w with
      | .storeMark (some m) => (csOk, 0, m % 2 ^ 32, m / 2 ^ 32)
      | _ => (csNoStore, 0, 0, 0))
  if s.flag F.nrgStat_pfail then s.toStore hsShutdown
  else if s.hst.erasePend then s.beginErase
  else s.storeRests

/-- The erase completes; answers the state before the life cycle goes on (R315). -/
def State.erased (s : State) : State :=
  let crypto := s.hst.crypto
  let s := (s.fbit F.hstStat_eraseKind crypto).fbit F.hstStat_anchorOk true
  let s := (s.speed 98 4096).raise Ev.storeErased 0 0 (b2n crypto)
  let s := { s with hst := { s.hst with erasePend := false } }.writeAnchor 0 (s.hst.erases + 1)
  let s := s.serveReads
  s.storeRests

/-- The port leaves FAILED (R311): to POWERING, or to OFF while the flush it would serve is shed. -/
def State.storeRetries (s : State) : State :=
  if s.store ≠ hsFailed || !s.storeAllowed then s
  else
    let s := (s.toStore hsOff).fset F.hstStat_failWhy 0
    { s with hst := { s.hst with flushDue := true } }.storeKick

/-- An erase is requested: at once from READY, else when the port's states let it begin (R315). -/
def State.requestErase (s : State) : State :=
  { s with hst := { s.hst with erasePend := true } }.storeKick

/-- A flush is asked for (R311). -/
def State.askFlush (s : State) : State := { s with hst := { s.hst with flushDue := true } }.storeKick

/-- HST_CTL.erase, while HST_CFG.erase_en = 1 (R315). -/
def State.askErase (s : State) : State := if s.flag F.hstCfg_eraseEn then s.requestErase else s

/-- PFAIL_N has fallen (R321): the port is powered off, unless finish_flush lets a flush under way end;
an erase stops and stays pending. Commands that need the drive complete with NO_STORE. -/
def State.storePfail (s : State) : State :=
  if s.store = hsFailed || s.store = hsOff then s.noStore
  else if s.flag F.nrgFloor_finishFlush && (s.store = hsFlushing || s.store = hsShutdown) then s.noStore
  else s.storeOff

/-- A flush is due by itself (R311): max_s after the last flush, staging filled to its level, or a marker staged. -/
def State.flushNeeded (s : State) : Bool :=
  let level := s.fget F.hstFlush_level
  s.hst.lastFlush + 8000 * clamp 1 86400 (s.fget F.hstFlush_maxS) ≤ s.clock.frames ||
    4096 * (if level = 0 then 16 else level) ≤ s.hst.staging.length ||
    (s.hst.staging.drop s.hst.flushing).any fun r => bits (r.words.getD 0 0) 31 28 = 4

/-! ### The commands -/

/-- FLUSH_DUE (R311). -/
def execFlushDue (s : State) : Host.Outcome State Fault Refusal :=
  whenUp s fun s => if s.flushNeeded then s.askFlush else s

/-- STORE_FLUSH_REQUEST: a write of HST_CTL.flush (R311). -/
def execStoreFlushRequest (s : State) : Host.Outcome State Fault Refusal :=
  whenUp s fun s => s.hostReg Reg.hstCtl 0x1 1 State.askFlush

/-- STORE_PERST_RELEASE (R311): on_ms after the drive got its power. -/
def execStorePerstRelease (s : State) : Host.Outcome State Fault Refusal :=
  whenUp s fun s =>
    if s.store = hsPowering && !s.hst.perstN && s.storeMs (clamp 1 1000 (s.fget F.hstPwr_onMs)) then
      { s.storeMoves with hst := { s.storeMoves.hst with perstN := true } }
    else s

/-- STORE_LINK_UP (R311): POWERING to INIT. -/
def execStoreLinkUp (rate : BitVec 3) (s : State) : Host.Outcome State Fault Refusal :=
  whenUp s fun s =>
    if s.store = hsPowering && s.hst.perstN then
      (s.toStore hsInit).fset F.hstStat_linkRate rate.toNat
    else s

/-- STORE_LINK_TIMEOUT (R311): no link within 1 s of release. -/
def execStoreLinkTimeout (s : State) : Host.Outcome State Fault Refusal :=
  whenUp s fun s => if s.store = hsPowering && s.hst.perstN && s.storeSec 1 then s.storeFails whyNoLink else s

/-- STORE_INIT_DONE (R306, R307, R311). -/
def execStoreInitDone (d : DriveInfo) (s : State) : Host.Outcome State Fault Refusal :=
  whenUp s fun s => if s.store = hsInit then s.initDone d else s

/-- STORE_READY_TIMEOUT (R311): CSTS.RDY was not set within ready_ms. -/
def execStoreReadyTimeout (s : State) : Host.Outcome State Fault Refusal :=
  whenUp s fun s =>
    if s.store = hsInit && s.storeMs (clamp 100 60000 (s.fget F.hstPwr_readyMs)) then s.storeFails whyNotReady else s

/-- NVME_COMPLETION (R311): a command that completes with error status fails the store; the end of a whole
operation has a row of its own. The first that completes in ERASING is Format NVM (R315). -/
def execNvmeCompletion (ok : Bool) (s : State) : Host.Outcome State Fault Refusal :=
  whenUp s fun s =>
    if !s.driveUp then s
    else if ok then
      { s.storeMoves with hst := { s.storeMoves.hst with formatted := s.hst.formatted || s.store = hsErasing } }
    else s.storeFails whyError

/-- Seconds within which the command under way must complete: 600 for Format NVM (R311). -/
def State.storeLimit (s : State) : Nat := if s.store = hsErasing && !s.hst.formatted then 600 else 1

/-- STORE_CMD_TIMEOUT (R311); a shutdown that takes too long goes to OFF instead. -/
def execStoreCmdTimeout (s : State) : Host.Outcome State Fault Refusal :=
  whenUp s fun s =>
    if s.driveUp && s.store ≠ hsShutdown && s.storeSec s.storeLimit then s.storeFails whyTimeout else s

/-- STORE_LINK_LOSS (R311). -/
def execStoreLinkLoss (s : State) : Host.Outcome State Fault Refusal :=
  whenUp s fun s => if s.driveUp then s.storeFails whyNoLink else s

/-- CSTS_CFS (R311). -/
def execCstsCfs (s : State) : Host.Outcome State Fault Refusal :=
  whenUp s fun s => if s.driveUp then s.storeFails whyCfs else s

/-- STORE_FLUSH_DONE (R311). -/
def execStoreFlushDone (s : State) : Host.Outcome State Fault Refusal :=
  whenUp s fun s => if s.store = hsFlushing then s.flushed else s

/-- STORE_SHUTDOWN_DONE (R311): OFF, and up again at once if something is due. -/
def execStoreShutdownDone (s : State) : Host.Outcome State Fault Refusal :=
  whenUp s fun s =>
    if s.store = hsShutdown then ((s.toStore hsOff).cutPower).storeKick else s

/-- STORE_RETRY_TIMER (R311): retry_s after the failure. -/
def execStoreRetryTimer (s : State) : Host.Outcome State Fault Refusal :=
  whenUp s fun s => if s.storeSec (clamp 10 86400 (s.fget F.hstCfg_retryS)) then s.storeRetries else s

/-- STORE_RETRY: a write of HST_CTL.retry (R311). -/
def execStoreRetry (s : State) : Host.Outcome State Fault Refusal :=
  whenUp s fun s => s.hostReg Reg.hstCtl 0x1 2 State.storeRetries

/-- STORE_ERASE_REQUEST: a write of HST_CTL.erase (R315). -/
def execStoreEraseRequest (s : State) : Host.Outcome State Fault Refusal :=
  whenUp s fun s => s.hostReg Reg.hstCtl 0x1 4 State.askErase

end Sys2Proof.Machine
end

