-- ==== Sys2Proof/Machine/Energy.lean ====
section
/-! DEFINITION. Energy planning: the power estimate, demands and shed levels, what shedding does, sleeping,
the thermal cap and the life ledger (R317-R335). -/

namespace Sys2Proof.Machine

/-! ### Ranges (R335: a value outside a stated range acts as the nearer end) -/

/-- The maximum junction temperature of the grade in degC (R1, R330). -/
def State.gradeMax (s : State) : Nat := if s.otp.gradeW then 115 else 105

def State.maxLevel (s : State) : Nat := min 6 (s.fget F.nrgCfg_maxLevel)
def State.margin (s : State) : Nat := clamp 100 2000 (s.fget F.nrgCfg_margin)

/-- The floor demand: NRG_FLOOR.level while in force (R321). -/
def State.floorLevel (s : State) : Nat :=
  if s.flag F.nrgStat_floor then min 6 (s.fget F.nrgFloor_level) else 0

/-! ### The level in force (R322) -/

/-- The largest demand; with NRG_CFG.en = 0 only the floor counts. -/
def State.levelWanted (s : State) : Nat :=
  max s.floorLevel
    (if s.flag F.nrgCfg_en then max (s.fget F.nrgStat_budgetLvl) (s.fget F.nrgStat_thermLvl) else 0)

/-- The level follows the demands; what a lower level lets the store do begins. -/
def State.relevel (s : State) : State :=
  let old := s.fget F.nrgStat_level
  let new := s.levelWanted
  if new = old then s
  else
    let s := s.fset F.nrgStat_level new
    let s := if old < new then s.count Reg.nrgCntLevel else s
    (s.raise Ev.nrgLevel 0 0 new).storeKick

/-! ### Power and the budget (R317, R318, R320) -/

/-- NRG_CORR in 1/4,096. -/
def State.corrected (s : State) (mw : Nat) : Nat := mw * clamp 2048 6144 (s.fget F.nrgCorr_corr) / 4096

/-- The block estimates of R30 over the last 1 ms: the energy constants are not given, so each is free, within what
NRG_POWER can show (log entry 39). NRG_EST splits the corrected sum. -/
def State.estimate : Nat → State → Nat × State
  | 0, s => (0, s)
  | n + 1, s =>
    let r := s.draw
    let mw := r.1.toNat % 4369
    let q := State.estimate n (r.2.wr (Reg.nrgEst n) (BitVec.ofNat 32 (s.corrected mw)))
    (mw + q.1, q.2)

/-- The 48-bit count of NRG_ENERGY. -/
def State.energy (s : State) : Nat := (s.rd Reg.nrgEnergyLo).toNat + 2 ^ 32 * s.fget F.nrgEnergyHi_hi

/-- NRG_POWER, NRG_EST and NRG_ENERGY at the end of a millisecond. The part of a milliwatt that NRG_POWER
does not show is free. -/
def State.measure (s : State) : State :=
  let e := s.estimate 10
  let r := e.2.draw
  let mw := s.corrected e.1
  let acc := s.nrg.energyAcc + mw + r.1.toNat % 2
  let total := s.energy + acc / 1000
  let s := (r.2.wr Reg.nrgPower (BitVec.ofNat 32 mw)).wr Reg.nrgEnergyLo (BitVec.ofNat 32 total)
  let s := s.fset F.nrgEnergyHi_hi (total / 2 ^ 32)
  { s with nrg := { s.nrg with energyAcc := acc % 1000 } }

/-- NRG_BUDGET, none while 0. -/
def State.budget? (s : State) : Option Nat :=
  let b := s.fget F.nrgBudget_budget
  if b = 0 then none else some (clamp 500 30000 b)

/-- The budget demand, at a frame mark whose number is a multiple of 8. -/
def State.evalBudget (s : State) : State :=
  let cap := s.maxLevel
  match (if s.flag F.nrgCfg_en then s.budget? else none) with
  | none =>
    let s := (s.fset F.nrgStat_budgetLvl 0).fbit F.nrgStat_over false
    { s with nrg := { s.nrg with overRun := 0, lowRun := 0, overSaid := false } }
  | some b =>
    let lvl := min cap (s.fget F.nrgStat_budgetLvl)
    let s := s.fset F.nrgStat_budgetLvl lvl
    let above := s.fget F.nrgPower_mw > b
    let s := s.fbit F.nrgStat_over (above && lvl = cap)
    let s := if lvl < cap then { s with nrg := { s.nrg with overSaid := false } } else s
    let low := if 10 * s.fget F.nrgPower_mw ≤ 9 * b then s.nrg.lowRun + 1 else 0
    let s := { s with nrg := { s.nrg with lowRun := low } }
    let run := if above then s.nrg.overRun + 1 else 0
    if run < 3 then { s with nrg := { s.nrg with overRun := run } }
    else
      let s := { s with nrg := { s.nrg with overRun := 0 } }
      if lvl < cap then s.fset F.nrgStat_budgetLvl (lvl + 1)
      else if s.nrg.overSaid then s
      else { s with nrg := { s.nrg with overSaid := true } }.raise Ev.nrgOver

/-- The energy work of a frame mark. -/
def State.energyMark (s : State) : State :=
  if s.clock.frame.toNat % 8 = 0 then s.measure.evalBudget.relevel else s

/-- NRG_CFG.restore_s. -/
def State.restoreSec (s : State) : Nat := clamp 1 3600 (s.fget F.nrgCfg_restoreS)

/-- BUDGET_RESTORE: every evaluation of restore_s was at most at 90 % of the budget. The count restarts. -/
def State.budgetRestore (s : State) : State :=
  let lvl := s.fget F.nrgStat_budgetLvl
  if s.flag F.nrgCfg_en && s.budget?.isSome && lvl ≥ 1 && 1000 * s.restoreSec ≤ s.nrg.lowRun then
    ({ s with nrg := { s.nrg with lowRun := 0 } }.fset F.nrgStat_budgetLvl (lvl - 1)).relevel
  else s

/-! ### PFAIL_N (R321) -/

def State.pfailFall (s : State) : State :=
  if s.flag F.nrgStat_pfail then s
  else
    let s := ((s.fbit F.nrgStat_pfail true).fbit F.nrgStat_floor true).count Reg.nrgCntPfail
    let s := { s.raise Ev.nrgPfail with nrg := { s.nrg with holding := false } }
    s.storePfail.relevel

def State.pfailRise (s : State) : State :=
  if !s.flag F.nrgStat_pfail then s
  else
    let s := s.fbit F.nrgStat_pfail false
    { s with nrg := { s.nrg with holding := true, holdFrom := s.clock.frames } }.storeKick

/-- FLOOR_HOLD_EXPIRY: hold_s after PFAIL_N has returned high. -/
def State.floorHoldExpiry (s : State) : State :=
  let hold := min 3600 (s.fget F.nrgFloor_holdS)
  if !s.nrg.holding || s.clock.frames < s.nrg.holdFrom + 8000 * hold then s
  else { s.fbit F.nrgStat_floor false with nrg := { s.nrg with holding := false } }.relevel

/-! ### Shedding (R323-R325) -/

/-- Terminations delivering into a path that has been shed stop framing (R324). -/
def State.shedTerms (s : State) (ps : List Nat) : State :=
  (s.termsOn.filter fun t => ps.contains (s.termPath t 2)).foldl State.termOof s

/-- A lane that the planner may deepen (R325). -/
def State.mayDeepen (s : State) (l : Nat) : Bool :=
  let masked := if l < 32 then bit (s.rd Reg.nrgLaneMask0) l else bit (s.rd Reg.nrgLaneMask1) (l - 32)
  let sel := s.fget F.tmgStat_sel
  let ps := s.pathsOn l
  s.flag F.nrgCfg_laneDeep && masked && (s.role l = roleSdh || s.role l = roleNative) &&
    ps ≠ [] && ps.all (fun p => bit (s.pathWord p 3) 21) &&
    !(sel < 12 && s.slotSrc sel = l) && s.followLane ≠ some l

/-- Lanes with a restored path leave DEEP (R325). -/
def State.restoreLanes (s : State) : State :=
  ((List.range 48).filter fun l =>
    (s.lane l).shedDeep && (s.pathsOn l).any fun p => !bit (s.pathWord p 3) 21).foldl
    (fun s l => (s.onLane l fun x => { x with shedDeep := false }).askPower l) s

/-- The classes follow the level at a frame mark (R322, R323). -/
def State.shedMark (s : State) : State :=
  let old := s.nrg.applied
  let new := s.fget F.nrgStat_level
  let s := { s with nrg := { s.nrg with applied := new } }
  let changed := [1, 2, 3].filter fun c => classShed new c ≠ classShed old c
  if changed = [] then s
  else
    let ps := changed.flatMap s.classPaths
    let on := old < new
    let s := ps.foldl (fun s p => s.setShed p on) s
    let s := if on then s.shedTerms ps else s.restoreLanes
    { s.raise Ev.nrgShed 0 0 new ps.length with nrg := { s.nrg with deepDue := on } }

/-- The row mark of row 1 after a class was shed: lanes enter DEEP (R325). -/
def State.deepMark (s : State) : State :=
  if !s.nrg.deepDue || s.clock.row ≠ 1 then s
  else
    let s := { s with nrg := { s.nrg with deepDue := false } }
    ((List.range 48).filter fun l => s.mayDeepen l && !(s.lane l).shedDeep).foldl
      (fun s l => (s.onLane l fun x => { x with shedDeep := true }).askPower l) s

/-! ### Sleeping (R326-R328) -/

/-- Exit and break-even time of a sleep state in ns. -/
def sleepExit : Resource → Sleep → Nat
  | .termination, _ => 1000
  | _, .clockGated => 20
  | _, _ => 2000

def sleepEven : Resource → Sleep → Nat
  | .termination, _ => 0
  | .bank _, _ => 20000
  | .engine _, .powerGated => 40000
  | .engine _, _ => 100

/-- Island of an engine (R394). -/
def engineIsland : Engine → Nat
  | .col d => 6 + d.val
  | .oct d => 62 + d.val

/-- The row that runs is idle for an octet engine: no instruction of its program is left in it. -/
def State.octRowIdle (s : State) (d : Nat) : Bool :=
  match (s.octEngine d).run with
  | none => true
  | some c =>
    c.ended || c.lost ||
      match s.fetchOct c.bank c.pc with
      | .ins i => s.clock.row < octRow i c
      | _ => true

/-- Power gating serves idle destinations, the idle rows of an octet program, and engines of lanes that are OFF or DEEP
(R326). -/
def State.mayGate (s : State) : Engine → Bool
  | .col d =>
    s.idleIn false d.val (s.live false) ||
      (d.val < 48 && (s.role d.val = 0 || s.lanePwr d.val = pwrDeep))
  | .oct d => s.idleIn true d.val (s.live true) || s.octRowIdle d.val

/-- A state of the table that a resource may use. -/
def State.sleepUsable (s : State) : Resource → Sleep → Bool
  | .engine _, .clockGated => true
  | .engine e, .powerGated => s.mayGate e
  | .bank b, .retain => s.bankState b.val = 0
  | .termination, .clockGated => s.trbActive = 0
  | _, _ => false

/-- The exit plus the margin ends before the event, and the break-even time is shorter than the gap. -/
def State.sleepFits (s : State) (r : Resource) (st : Sleep) (gap : Nat) : Bool :=
  s.sleepUsable r st && sleepExit r st + s.margin < gap && sleepEven r st < gap

/-- The sleep state of an island: the termination island is gated while no termination is enabled (R97). -/
def State.sleepOf (s : State) (i : Nat) : Option Sleep :=
  if i = 79 then (if s.trbActive = 0 then some .clockGated else none) else (s.island i).sleep

/-- The sleep state of an island. -/
def State.setSleep (s : State) (i : Nat) (st : Option Sleep) : State :=
  s.onIsland i fun x => { x with sleep := st }

/-- A resource enters or leaves a sleep state; that of the termination island follows TRB_ACTIVE alone. -/
def State.sleepTo (s : State) (r : Resource) (st : Option Sleep) : State :=
  match r with
  | .engine e => s.setSleep (engineIsland e) st
  | .termination => s
  | .bank b => if s.bankState b.val ≤ 1 then s.setBankState b.val (b2n st.isSome) else s

/-- PLANNER_SLEEP: the deepest state that fits is taken. -/
def State.plannerSleep (s : State) (r : Resource) (st : Sleep) (gap : Nat) : State :=
  let deeper := match r, st with
    | .engine _, .clockGated => s.sleepFits r .powerGated gap
    | _, _ => false
  if s.flag F.nrgCfg_en && s.sleepFits r st gap && !deeper then s.sleepTo r (some st) else s

/-! ### Temperatures (R329-R331) -/

/-- The reading of a sensor in 0.1 degC, none while it is not valid. -/
def State.sensor (s : State) (i : Nat) : Option Int :=
  let v := s.rd (Reg.nrgSensor i)
  if bit v 31 then some (signed 16 (bits v 15 0)) else none

def State.sensorOut (s : State) (i : Nat) : Bool := bit (s.rd (Reg.nrgSensor i)) 30

/-- A reading put in its place in an ascending list. -/
def insertReading (x : Int) : List Int → List Int
  | [] => [x]
  | y :: ys => if x ≤ y then x :: y :: ys else y :: insertReading x ys

/-- Twice the median of a list of readings: the mean of the two middle ones of an even number. -/
def twiceMedian (l : List Int) : Int :=
  let o := l.foldr insertReading []
  let n := o.length
  o.getD (n / 2) 0 + o.getD ((n - 1) / 2) 0

/-- A reading is stored; a sensor that gives none keeps its last value with valid = 0. -/
def State.storeReading (s : State) (i : Nat) (r : Option Int) : State :=
  let a := Reg.nrgSensor i
  match r with
  | some t => s.wr a (setBits (setBits (s.rd a) 15 0 (unsigned 16 t)) 31 31 1)
  | none => s.wr a (setBits (s.rd a) 31 31 0)

/-- A sensor against the median: excluded after 100 readings beyond 8 degC, restored after 100 within
4 degC. -/
def State.judgeSensor (s : State) (med2 : Int) (i : Nat) : State :=
  match s.sensor i with
  | none =>
    { s with nrg := { s.nrg with badRun := s.nrg.badRun.put 0 i 0, goodRun := s.nrg.goodRun.put 0 i 0 } }
  | some t =>
    let d := (2 * t - med2).natAbs
    let bad := if d > 160 then min 100 (s.nrg.badRun.get 0 i + 1) else 0
    let good := if d ≤ 80 then min 100 (s.nrg.goodRun.get 0 i + 1) else 0
    let s := { s with nrg := { s.nrg with
      badRun := s.nrg.badRun.put 0 i bad
      goodRun := s.nrg.goodRun.put 0 i good } }
    let a := Reg.nrgSensor i
    if bad = 100 && !s.sensorOut i then (s.wr a (setBits (s.rd a) 30 30 1)).report Ev.nrgSensorBad i
    else if good = 100 && s.sensorOut i then s.wr a (setBits (s.rd a) 30 30 0)
    else s

/-- Readings that Tj_max is formed of. -/
def State.goodSensors (s : State) : List Int :=
  ((List.range 8).filter fun i => !s.sensorOut i).filterMap s.sensor

/-- Tj_max in 0.1 degC. -/
def State.tjMax (s : State) : Int :=
  match s.goodSensors with
  | t :: u :: v :: r => (t :: u :: v :: r).foldl max t
  | _ => 10 * s.gradeMax

/-- The effective cap in degC. -/
def State.capEff (s : State) : Nat :=
  max 60 (clamp 60 s.gradeMax (s.fget F.nrgTherm_cap) - s.fget F.nrgTj_derate)

def State.refreshCap (s : State) : State := s.fset F.nrgTj_capEff s.capEff

def State.thermHyst (s : State) : Nat := clamp 1 20 (s.fget F.nrgTherm_hyst)

/-- THERM_N follows Tj_max. -/
def State.judgeTrip (s : State) : State :=
  let tj := signed 16 (s.fget F.nrgTj_tjMax)
  let trip : Int := clamp 70 125 (s.fget F.nrgTherm_trip)
  if tj ≥ 10 * trip then
    if s.nrg.thermLow then s
    else { s with nrg := { s.nrg with thermLow := true } }.raise Ev.nrgTrip 0 0 0 (unsigned 16 tj)
  else if tj < 10 * (trip - s.thermHyst) then { s with nrg := { s.nrg with thermLow := false } }
  else s

/-! ### The ledger (R332-R334) -/

/-- 1/1,024 h in 10 ns, and in 10^-18 of 10 ms. -/
def serviceUnit : Nat := 351562500
def ledgerUnit : Nat := 3515625 * 10 ^ 14

/-- A count passes multiples of 1,000 h: one OTP bit is to be burnt for each, up to 1,023. -/
def ledgerBurns (b : Burn) (old new : W32) : List Burn :=
  List.replicate (new.toNat / 1024000 - old.toNat / 1024000) b

/-- The budget of 350,640 h. -/
def ledgerBudget : Nat := 359055360

/-- One 10 ms reading ages the part. -/
def State.age (s : State) (tj : Int) (mv : Nat) : State :=
  let l := s.nrg.ledgerAcc + ledgerRate tj mv
  let v := s.nrg.svcAcc + 1000000
  let oldL := s.rd Reg.nrgLedger
  let oldV := s.rd Reg.nrgSvcHours
  let newL := oldL + BitVec.ofNat 32 (l / ledgerUnit)
  let newV := oldV + BitVec.ofNat 32 (v / serviceUnit)
  let s := (s.wr Reg.nrgLedger newL).wr Reg.nrgSvcHours newV
  let due := ledgerBurns .ledger oldL newL ++ ledgerBurns .service oldV newV
  let s := { s with
    nrg := { s.nrg with ledgerAcc := l % ledgerUnit, svcAcc := v % serviceUnit }
    otp := { s.otp with burns := s.otp.burns ++ due } }
  if newL.toNat ≥ ledgerBudget && !s.nrg.spentSaid then
    { s with nrg := { s.nrg with spentSaid := true } }.raise Ev.lifeSpent 0 0 0 newL.toNat
  else s

/-- A reading of Tj_max against the effective cap (R330). -/
def State.countHeat (s : State) (tj : Int) : State :=
  let cap := s.fget F.nrgTj_capEff
  { s with nrg := { s.nrg with
      hotRun := if tj > 10 * (cap : Int) then s.nrg.hotRun + 1 else 0
      coolRun := if tj < 10 * ((cap : Int) - s.thermHyst) then s.nrg.coolRun + 1 else 0 } }

/-- SENSOR_READ. -/
def State.sensorRead (s : State) (temps : List (Option Int)) (mv : BitVec 16) : State :=
  let s := (List.range 8).foldl (fun s i => s.storeReading i (temps.getD i none)) s
  let med := twiceMedian ((List.range 8).filterMap s.sensor)
  let s := (List.range 8).foldl (fun s i => s.judgeSensor med i) s
  let s := s.fset F.nrgStat_sensors s.goodSensors.length
  let tj := s.tjMax
  let s := (s.fset F.nrgTj_tjMax (unsigned 16 tj)).refreshCap
  let s := (s.wr Reg.nrgVcore (BitVec.ofNat 32 mv.toNat)).countHeat tj
  (s.judgeTrip).age tj mv.toNat

/-- THERMAL_RISE: every reading of a second exceeded the effective cap. -/
def State.thermalRise (s : State) : State :=
  let lvl := s.fget F.nrgStat_thermLvl
  if s.flag F.nrgCfg_en && 100 ≤ s.nrg.hotRun && lvl < s.maxLevel then
    ({ s with nrg := { s.nrg with hotRun := 0 } }.fset F.nrgStat_thermLvl (lvl + 1)).relevel
  else s

/-- THERMAL_FALL: every reading of restore_s was below the effective cap minus the hysteresis. -/
def State.thermalFall (s : State) : State :=
  let lvl := s.fget F.nrgStat_thermLvl
  if 100 * s.restoreSec ≤ s.nrg.coolRun && lvl ≥ 1 then
    ({ s with nrg := { s.nrg with coolRun := 0 } }.fset F.nrgStat_thermLvl (lvl - 1)).relevel
  else s

/-- The derating in degC: ceil(lead / step_h), limited. -/
def State.derating (s : State) : Nat :=
  let lead := (s.rd Reg.nrgLedger).toNat - (s.rd Reg.nrgSvcHours).toNat
  let step := 1024 * clamp 100 65535 (s.fget F.nrgLife_stepH)
  min (min 40 (s.fget F.nrgLife_derateMax)) ((lead + step - 1) / step)

/-- Whole service hours. -/
def State.wholeHours (s : State) : Nat := (s.rd Reg.nrgSvcHours).toNat / 1024

/-- SERVICE_HOUR: another whole service hour. -/
def State.serviceHour (s : State) : State :=
  if s.wholeHours = s.nrg.hourSaid then s
  else
  let s := { s with nrg := { s.nrg with hourSaid := s.wholeHours } }
  let s := s.raise Ev.lifeLedger 0 0 0 (s.rd Reg.nrgLedger).toNat (s.rd Reg.nrgSvcHours).toNat
  let d := s.derating
  if d = s.fget F.nrgTj_derate then s
  else (s.fset F.nrgTj_derate d).raise Ev.lifeAhead 0 0 0 d

/-- A host write of NRG_LEDGER or NRG_SVC_HOURS: a value below the OTP value loads the OTP value (R333). -/
def State.ledgerWrite (s : State) (a : Nat) (v : W32) : State :=
  let k := if a = Reg.nrgLedger then s.otp.ledgerBits else s.otp.svcBits
  let s := s.wr a (if v.toNat < 1024000 * k then BitVec.ofNat 32 (1024000 * k) else v)
  if a = Reg.nrgSvcHours then { s with nrg := { s.nrg with hourSaid := s.wholeHours } } else s

/-- A re-enable has come after the point of no return, and the exit has not started: a lane's, that of a store port
shutting down, or that of a class shed in this frame (R328). -/
def State.pendingEnable (s : State) : Bool :=
  let level := s.fget F.nrgStat_level
  (List.range 48).any (fun l => s.flag (F.sdsStat_pendingEnable l)) ||
    (s.store = hsShutdown && s.storeAllowed && (s.mayFlush || s.hst.erasePend || s.hst.readDue)) ||
    [1, 2, 3].any fun c => classShed s.nrg.applied c && !classShed level c

/-! ### The commands -/

def execBudgetRestore (s : State) : Host.Outcome State Fault Refusal := whenUp s State.budgetRestore

/-- The level of PFAIL_N. -/
def State.setPfail (s : State) (low : Bool) : State := { s with power := { s.power with pfailLow := low } }

/-- PFAIL_FALL: in reset only the level changes, which boot takes up (R422). -/
def execPfailFall (s : State) : Host.Outcome State Fault Refusal := whenUp (s.setPfail true) State.pfailFall

/-- PFAIL_RISE. -/
def execPfailRise (s : State) : Host.Outcome State Fault Refusal := whenUp (s.setPfail false) State.pfailRise

def execFloorHoldExpiry (s : State) : Host.Outcome State Fault Refusal := whenUp s State.floorHoldExpiry

def execPlannerSleep (r : Resource) (st : Sleep) (gapNs : Nat) (s : State) :
    Host.Outcome State Fault Refusal :=
  whenUp s fun s => s.plannerSleep r st gapNs

/-- RESOURCE_WAKE_DONE: the exit is complete and the resource resumes. -/
def execResourceWakeDone (r : Resource) (s : State) : Host.Outcome State Fault Refusal :=
  whenUp s fun s => s.sleepTo r none

def execSensorRead (temps : List (Option Int)) (vcoreMv : BitVec 16) (s : State) :
    Host.Outcome State Fault Refusal :=
  whenUp s fun s => s.sensorRead temps vcoreMv

def execThermalRise (s : State) : Host.Outcome State Fault Refusal := whenUp s State.thermalRise

def execThermalFall (s : State) : Host.Outcome State Fault Refusal := whenUp s State.thermalFall

def execServiceHour (s : State) : Host.Outcome State Fault Refusal := whenUp s State.serviceHour

end Sys2Proof.Machine
end

