-- ==== Sys2Proof/Machine/Counters.lean ====
section
/-! DEFINITION. The speed counters' windows, host access to them, the snapshot, the counter dumps, and the
records formed of counters (R297-R302, R309). -/

namespace Sys2Proof.Machine

/-- Speed counters (R297). -/
def speedMax : Nat := 195

/-! ### Windows (R298) -/

/-- The window values are latched, and the next window starts from zero. -/
def State.latchWindow (s : State) : State :=
  let s := (List.range speedMax).foldl (fun s i =>
    s.wr (Reg.cntWin i) (BitVec.ofNat 32 (min (2 ^ 32 - 1) (s.pm.window.get 0 i)))) s
  { s with pm := { s.pm with window := [], winFrom := s.pm.winFrom + s.pm.winLen } }

/-- PFC_WINDOW_END: the window has lasted its frames. -/
def State.windowEnd (s : State) : State :=
  if s.pm.winFrom + s.pm.winLen ≤ s.clock.frames then s.latchWindow else s

/-- The frame mark at which a write of PFC_WIN applies: a window begins. -/
def State.windowMark (s : State) : State :=
  if s.pm.winDue then
    { s with pm := { s.pm with
        winDue := false, window := [], winFrom := s.clock.frames, winLen := s.fget F.pfcWin_frames + 1 } }
  else s

/-! ### The snapshot (R300) -/

/-- A register that a snapshot copies: CNT_LO, CNT_HI and CNT_WIN, and the 32-bit counters of the LTM, SDS,
COL, OCT, FLP, PRT, FAB and MAT blocks. -/
def snapReg (a : Nat) : Bool :=
  (0xF9000 ≤ a && a < 0xF9C30) ||
  (0x20000 ≤ a && a < 0x2C000 && ((0x20 ≤ a % 1024 && a % 1024 ≤ 0x34) || a % 1024 = 0x4C)) ||
  (0x40000 ≤ a && a < 0x70000 &&
    ((0x20 ≤ a % 4096 && a % 4096 ≤ 0x2C) || (0x400 ≤ a % 4096 && a % 4096 < 0x600))) ||
  (((0xA1000 ≤ a && a < 0xA2000) || (0xB1000 ≤ a && a < 0xB1400)) && 0x24 ≤ a % 64 && a % 64 ≠ 0x38) ||
  (0xB4000 ≤ a && a < 0xB8000 && a % 16 = 12) ||
  (0xC0060 ≤ a && a ≤ 0xC0068) || (0xD0004 ≤ a && a ≤ 0xD0010) ||
  (0xD1000 ≤ a && a < 0xD1600 && (a % 64 = 0x1C || a % 64 = 0x20)) ||
  (0xE0014 ≤ a && a ≤ 0xE001C) || (0xE8018 ≤ a && a ≤ 0xE8028)

/-- What a counter register reads as: the shadow copy while PFC_SNAP.view = 1. -/
def State.view (s : State) (a : Nat) : W32 :=
  if s.flag F.pfcSnap_view && snapReg a then s.pm.shadow.get (regReset a) a else s.rd a

/-- Word of counter `i` in the layout of R301. -/
def State.dumpWords (s : State) (i : Nat) : List W32 :=
  [s.rd (Reg.cntLo i),
   BitVec.ofNat 32 (s.fget (F.cntHi_hi i) + b2n (s.flag (F.cntHi_ovf i)) * 2 ^ 16),
   s.rd (Reg.cntWin i), 0]

/-- The 4,096 bytes of R301 with sequence number `seq`. -/
def State.dumpImage (s : State) (seq : W32) : List W32 :=
  [0x22400001, s.clock.frame, s.tai, seq, 195, BitVec.ofNat 32 (s.fget F.pfcWin_frames), 0, 0] ++
    (List.range speedMax).flatMap s.dumpWords ++ List.replicate 235 0 ++ [seq]

/-- One snapshot record per speed counter (R308, R309). -/
def State.snapRecord (s : State) (i : Nat) : State :=
  s.stageRecord 3 1 i
    [s.rd (Reg.cntLo i),
     BitVec.ofNat 32 (s.fget (F.cntHi_hi i) + b2n (s.flag (F.cntHi_ovf i)) * 2 ^ 31),
     s.rd (Reg.cntWin i), BitVec.ofNat 32 (s.fget F.pfcSnap_seq), 0, s.tai, s.clock.frame]

/-- A snapshot that a command asked for goes to the host. -/
def State.sendSnapshot (s : State) (q : Nat × CmdEntry × Waiting) : State :=
  match q.2.2 with
  | .snapshotOut _ image => if q.2.1.address = 0 then s else s.postWords q.2.1.address image
  | _ => s

/-- What waits for a snapshot that has been taken is delivered and completes, unless DMA pauses (R366, R369). -/
def State.deliverSnapshots (s : State) : State :=
  if !s.dmaOn then s
  else
    (s.hif.busy.foldl State.sendSnapshot s).finishAll
      (fun w => match w with | .snapshotOut .. => true | _ => false)
      (fun w => match w with | .snapshotOut seq _ => (csOk, 0, seq, 0) | _ => (csOk, 0, 0, 0))

/-- The SNAPSHOT commands that wait take the counters. -/
def State.serveSnapshots (s : State) : State :=
  let seq := s.fget F.pfcSnap_seq
  let image := s.dumpImage (BitVec.ofNat 32 seq)
  let taken := s.hif.busy.map fun q => if q.2.2 = .snapshot then (q.1, q.2.1, Waiting.snapshotOut seq image) else q
  { s with hif := { s.hif with busy := taken } }.deliverSnapshots

/-- The snapshot at a frame mark. -/
def State.snapMark (s : State) : State :=
  if !s.flag F.pfcSnap_pending then s
  else
    let s := { s with pm := { s.pm with shadow := s.regs.filter fun p => snapReg p.1 } }
    let s := (s.fset F.pfcSnap_seq (s.fget F.pfcSnap_seq + 1)).fbit F.pfcSnap_pending false
    let s := if s.flag F.hstCfg_snapRec then (List.range speedMax).foldl State.snapRecord s else s
    s.serveSnapshots

/-! ### Host access (R299) -/

/-- CNT_LO_READ: bits [47:32] and ovf of the counter wait for the next read of CNT_HI. -/
def State.cntLoRead (s : State) (i : Nat) : State :=
  { s with latch := s.latch.insert (Reg.cntHi i) (s.view (Reg.cntHi i)) }.readBack (s.view (Reg.cntLo i))

/-- CNT_HI_WRITE: bits [15:0] are staged, and a 1 in bit 31 clears ovf. -/
def State.cntHiWrite (s : State) (i : Nat) (be : BitVec 4) (v : W32) : State :=
  let s := if be.getLsbD 3 && bit v 31 then s.fbit (F.cntHi_ovf i) false else s
  if !be.getLsbD 0 && !be.getLsbD 1 then s
  else
    let old := s.latch.get (s.rd (Reg.cntHi i)) (Reg.cntLo i)
    { s with latch := s.latch.insert (Reg.cntLo i) (mergeBe old v be &&& 0xFFFF) }

/-- CNT_LO_WRITE: the staged high bits and the written low bits are committed. With nothing staged the high
bits stay (log entry 43). -/
def State.cntLoWrite (s : State) (i : Nat) (be : BitVec 4) (v : W32) : State :=
  if be = 0 then s
  else
    let hi := match s.latch.find? (·.1 = Reg.cntLo i) with
      | some q => q.2.toNat
      | none => s.fget (F.cntHi_hi i)
    let s := (s.wr (Reg.cntLo i) (mergeBe (s.rd (Reg.cntLo i)) v be)).fset (F.cntHi_hi i) hi
    { s with latch := s.latch.erase (Reg.cntLo i) }

/-- PFC_WIN is written: a new window from the next frame mark. -/
def State.pfcWinWrite (s : State) (v : W32) : State :=
  { s.wr Reg.pfcWin (v &&& 0xFFFF) with pm := { s.pm with winDue := true } }

/-- A snapshot is asked for; a second one is merged. -/
def State.askSnapshot (s : State) : State := s.fbit F.pfcSnap_pending true

/-! ### Dumps (R301, R302) -/

/-- Address of the buffer of the next dump. -/
def State.dumpAddr (s : State) : Nat :=
  (s.rd Reg.pfcDumpAddrLo).toNat / 4096 * 4096 + 2 ^ 32 * (s.rd Reg.pfcDumpAddrHi).toNat +
    4096 * s.fget F.pfcDumpStat_buf

/-- A dump is captured, or skipped while one is being written or dumps are shed. -/
def State.takeDump (s : State) : State :=
  if s.pm.dump.isSome || s.fget F.nrgStat_level ≥ 2 then s.count Reg.pfcCntSkip
  else
    let seq := s.pm.dumpSeq + 1
    let buf := s.fget F.pfcDumpStat_buf
    let next := if buf ≥ s.fget F.pfcDumpCtl_nbuf then 0 else buf + 1
    let s := { s with pm := { s.pm with dumpSeq := seq, dump := some (s.dumpAddr, s.dumpImage seq) } }
    (s.fbit F.pfcDumpStat_busy true).fset F.pfcDumpStat_buf next

/-- DUMP_DUE, at a frame mark, each PFC_DUMP_CTL.every frames. -/
def State.dumpDue (s : State) : State :=
  if !s.flag F.pfcDumpCtl_en || !s.clock.frameDue ||
      s.clock.frames < s.pm.dumpFrom + s.fget F.pfcDumpCtl_every + 1 then s
  else { s with pm := { s.pm with dumpFrom := s.clock.frames } }.takeDump

/-- DUMP_DONE: the buffer is written, its last word last. -/
def State.dumpDone (s : State) : State :=
  match s.pm.dump with
  | none => s
  | some (a, ws) =>
    if !s.dmaOn then s
    else
      let s := { s.postWords a ws with pm := { (s.postWords a ws).pm with dump := none } }
      let s := (s.fbit F.pfcDumpStat_busy false).fset F.pfcDumpStat_seq (ws.getD 3 0).toNat
      if s.flag F.pfcDumpCtl_evt then s.raise Ev.pfcDumpDone else s

/-- PFC_DUMP_ADDR or nbuf is written: the next dump goes to the first buffer. -/
def State.dumpRestart (s : State) : State := s.fset F.pfcDumpStat_buf 0

/-- PFC_DUMP_CTL: turning dumps on begins their period; a write of nbuf begins with the first buffer. -/
def State.dumpCtl (s : State) (was : Bool) (be : BitVec 4) : State :=
  let s :=
    if !was && s.flag F.pfcDumpCtl_en then { s with pm := { s.pm with dumpFrom := s.clock.frames } } else s
  if be.getLsbD 2 then s.dumpRestart else s

/-! ### PM interval records (R308, R309) -/

/-- Three 10-bit counts. -/
def tenBits (es ses uas : Nat) : W32 :=
  BitVec.ofNat 32 (min 1023 es * 2 ^ 20 + min 1023 ses * 2 ^ 10 + min 1023 uas)

/-- The record of one path from its previous 15-minute bin. -/
def State.pmRecord (s : State) (p : Nat) : State :=
  let b := (s.pmPath p).prev15
  let n := fun i => b.ne.getD i 0
  let f := fun i => b.fe.getD i 0
  s.stageRecord 1 1 (b.flags.toNat * 2 ^ 20 + p)
    [b.start, tenBits (n 0) (n 1) (n 3), tenBits (f 0) (f 1) (f 3), BitVec.ofNat 32 (n 2),
     BitVec.ofNat 32 (f 2), BitVec.ofNat 32 (min 1023 b.seconds * 2 ^ 22), s.clock.frame]

/-- Records are formed in path ID order until staging is full. -/
def State.walkRecords : List Nat → State → State
  | [], s => { s with pm := { s.pm with walk := [] } }
  | p :: ps, s =>
    if s.hst.staging.length < stagingMax then State.walkRecords ps (s.pmRecord p)
    else { s with pm := { s.pm with walk := p :: ps } }

/-! ### The commands -/

def execPfcWindowEnd (s : State) : Host.Outcome State Fault Refusal := whenUp s State.windowEnd

def execCntLoRead (i : Fin 195) (s : State) : Host.Outcome State Fault Refusal :=
  whenUp s fun s => s.toHost fun s => s.cntLoRead i.val

def execCntHiWrite (i : Fin 195) (be : BitVec 4) (v : W32) (s : State) : Host.Outcome State Fault Refusal :=
  whenUp s fun s => s.hostReg (Reg.cntHi i.val) be v fun s => s.cntHiWrite i.val be v

def execCntLoWrite (i : Fin 195) (be : BitVec 4) (v : W32) (s : State) : Host.Outcome State Fault Refusal :=
  whenUp s fun s => s.hostReg (Reg.cntLo i.val) be v fun s => s.cntLoWrite i.val be v

def execSnapRequest (s : State) : Host.Outcome State Fault Refusal := 
  whenUp s fun s => s.hostReg Reg.pfcSnap 0x8 0x80000000 State.askSnapshot

def execDumpDue (s : State) : Host.Outcome State Fault Refusal := whenUp s State.dumpDue

def execDumpDone (s : State) : Host.Outcome State Fault Refusal := whenUp s State.dumpDone

def execPmRecordWalk (s : State) : Host.Outcome State Fault Refusal :=
  whenUp s fun s => s.walkRecords s.pm.walk

end Sys2Proof.Machine
end

