-- ==== Sys2Proof/Machine/Housekeeping.lean ====
section
/-! DEFINITION. The scrubber, the housekeeping arbiter, the locks of the management crossbar and the Cumin
sweep (R339-R362). -/

namespace Sys2Proof.Machine

/-! ### Spares (R336, R358, R360) -/

/-- The spare that a bank is redirected to, or copied to, by the sweep. -/
def State.sweepSpare? (s : State) : Option Nat := s.sram.sweep.map (·.spare)

/-- Spares 0-3 that stand in for no bank, are not retired and are not under test. -/
def State.freeSpares (s : State) : List Nat :=
  (List.range 4).filter fun k =>
    !(s.sram.retired.any fun r => r.2 = k || r.1 = 384 + k) && s.sweepSpare? ≠ some k

def State.refreshSpares (s : State) : State := s.fset F.memStat_sparesFree s.freeSpares.length

/-- The bank whose content an array holds: a spare that stands in holds that of its bank. -/
def State.contentOf (s : State) (b : Nat) : Nat :=
  if b < 384 then b
  else
    match s.sram.retired.find? fun r => r.2 = b - 384 with
    | some r => r.1
    | none =>
      match s.sram.sweep with
      | some w => if w.spare = b - 384 && (w.phase = 2 || w.phase = 3) then w.bank else b
      | none => b

/-! ### The scrubber (R339, R341) -/

/-- MEM_CE with the number of corrections since the last one, at most once per second (R341, R382). -/
def State.sayCe (s : State) : State :=
  if s.sram.ceSaid || s.sram.ceCount = 0 then s
  else
    let s' := { s with sram := { s.sram with ceSaid := true, ceCount := 0 } }
    s'.report Ev.memCe (s.fget F.memCeAddr_bank) (s.fget F.memCeAddr_word) 0 s.sram.ceCount

/-- A word is written back corrected. -/
def State.correct (s : State) (bank word : Nat) : State :=
  let s := { s with sram := { s.sram with
    damage := s.sram.damage.erase (damageKey bank word)
    ceCount := s.sram.ceCount + 1 } }
  let b := if bank = 388 then 511 else bank
  ((s.wr Reg.memCeAddr (BitVec.ofNat 32 (2 ^ 31 + b * 2 ^ 16 + word))).count Reg.memCntCe).sayCe

/-- The second of MEM_CE begins anew. -/
def State.ceSecond (s : State) : State := { s with sram := { s.sram with ceSaid := false } }.sayCe

/-- Banks that the scrubber reads: in ACTIVE or RETAIN, and the counter memory. -/
def State.scrubbed (s : State) (b : Nat) : Bool := b = 388 || s.bankState b ≤ 1

/-- The scrubber reads one word. -/
def State.scrubWord (s : State) (bank word : Nat) : State :=
  match s.sram.damage.find? (·.1 = damageKey bank word) with
  | some (_, d) =>
    if d.double then s.foundUe bank word
    else { s with sram := { s.sram with writeback := s.sram.writeback.insert bank word } }
  | none => s

/-- Reports that the path monitor and the real-time port of the path table hold, within 1 ms of the read (R382):
words of the counter memory, and of the entries of paths in use. -/
def State.handReports (s : State) : State :=
  let due := s.sram.ueDue
  let s := due.foldl (fun s w => s.sayUe 388 w) { s with sram := { s.sram with ueDue := [] } }
  let words := (s.sram.damage.filter fun q =>
    q.2.double && !q.2.reported && 128 ≤ q.1 / 32768 && q.1 / 32768 < 192 &&
      (s.path ((4 * q.1 - 0x1000000) / 32)).entry.isSome).map (·.1)
  words.foldl (fun s k => s.foundUe (k / 32768) (k % 32768)) s

/-- SCRUB_SLOT. -/
def State.scrubSlot (s : State) (bank word : Nat) : State :=
  if s.scrubbed bank then s.scrubWord (if bank = 388 then 388 else s.contentOf bank) word else s

/-- The write-back that waits for an array is done. -/
def State.writeCorrected (s : State) (b : Nat) : State :=
  match s.sram.writeback.find? (·.1 = b) with
  | some (_, word) =>
    { s with sram := { s.sram with writeback := s.sram.writeback.erase b } }.correct b word
  | none => s

/-- SCRUB_WRITEBACK. -/
def State.scrubWriteback (s : State) (bank : Nat) : State :=
  s.writeCorrected (if bank = 388 then 388 else s.contentOf bank)

/-- Frames within a scrub pass of 1.789 s (R341). -/
def scrubPass : Nat := 14316

/-- RETAINED_BANK_SCRUB_BURST: every word of a bank that has been in RETAIN throughout a pass. -/
def State.scrubBurst (s : State) (bank : Nat) : State :=
  if s.bankState bank ≠ bankRetain || s.clock.frames < s.sram.retainAt.get 0 bank + scrubPass then s
  else
    let s := { s with sram := { s.sram with retainAt := s.sram.retainAt.insert bank s.clock.frames } }
    let b := s.contentOf bank
    let ws := (s.sram.damage.filter fun p => p.1 / 32768 = b).map fun p => p.1 % 32768
    ws.foldl (fun s w => (s.scrubWord b w).writeCorrected b) s

/-! ### Locks of the crossbar (R351-R355, R362) -/

/-- Crossbar master numbers: HOST, DMA, MIRROR, RECORDER, DUMP, DEBUG. -/
def mHost : Nat := 0
def mDebug : Nat := 5

/-- Lock rank of a target. -/
def targetNo : Target → Nat
  | .otp => 0
  | .regs => 1
  | .store => 2
  | .sram => 3
  | .lanectl => 4

/-- Master `m` holds target `t`. -/
def State.holdsLock (s : State) (m t : Nat) : Bool := (s.fget F.xbrLocks_held).testBit (5 * m + t)

/-- Some other master holds the target. -/
def State.heldByOther (s : State) (m t : Nat) : Bool :=
  (List.range 6).any fun x => x ≠ m && s.holdsLock x t

/-- The order rule of R353. -/
def State.inOrder (s : State) (m t : Nat) : Bool :=
  s.holdsLock m t || (List.range 5).all fun x => !s.holdsLock m x || x < t

/-- Error causes of XBR_ERR. -/
def xeOrder : Nat := 1
def xeDenied : Nat := 2
def xeLease : Nat := 3
def xeAbandon : Nat := 4

/-- XBR_ERR records an error. -/
def State.xbrError (s : State) (m t cause : Nat) : State :=
  s.wr Reg.xbrErr (BitVec.ofNat 32 (2 ^ 31 + m * 2 ^ 28 + t * 2 ^ 25 + cause * 2 ^ 22))

/-- The transaction is answered with an error. -/
def State.xbrRefuse (s : State) (m t cause : Nat) : State :=
  let s := s.xbrError m t cause
  let s := if cause = xeOrder || cause = xeDenied then s.count Reg.xbrCntOrder else s
  { s with io := { s.io with readError := true } }

/-- Port number of a crossbar master among the housekeeping requesters (R345, R351). -/
def portOf (m : Nat) : Nat := if m = mDebug then 6 else m

/-- All locks of a master are released, and its locked sequence ends. -/
def State.releaseLocks (s : State) (m : Nat) : State :=
  let keep := (List.range 30).foldl (fun n i =>
    n + (if i / 5 ≠ m && (s.fget F.xbrLocks_held).testBit i then 2 ^ i else 0)) 0
  let s := s.fset F.xbrLocks_held keep
  { s with hk := { s.hk with held := s.hk.held.filter fun q => q.2 ≠ portOf m } }

/-- The answer of R353 and R354 to a transaction of master `m` to target `t`: an error, or none. -/
def State.xbrCheck (s : State) (m t : Nat) (lock : Bool) : Option Nat :=
  if s.hk.leaseErr.contains m then some xeLease
  else if lock && t = 1 && m ≠ mHost then some xeDenied
  else if !s.inOrder m t then some xeOrder
  else none

/-- A transaction is answered with an error; a LEASE error is given once. -/
def State.xbrFail (s : State) (m t cause : Nat) : State :=
  let s := if cause = xeLease then { s with hk := { s.hk with leaseErr := s.hk.leaseErr.filter (· ≠ m) } } else s
  s.xbrRefuse m t cause

/-- The lock is granted. -/
def State.takeLock (s : State) (m t : Nat) : State :=
  if s.holdsLock m t then s else s.fset F.xbrLocks_held (s.fget F.xbrLocks_held + 2 ^ (5 * m + t))

/-- A master has a lock or transaction outstanding: it has no second one (R351). -/
def State.outstanding (s : State) (m : Nat) : Option XbrWait := (s.hk.waits.find? (·.1 = m)).map (·.2)

/-- What master `m` asks waits (R352). -/
def State.keepWaiting (s : State) (m : Nat) (w : XbrWait) : State :=
  { s with hk := { s.hk with waits := s.hk.waits.insert m w } }

/-- What master `m` waits for goes, with the request that it has raised. -/
def State.dropWait (s : State) (m : Nat) : State :=
  let up := (s.outstanding m).any (·.raised)
  let reqs := if up then s.hk.reqs.erase (portOf m) else s.hk.reqs
  { s with hk := { s.hk with waits := s.hk.waits.erase m, reqs := reqs } }

/-- XBR_LOCK: granted, refused, or left waiting while another master holds the target. -/
def State.xbrLock (s : State) (m : Nat) (t : Target) : State :=
  if (s.outstanding m).isSome then s
  else
    match s.xbrCheck m (targetNo t) true with
    | some c => s.xbrFail m (targetNo t) c
    | none =>
      if s.heldByOther m (targetNo t) then s.keepWaiting m ⟨t, .lock, false⟩ else s.takeLock m (targetNo t)

/-- The burst of a master is abandoned: no beat of it lands, and its locks are released (R355). -/
def State.abandon (s : State) (m t : Nat) : State :=
  ((((s.releaseLocks m).dropWait m).xbrError m t xeAbandon).count Reg.xbrCntAbandon).raise Ev.xbrAbandon m t

/-- The lease of a master's locks has run out: its locks are released, and a transaction still in progress ends as
one that is abandoned (R354, R355; log entry 98). -/
def State.endLease (s : State) (m : Nat) : State :=
  if (List.range 5).any fun t => s.holdsLock m t then
    let s := ((s.releaseLocks m).count Reg.xbrCntLease).raise Ev.xbrLease m
    let s := { s with hk := { s.hk with leaseErr := setMember s.hk.leaseErr m true } }
    match s.outstanding m with
    | some w => s.abandon m (targetNo w.target)
    | none => s
  else s

/-! ### The housekeeping arbiter (R342, R345-R350) -/

/-- Port order of a requester. -/
def portNo : Master → Nat
  | .host => 0
  | .dma => 1
  | .mirror => 2
  | .recorder => 3
  | .dump => 4
  | .cumin => 5
  | .debug => 6

/-- The rank of a port (MEM_RANK). -/
def State.rank (s : State) (p : Nat) : Nat := bits (s.rd Reg.memRank) (3 * p + 2) (3 * p)

/-- Plane-assigned banks have a housekeeping cycle every fourth cycle (R337, R342). -/
def planeBank (b : Nat) : Bool := b < 128 || (192 ≤ b && b < 208) || (224 ≤ b && b < 357)

/-- The crossbar lock that makes a beat part of a locked sequence (R347, R352). -/
def State.mayLock (s : State) (p : Nat) : Bool :=
  p ≠ 5 && s.holdsLock (if p = 6 then mDebug else p) 3

/-- HK_REQUEST. A request already raised and not granted stays. -/
def State.hkRequest (s : State) (p bank : Nat) (locked : Bool) : State :=
  match s.hk.reqs.find? (fun q => q.1 = p && !q.2.granted) with
  | some _ => s
  | none =>
    let asleep := s.bankState bank = bankRetain || s.bankState bank = bankOff
    let s := match s.regionOf bank with
      | some r => s.wakeRegion r
      | none => s
    let r : HkReq :=
      { bank := bank, locked := locked && s.mayLock p, granted := false, held := false
        turn := if asleep then 3 else 1 }
    { s with hk := { s.hk with reqs := s.hk.reqs.insert p r } }

/-- The crossbar master of a port, none for CUMIN. -/
def masterAt (p : Nat) : Option Nat := if p = 5 then none else some (if p = 6 then mDebug else p)

/-- The request that a port has raised is the beat of a crossbar transaction. -/
def State.crossbarBeat (s : State) (p : Nat) : Bool :=
  match masterAt p with
  | some m => (s.outstanding m).any (·.raised)
  | none => false

/-- Who may be granted a bank: under a locked sequence its holder, and DEBUG; under a lock on SRAM no beat of
another master (R347, R352). -/
def State.hkAllowed (s : State) (bank p : Nat) : Bool :=
  (match s.hk.held.find? (·.1 = bank) with
    | some q => p = q.2 || p = 6
    | none => true) &&
  !(p ≠ 6 && s.crossbarBeat p && s.heldByOther p 3)

/-- Requests raised for a bank, in port order. -/
def State.raised (s : State) (bank : Nat) : List Nat :=
  (s.hk.reqs.filter fun q => q.2.bank = bank && !q.2.granted).map (·.1)

/-- Port `p` goes before port `q`: by rank, or by port order alone. -/
def State.goesFirst (s : State) (byRank : Bool) (p q : Nat) : Bool :=
  if byRank then s.rank p > s.rank q || (s.rank p = s.rank q && p < q) else p < q

/-- The one that goes first. -/
def State.firstOf (s : State) (byRank : Bool) : List Nat → Option Nat
  | [] => none
  | p :: ps =>
    match s.firstOf byRank ps with
    | none => some p
    | some q => some (if s.goesFirst byRank p q then p else q)

/-- The code of a turn estimate (R346). -/
def turnCode (n : Nat) : BitVec 2 := if n = 0 then 0 else if n ≤ 7 then 1 else if n ≤ 63 then 2 else 3

/-- The turn estimate of a loser: housekeeping cycles until its turn among the losers, at the bank's rate;
in STALL and BOTH each loss costs another cycle. A bank under another's lock gives 3. -/
def State.turnOf (s : State) (bank : Nat) (byRank stall : Bool) (losers : List Nat) (p : Nat) : BitVec 2 :=
  if !s.hkAllowed bank p then 3
  else
    let ahead := (losers.filter fun q => q ≠ p && s.hkAllowed bank q && s.goesFirst byRank q p).length
    let cycles := (ahead + 1) * (if stall then 2 else 1)
    turnCode (cycles * (if planeBank bank then 4 else 1))

/-- Memory cycles that passed with a request raised since the last decision: timing that no row carries, so
a free number (log entry 44). -/
def State.waited (s : State) (p least : Nat) : State :=
  let r := s.draw
  r.2.speed (181 + p) (least + r.1.toNat % 65536)

/-- The requests with that of port `p` changed. -/
def State.onReq (s : State) (p : Nat) (f : HkReq → HkReq) : Sparse HkReq :=
  s.hk.reqs.map fun q => if q.1 = p then (p, f q.2) else q

/-- One loser of a decision. -/
def State.hkLose (s : State) (bank : Nat) (byRank stall charge : Bool) (losers : List Nat) (p : Nat) : State :=
  let turn := s.turnOf bank byRank stall losers p
  let s := { s with hk := { s.hk with reqs := s.onReq p fun r => { r with held := stall, turn := turn } } }
  (if charge then s.speed (188 + p) 1 else s).waited p 1

/-- The winner of a decision. -/
def State.hkWin (s : State) (bank p : Nat) : State :=
  let locked := (s.hk.reqs.find? (·.1 = p)).any (·.2.locked)
  let s := { s with hk := { s.hk with
    reqs := s.onReq p fun r => { r with granted := true, held := false, turn := 0 }
    held := if locked && !s.hk.held.contains (bank, p) then (bank, p) :: s.hk.held else s.hk.held } }
  (s.speed (174 + p) 1).waited p 0

/-- HK_GRANT: the decision in a housekeeping cycle of a bank. A beat granted before it has been performed. -/
def State.hkGrant (s : State) (bank : Nat) : State :=
  let s := { s with hk := { s.hk with
    reqs := s.hk.reqs.filter fun q => !(q.2.bank = bank && q.2.granted) } }
  if s.bankState bank = bankRetain || s.bankState bank = bankOff then
    (s.raised bank).foldl (fun s p => s.waited p 1) s
  else
    let off := (s.hk.reqs.filter fun q => q.2.bank = bank && q.2.held).map (·.1)
    let here := (s.raised bank).filter fun p => !off.contains p
    let underLock := s.hk.held.any fun q => q.1 = bank
    let conf := s.fget F.memArb_conf
    let meets := !underLock && here.length ≥ 2
    let stall := meets && (conf = 0 || conf = 2)
    let charge := meets && conf ≠ 0
    let byRank := !stall
    let s := off.foldl (fun s p =>
      { s with hk := { s.hk with reqs := s.onReq p fun r => { r with held := false } } }) s
    let s := off.foldl (fun s p => s.waited p 1) s
    match s.firstOf byRank (here.filter (s.hkAllowed bank)) with
    | none => here.foldl (fun s p => s.hkLose bank byRank false false here p) s
    | some w =>
      let losers := here.filter (· ≠ w)
      losers.foldl (fun s p => s.hkLose bank byRank stall charge losers p) (s.hkWin bank w)

/-- HK_WITHDRAW: before a grant the request goes; after it the cycle stays unused. -/
def State.hkWithdraw (s : State) (p : Nat) : State :=
  match s.hk.reqs.find? (·.1 = p) with
  | some (_, r) =>
    let s := { s with hk := { s.hk with reqs := s.hk.reqs.erase p } }
    if r.granted then s.count Reg.memCntDead else s
  | none => s

/-! ### The Cumin sweep (R358-R360) -/

/-- MEM_STAT follows the sweep. -/
def State.refreshSweep (s : State) : State :=
  let s := match s.sram.sweep with
    | some w => (s.fset F.memStat_phase w.phase).fset F.memStat_bank (if w.phase = 4 then 384 + w.spare else w.bank)
    | none => (s.fset F.memStat_phase 0).fset F.memStat_bank 0
  s.refreshSpares

def State.setSweep (s : State) (w : Option Sweep) : State :=
  { s with sram := { s.sram with sweep := w } }.refreshSweep

/-- A bank that the sweep passes over: retired or in OFF. -/
def State.sweepSkips (s : State) (b : Nat) : Bool :=
  s.sram.retired.any (·.1 = b) || s.bankState b = bankOff

/-- The copy of a bank to a spare starts, when shed level, bank and spares let it. Which free spare is taken
is not given, so it is free. -/
def State.sweepBank (s : State) (b : Nat) : State :=
  if s.fget F.nrgStat_level ≥ 1 || s.sweepSkips b then s.setSweep none
  else if s.freeSpares = [] then
    let s := s.setSweep none
    if s.sram.nospareSaid then s
    else { s with sram := { s.sram with nospareSaid := true } }.raise Ev.memSweepNospare b
  else
    let r := s.draw
    let k := s.freeSpares.getD (r.1.toNat % s.freeSpares.length) 0
    let s := if r.2.bankState b = bankRetain then r.2.setBankState b bankActive else r.2
    let s := { s with sram := { s.sram with nospareSaid := false } }
    s.setSweep (some { bank := b, spare := k, phase := 1, copied := false, passed := 0, since := s.clock.frames })

/-- What a slot starts: in the slots of banks 0-3 the spare of that number is tested first, if free. A spare test
is not a bank taken for testing, but it is part of the sweep that level 1 sheds. -/
def State.sweepStart (s : State) (b : Nat) : State :=
  if b < 4 && s.fget F.nrgStat_level = 0 && s.freeSpares.contains b then
    s.setSweep (some { bank := b, spare := b, phase := 4, copied := false, passed := 0, since := s.clock.frames })
  else s.sweepBank b

/-- Frames in a slot of 37.5 s (R358). -/
def slotFrames : Nat := 300000

/-- SWEEP_SLOT_START: the slots come in bank order, each after the one before it has ended. With no spare free the
sweep waits (log entry 13). -/
def State.sweepSlot (s : State) (b : Nat) : State :=
  let over' := match s.sram.slotFrom with
    | some f => f + slotFrames ≤ s.clock.frames
    | none => true
  if !s.flag F.memSweep_en || s.sram.sweep.isSome || b ≠ s.sram.slotBank || !over' then s
  else
    let stays := s.freeSpares = [] && s.fget F.nrgStat_level = 0 && !s.sweepSkips b
    let next := if stays then b else (b + 1) % 384
    { s with sram := { s.sram with slotBank := next, slotFrom := some s.clock.frames } }.sweepStart b

/-- SWEEP_COPY_DONE: the redirect is due at the next row mark. -/
def State.sweepCopied (s : State) : State :=
  match s.sram.sweep with
  | some w =>
    if w.phase = 1 || w.phase = 3 then { s with sram := { s.sram with sweep := some { w with copied := true } } }
    else s
  | none => s

/-- Words with a single-bit error are copied corrected. -/
def State.copyClean (s : State) (b : Nat) : State :=
  { s with sram := { s.sram with
    damage := s.sram.damage.filter fun p => p.1 / 32768 ≠ b || p.2.double
    writeback := s.sram.writeback.erase b } }

/-- The row mark after a copy: accesses are redirected. -/
def State.sweepMark (s : State) : State :=
  match s.sram.sweep with
  | some w =>
    if !w.copied then s
    else if w.phase = 1 then
      ((s.copyClean w.bank).setBankState w.bank bankBorrowed).setSweep
        (some { w with phase := 2, copied := false, passed := 0, since := s.clock.frames })
    else
      (((s.copyClean w.bank).setBankState w.bank bankActive).setSweep none).count Reg.memCntSweep
  | none => s

/-- A test failed: the array is retired, and the retirement is burnt (R360). -/
def State.sweepRetires (s : State) (w : Sweep) : State :=
  let rec0 := if w.phase = 4 then (384 + w.spare, 7) else (w.bank, w.spare)
  let s := { s with
    sram := { s.sram with retired := s.sram.retired ++ [rec0] }
    otp := { s.otp with burns := s.otp.burns ++ [Burn.retire rec0.1 rec0.2] } }
  let s := (s.setBankState rec0.1 bankBorrowed).report Ev.memRetire rec0.1 rec0.2
  if w.phase = 4 then s.sweepBank w.bank else s.setSweep none

/-- One more part of the test is passed; after the last a spare is free, and a bank is copied back. -/
def State.sweepPasses (s : State) (w : Sweep) : State :=
  if w.passed < 2 then s.setSweep (some { w with passed := w.passed + 1, since := s.clock.frames })
  else if w.phase = 4 then (s.setSweep none).sweepBank w.bank
  else s.setSweep (some { w with phase := 3, copied := false, passed := 3 })

/-- Frame marks that fall at least into the March pass of 273.07 us, and into a retention check of 100.05 ms. -/
def partFrames (march : Bool) : Nat := if march then 2 else 800

/-- A part of the test ended: the March pass, or a retention check. A read that fails ends it at any time (R360). -/
def State.sweepResult (s : State) (march pass : Bool) : State :=
  match s.sram.sweep with
  | some w =>
    let done := !pass || w.since + partFrames march ≤ s.clock.frames
    if (w.phase = 2 || w.phase = 4) && (march = (w.passed = 0)) && done then
      (if pass then s.sweepPasses w else s.sweepRetires w)
    else s
  | none => s

/-! ### The commands -/

def execScrubSlot (bank : Fin 389) (word : BitVec 15) (s : State) : Host.Outcome State Fault Refusal :=
  whenUp s fun s => s.scrubSlot bank.val word.toNat

def execScrubWriteback (bank : Fin 389) (s : State) : Host.Outcome State Fault Refusal :=
  whenUp s fun s => s.scrubWriteback bank.val

def execRetainedBankScrubBurst (bank : Fin 388) (s : State) : Host.Outcome State Fault Refusal :=
  whenUp s fun s => s.scrubBurst bank.val

def execHkRequest (m : Master) (bank : Fin 388) (locked : Bool) (s : State) :
    Host.Outcome State Fault Refusal :=
  whenUp s fun s => s.hkRequest (portNo m) bank.val locked

def execSweepSlotStart (bank : Fin 388) (s : State) : Host.Outcome State Fault Refusal :=
  whenUp s fun s => s.sweepSlot bank.val

def execSweepCopyDone (s : State) : Host.Outcome State Fault Refusal := whenUp s State.sweepCopied

def execSweepMarchDone (pass : Bool) (s : State) : Host.Outcome State Fault Refusal :=
  whenUp s fun s => s.sweepResult true pass

def execSweepRetentionExpiry (pass : Bool) (s : State) : Host.Outcome State Fault Refusal :=
  whenUp s fun s => s.sweepResult false pass

end Sys2Proof.Machine
end

