-- ==== Sys2Proof/Machine/Faults.lean ====
section
/-! DEFINITION. Faults: late engines (R20), islands that hang or are reset (R17, R390, R403), register
parity (R387), supply rails (R388) and fault injection (R393). -/

namespace Sys2Proof.Machine

/-! ### Missed deadlines (R20) -/

/-- One program row or execution frame has missed a deadline: counted, marked and raised. -/
def State.noteLate (s : State) (octet : Bool) (d : Nat) : State :=
  ((s.count (engLateCnt octet d)).setStat octet d statLate true).raise (Ev.engineLate octet)
    (destWord octet d)

/-- A column engine has not emitted the positions from `n` on (R20): its program row counts once. -/
def State.lateCol (s : State) (d n : Nat) : State :=
  match (s.colEngine d).emit with
  | none => s
  | some c =>
    if s.payCols d ≤ n then s
    else
      let s := if c.late then s
        else (s.noteLate false d).onCol d fun x => { x with emit := some { c with late := true } }
      s.cutRow d n

/-- The execution frame of an octet engine has missed a deadline: counted once. -/
def State.lateFrame (s : State) (d : Nat) : State :=
  match (s.octEngine d).run with
  | none => s
  | some c =>
    if c.late then s
    else (s.noteLate true d).onOct d fun x => { x with run := some { c with late := true } }

/-- An octet engine had done `n` cycles of the row at its deadline: what had not ended is not written (R20). -/
def State.lateOct (s : State) (d n : Nat) : State :=
  match (s.octEngine d).run with
  | none => s
  | some c =>
    if c.row = s.clock.row && c.log.any (n < ·.1) then
      (s.onOct d fun x => { x with run := some (s.cutOct d n c) }).lateFrame d
    else s

/-- STAT.late tells of the last program row or execution frame (R124). -/
def State.settleLate (s : State) : State :=
  let s := (List.range 56).foldl (fun s d =>
    match (s.colEngine d).emit with
    | some c => s.setStat false d statLate c.late
    | none => s) s
  if s.clock.row ≠ 8 then s
  else (List.range 16).foldl (fun s d =>
    match (s.octEngine d).run with
    | some c => s.setStat true d statLate c.late
    | none => s) s

/-! ### Islands in reset (R17, R394) -/

/-- First and last island of the column engines and of the octet engines. -/
def isColIsland (i : Nat) : Bool := 6 ≤ i && i ≤ 61
def isOctIsland (i : Nat) : Bool := 62 ≤ i && i ≤ 77

/-- A column engine's island goes into reset with `n` positions of its row emitted: the rest of the row is
lost, and so is the program row that it was fetching. -/
def State.colIslandDown (s : State) (d n : Nat) : State :=
  let s := s.lateCol d n
  s.onCol d fun x =>
    { x with fetch := x.fetch.map fun c => { c with lost := true }, ahead := none, waiting := false }

/-- An octet engine's island goes into reset `n` cycles into the row: the instructions that had ended by then
have written, and the rest of its frame is lost. -/
def State.octIslandDown (s : State) (d n : Nat) : State :=
  match (s.octEngine d).run with
  | none => s
  | some c =>
    let r := if s.clock.frameDue || c.checked then (s, c) else s.runOct d s.clock.row (some n) bankWords c
    let c := if !s.clock.frameDue && r.2.row = s.clock.row then r.1.cutOct d n r.2 else r.2
    (r.1.onOct d fun x => { x with run := some { c with lost := true } }).lateFrame d

/-- The lanes of a lane group return to DETECT. -/
def State.groupDown (s : State) (g : Nat) : State :=
  (List.range 8).foldl (fun s k =>
    let l := 8 * g + k
    if s.stage l = stOff then s else s.goStage l stDetect) s

/-- The number by which the model names the management island, to which R394 gives none (log entry 75). -/
def mgmtIsland : Nat := 83

/-- An engine island in reset: down until its mark, and at 1,200 MHz (R14). -/
def Island.reset (x : Island) : Island := { x with down := true, step := 1200 }

/-- An island is reset. Engine islands stay down until their next mark. A reset of the management island clears
the arbiter's requests and grants and keeps every register. The memory, termination, path monitor, host
endpoint and store islands keep what the spec gives no reset (log entry 47). -/
def State.islandDown (s : State) (i n : Nat) : State :=
  if i < 6 then s.groupDown i
  else if isColIsland i then (s.colIslandDown (i - 6) n).onIsland i Island.reset
  else if isOctIsland i then (s.octIslandDown (i - 62) n).onIsland i Island.reset
  else if i = mgmtIsland then { s with hk := .init }
  else s

/-- ISLAND_HANG (R17, R390): the report first, then the reset. `n` counts what the engine had done: columns
emitted by a column engine, cycles of the row by an octet engine. -/
def State.islandHang (s : State) (i n : Nat) : State :=
  if (s.island i).down then s
  else
    let s := s.onIsland i fun x => { x with hung := false }
    ((s.count Reg.fltCntHang).report Ev.islandHang i).islandDown i n

/-- The watchdogs find a hang within 2 us: before the next mark. How far the engine had come is free (log entry 46). -/
def State.watchdogs (s : State) : State :=
  ((s.islands.filter (·.2.hung)).map (·.1)).foldl (fun s i =>
    let q := s.draw
    q.2.islandHang i (q.1.toNat % 65536)) s

/-- A host island reset (R403): merged with one under way; the memory island's is discarded. How far the
engine had come with its row is free (log entry 47). -/
def State.hostIslandReset (s : State) (i : Nat) : State :=
  if 82 < i || i = 78 || (s.island i).down then s
  else
    let q := (s.raise Ev.islandHang i 0 1).draw
    q.2.islandDown i (q.1.toNat % 65536)

/-- An island is out of reset. -/
def Island.up (x : Island) : Island := { x with down := false }

/-- Engine islands rejoin at their mark (R17). -/
def State.rejoin (s : State) (p : Nat → Bool) : State :=
  let back := fun (q : Nat × Island) => (q.1, if p q.1 then q.2.up else q.2)
  { s with islands := (s.islands.map back).filter fun q => q.2 ≠ Island.init }

/-! ### Register parity (R387) -/

/-- The register at an offset has a parity bit. -/
def parityReg (a : Nat) : Bool := regWritable a ≠ 0

/-- A register with a fault is reported; it keeps its value. -/
def State.sayRegBad (s : State) (a : Nat) : State :=
  (s.count Reg.fltCntReg).report Ev.regParity a

/-- REG_SCRUB: every register with a parity bit is checked. -/
def State.regScrub (s : State) : State := s.sram.regBad.foldl State.sayRegBad s

/-! ### Supply rails (R388) -/

/-- FLT_STAT shows the rails in droop. -/
def State.setRail (s : State) (rail : Nat) (on : Bool) : State :=
  let v := setBits (s.rd Reg.fltStat) (24 + rail) (24 + rail) (b2n on)
  (s.wr Reg.fltStat v).fbit F.fltStat_droopNow (bits v 29 24 ≠ 0)

def State.railLow (s : State) (rail : Nat) : Bool := bit (s.rd Reg.fltStat) (24 + rail)

/-- VDD_CORE or VDD_SRAM is in droop. -/
def State.coreDroop (s : State) : Bool := s.railLow 0 || s.railLow 1

/-- RAIL_DROOP: counted and reported on entry; a droop of VDD_CORE or VDD_SRAM masks the rows that are
being emitted. -/
def State.railDroop (s : State) (rail mv : Nat) : State :=
  if s.railLow rail then s
  else
    let s := ((s.setRail rail true).count Reg.fltCntDroop).report Ev.railDroop rail 0 0 mv
    if rail ≤ 1 then s.maskOut else s

/-- RAIL_DROOP_CLEAR: the period that follows still carries CON. -/
def State.railDroopClear (s : State) (rail : Nat) : State :=
  if s.railLow rail then
    let was := s.coreDroop
    let s := s.setRail rail false
    if was && !s.coreDroop then { s with power := { s.power with droopTail := 2 } } else s
  else s

/-! ### Fault injection (R393) -/

/-- Fields of FLT_INJECT. -/
def injKind (v : W32) : Nat := bits v 31 28
def injBank (v : W32) : Nat := bits v 24 16
def injTarget (v : W32) : Nat := bits v 14 0
/-- The BAR0 offset that kind 6 names. -/
def injOffset (v : W32) : Nat := injBank v * 131072 + injTarget v * 4

/-- The write names a fault that can be created. -/
def injOk (v : W32) : Bool :=
  match injKind v with
  | 1 => injBank v ≤ 387
  | 2 => injBank v ≤ 387
  | 3 => injTarget v ≤ 82
  | 4 => injTarget v ≤ 82
  | 5 => 6 ≤ injTarget v && injTarget v ≤ 77
  | 6 => parityReg (injOffset v)
  | _ => false

/-- A word of an array is damaged. A word with a single-bit error that gains another one cannot be
corrected any more; a bank that is lent to a sweep holds nothing that is read (R339, R358). -/
def State.damageWord (s : State) (array word : Nat) (double : Bool) : State :=
  if s.bankState array = bankBorrowed then s
  else
    let k := damageKey (s.contentOf array) word
    let was := match s.sram.damage.find? (·.1 = k) with
      | some (_, d) => d.double
      | none => false
    let said := match s.sram.damage.find? (·.1 = k) with
      | some (_, d) => d.reported
      | none => false
    let s := { s with sram := { s.sram with
      damage := s.sram.damage.insert k ⟨double || was, said⟩ } }
    if 0x1000000 ≤ 4 * k && 4 * k < 0x1800000 then s.refreshPath ((4 * k - 0x1000000) / 32) else s

/-- The fault of an injection that names one. A parity or digest fault acts where the island next uses what
it falls on; islands without a data path report it at once. A hang shows when the watchdog finds it: at an ISLAND_HANG,
or before the next mark (log entry 46). -/
def State.inject (s : State) (v : W32) : State :=
  let i := injTarget v
  match injKind v with
  | 1 => s.damageWord (injBank v) i false
  | 2 => s.damageWord (injBank v) i true
  | 3 => if i ≥ 80 then s.parityError i else s.onIsland i fun x => { x with parityDue := true }
  | 4 => s.onIsland i fun x => { x with hung := true }
  | 5 => s.onIsland i fun x => { x with digestDue := true }
  | 6 => { s with sram := { s.sram with regBad := setMember s.sram.regBad (injOffset v) true } }
  | _ => s

/-- FAULT_INJECT: a write of FLT_INJECT while inj_en = 1. -/
def State.faultInject (s : State) (be : BitVec 4) (v : W32) : State :=
  let v := v &&& beMask be
  if s.flag F.fltCfg_injEn && injOk v then (s.raise Ev.faultInjected).inject v else s

/-! ### Commands -/

/-- ISLAND_HANG. -/
def execIslandHang (island : Fin 84) (emitted : Nat) (s : State) : Host.Outcome State Fault Refusal :=
  whenUp s fun s => s.islandHang island.val emitted

/-- REG_SCRUB. -/
def execRegScrub (s : State) : Host.Outcome State Fault Refusal := whenUp s fun s => s.regScrub

/-- RAIL_DROOP. -/
def execRailDroop (rail : Fin 6) (mv : Nat) (s : State) : Host.Outcome State Fault Refusal :=
  whenUp s fun s => s.railDroop rail.val mv

/-- RAIL_DROOP_CLEAR. -/
def execRailDroopClear (rail : Fin 6) (s : State) : Host.Outcome State Fault Refusal :=
  whenUp s fun s => s.railDroopClear rail.val

end Sys2Proof.Machine
end

