-- ==== Sys2Proof/Machine/Rings.lean ====
section
/-! DEFINITION. The rings in host memory (R366, R367), delivery of events with their signals (R371-R374),
the host link (R376) and a function-level reset of the endpoint (R377). -/

namespace Sys2Proof.Machine

/-! ### Ring registers (R367, R378) -/

/-- Entries of a ring of size code `n`: 2^s, s held within 6-16. -/
def ringLen (n : Nat) : Nat := 2 ^ clamp 6 16 n

def State.cringLen (s : State) (r : Nat) : Nat := ringLen (s.fget (F.hifCringCfg_size r))
def State.eringLen (s : State) (e : Nat) : Nat := ringLen (s.fget (F.hifEringCfg_size e))

/-- Entries fetched from ring `r` and not yet begun. -/
def State.fetchedOn (s : State) (r : Nat) : List CmdEntry := s.hif.fetched.get [] r

def State.setFetched (s : State) (r : Nat) (cs : List CmdEntry) : State :=
  { s with hif := { s.hif with fetched := s.hif.fetched.put [] r cs } }

/-- RST_BOOT, as soon as a ring for events is first enabled after boot (R398). -/
def State.sayBoot (s : State) : State :=
  if s.power.bootSaid then s
  else { s with power := { s.power with bootSaid := true } }.raise Ev.rstBoot 0 0 (s.fget F.rstStat_cause)

/-- A ring register is written, but for the fields in `keep`. -/
def State.ringWrite (s : State) (a : Nat) (be : BitVec 4) (v : W32) (rw keep : W32) : State :=
  let old := s.rd a
  s.wr a ((old &&& ~~~(rw &&& ~~~keep)) ||| (mergeBe old v be &&& rw &&& ~~~keep))

/-- Base and size hold while en = 1. -/
def sizeKept (en : Bool) : W32 := if en then 0xF else 0

/-- CRING_CFG_WRITE (R367). A written en = 1 sets both indexes to 0, a written 0 ends a fault; entries that
were fetched and not begun are dropped (log entry 48). -/
def State.cringCfgWrite (s : State) (r : Nat) (be : BitVec 4) (v : W32) : State :=
  let s := s.ringWrite (Reg.hifCringCfg r) be v 0x8000000F (sizeKept (s.flag (F.hifCringCfg_en r)))
  if !be.getLsbD 3 then s
  else
    let s := s.setFetched r []
    if bit v 31 then (s.wr (Reg.hifCringHead r) 0).wr (Reg.hifCringTail r) 0
    else s.fbit (F.hifCringCfg_fault r) false

/-- A command ring stops. -/
def State.ringFault (s : State) (r : Nat) : State :=
  if s.flag (F.hifCringCfg_fault r) then s
  else (s.fbit (F.hifCringCfg_fault r) true).raise Ev.hifCmdFault r

/-- CRING_TAIL_WRITE: a tail outside the ring stops it. -/
def State.cringTailWrite (s : State) (r : Nat) (be : BitVec 4) (v : W32) : State :=
  let s := s.ringWrite (Reg.hifCringTail r) be v 0xFFFF 0
  if be = 0 || s.fget (F.hifCringTail_index r) < s.cringLen r then s else s.ringFault r

/-- ERING_CFG_WRITE. -/
def State.eringCfgWrite (s : State) (e : Nat) (be : BitVec 4) (v : W32) : State :=
  let s := s.ringWrite (Reg.hifEringCfg e) be v 0xFFFFFFCF (sizeKept (s.flag (F.hifEringCfg_en e)))
  if !be.getLsbD 3 || !bit v 31 then s
  else
    let s := (s.wr (Reg.hifEringHead e) 0).wr (Reg.hifEringTail e) 0
    let s := { s with evt := if e = 0 then { s.evt with phase0 := true, since0 := 0 }
                             else { s.evt with phase1 := true, since1 := 0 } }
    s.sayBoot

/-- ERING_HEAD_WRITE. -/
def State.eringHeadWrite (s : State) (e : Nat) (be : BitVec 4) (v : W32) : State :=
  s.ringWrite (Reg.hifEringHead e) be v 0xFFFF 0

/-- A write of a ring's base: discarded while en = 1. -/
def State.ringBaseWrite (s : State) (a : Nat) (en : Fld) (be : BitVec 4) (v : W32) : State :=
  if s.flag en then s else s.ringWrite a be v 0xFFFFFFFF 0

/-! ### Command fetch (R367) -/

/-- Entries between head and tail. -/
def State.cringDue (s : State) (r : Nat) : Nat :=
  let n := s.cringLen r
  (s.fget (F.hifCringTail_index r) + n - s.fget (F.hifCringHead_index r)) % n

/-- The ring fetches. -/
def State.mayFetch (s : State) (r : Nat) : Bool :=
  s.flag (F.hifCringCfg_en r) && !s.flag (F.hifCringCfg_fault r) && s.dmaOn && s.cringDue r > 0

/-- One fetched entry: 16 words under its ring index. -/
def State.takeEntry (s : State) (r : Nat) (ws : List W32) : State :=
  let head := s.fget (F.hifCringHead_index r)
  let c : CmdEntry := ⟨BitVec.ofNat 16 head, (List.range 16).map fun i => ws.getD i 0⟩
  let s := s.setFetched r (s.fetchedOn r ++ [c])
  (s.fset (F.hifCringHead_index r) ((head + 1) % s.cringLen r)).speed 96 64

/-- COMMAND_FETCH: a read of at most 8 entries; one that fails stops the ring (log entry 68). -/
def State.commandFetch (s : State) (r : Nat) (es : List (List W32)) (ok : Bool) : State :=
  if !s.mayFetch r then s
  else if !ok then s.ringFault r
  else (es.take (min 8 (s.cringDue r))).foldl (fun s ws => s.takeEntry r ws) s

/-! ### Events (R371-R374) -/

/-- An MSI-X message: a posted write, or a pending bit while the vector is masked or DMA pauses (R366, R374; the table
has the layout of PCIe, log entry 50). -/
def State.msix (s : State) (v : Nat) : State :=
  let t := fun i => s.rd (Reg.hifMsixTable (4 * v + i))
  if bit (t 3) 0 || !s.dmaOn then
    let a := Reg.hifMsixPba (v / 32)
    s.wr a (s.rd a ||| BitVec.ofNat 32 (2 ^ (v % 32)))
  else s.postWords ((t 0).toNat + 2 ^ 32 * (t 1).toNat) [t 2]

/-- What is pending of a vector that is not masked is sent. -/
def State.sendPending (s : State) (n : Nat) : State :=
  let p := Reg.hifMsixPba (n / 32)
  if s.dmaOn && !bit (s.rd (Reg.hifMsixTable (4 * n + 3))) 0 && bit (s.rd p) (n % 32) then
    (s.wr p (setBits (s.rd p) (n % 32) (n % 32) 0)).msix n
  else s

/-- A write of the MSI-X table; a vector that is unmasked sends what is pending. -/
def State.msixWrite (s : State) (a : Nat) (be : BitVec 4) (v : W32) : State :=
  let rw : W32 := if a % 16 = 0 then 0xFFFFFFFC else if a % 16 = 12 then 1 else 0xFFFFFFFF
  (s.ringWrite a be v rw 0).sendPending ((a - Reg.hifMsixTable 0) / 16)

/-- Entries written to an event ring since its last signal. -/
def State.since (s : State) (e : Nat) : Nat := if e = 0 then s.evt.since0 else s.evt.since1

def State.setSince (s : State) (e n : Nat) : State :=
  { s with evt := if e = 0 then { s.evt with since0 := n } else { s.evt with since1 := n } }

/-- Row periods begun when the first of those entries was written. -/
def State.sinceFrom (s : State) (e : Nat) : Nat := if e = 0 then s.evt.from0 else s.evt.from1

/-- The first entry after a signal: its time counts from now (R374). -/
def State.startSince (s : State) (e : Nat) : State :=
  { s with evt := if e = 0 then { s.evt with from0 := s.clock.period } else { s.evt with from1 := s.clock.period } }

/-- The ring signals its vector. -/
def State.signalRing (s : State) (e : Nat) : State := (s.setSince e 0).msix (s.fget (F.hifEringCfg_vec e))

/-- The next staged event of a ring. -/
def State.nextEvent (s : State) (e : Nat) : Option Event := s.evt.staged.find? fun x => x.ring = (e = 1)

/-- The eight words of an event entry (R371). -/
def entryWords (phase lost : Bool) (x : Event) : List W32 :=
  BitVec.ofNat 32 (b2n phase * 2 ^ 31 + b2n lost * 2 ^ 30 + x.severity.toNat * 2 ^ 25 + x.code.toNat) ::
    (x.params ++ [x.tai, x.frame])

/-- The ring has room: one entry is always left unused (R367). -/
def State.eringRoom (s : State) (e : Nat) : Bool :=
  (s.fget (F.hifEringTail_index e) + 1) % s.eringLen e ≠ s.fget (F.hifEringHead_index e)

/-- A ring's phase after an entry at `tail`, and no loss still to be shown. -/
def EvtSt.afterEntry (x : EvtSt) (e : Nat) (wraps : Bool) : EvtSt :=
  if e = 0 then { x with phase0 := x.phase0 != wraps, lost0 := false }
  else { x with phase1 := x.phase1 != wraps, lost1 := false }

/-- An entry is written, and the ring signals when its count or its time says so (R374). -/
def State.writeEntry (s : State) (e : Nat) (x : Event) : State :=
  let tail := s.fget (F.hifEringTail_index e)
  let base := (s.rd (Reg.hifEringBaseLo e)).toNat + 2 ^ 32 * (s.rd (Reg.hifEringBaseHi e)).toNat
  let ws := if e = 0 then entryWords s.evt.phase0 s.evt.lost0 x else entryWords s.evt.phase1 s.evt.lost1 x
  let next := (tail + 1) % s.eringLen e
  let rest := s.evt.staged.eraseP fun y => y.ring = (e = 1)
  let s := (s.postWords (base + 32 * tail) ws).fset (F.hifEringTail_index e) next
  let s := { s with evt := ({ s.evt with staged := rest } : EvtSt).afterEntry e (next = 0) }
  let n := s.since e + 1
  if s.fget (F.hifEringCfg_coalUs e) = 0 || s.fget (F.hifEringCfg_coalCnt e) < n then s.signalRing e
  else (if n = 1 then s.startSince e else s).setSince e n

/-- EVENT_WRITE: the oldest staged event of a ring that is enabled and has room. -/
def State.eventWrite (s : State) (e : Nat) : State :=
  if s.flag (F.hifEringCfg_en e) && s.dmaOn && s.eringRoom e then
    match s.nextEvent e with
    | some x => s.writeEntry e x
    | none => s
  else s

/-- Row periods of 125/9 us that begin at least within the ring's coalescing time (R374). -/
def State.coalesceRows (s : State) (e : Nat) : Nat := min 1000 (s.fget (F.hifEringCfg_coalUs e)) * 9 / 125

/-- EVENT_COALESCE_EXPIRY: entries have waited for their signal. -/
def State.coalesceExpiry (s : State) (e : Nat) : State :=
  if s.since e > 0 && s.dmaOn && s.sinceFrom e + s.coalesceRows e ≤ s.clock.period then s.signalRing e else s

/-- EVT_N is driven low (R374); it is released in reset and in the safe halt (R389, R397). -/
def State.evtLow (s : State) : Bool :=
  s.up && (List.range 2).any fun e =>
    s.flag (F.hifEringCfg_pinEn e) &&
      (s.fget (F.hifEringTail_index e) ≠ s.fget (F.hifEringHead_index e) || (s.nextEvent e).isSome)

/-! ### The link and the function (R366, R376, R377) -/

/-- Commands in progress stop and are not completed. -/
def State.stopCommands (s : State) : State :=
  { s with
    hif := { s.hif with fetched := [], busy := [] }
    hst := { s.hst with readDue := false } }

/-- HOST_LINK_DOWN. -/
def State.linkDown (s : State) : State :=
  if s.fget F.hifStat_rate = 0 then s
  else
    let s := ((s.fbit F.hifStat_linkLost true).fset F.hifStat_rate 0).fset F.hifStat_width 0
    let s := (List.range 4).foldl (fun s r => s.fbit (F.hifCringCfg_en r) false) s
    let s := (List.range 2).foldl (fun s e => s.fbit (F.hifEringCfg_en e) false) s
    s.stopCommands.raise Ev.hifLinkDown

/-- HOST_LINK_UP (log entry 61). -/
def State.linkUp (s : State) (rate width : Nat) : State :=
  if s.fget F.hifStat_rate ≠ 0 || rate = 0 then s
  else ((s.fset F.hifStat_rate rate).fset F.hifStat_width width).raise Ev.hifLinkUp

/-- DMA resumes from the point at which it paused (R366): pending signals of vectors that are not masked, snapshots, and
reads of the store. -/
def State.resumeDma (s : State) : State :=
  if !s.dmaOn then s
  else
    let s := ((List.range 64).foldl State.sendPending s).deliverSnapshots
    if s.driveReady || s.hif.busy.all (fun q => q.2.2 ≠ .storeRead || !s.readNeedsDrive q.2.1) then s.serveReads else s

/-- BUS_MASTER_CHANGE. -/
def State.busMaster (s : State) (bme d3hot : Bool) : State :=
  { s.fbit F.hifStat_bme bme with hif := { s.hif with bme := bme, d3hot := d3hot } }.resumeDma

/-- Registers that a reset returns to their reset values: those that `p` selects. -/
def State.resetRegs (s : State) (p : Nat → Bool) : State :=
  { s with regs := s.regs.filter fun q => !p q.1 }

/-- The HIF and EVT blocks. -/
def endpointReg (a : Nat) : Bool := (0x4000 ≤ a && a < 0x8000) || (0x120000 ≤ a && a < 0x128000)

/-- What an FLR resets in every case (R377): configuration space, MSI-X, HIF and EVT; the link and staged
events stay. -/
def State.resetEndpoint (s : State) : State :=
  let rate := s.fget F.hifStat_rate
  let width := s.fget F.hifStat_width
  let s := ((s.resetRegs endpointReg).fset F.hifStat_rate rate).fset F.hifStat_width width
  { s.stopCommands with
    hif := .init
    evt := { s.evt with since0 := 0, since1 := 0, phase0 := false, phase1 := false } }

/-! ### Commands -/

/-- CRING_CFG_WRITE. -/
def execCringCfgWrite (r : Fin 4) (be : BitVec 4) (v : W32) (s : State) : Host.Outcome State Fault Refusal :=
  whenUp s fun s => s.hostReg (Reg.hifCringCfg r.val) be v fun s => s.cringCfgWrite r.val be v

/-- CRING_TAIL_WRITE. -/
def execCringTailWrite (r : Fin 4) (be : BitVec 4) (v : W32) (s : State) : Host.Outcome State Fault Refusal :=
  whenUp s fun s => s.hostReg (Reg.hifCringTail r.val) be v fun s => s.cringTailWrite r.val be v

/-- COMMAND_FETCH. -/
def execCommandFetch (r : Fin 4) (entries : List (List W32)) (ok : Bool) (s : State) :
    Host.Outcome State Fault Refusal :=
  whenUp s fun s => s.commandFetch r.val entries ok

/-- ERING_CFG_WRITE. -/
def execEringCfgWrite (e : Fin 2) (be : BitVec 4) (v : W32) (s : State) : Host.Outcome State Fault Refusal :=
  whenUp s fun s => s.hostReg (Reg.hifEringCfg e.val) be v fun s => s.eringCfgWrite e.val be v

/-- ERING_HEAD_WRITE. -/
def execEringHeadWrite (e : Fin 2) (be : BitVec 4) (v : W32) (s : State) : Host.Outcome State Fault Refusal :=
  whenUp s fun s => s.hostReg (Reg.hifEringHead e.val) be v fun s => s.eringHeadWrite e.val be v

/-- EVENT_WRITE. -/
def execEventWrite (e : Fin 2) (s : State) : Host.Outcome State Fault Refusal :=
  whenUp s fun s => s.eventWrite e.val

/-- EVENT_COALESCE_EXPIRY. -/
def execEventCoalesceExpiry (e : Fin 2) (s : State) : Host.Outcome State Fault Refusal :=
  whenUp s fun s => s.coalesceExpiry e.val

/-- HOST_LINK_DOWN. -/
def execHostLinkDown (s : State) : Host.Outcome State Fault Refusal := whenUp s fun s => s.linkDown

/-- HOST_LINK_UP. -/
def execHostLinkUp (rate : BitVec 3) (width : BitVec 3) (s : State) : Host.Outcome State Fault Refusal :=
  whenUp s fun s => s.linkUp rate.toNat width.toNat

/-- BUS_MASTER_CHANGE. -/
def execBusMasterChange (bme : Bool) (d3hot : Bool) (s : State) : Host.Outcome State Fault Refusal :=
  whenUp s fun s => s.busMaster bme d3hot

end Sys2Proof.Machine
end

