-- ==== Sys2Proof/Machine/Lifecycle.lean ====
section
/-! DEFINITION. Resets, boot, OTP burns, life-cycle transitions and debug access (R382, R389, R395-R410). -/

namespace Sys2Proof.Machine

/-! ### OTP content (R333, R360, R398, R406) -/

/-- The life-cycle state of the records: the target of the last one, TEST when there is none. -/
def otpState (o : Otp) : Nat :=
  match o.records.getLast? with
  | some r => r.1.toNat
  | none => 0

/-- The last record has erase_done = 0. -/
def otpErasePending (o : Otp) : Bool :=
  match o.records.getLast? with
  | some r => !r.2
  | none => false

/-- The DEBUG master is open (R408). -/
def State.debugOpen (s : State) : Bool := s.lc ≤ 1 || (s.lc = 2 && s.flag F.rstDbg_unlock)

/-- RST_STAT.dbg_open. -/
def State.refreshDebug (s : State) : State := s.fbit F.rstStat_dbgOpen s.debugOpen

/-- RST_STAT shows the records. In RETIRED unlock reads 0 (R408). -/
def State.showRecords (s : State) : State :=
  let s := s.fset F.rstStat_lcState (otpState s.otp)
  let s := (s.fbit F.rstStat_erasePending (otpErasePending s.otp)).fset F.rstStat_lcUsed s.otp.records.length
  (if s.lc = 2 then s else s.fbit F.rstDbg_unlock false).refreshDebug

/-- One retirement record in MEM_RETIRE. -/
def State.showRetired (s : State) (k : Nat) (q : Nat × Nat) : State :=
  ((s.fbit (F.memRetire_valid k) true).fset (F.memRetire_spare k) q.2).fset (F.memRetire_bank k) q.1

/-- The retirement records are applied again. -/
def State.showRetirements (s : State) : State :=
  let s := { s with sram := { s.sram with retired := s.otp.retired } }
  let s := (List.zip (List.range 4) s.otp.retired).foldl (fun s q => s.showRetired q.1 q.2) s
  (s.otp.retired.foldl (fun s q => s.setBankState q.1 bankBorrowed) s).refreshSpares

/-- NRG_OTP shows the burnt bits of the two counts. -/
def State.showLedgerBits (s : State) : State :=
  (s.fset F.nrgOtp_svcK s.otp.svcBits).fset F.nrgOtp_ledgerK s.otp.ledgerBits

/-- Registers that hold OTP values after boot. -/
def State.loadOtp (s : State) : State :=
  let s := s.wr Reg.glbSerialLo (s.otp.serial.extractLsb' 0 32)
  let s := s.wr Reg.glbSerialHi (s.otp.serial.extractLsb' 32 32)
  let s := s.fset F.glbId_grade (b2n s.otp.gradeW)
  let s := if s.otp.gradeW then (s.fset F.nrgTherm_cap 0x6E).fset F.nrgTherm_trip 0x73 else s
  let s := s.wr Reg.nrgLedger (BitVec.ofNat 32 (1024000 * s.otp.ledgerBits))
  let s := s.wr Reg.nrgSvcHours (BitVec.ofNat 32 (1024000 * s.otp.svcBits))
  let s := { s with nrg := { s.nrg with hourSaid := 1000 * s.otp.svcBits } }
  (s.showLedgerBits.showRecords.showRetirements).refreshCap

/-! ### Full resets (R396, R397, R401) -/

/-- Nothing survives but OTP, what lies outside the device, and the model's record of what left it. -/
def State.blank (s : State) : State :=
  { State.reset with
    pending := s.pending
    regs := []
    power := { s.power with
      booted := false, safeHalt := false, softDue := false, softFlr := false, wiping := false
      lcTarget := none, lcStep := 0, droopTail := 0, bootSaid := false, denySaid := false }
    otp := { s.otp with burns := [], retried := false }
    tmg := { TmgSt.init with noSignal := s.tmg.noSignal }
    hst := { HstSt.init with
      stored := s.hst.stored, anchorSeq := s.hst.anchorSeq, erases := s.hst.erases }
    io := s.io
    drawn := s.drawn }

/-- The device is in reset. -/
def Power.held (p : Power) : Bool := p.por || p.resetN || p.perstN

/-- The cause of a reset that begins: one that begins within another does not change it, but for
power-on (log entry 51). -/
def State.beginReset (s : State) (cause : BitVec 3) : State :=
  let c := if s.power.held && cause ≠ 0 then s.power.cause else cause
  { s.blank with power := { s.blank.power with cause := c } }

/-- POWER_ON_RESET. -/
def State.powerOn (s : State) (entered : Bool) : State :=
  let s := if entered then s.beginReset 0 else s
  { s with power := { s.power with por := entered } }

/-- RESET_N_CHANGE. -/
def State.resetPin (s : State) (low : Bool) : State :=
  let s := if low then s.beginReset 1 else s
  { s with power := { s.power with resetN := low } }

/-- PERST_N_CHANGE: it does not end the safe halt (R389). -/
def State.perstPin (s : State) (low : Bool) : State :=
  let s := if low && !s.power.safeHalt then s.beginReset 2 else s
  { s with power := { s.power with perstN := low } }

/-- BOOT (R398, R399): OTP is loaded, SRAM is wiped and the islands start. A failed CRC is the safe halt
(R389). PFAIL_N low at the release acts at the end (R422). A TEST_MODE pin sampled high in FIELD or RETIRED is ignored and reported (R408) (log entry 62). -/
def State.boot (s : State) (otpOk sideB testMode : Bool) : State :=
  if s.power.held || s.power.booted then s
  else
    let s := s.blank.loadOtp
    let s := (s.fset F.rstStat_cause s.power.cause.toNat).fbit F.rstStat_testMode testMode
    let s := { s with power := { s.power with booted := true, safeHalt := !otpOk } }
    if !otpOk then s.fbit F.fltStat_otpBad true
    else
      let s := (s.fbit F.matStat_side sideB).leaseReset
      let s := { s with hst := { s.hst with erasePend := otpErasePending s.otp } }
      let s := if testMode && 2 ≤ s.lc then s.raise Ev.testPin else s
      if s.power.pfailLow then s.pfailFall else s

/-! ### Soft reset (R401, R402) -/

/-- RST_CTL.soft: discarded while busy is set and during a life-cycle transition (R403). -/
def State.askSoft (s : State) (flr : Bool) : State :=
  if s.flag F.rstStat_busy then
    (if flr then { s with power := { s.power with softFlr := true } } else s)
  else if s.power.lcTarget.isSome then s
  else
    { s.fbit F.rstStat_busy true with power := { s.power with softDue := true, softFlr := flr } }

/-- RWS fields that keep their value in a life-cycle transition (R407). -/
def lcKeeps (a : Nat) : Bool := (0x10000 ≤ a && a < 0x20000) || a = Reg.nrgLedger || a = Reg.nrgSvcHours

/-- Status that a soft reset leaves as it is: lanes keep their stage with their line's state (R284; log
entry 52), the store port is not reset (R316), OTP values, and what pins and the link show. -/
def State.softStatus (s : State) (a : Nat) : W32 :=
  let line := (0x20000 ≤ a && a < 0x2C000 && [0x08, 0x14, 0x18].contains (a % 1024)) ||
    (0x40000 ≤ a && a < 0x70000 && a % 4096 = 0x04)
  let numbers := [Reg.hstHeadLo, Reg.hstHeadHi, Reg.hstOldestLo, Reg.hstOldestHi, Reg.hstRing, Reg.hstSmart]
  if line && s.power.lcTarget.isNone then 0xFFFFFFFF
  else if a < 0x10 && a ≠ Reg.glbScratch then 0xFFFFFFFF
  else if a = Reg.rstStat || a = Reg.hstStat || a = Reg.nrgOtp then 0xFFFFFFFF
  else if numbers.contains a && s.driveUp then 0xFFFFFFFF
  else if Reg.memRetire 0 ≤ a && a ≤ Reg.memRetire 3 then 0xFFFFFFFF
  else if a = Reg.tmgStat then 0x00027000
  else if a = Reg.nrgStat then (if s.flag F.nrgStat_pfail then 0x00600000 else 0)
  else if a = Reg.matStat then 0x10000000
  else if a = Reg.hifStat then 0x7F000000
  else if a = Reg.fltStat then 0x7F000000
  else 0

/-- The bits of a register that a soft reset keeps. -/
def State.softKeeps (s : State) (a : Nat) : W32 :=
  let rws := match regRow? a with
    | some r => r.rws
    | none => 0
  (if s.power.lcTarget.isNone || lcKeeps a then rws else 0) ||| s.softStatus a

/-- Every register after a soft reset. -/
def State.softRegs (s : State) : State :=
  s.regs.foldl (fun t q =>
    let k := s.softKeeps q.1
    t.wr q.1 ((q.2 &&& k) ||| (regReset q.1 &&& ~~~k))) { s with regs := [] }

/-- A lane that stays up: what its registers no longer show is forgotten. -/
def LaneSt.afterSoft (x : LaneSt) : LaneSt :=
  { x with
    qlLast := 0, qlRun := 0, qlAcc := none, kHist := [], kMiss := 0, b2Last := 0, b2Now := 0
    injected := 0, j0Tx := [], j0Pos := 0 }

/-- What the timing keeps: learned state (R268; log entry 52) and the inputs. -/
def TmgSt.afterSoft (x : TmgSt) : TmgSt :=
  { TmgSt.init with
    oscSeen := x.oscSeen, noSignal := x.noSignal, bins := x.bins, days := x.days, daySum := x.daySum
    dayHours := x.dayHours, dayCount := x.dayCount, hourAt := x.hourAt }

/-- Damage in the staging banks, which a soft reset does not wipe. -/
def stagingDamage (p : Nat × Damage) : Bool := 208 ≤ p.1 / 32768 && p.1 / 32768 < 224

/-- The state behind the registers after a soft reset: memory is wiped but for staging, event staging and
what the drive holds (R402). Commands in progress stop, but a life-cycle transition goes on. -/
def State.softState (s : State) : State :=
  let lc := s.power.lcTarget.isSome
  let busy := s.hif.busy.filter fun q => q.2.2 = .lifeCycle
  { State.reset with
    pending := s.pending
    regs := s.regs
    clock := s.clock
    power := s.power
    otp := s.otp
    lanes := if lc then [] else s.lanes.map fun q => (q.1, q.2.afterSoft)
    mate := { MateSt.init with
      hbOut := s.mate.hbOut, laneAge := s.mate.laneAge, pinAge := s.mate.pinAge, beatRun := s.mate.beatRun
      beatNow := s.mate.beatNow }
    tmg := s.tmg.afterSoft
    pm := { PmSt.init with winFrom := s.clock.frames }
    hst := { s.hst with
      staging := if s.driveUp then s.hst.staging else numberFrom 0 0 s.hst.staging
      readDue := false }
    nrg := { NrgSt.init with
      ledgerAcc := s.nrg.ledgerAcc, svcAcc := s.nrg.svcAcc, hourSaid := s.nrg.hourSaid }
    sram := { SramSt.init with
      damage := s.sram.damage.filter stagingDamage
      retired := s.sram.retired
      regBad := s.sram.regBad.filter fun a => s.softKeeps a ≠ 0 }
    evt := { EvtSt.init with staged := s.evt.staged, lost0 := s.evt.lost0, lost1 := s.evt.lost1 }
    hif := { HifSt.init with bme := s.hif.bme, d3hot := s.hif.d3hot, busy := busy }
    io := s.io
    drawn := s.drawn }

/-- Record numbers start from 0 until the anchor is read again, unless the drive is up. -/
def State.softNumbers (s : State) : State :=
  if s.driveUp then s else s.setHstHead s.hst.staging.length

/-- The soft reset takes effect at a frame mark. -/
def State.softApply (s : State) : State :=
  let cause := if s.power.softFlr then 4 else 3
  let s := ((s.softRegs.softState).softNumbers).showRetirements
  let s := (s.fset F.rstStat_cause cause).refreshDebug
  let s := (if s.flag F.tmgStat_oscFail then s.enterTm tmLost else s.freeOut).leaseReset.refreshMateLane
  let s := if s.flag F.hstCfg_en then s else s.storeOff
  { s.refreshCap.relevel with power := { s.refreshCap.relevel.power with softDue := false, softFlr := false, wiping := true, wipeFrom := s.clock.frames } }

/-! ### OTP burns (R382) and life-cycle transitions (R405-R407) -/

/-- A transition that R405 and R406 allow. -/
def lcAllowed (now used target : Nat) : Bool :=
  (target = 3 && now ≠ 3 && used < 32) ||
    (used < 31 && ((now = 0 && target = 1) || (now = 1 && target = 2) || (now = 2 && target = 1)))

/-- LIFECYCLE_ADVANCE: its step 1 comes at the next frame mark. -/
def State.beginLc (s : State) (r : Nat) (c : CmdEntry) (target : BitVec 2) : State :=
  { s with power := { s.power with lcTarget := some target, lcStep := 0 } }.awaitOn r c .lifeCycle

/-- The transition ends; its command completes. -/
def State.endLc (s : State) (status r0 : Nat) : State :=
  let s := { s with power := { s.power with lcTarget := none, lcStep := 0 } }
  s.finishAll (· = .lifeCycle) fun _ => (status, 0, r0, 0)

/-- Steps 1 to 3: outputs masked, every memory wiped, an armed flip dropped, the record to be burnt. -/
def State.lcWipe (s : State) (target : BitVec 2) : State :=
  let s := ((s.enterFlip flpIdle).flipEnded csAborted).noStore
  let s := s.setHstHead s.hstFirst
  { s with
    mem := [], tone := [], paths := [], terms := [], rows := [], captures := [], heldCol := []
    heldOct := [], flip := .init
    latched := ⟨s.latched.colFill, s.latched.octFill, [], []⟩
    pm := { s.pm with paths := [], idle := .init, stamps := [] }
    hst := { s.hst with staging := [], flushing := 0 }
    evt := { s.evt with staged := [] }
    sram := { s.sram with damage := [], writeback := [] }
    power := { s.power with lcStep := 3, wipeFrom := s.clock.frames }
    otp := { s.otp with burns := s.otp.burns ++ [Burn.lifeCycle target] } }

/-- Step 6: a soft reset, which also clears RWS fields. -/
def State.lcReset (s : State) : State :=
  { s.fbit F.rstStat_busy true with power := { s.power with lcStep := 6, softDue := true, softFlr := false } }

/-- Step 4 waits for the store, unless it is absent or FAILED: then the erase stays pending. -/
def State.lcErase (s : State) : State :=
  if !s.storeAllowed || s.store = hsFailed then s.lcReset else s

/-- The work of a transition at a frame mark. -/
def State.lcMark (s : State) : State :=
  match s.power.lcTarget with
  | none => s
  | some t =>
    if s.power.lcStep = 0 then s.lcWipe t
    else if s.power.lcStep = 4 then s.lcErase else s

/-- A burn was verified. -/
def State.burnt (s : State) : Burn → State
  | .ledger => { s with otp := { s.otp with ledgerBits := min 1023 (s.otp.ledgerBits + 1) } }.showLedgerBits
  | .service => { s with otp := { s.otp with svcBits := min 1023 (s.otp.svcBits + 1) } }.showLedgerBits
  | .retire b k =>
    let n := s.otp.retired.length
    if 4 ≤ n then s
    else { s with otp := { s.otp with retired := s.otp.retired ++ [(b, k)] } }.showRetired n (b, k)
  | .lifeCycle t =>
    let s := { s with
      otp := { s.otp with records := s.otp.records ++ [(t, false)] }
      power := { s.power with lcStep := 4 } }
    s.showRecords.requestErase
  | .eraseDone =>
    let done := (s.otp.records.dropLast) ++ (s.otp.records.getLast?.map fun r => (r.1, true)).toList
    let s := { s with otp := { s.otp with records := done } }.showRecords
    if s.power.lcStep = 5 then s.lcReset else s

/-- A burn has failed twice: reported; a transition stops at it. -/
def State.burnLost (s : State) (b : Burn) : State :=
  let s := s.report Ev.otpBurnFail
  match b with
  | .lifeCycle _ => s.endLc csLifecycle 0
  | .eraseDone => if s.power.lcStep = 5 then s.endLc csLifecycle 0 else s
  | _ => s

/-- OTP_BURN_CHECK: the burn under way is read back. Burns wait while VDD_CORE or VDD_SRAM droops (R388), and during
the wipe of a transition (R407) (log entry 63). -/
def State.burnCheck (s : State) (ok : Bool) : State :=
  match s.otp.burns with
  | [] => s
  | b :: bs =>
    if s.coreDroop || (s.power.lcStep = 3 && s.clock.frames < s.power.wipeFrom + 8) then s
    else if ok then ({ s with otp := { s.otp with burns := bs, retried := false } }).burnt b
    else if !s.otp.retried then { s with otp := { s.otp with retried := true } }
    else ({ s with otp := { s.otp with burns := bs, retried := false } }).burnLost b

/-- STORE_ERASE_DONE: the store port goes on, and an erase that a transition left pending is burnt as done
(R315, R398, R407). -/
def State.eraseDone (s : State) : State :=
  if s.store ≠ hsErasing then s
  else
    let s := s.erased
    let s := if s.power.lcStep = 4 then { s with power := { s.power with lcStep := 5 } } else s
    if otpErasePending s.otp && !s.otp.burns.contains .eraseDone then
      { s with otp := { s.otp with burns := s.otp.burns ++ [.eraseDone] } }
    else s

/-- SOFT_RESET_DONE: the wipe ends, which takes at least 35 of the 39 groups of R400; a life-cycle transition is
complete. -/
def State.softDone (s : State) : State :=
  if !s.power.wiping || s.clock.frames < s.power.wipeFrom + 7 then s
  else
    let s := (s.fbit F.rstStat_busy false).raise Ev.rstDone
    let s := { s with power := { s.power with wiping := false } }
    if s.power.lcTarget.isSome then
      (s.raise Ev.lifecycleDone 0 0 s.lc).endLc csOk (b2n (!otpErasePending s.otp))
    else s

/-! ### Debug access (R408) and PCIe FLR (R377, R401) -/

/-- DEBUG_UNLOCK: RST_DBG.unlock, writable in FIELD only. -/
def State.unlockWrite (s : State) (on : Bool) : State :=
  if s.lc ≠ 2 then s
  else
    let was := s.flag F.rstDbg_unlock
    let s := (s.fbit F.rstDbg_unlock on).refreshDebug
    if on && !was then s.raise Ev.debugUnlock else s

/-- PCIE_FLR (R377). With flr_full a soft reset is asked for as well, which a life-cycle transition under way discards
(R403; log entry 97). -/
def State.pcieFlr (s : State) : State :=
  if s.flag F.rstCfg_flrFull then (s.resetEndpoint).askSoft true
  else s.resetEndpoint.fset F.rstStat_cause 4

/-! ### Commands -/

/-- POWER_ON_RESET. -/
def execPowerOnReset (entered : Bool) (s : State) : Host.Outcome State Fault Refusal :=
  .next (s.powerOn entered)

/-- RESET_N_CHANGE. -/
def execResetNChange (low : Bool) (s : State) : Host.Outcome State Fault Refusal := .next (s.resetPin low)

/-- PERST_N_CHANGE. -/
def execPerstNChange (low : Bool) (s : State) : Host.Outcome State Fault Refusal := .next (s.perstPin low)

/-- BOOT. -/
def execBoot (otpOk : Bool) (sideB : Bool) (testMode : Bool) (s : State) :
    Host.Outcome State Fault Refusal :=
  .next (s.boot otpOk sideB testMode)

/-- SOFT_RESET: a write of RST_CTL.soft. -/
def execSoftReset (s : State) : Host.Outcome State Fault Refusal :=
  whenUp s fun s => s.hostReg Reg.rstCtl 0x8 0x80000000 fun s => s.askSoft false

/-- SOFT_RESET_DONE. -/
def execSoftResetDone (s : State) : Host.Outcome State Fault Refusal := whenUp s fun s => s.softDone

/-- ISLAND_RESET: a write of RST_CTL.island. -/
def execIslandReset (island : BitVec 7) (s : State) : Host.Outcome State Fault Refusal :=
  whenUp s fun s => s.hostReg Reg.rstCtl 0xC (BitVec.ofNat 32 (2 ^ 30 + island.toNat * 2 ^ 23)) fun s =>
    s.hostIslandReset island.toNat

/-- DEBUG_UNLOCK: a write of RST_DBG.unlock. -/
def execDebugUnlock (on : Bool) (s : State) : Host.Outcome State Fault Refusal :=
  whenUp s fun s => s.hostReg Reg.rstDbg 0x8 (BitVec.ofNat 32 (b2n on * 2 ^ 31)) fun s => s.unlockWrite on

/-- PCIE_FLR. -/
def execPcieFlr (s : State) : Host.Outcome State Fault Refusal := whenUp s fun s => s.pcieFlr

/-- OTP_BURN_CHECK. -/
def execOtpBurnCheck (ok : Bool) (s : State) : Host.Outcome State Fault Refusal :=
  whenUp s fun s => s.burnCheck ok

/-- STORE_ERASE_DONE. -/
def execStoreEraseDone (s : State) : Host.Outcome State Fault Refusal :=
  whenUp s fun s => s.eraseDone

end Sys2Proof.Machine
end

