-- ==== Sys2Proof/Machine/Access.lean ====
section
/-! DEFINITION. Host and crossbar access: what a write of each register and of each region of BAR2 does
(R6-R10, R171, R364, R411-R416), and what a read returns. -/

namespace Sys2Proof.Machine

/-! ### Plain registers (R6) -/

/-- Bits of a register that a write sets now: RWL bits only in TEST and BOUND. -/
def State.writable (s : State) (r : RegRow) : W32 := r.rw ||| r.rws ||| (if s.lc ≤ 1 then r.rwl else 0)

/-- What the writable bits of a register become. -/
def State.written (s : State) (r : RegRow) (a : Nat) (be : BitVec 4) (v : W32) : W32 :=
  let m := s.writable r
  (s.rd a &&& ~~~m) ||| (mergeBe (s.rd a) v be &&& m)

/-- A write of a register without effects of its own: by access code; a reserved offset takes nothing. -/
def State.plainWrite (s : State) (a : Nat) (be : BitVec 4) (v : W32) : State :=
  match regRow? a with
  | none => s
  | some r => s.wr a (s.written r a be v &&& ~~~(v &&& beMask be &&& r.w1c))

/-- An enable register whose history register is `reg`. -/
def State.enableReg (s : State) (reg en : Nat) (be : BitVec 4) (v : W32) (e : EvName) (inst : Nat := 0)
    (fault : W32 := 0) : State :=
  match regRow? en with
  | none => s
  | some r => s.enableWrite reg en (s.written r en be v) e inst fault

/-- A plain write with a consequence. -/
def State.plainThen (s : State) (a : Nat) (be : BitVec 4) (v : W32) (f : State → State) : State :=
  f (s.plainWrite a be v)

/-- A bit of the bytes written. -/
def wrote (be : BitVec 4) (v : W32) (i : Nat) : Bool := bit (v &&& beMask be) i

/-! ### Tone memory and directory (R165, R166, R171) -/

/-- OCT_TONE_ADDR advances by one, wrapping. -/
def State.toneNext (s : State) : State :=
  s.fset F.octToneAddr_addr (s.fget F.octToneAddr_addr + 1)

/-- One sample. -/
def State.putSample (s : State) (a : Nat) (v : Octet) : State :=
  { s with tone := Sparse.put (0 : BitVec 8) s.tone a v }

/-- A write of OCT_TONE_DATA. -/
def State.toneWrite (s : State) (be : BitVec 4) (v : W32) : State :=
  let a := 4 * s.fget F.octToneAddr_addr
  let s := s.mend (4 * toneKey a) be
  let s := if be.getLsbD 3 then s.putSample a (v.extractLsb' 24 8) else s
  let s := if be.getLsbD 2 then s.putSample (a + 1) (v.extractLsb' 16 8) else s
  let s := if be.getLsbD 1 then s.putSample (a + 2) (v.extractLsb' 8 8) else s
  let s := if be.getLsbD 0 then s.putSample (a + 3) (v.extractLsb' 0 8) else s
  s.toneNext

/-- A read of OCT_TONE_DATA. -/
def State.toneRead (s : State) : W32 × State :=
  let a := 4 * s.fget F.octToneAddr_addr
  if s.toneBad a then (0xFFFFFFFF, (s.foundUe (toneKey a / 32768) (toneKey a % 32768)).toneNext)
  else (s.toneWord a, s.toneNext)

/-- A write of OCT_TONE_LEN[e] commits the entry with its staged base. -/
def State.toneLenWrite (s : State) (e : Nat) (be : BitVec 4) (v : W32) : State :=
  if be = 0 then s
  else
    let s := s.plainWrite (Reg.octToneLen e) be v
    { s with latch := s.latch.insert (Reg.octToneBase e) (s.rd (Reg.octToneBase e)) }

/-- The tone directory as committed. -/
def State.toneDirectory (s : State) : Sparse (W32 × W32) :=
  (List.range 256).filterMap fun e =>
    let len := s.rd (Reg.octToneLen e)
    if len = 0 then none else some (e, (s.latch.get 0 (Reg.octToneBase e), len))

/-! ### Writes with effects, by block -/

/-- RST. -/
def State.rstWrite (s : State) (a : Nat) (be : BitVec 4) (v : W32) : State :=
  if a = Reg.rstCtl then
    let s := if wrote be v 31 then s.askSoft false else s
    if wrote be v 30 then s.hostIslandReset (bits (v &&& beMask be) 29 23) else s
  else if a = Reg.rstDbg then (if be.getLsbD 3 then s.unlockWrite (bit v 31) else s)
  else s.plainWrite a be v

/-- TMG. -/
def State.tmgWrite (s : State) (a : Nat) (be : BitVec 4) (v : W32) : State :=
  if a = Reg.tmgPhaseStep then (if be = 0 then s else s.phaseStep (mergeBe (s.rd a) v be))
  else if a = Reg.tmgCtl then (if wrote be v 0 then s.clearLearn else s)
  else if a = Reg.tmgIntEn then s.enableReg Reg.tmgSticky a be v Ev.tmgEvent
  else s.plainWrite a be v

/-- SDS_CTL: power request, test, retry. -/
def State.sdsCtlWrite (s : State) (l : Nat) (be : BitVec 4) (v : W32) : State :=
  if !be.getLsbD 3 then s
  else
    let test := bit v 29
    let s := if test = s.flag (F.sdsCtl_test l) then s else s.laneTest l test
    let s := (s.fset (F.sdsCtl_pwr l) (bits v 31 30)).askPower l
    if bit v 28 then s.laneRetry l else s

/-- SDS: the lanes; profiles are plain. -/
def State.sdsWrite (s : State) (a : Nat) (be : BitVec 4) (v : W32) : State :=
  let l := (a - 0x20000) / 0x400
  if a ≥ 0x2C000 then s.plainWrite a be v
  else if a = Reg.sdsCfg l then s.laneCfgWrite l be v
  else if a = Reg.sdsCtl l then s.sdsCtlWrite l be v
  else if a = Reg.sdsIntEn l then s.enableReg (Reg.sdsSticky l) a be v Ev.laneEvent l
  else if a = Reg.sdsPrbs l then
    s.plainThen a be v fun s => if wrote be v 26 then s.prbsInject l else s
  else s.plainWrite a be v

/-- LTM: discarded while the lane's role is not LINE_SDH (R83). -/
def State.ltmWrite (s : State) (a : Nat) (be : BitVec 4) (v : W32) : State :=
  let l := (a - 0x40000) / 0x1000
  if 48 ≤ l || !s.isSdh l then s
  else if a = Reg.ltmCfg l then s.onSdhLane l fun s => s.ltmCfgWrite l be v
  else if a = Reg.ltmIntEn l then s.enableReg (Reg.ltmSticky l) a be v Ev.ltmDefect l ltmFaults
  else if Reg.ltmAuCfg l 0 ≤ a && a ≤ Reg.ltmAuCfg l 63 then
    s.ltmAuCfgWrite l ((a - Reg.ltmAuCfg l 0) / 4) be v
  else s.plainWrite a be v

/-- COL and OCT: start values, tones and PRBS channels. -/
def State.engineWrite (s : State) (m : Master) (a : Nat) (be : BitVec 4) (v : W32) : State :=
  let octet : Bool := 0xB0000 ≤ a
  let base := engReg octet 0 0
  let n := if octet then 16 else 56
  if base ≤ a && a < base + 0x40 * n && a % 0x40 ≤ 4 then
    s.startWrite m octet ((a - base) / 0x40) (a % 0x40 = 4) be v
  else if a = Reg.octToneData then s.toneWrite be v
  else if Reg.octToneLen 0 ≤ a && a ≤ Reg.octToneLen 255 && a % 8 = 4 then
    s.toneLenWrite ((a - Reg.octToneLen 0) / 8) be v
  else if 0xB4000 ≤ a && a < 0xB8000 && a % 16 = 0 then
    s.plainThen a be v fun s => if wrote be v 29 then s.prbsInit ((a - 0xB4000) / 16) else s
  else s.plainWrite a be v

/-- FLP_CMD: a cancel goes before an arm written with it (R175). -/
def State.flpCmdWrite (s : State) (be : BitVec 4) (v : W32) : State :=
  let s := if wrote be v 1 then s.flipCancel else s
  if wrote be v 0 then s.flipArm else s

/-- FLP. -/
def State.flpWrite (s : State) (a : Nat) (be : BitVec 4) (v : W32) : State :=
  if a = Reg.flpCmd then s.flpCmdWrite be v
  else if a = Reg.flpFabCfg then s.flpFabWrite false be v
  else if a = Reg.flpFabRank then s.flpFabWrite true be v
  else s.plainWrite a be v

/-- PRT: the MSP groups (R204, R207). -/
def State.prtWrite (s : State) (a : Nat) (be : BitVec 4) (v : W32) : State :=
  let g := (a - Reg.apsCfg 0) / 0x40
  if a < Reg.apsCfg 0 || 24 ≤ g then s.plainWrite a be v
  else if a = Reg.apsCfg g then s.apsCfgWrite g be v
  else if a = Reg.apsCmd g then s.apsCommand g be v
  else if Reg.apsWl g 0 ≤ a && a ≤ Reg.apsWl g 2 && s.flag (F.apsCfg_en g) then
    s.raise Ev.mspCfgReject g
  else s.plainWrite a be v

/-- FAB. -/
def State.fabWrite (s : State) (a : Nat) (be : BitVec 4) (v : W32) : State :=
  if a = Reg.fabCfg then s.fabCfgWrite be v
  else if Reg.fabLane 0 ≤ a && a ≤ Reg.fabLane 47 then s.fabLaneWrite ((a - Reg.fabLane 0) / 4) be v
  else s.plainWrite a be v

/-- PMN. -/
def State.pmnWrite (s : State) (a : Nat) (be : BitVec 4) (v : W32) : State :=
  if a = Reg.pmnTai then s.taiWrite be v
  else if a = Reg.pmnBinSel then s.binSelWrite be v
  else if a = Reg.pmnBinCtl then (if wrote be v 0 then s.binClear else s)
  else s.plainWrite a be v

/-- PFC: windows, snapshot, dumps and the speed counters. -/
def State.pfcWrite (s : State) (a : Nat) (be : BitVec 4) (v : W32) : State :=
  if a = Reg.pfcWin then (if be = 0 then s else s.pfcWinWrite (mergeBe (s.rd a) v be))
  else if a = Reg.pfcSnap then
    s.plainThen a be v fun s => if wrote be v 31 then s.askSnapshot else s
  else if a = Reg.pfcDumpCtl then
    s.plainThen a be v fun t => t.dumpCtl (s.flag F.pfcDumpCtl_en) be
  else if a = Reg.pfcDumpAddrLo || a = Reg.pfcDumpAddrHi then s.plainThen a be v State.dumpRestart
  else if Reg.cntLo 0 ≤ a && a < Reg.cntLo 195 then
    let i := (a - Reg.cntLo 0) / 16
    if a % 16 = 0 then s.cntLoWrite i be v else if a % 16 = 4 then s.cntHiWrite i be v else s
  else s.plainWrite a be v

/-- HST: the store port is turned off or on by HST_CFG.en (R311; log entry 40). -/
def State.hstWrite (s : State) (a : Nat) (be : BitVec 4) (v : W32) : State :=
  if a = Reg.hstCfg then
    let was := s.flag F.hstCfg_en
    s.plainThen a be v fun s =>
      if s.flag F.hstCfg_en then s.storeKick else if was then s.storeOff else s
  else if a = Reg.hstCtl then
    let s := if wrote be v 2 then s.askErase else s
    let s := if wrote be v 1 then s.storeRetries else s
    if wrote be v 0 then s.askFlush else s
  else s.plainWrite a be v

/-- Thermal demand needs NRG_CFG.en. -/
def State.thermalOff (s : State) : State :=
  if s.flag F.nrgCfg_en then s else s.fset F.nrgStat_thermLvl 0

/-- NRG. -/
def State.nrgWrite (s : State) (a : Nat) (be : BitVec 4) (v : W32) : State :=
  if a = Reg.nrgCfg then s.plainThen a be v fun s => s.thermalOff.relevel
  else if a = Reg.nrgBudget || a = Reg.nrgFloor then s.plainThen a be v State.relevel
  else if a = Reg.nrgTherm then s.plainThen a be v State.refreshCap
  else if a = Reg.nrgLedger || a = Reg.nrgSvcHours then
    (if be = 0 then s else s.ledgerWrite a (mergeBe (s.rd a) v be))
  else s.plainWrite a be v

/-- HIF. -/
def State.hifWrite (s : State) (a : Nat) (be : BitVec 4) (v : W32) : State :=
  let r := (a - 0x120100) / 0x20
  let e := (a - 0x120200) / 0x20
  if 0x120100 ≤ a && a < 0x120180 then
    if a = Reg.hifCringCfg r then s.cringCfgWrite r be v
    else if a = Reg.hifCringTail r then s.cringTailWrite r be v
    else if a = Reg.hifCringBaseLo r || a = Reg.hifCringBaseHi r then
      s.ringBaseWrite a (F.hifCringCfg_en r) be v
    else s
  else if 0x120200 ≤ a && a < 0x120240 then
    if a = Reg.hifEringCfg e then s.eringCfgWrite e be v
    else if a = Reg.hifEringHead e then s.eringHeadWrite e be v
    else if a = Reg.hifEringBaseLo e || a = Reg.hifEringBaseHi e then
      s.ringBaseWrite a (F.hifEringCfg_en e) be v
    else s
  else if 0x121000 ≤ a && a < 0x121400 then s.msixWrite a be v
  else s.plainWrite a be v

/-- The effect of a write to a register of BAR0 (R411). -/
def State.regEffect (s : State) (m : Master) (a : Nat) (be : BitVec 4) (v : W32) : State :=
  if a < 0x8000 then s.plainWrite a be v
  else if a < 0x10000 then s.rstWrite a be v
  else if a < 0x20000 then s.tmgWrite a be v
  else if a < 0x40000 then s.sdsWrite a be v
  else if a < 0x80000 then s.ltmWrite a be v
  else if a < 0xA0000 then s.plainWrite a be v
  else if a < 0xC0000 then s.engineWrite m a be v
  else if a < 0xD0000 then s.flpWrite a be v
  else if a < 0xE0000 then s.prtWrite a be v
  else if a < 0xE8000 then s.fabWrite a be v
  else if a < 0xF0000 then (if a = Reg.matCtl then s.matCtlWrite be v else s.plainWrite a be v)
  else if a < 0xF8000 then s.pmnWrite a be v
  else if a < 0x100000 then s.pfcWrite a be v
  else if a < 0x108000 then s.hstWrite a be v
  else if a < 0x110000 then s.nrgWrite a be v
  else if a < 0x118000 then
    (if a = Reg.memOff then s.plainThen a be v State.wakeEnded else s.plainWrite a be v)
  else if a < 0x120000 then s.plainWrite a be v
  else if a < 0x128000 then s.hifWrite a be v
  else if a = Reg.fltInject then s.faultInject be v
  else s.plainWrite a be v

/-! ### The BAR2 window (R415, R416) -/

/-- Trace tables that a host write reaches: expected and transmitted traces. -/
def traceWritable (a : Nat) : Bool :=
  (0x1900000 ≤ a && a < 0x1900C00) || (0x1902000 ≤ a && a < 0x1902C00) ||
    (0x1910000 ≤ a && a < 0x1940000) || (0x1970000 ≤ a && a < 0x19C0000)

/-- The effect of a write to a word of BAR2. -/
def State.memEffect (s : State) (m : Master) (a : Nat) (be : BitVec 4) (v : W32) : State :=
  if a < 0x1000000 then
    s.progWrite m (0x800000 ≤ a) (a / 0x400000 % 2 = 1) (a % 0x400000 / 8) (a / 4 % 2 = 1) be v
  else if a < 0x1800000 then s.pathEntryWrite ((a - 0x1000000) / 32) (a / 4 % 8) be v
  else if 0x1880000 ≤ a && a < 0x18C0000 then
    (if 1 ≤ a / 4 % 8 && a / 4 % 8 ≤ 5 then s.hkWrite a be v else s)
  else if 0x18C0000 ≤ a && a < 0x1900000 then s.termWrite ((a - 0x18C0000) / 32) (a / 4 % 8) be v
  else if traceWritable a then s.hkWrite a be v
  else s

/-- A write by a master to a place of BAR0 or BAR2. -/
def State.writeAs (s : State) (m : Master) (bar2 : Bool) (a : Nat) (be : BitVec 4) (v : W32) : State :=
  s.byMaster m bar2 a be v fun s => if bar2 then s.memEffect m a be v else s.regEffect m a be v

/-! ### Reads -/

/-- A register as it is read, but for reads with effects; a reserved offset reads 0 (R8). -/
def State.regView (s : State) (a : Nat) : W32 :=
  let l := (a - 0x40000) / 0x1000
  let x := (a - Reg.fabLane 0) / 4
  if 0x130000 ≤ a then 0
  else if a = Reg.evtStat then BitVec.ofNat 32 (min 0x7FFF s.evt.staged.length)
  else if 0x40000 ≤ a && a < 0x70000 && !s.isSdh l then regReset a
  else if a = Reg.trbActive then BitVec.ofNat 32 s.trbActive
  else if a = Reg.flpFrame then s.clock.frame
  else if 0xA1000 ≤ a && a < 0xA1E00 && a % 0x40 = 0x38 then
    setBits (s.rd a) 28 28 (b2n (!s.idleIn false ((a - 0xA1000) / 0x40) (s.live false)))
  else if 0xB1000 ≤ a && a < 0xB1400 && a % 0x40 = 0x38 then
    setBits (s.rd a) 28 28 (b2n (!s.idleIn true ((a - 0xB1000) / 0x40) (s.live true)))
  else if Reg.fabLane 0 ≤ a && a ≤ Reg.fabLane 47 && s.role x ≠ roleFabric then
    setBits (regReset a) 30 28 (s.fget (F.fabLane_peer x))
  else if Reg.fabPeer 0 ≤ a && a ≤ Reg.fabPeer 7 && (a - Reg.fabPeer 0) / 4 = s.me then 0
  else if a = Reg.hstStaged then BitVec.ofNat 32 s.hst.staging.length
  else if a = Reg.memStat then
    setBits (s.rd a) 16 15 (if s.clock.frames = 0 then 0 else (s.clock.frames + 2) % 3)
  else if a = Reg.nrgStat then
    setBits (s.rd a) 20 20 (b2n s.pendingEnable)
  else s.view a

/-- A 64-bit count's high half that a read of the low half at `a` latches (R171, R299, R318). -/
def latchHi (a : Nat) : Option Nat :=
  if 0xB4000 ≤ a && a < 0xB8000 && a % 16 = 4 then some (a + 4)
  else if 0x20000 ≤ a && a < 0x2C000 && a % 0x400 = 0x44 then some (a + 4)
  else if Reg.cntLo 0 ≤ a && a < Reg.cntLo 195 && a % 16 = 0 then some (a + 4)
  else if a = Reg.nrgEnergyLo then some Reg.nrgEnergyHi
  else none

/-- A register that a read of its low half latches. -/
def isLatchHi (a : Nat) : Bool := latchHi (a - 4) = some a

/-- A read of a register of BAR0. -/
def State.regRead (s : State) (a : Nat) : W32 × State :=
  if a = Reg.octToneData then s.toneRead
  else if isLatchHi a then
    match s.latch.find? (·.1 = a) with
    | some q => (q.2, { s with latch := s.latch.erase a })
    | none => (s.regView a, s)
  else
    match latchHi a with
    | some h => (s.regView a, { s with latch := s.latch.insert h (s.regView h) })
    | none => (s.regView a, s)

/-- A word of the staging window: the record at its position, or type 0 (R415). -/
def State.stagingWord (s : State) (a : Nat) : W32 :=
  match s.hst.staging.find? fun r => Config.stagingSlot r.number % 65536 = (a - 0x1A00000) / 32 with
  | some r => r.words.getD (a / 4 % 8) 0
  | none => 0

/-- A read of a word of BAR2; the bank it lies in wakes (R344). -/
def State.memRead (s : State) (a : Nat) : W32 × State :=
  if 0x2398000 ≤ a then (0, s)
  else
    let s := s.wakeAt a
    if 0x1A00000 ≤ a && a < 0x1C00000 && !s.ueAt a then (s.stagingWord a, s) else s.hkRead a

/-- A read of a place of BAR0 or BAR2. -/
def State.placeRead (s : State) (bar2 : Bool) (a : Nat) : State :=
  let q := if bar2 then s.memRead a else s.regRead a
  q.2.readBack q.1

/-! ### Commands -/

/-- PATH_ENTRY_WRITE (R57). -/
def execPathEntryWrite (path : PathId) (word : Fin 8) (be : BitVec 4) (v : W32) (s : State) :
    Host.Outcome State Fault Refusal :=
  whenUp s fun s => s.hostMem (pathAddr path.toNat word.val) be v fun s =>
    s.pathEntryWrite path.toNat word.val be v

/-- SEL_COMMAND: a write of byte 3 of word 6. A write without byte 3 is no command (R191). -/
def execSelCommand (path : PathId) (be : BitVec 4) (v : W32) (s : State) :
    Host.Outcome State Fault Refusal :=
  whenUp s fun s => s.hostMem (pathAddr path.toNat 6) be v fun s => s.selWrite path.toNat be v

/-- TERMINATION_ENTRY_WRITE (R96). -/
def execTerminationEntryWrite (term : TermId) (word : Fin 8) (be : BitVec 4) (v : W32) (s : State) :
    Host.Outcome State Fault Refusal :=
  whenUp s fun s => s.hostMem (termCfgAddr term.toNat word.val) be v fun s =>
    s.termWrite term.toNat word.val be v

/-- TONE_DATA_ACCESS (log entry 45). -/
def execToneDataAccess (write : Option (BitVec 4 × W32)) (s : State) : Host.Outcome State Fault Refusal :=
  whenUp s fun s =>
    match write with
    | some (be, v) => s.hostReg Reg.octToneData be v fun s => s.toneWrite be v
    | none => s.toHost fun s => s.placeRead false Reg.octToneData

/-- TONE_LEN_WRITE. -/
def execToneLenWrite (e : BitVec 8) (be : BitVec 4) (v : W32) (s : State) : Host.Outcome State Fault Refusal :=
  whenUp s fun s => s.hostReg (Reg.octToneLen e.toNat) be v fun s => s.toneLenWrite e.toNat be v

/-- PRBS_RESTART: a write of PRBS_STAT.restart. -/
def execPrbsRestart (chan : BitVec 10) (s : State) : Host.Outcome State Fault Refusal :=
  whenUp s fun s => s.hostReg (Reg.prbsStat chan.toNat) 0x8 0x20000000 fun s => s.prbsInit chan.toNat

/-- PRBS_BITS_LO_READ. -/
def execPrbsBitsLoRead (chan : BitVec 10) (s : State) : Host.Outcome State Fault Refusal :=
  whenUp s fun s => s.toHost fun s => s.placeRead false (Reg.prbsBitsLo chan.toNat)

/-- FAULT_INJECT: a write of FLT_INJECT. -/
def execFaultInject (be : BitVec 4) (v : W32) (s : State) : Host.Outcome State Fault Refusal :=
  whenUp s fun s => s.hostReg Reg.fltInject be v fun s => s.faultInject be v

/-- REGISTER_WRITE: a host write to a register of BAR0. -/
def execRegisterWrite (addr : BitVec 22) (be : BitVec 4) (v : W32) (s : State) :
    Host.Outcome State Fault Refusal :=
  whenUp s fun s => s.writeAs .host false (addr.toNat / 4 * 4) be v

end Sys2Proof.Machine
end

