-- ==== Sys2Proof/Machine/Crossbar.lean ====
section
/-! DEFINITION. The transactions of the management crossbar (R351-R355, R408, R413), with those that wait for a
target or for the grant of their beat (R345). -/

namespace Sys2Proof.Machine

/-! ### What a transaction does (R351) -/

/-- Crossbar masters by number. -/
def masterOf (m : Nat) : Master :=
  match m with
  | 0 => .host
  | 1 => .dma
  | 2 => .mirror
  | 3 => .recorder
  | 4 => .dump
  | _ => .debug

/-- A beat to the OTP or STORE target, which serve device masters: what it reads is not given, so it is
free (log entry 3); what it writes is the effect of the rows of OTP burns and of the store. -/
def State.innerBeat (s : State) (m : Nat) (write : Bool) : State :=
  if m = mHost || write then s
  else
    let q := s.draw
    q.2.readBack q.1

/-- What a transaction that is served does; the locks of the master go with its last locked transaction (R353). -/
def State.xbrServe (s : State) (m : Nat) (t : Target) (addr : Nat) (write : Option (BitVec 4 × W32))
    (release : Bool) : State :=
  let a := addr / 4 * 4
  let bar2 : Bool := t = .sram
  let s :=
    if t = .otp || t = .store then s.innerBeat m write.isSome
    else
      match write with
      | some (be, v) => s.writeAs (masterOf m) bar2 a be v
      | none =>
        if m = mHost then s.toHost fun s => s.placeRead bar2 a else s.placeRead bar2 a
  if release then s.releaseLocks m else s

/-! ### Beats in the SRAM (R345, R351) -/

/-- The bank that a beat of a transaction goes to; none for the other targets and for the offsets of BAR2 behind
which there is no bank (R8, R337). -/
def beatBank (t : Target) (addr : Nat) : Option Nat :=
  if t = .sram && addr < 0x2400000 then some (addr / 131072) else none

/-- A beat that meets no other request is granted in the bank's next housekeeping cycle. -/
def State.clearWay (s : State) (p bank : Nat) : Bool :=
  (s.raised bank).isEmpty && s.hkAllowed bank p && s.bankState bank ≠ bankRetain && s.bankState bank ≠ bankOff &&
    (s.hk.reqs.find? fun q => q.1 = p && !q.2.granted).isNone

/-- The grant of such a beat. -/
def State.grantAlone (s : State) (p bank : Nat) : State :=
  let s := (s.speed (174 + p) 1).waited p 0
  if s.mayLock p && !s.hk.held.contains (bank, p) then
    { s with hk := { s.hk with held := (bank, p) :: s.hk.held } }
  else s

/-- A transaction that its target serves. Its beat in the SRAM is granted at once, or is raised in the arbiter; a
port that has another request raised comes after it. -/
def State.xbrRun (s : State) (m : Nat) (t : Target) (addr : BitVec 26) (write : Option (BitVec 4 × W32))
    (release : Bool) : State :=
  match beatBank t addr.toNat with
  | none => s.xbrServe m t addr.toNat write release
  | some b =>
    let p := portOf m
    if s.clearWay p b then (s.grantAlone p b).xbrServe m t addr.toNat write release
    else
      let free := (s.hk.reqs.find? fun q => q.1 = p && !q.2.granted).isNone
      let s := s.keepWaiting m ⟨t, .beat addr write release, free⟩
      if free then s.hkRequest p b (s.mayLock p) else s

/-! ### Those that wait (R351, R352) -/

/-- DEBUG is not held off by a lock on SRAM or REGS (R352). -/
def debugPasses (m : Nat) (t : Target) : Bool := m = mDebug && (t = .sram || t = .regs)

/-- Master `m` waits for a target that may serve it now. -/
def State.mayServe (s : State) (m : Nat) (w : XbrWait) : Bool :=
  !w.raised && (!s.heldByOther m (targetNo w.target) || debugPasses m w.target && w.ask ≠ .lock) &&
    (beatBank w.target 0 = none || (s.hk.reqs.find? fun q => q.1 = portOf m && !q.2.granted).isNone)

/-- The ports of the masters that may be served. -/
def State.servable (s : State) : List Nat :=
  (s.hk.waits.filter fun q => s.mayServe q.1 q.2).map fun q => portOf q.1

/-- One that waits is served. -/
def State.serveOne (s : State) (m : Nat) (w : XbrWait) : State :=
  let s := { s with hk := { s.hk with waits := s.hk.waits.erase m } }
  match w.ask with
  | .lock => s.takeLock m (targetNo w.target)
  | .beat addr write release => s.xbrRun m w.target addr write release

/-- The masters that wait are served by their ranks, with ties broken by port order. -/
def State.serveWaits : Nat → State → State
  | 0, s => s
  | n + 1, s =>
    match (s.firstOf true s.servable).bind masterAt with
    | none => s
    | some m =>
      match s.outstanding m with
      | some w => State.serveWaits n (s.serveOne m w)
      | none => s

/-- Every master has at most one that waits. -/
def State.serveAll (s : State) : State := State.serveWaits 12 s

/-! ### The transaction of a master -/

/-- A DEBUG transaction while the master is closed (R408). -/
def State.denyDebug (s : State) : State :=
  let s := (s.count Reg.rstCntDbg).readBack 0
  if s.power.denySaid then s
  else { s with power := { s.power with denySaid := true } }.raise Ev.debugDenied

/-- XBR_TRANSACTION: answered with an error, left waiting while another master holds the target, or served (log entry
98). -/
def State.xbrTransaction (s : State) (m : Nat) (t : Target) (addr : BitVec 26)
    (write : Option (BitVec 4 × W32)) (release : Bool) : State :=
  if m = mDebug && !s.debugOpen then s.denyDebug
  else if (s.outstanding m).isSome then s
  else
    match s.xbrCheck m (targetNo t) false with
    | some c => s.xbrFail m (targetNo t) c
    | none =>
      if s.heldByOther m (targetNo t) && !debugPasses m t then s.keepWaiting m ⟨t, .beat addr write release, false⟩
      else (s.xbrRun m t addr write release).serveAll

/-- Blocks that answer reads in the safe halt (R389). -/
def haltBlock (a : Nat) : Bool :=
  a < 0x4000 || (0x8000 ≤ a && a < 0x10000) || (0x128000 ≤ a && a < 0x130000)

/-- A read in the safe halt; every write is discarded (R389). -/
def State.haltedAccess (s : State) (m : Nat) (t : Target) (addr : Nat) (write : Bool) : State :=
  if m ≠ mHost || write then s
  else if t = .regs && haltBlock (addr / 4 * 4) then s.readBack (s.rd (addr / 4 * 4))
  else s.readBack 0

/-! ### Grants of beats (R345) -/

/-- The port whose request for the bank is granted and not performed. -/
def State.grantedAt (s : State) (bank : Nat) : Option Nat :=
  (s.hk.reqs.find? fun q => q.2.bank = bank && q.2.granted).map (·.1)

/-- The beat of a crossbar transaction that is granted is performed. -/
def State.performBeat (s : State) (p : Nat) : State :=
  match masterAt p with
  | none => s
  | some m =>
    match s.outstanding m with
    | some ⟨t, .beat addr write release, true⟩ => (s.dropWait m).xbrServe m t addr.toNat write release
    | _ => s

/-- HK_GRANT, with the beat that it performs and those that follow. -/
def State.grantBeat (s : State) (bank : Nat) : State :=
  let s := s.hkGrant bank
  match s.grantedAt bank with
  | some p => (s.performBeat p).serveAll
  | none => s

/-- HK_WITHDRAW: the beat of a transaction is raised again later. -/
def State.withdrawBeat (s : State) (p : Nat) : State :=
  let s := match masterAt p with
    | some m =>
      match s.outstanding m with
      | some w => s.keepWaiting m { w with raised := false }
      | none => s
    | none => s
  s.hkWithdraw p

/-! ### Commands -/

/-- HK_GRANT. -/
def execHkGrant (bank : Fin 388) (s : State) : Host.Outcome State Fault Refusal :=
  whenUp s fun s => s.grantBeat bank.val

/-- HK_WITHDRAW. -/
def execHkWithdraw (m : Master) (s : State) : Host.Outcome State Fault Refusal :=
  whenUp s fun s => s.withdrawBeat (portNo m)

/-- XBR_LOCK. -/
def execXbrLock (m : Fin 6) (t : Target) (s : State) : Host.Outcome State Fault Refusal :=
  whenUp s fun s => s.xbrLock m.val t

/-- XBR_LEASE_EXPIRY. -/
def execXbrLeaseExpiry (m : Fin 6) (s : State) : Host.Outcome State Fault Refusal :=
  whenUp s fun s => (s.endLease m.val).serveAll

/-- XBR_ABANDON. -/
def execXbrAbandon (m : Fin 6) (t : Target) (s : State) : Host.Outcome State Fault Refusal :=
  whenUp s fun s => (s.abandon m.val (targetNo t)).serveAll

/-- XBR_TRANSACTION. -/
def execXbrTransaction (m : Fin 6) (t : Target) (addr : BitVec 26) (write : Option (BitVec 4 × W32))
    (release : Bool) (s : State) : Host.Outcome State Fault Refusal :=
  if s.outOfReset && s.power.safeHalt then .next (s.haltedAccess m.val t addr.toNat write.isSome)
  else whenUp s fun s => s.xbrTransaction m.val t addr write release

/-- DEBUG_TRANSACTION. -/
def execDebugTransaction (t : Target) (addr : BitVec 26) (write : Option (BitVec 4 × W32)) (s : State) :
    Host.Outcome State Fault Refusal :=
  whenUp s fun s => s.xbrTransaction mDebug t addr write false

end Sys2Proof.Machine
end

