-- ==== Sys2Proof/Machine/Commands.lean ====
section
/-! DEFINITION. The commands of the command rings (R368-R370), and DMA reads that time out (R363). -/

namespace Sys2Proof.Machine

/-! ### Taking a command (R368, R369) -/

/-- The opcode of an entry. -/
def CmdEntry.op (c : CmdEntry) : Nat := bits (c.w 0) 31 24

def opLoadBank : Nat := 0x01
def opArmFlip : Nat := 0x02
def opCancelFlip : Nat := 0x03
def opSnapshot : Nat := 0x04
def opDumpConfig : Nat := 0x05
def opStoreRead : Nat := 0x06
def opStoreMark : Nat := 0x07
def opProtCommand : Nat := 0x08
def opMateResync : Nat := 0x09
def opLifecycle : Nat := 0x0A

/-- The entry that ring `r` performs next: none while a command is in progress on it or DMA pauses. -/
def State.nextCmd (s : State) (r : Nat) : Option CmdEntry :=
  if s.dmaOn && (s.hif.busy.find? (·.1 = r)).isNone then (s.fetchedOn r).head? else none

/-- The first entry leaves the ring's fetched entries. -/
def State.popCmd (s : State) (r : Nat) : State := s.setFetched r ((s.fetchedOn r).drop 1)

/-- Words not listed and reserved bits are 0: `ms` holds the masks of words 1, 2 and so on. -/
def CmdEntry.fits (c : CmdEntry) (ms : List W32) : Bool :=
  (List.range 16).all fun i => c.w i &&& ~~~((0xFF01FFFF :: ms).getD i 0) = 0

def allBits : W32 := 0xFFFFFFFF

/-- The address in words 4 and 5 is a multiple of `n`. -/
def CmdEntry.aligned (c : CmdEntry) (n : Nat) : Bool := (c.w 4).toNat % n = 0

/-- A command of opcode `op` at the front of ring `r`: refused in RETIRED (R409), BAD_OPERAND unless its
operands are as `ok` says, else performed as `f` says. -/
def State.ringCommand (s : State) (r op : Nat) (ok : CmdEntry → Bool) (f : State → CmdEntry → State) :
    State :=
  match s.nextCmd r with
  | none => s
  | some c =>
    if c.op ≠ op then s
    else
      let s := s.popCmd r
      if s.retired then s.finish r c (if op = opLifecycle then csLifecycle else csRejected)
      else if !ok c then s.finish r c csBadOperand
      else f s c

/-- A whole register written by a command (R368). -/
def State.cmdReg (s : State) (a : Nat) (v : W32) : State := s.writeAs .dma false a 0xF v

/-- A command that writes mirrored state: MATE where R232 discards its writes (log entry 64). -/
def State.unlessStandby (s : State) (r : Nat) (c : CmdEntry) (f : State → State) : State :=
  if s.standsBy then s.refuseWrite.finish r c csMate else f s

/-- A command that writes blocks closed during a reset (R402; log entry 54). -/
def State.unlessBusy (s : State) (r : Nat) (c : CmdEntry) (f : State → State) : State :=
  if s.flag F.rstStat_busy then s.finish r c csRejected else f s

/-! ### LOAD_BANK -/

/-- Operands of LOAD_BANK. -/
def loadOk (c : CmdEntry) : Bool :=
  let n := (c.w 3).toNat
  c.fits [7, 0x7FFFF, allBits, allBits, allBits, allBits, allBits] && 1 ≤ n && n ≤ bankWords &&
    (c.w 2).toNat + n ≤ bankWords && c.aligned 8

/-- Program words from word index `i` on. -/
def State.loadWords (octet bankB : Bool) : Nat → List W64 → State → State
  | _, [], s => s
  | i, w :: ws, s =>
    let a := bankAddr octet bankB i
    let s := (s.writeAs .dma true a 0xF (w.extractLsb' 0 32)).writeAs .dma true (a + 4) 0xF (w.extractLsb' 32 32)
    State.loadWords octet bankB (i + 1) ws s

/-- Start values from engine `d` on. -/
def State.loadStarts (octet bankB : Bool) : Nat → List W32 → State → State
  | _, [], s => s
  | d, v :: vs, s => State.loadStarts octet bankB (d + 1) vs (s.cmdReg (engStart octet d bankB) v)

/-- LOAD_BANK: words, then start values, as they arrive from host memory. A delivery that is not the rest leaves the
command in progress, with the writes that it made; one that fails ends it (log entry 10). -/
def State.loadBank (s : State) (r : Nat) (c : CmdEntry) (nw nv : Nat) (words : List W64) (starts : List W32)
    (ok : Bool) : State :=
  let octet := bit (c.w 1) 1
  let bankB := bit (c.w 1) 0
  let n := (c.w 3).toNat
  let want := if bit (c.w 1) 2 then (if octet then 16 else 56) else 0
  let ws := words.take (n - nw)
  let vs := if nw + ws.length < n then [] else starts.take (want - nv)
  let s := s.speed 96 (8 * ws.length + 4 * vs.length)
  if s.progLocked .dma octet bankB then s.finish r c csRejected 0 nw nv
  else if s.standsBy then s.refuseWrite.finish r c csMate 0 nw nv
  else
    let s := State.loadWords octet bankB ((c.w 2).toNat + nw) ws s
    let closed := s.flag F.rstStat_busy && vs ≠ []
    let s := State.loadStarts octet bankB nv vs s
    let nw := nw + ws.length
    if closed then s.finish r c csRejected 0 nw nv
    else
      let nv := nv + vs.length
      if !ok then s.finish r c csDmaError 0 nw nv
      else if nw < n || nv < want then s.awaitOn r c (.load nw nv)
      else s.finish r c csOk 0 nw nv

/-- The command in progress on a ring is a LOAD_BANK: its entry and what it has written. -/
def State.loading (s : State) (r : Nat) : Option (CmdEntry × Nat × Nat) :=
  match s.hif.busy.find? (·.1 = r) with
  | some (_, c, .load nw nv) => some (c, nw, nv)
  | _ => none

/-- No command is in progress on the ring. -/
def State.endBusy (s : State) (r : Nat) : State := { s with hif := { s.hif with busy := s.hif.busy.erase r } }

/-! ### Flips -/

/-- ARM_FLIP: completes at once when rejected or with wait = 0, else at the end of the flip (log entry 65). -/
def State.armFlipCmd (s : State) (r : Nat) (c : CmdEntry) : State :=
  let req := (c.w 1).extractLsb' 0 4
  let s := (s.cmdReg Reg.flpReq (req.setWidth 32)).cmdReg Reg.flpTarget (c.w 2)
  let bad := s.armReason req (c.w 2) ≠ 0
  let s := s.cmdReg Reg.flpCmd 1
  if !bad && bit (c.w 1) 8 then s.awaitOn r c .flip
  else s.finish r c (if bad then csRejected else csOk) (s.fget F.flpStat_reason) (s.fget F.flpStat_txn)

/-- CANCEL_FLIP. -/
def State.cancelFlipCmd (s : State) (r : Nat) (c : CmdEntry) : State :=
  let st := s.flipState
  let s := s.cmdReg Reg.flpCmd 2
  if st = flpIdle || st = flpAborted then s.finish r c csRejected
  else if st = flpCommitted then s.finish r c csRejected frCancelled
  else s.finish r c csOk

/-! ### Counters -/

/-- SNAPSHOT: taken at the next frame mark (R300). -/
def State.snapshotCmd (s : State) (r : Nat) (c : CmdEntry) : State := s.askSnapshot.awaitOn r c .snapshot

/-- DUMP_CONFIG: PFC_DUMP_CTL, PFC_WIN and PFC_DUMP_ADDR. -/
def State.dumpConfigCmd (s : State) (r : Nat) (c : CmdEntry) : State :=
  let s := (s.cmdReg Reg.pfcDumpCtl (c.w 1)).cmdReg Reg.pfcWin (c.w 2)
  ((s.cmdReg Reg.pfcDumpAddrLo (c.w 4)).cmdReg Reg.pfcDumpAddrHi (c.w 5)).finish r c csOk

/-! ### Protection -/

/-- Operands of PROT_COMMAND. -/
def protOk (c : CmdEntry) : Bool :=
  if bit (c.w 1) 31 then
    let g := bits (c.w 1) 4 0
    let layout := match regRow? (Reg.apsCmd g) with
      | some x => x.rw
      | none => 0
    c.fits [0x8000001F, layout] && g < 24
  else c.fits [0x3FFFF, 7]

/-- PROT_COMMAND: the command is written; the evaluation that judges it completes this one (R198, R207) (log entry 9). -/
def State.protCmd (s : State) (r : Nat) (c : CmdEntry) : State :=
  if bit (c.w 1) 31 then
    let g := bits (c.w 1) 4 0
    (s.cmdReg (Reg.apsCmd g) (c.w 2)).awaitOn r c (.aps g)
  else
    let p := bits (c.w 1) 17 0
    (s.writeAs .dma true (pathAddr p 6) 0x8 (c.w 2 <<< 29)).awaitOn r c (.prot (BitVec.ofNat 18 p))

/-! ### Mate and life cycle -/

/-- MATE_RESYNC: completes when the mate enters STANDBY, or ABORTED if it fails (log entry 32). -/
def State.mateResyncCmd (s : State) (r : Nat) (c : CmdEntry) : State :=
  if s.mateState ≠ mateActive then s.finish r c csRejected
  else s.startResync.awaitOn r c .resync

/-- LIFECYCLE_ADVANCE (R405). -/
def State.lifecycleCmd (s : State) (r : Nat) (c : CmdEntry) : State :=
  let t := bits (c.w 1) 1 0
  let refused := !lcAllowed s.lc (s.fget F.rstStat_lcUsed) t || (c.w 2).toNat ≠ 0x4C430000 + t ||
    s.flag F.rstStat_busy || s.power.lcTarget.isSome
  if refused then s.finish r c csLifecycle else s.beginLc r c (BitVec.ofNat 2 t)

/-! ### Entries with no command, and reads that time out -/

/-- An opcode that R369 does not list. -/
def State.badOpcode (s : State) (r : Nat) : State :=
  match s.nextCmd r with
  | some c => if 1 ≤ c.op && c.op ≤ opLifecycle then s else (s.popCmd r).finish r c csBadOpcode
  | none => s

/-- DMA_TIMEOUT (R363, R367, R370): the read was one of a LOAD_BANK under way on the ring, or else of its
entries (log entry 49). -/
def State.dmaTimeout (s : State) (r : Nat) : State :=
  match s.loading r, s.nextCmd r with
  | some (c, nw, nv), _ => (s.endBusy r).finish r c csDmaError 0 nw nv
  | none, some c =>
    if c.op = opLoadBank && loadOk c && !s.retired then (s.popCmd r).finish r c csDmaError
    else if s.mayFetch r then s.ringFault r else s
  | none, none => if s.mayFetch r then s.ringFault r else s

/-! ### Commands -/

/-- LOAD_BANK. -/
def execLoadBank (r : Fin 4) (words : List W64) (starts : List W32) (ok : Bool) (s : State) :
    Host.Outcome State Fault Refusal :=
  whenUp s fun s =>
    match s.loading r.val with
    | some (c, nw, nv) => if s.dmaOn then (s.endBusy r.val).loadBank r.val c nw nv words starts ok else s
    | none => s.ringCommand r.val opLoadBank loadOk fun s c => s.loadBank r.val c 0 0 words starts ok

/-- ARM_FLIP. -/
def execArmFlip (r : Fin 4) (s : State) : Host.Outcome State Fault Refusal :=
  whenUp s fun s => s.ringCommand r.val opArmFlip (·.fits [0x10F, allBits]) fun s c =>
    s.unlessStandby r.val c fun s => s.unlessBusy r.val c fun s => s.armFlipCmd r.val c

/-- CANCEL_FLIP. -/
def execCancelFlip (r : Fin 4) (s : State) : Host.Outcome State Fault Refusal :=
  whenUp s fun s => s.ringCommand r.val opCancelFlip (·.fits []) fun s c =>
    s.unlessStandby r.val c fun s => s.unlessBusy r.val c fun s => s.cancelFlipCmd r.val c

/-- SNAPSHOT. -/
def execSnapshot (r : Fin 4) (s : State) : Host.Outcome State Fault Refusal :=
  whenUp s fun s => s.ringCommand r.val opSnapshot
    (fun c => c.fits [0, 0, 0, allBits, allBits] && c.aligned 4096) fun s c =>
      s.unlessBusy r.val c fun s => s.snapshotCmd r.val c

/-- DUMP_CONFIG. -/
def execDumpConfig (r : Fin 4) (s : State) : Host.Outcome State Fault Refusal :=
  whenUp s fun s => s.ringCommand r.val opDumpConfig
    (fun c => c.fits [0xC00FFFFF, 0xFFFF, 0, allBits, allBits] && c.aligned 4096) fun s c =>
      s.unlessBusy r.val c fun s => s.dumpConfigCmd r.val c

/-- STORE_READ. -/
def execStoreRead (r : Fin 4) (s : State) : Host.Outcome State Fault Refusal :=
  whenUp s fun s => s.ringCommand r.val opStoreRead
    (fun c => c.fits [0x1FFFF, allBits, allBits, allBits, allBits] && c.aligned 32 && 1 ≤ c.readCount &&
      c.readCount ≤ 65536) fun s c => s.storeReadCmd r.val c

/-- STORE_MARK. -/
def execStoreMark (r : Fin 4) (s : State) : Host.Outcome State Fault Refusal :=
  whenUp s fun s => s.ringCommand r.val opStoreMark
    (·.fits [0xFFFF, 0, 0, 0, 0, allBits, allBits, allBits, allBits]) fun s c => s.storeMarkCmd r.val c

/-- PROT_COMMAND. -/
def execProtCommand (r : Fin 4) (s : State) : Host.Outcome State Fault Refusal :=
  whenUp s fun s => s.ringCommand r.val opProtCommand protOk fun s c =>
    s.unlessStandby r.val c fun s => s.unlessBusy r.val c fun s => s.protCmd r.val c

/-- MATE_RESYNC. -/
def execMateResync (r : Fin 4) (s : State) : Host.Outcome State Fault Refusal :=
  whenUp s fun s => s.ringCommand r.val opMateResync (·.fits []) fun s c =>
    s.unlessBusy r.val c fun s => s.mateResyncCmd r.val c

/-- LIFECYCLE_ADVANCE. -/
def execLifecycleAdvance (r : Fin 4) (s : State) : Host.Outcome State Fault Refusal :=
  whenUp s fun s => s.ringCommand r.val opLifecycle (·.fits [3, allBits]) fun s c => s.lifecycleCmd r.val c

/-- COMMAND_BAD_OPCODE. -/
def execCommandBadOpcode (r : Fin 4) (s : State) : Host.Outcome State Fault Refusal :=
  whenUp s fun s => s.badOpcode r.val

/-- DMA_TIMEOUT. -/
def execDmaTimeout (r : Fin 4) (s : State) : Host.Outcome State Fault Refusal :=
  whenUp s fun s => s.dmaTimeout r.val

end Sys2Proof.Machine
end

