-- ==== Sys2Proof/Machine/Mate.lean ====
section
/-! DEFINITION. The mirror records that a device in SYNCING or STANDBY receives (R235, R236, R239, R241) and
the ends of an epoch and of a resync (R239, R242). -/

namespace Sys2Proof.Machine

/-- The last seq applied. -/
def State.appliedSeq (s : State) : BitVec 16 := BitVec.ofNat 16 (s.fget F.matMir_appliedSeq)

/-- A record is applied when its CRC is right and it follows the last one applied (R235, R236) (log entry 11). -/
def State.recordOk (s : State) (kind : BitVec 4) (r : MirrorRec) : Bool :=
  s.standsBy && r.crc = recordCrc kind r && r.seq = s.appliedSeq + 1

/-- A record has been applied. -/
def State.recordDone (s : State) (r : MirrorRec) : State :=
  (s.fset F.matMir_appliedSeq r.seq.toNat).speed 101 1

/-- A record that the device takes, with its effect. -/
def State.takeRecord (s : State) (kind : BitVec 4) (r : MirrorRec) (f : State → State) : State :=
  if s.recordOk kind r then (f s).recordDone r else s

/-- Byte offset of a record, in words. -/
def recordAt (r : MirrorRec) : Nat := r.offset.toNat / 4 * 4

/-- A write record acts as the write it carries. -/
def State.recordWrite (s : State) (r : MirrorRec) : State :=
  if r.region.toNat ≤ 1 then s.writeAs .mirror (r.region = 1) (recordAt r) r.be r.data else s

/-- A word of a path or of a termination's configuration that changes is applied at the next frame mark. -/
def State.imageTable (s : State) (a : Nat) (be : BitVec 4) (v : W32) : State :=
  let old := s.memWord a
  let s := (s.wakeAt a).hkWrite a be v
  if s.memWord a = old then s
  else if 0x1000000 ≤ a && a < 0x1800000 && a / 4 % 8 ≤ 2 then
    s.onPath ((a - 0x1000000) / 32) fun x => { x with dirty := true }
  else if 0x18C0000 ≤ a && a < 0x1900000 then
    s.onTerm ((a - 0x18C0000) / 32) fun x => { x with dirty := true }
  else s

/-- A word of the image behind BAR2 (R415). -/
def State.imageMem (s : State) (a : Nat) (be : BitVec 4) (v : W32) : State :=
  if a < 0x1000000 then s.reach true a fun s => s.memEffect .mirror a be v
  else if a < 0x1A00000 then s.imageTable a be v
  else s

/-- A register of the image: its content as sent, with what depends on it (log entry 34). -/
def State.imageReg (s : State) (a : Nat) (be : BitVec 4) (v : W32) : State :=
  let l := (a - 0x40000) / 0x1000
  let ltm : Bool := 0x40000 ≤ a && a < 0x70000
  if (ltm && !s.isSdh l) || (regRow? a).isNone then s
  else if ltm && a = Reg.ltmCfg l then s.onSdhLane l fun s => s.ltmCfgWrite l be v
  else if a = Reg.octToneData then s.toneWrite be v
  else
    let s := (s.mendReg a).wr a (mergeBe (s.rd a) v be)
    if Reg.octToneLen 0 ≤ a && a ≤ Reg.octToneLen 255 && a % 8 = 4 then
      { s with latch := s.latch.insert (a - 4) (s.rd (a - 4)) }
    else s

/-- A word of the image counts for MAT_RESYNC (R245). -/
def State.imageCount (s : State) : State :=
  let s := s.setMate fun x => { x with imageIn := x.imageIn + 1 }
  s.fset F.matResync_doneKib (s.mate.imageIn / 256)

/-- An image record: a register, a word of BAR2, or a word of the epoch state, which waits for the others. -/
def State.recordImage (s : State) (r : MirrorRec) : State :=
  let s :=
    if r.region = 0 then s.imageReg (recordAt r) r.be r.data
    else if r.region = 1 then s.imageMem (recordAt r) r.be r.data
    else s.setMate fun x => { x with tail := some (x.tail.getD [] ++ [r]) }
  s.imageCount

/-- A resync start record: a device in STANDBY or SYNCING begins to receive the image anew. The record gives
the seq that the next ones follow (log entry 33). -/
def State.resyncStart (s : State) (r : MirrorRec) : State :=
  if s.standsBy && r.crc = recordCrc 4 r then (s.enterMate mateSyncing).recordDone r else s

/-- The image end record names the active's live banks; the epoch state of the image takes effect. -/
def State.imageEnds (s : State) (r : MirrorRec) : State :=
  let s := s.fillEpoch (s.mate.tail.getD [])
  s.setMate fun x => { x with imageEnd := some (bit r.data 0, bit r.data 1), tail := none }

/-- RESYNC_DONE at a frame mark: the image is complete and the active's flip is idle (R242). It does not take effect at
a mark at which the mate is declared failed (R233). -/
def State.resyncDone (s : State) (activeFlipIdle : Bool) : State :=
  match s.mate.imageEnd with
  | none => s
  | some (c, o) =>
    if s.mateState ≠ mateSyncing || !activeFlipIdle || !s.clock.frameDue || s.mateSilent then s
    else
      let s := ((s.setLive false c).setLive true o).clearBadSaid
      ((s.enterMate mateStandby).count Reg.matCntResync).raise Ev.mateResyncDone

/-! ### Commands -/

/-- MIRROR_WRITE_RECORD. -/
def execMirrorWriteRecord (r : MirrorRec) (s : State) : Host.Outcome State Fault Refusal :=
  whenUp s fun s => s.takeRecord 1 r fun s => s.recordWrite r

/-- MIRROR_EPOCH_RECORD. -/
def execMirrorEpochRecord (r : MirrorRec) (s : State) : Host.Outcome State Fault Refusal :=
  whenUp s fun s => s.takeRecord 2 r fun s => s.setMate fun x => { x with staged := x.staged ++ [r] }

/-- MIRROR_IMAGE_RECORD. -/
def execMirrorImageRecord (r : MirrorRec) (s : State) : Host.Outcome State Fault Refusal :=
  whenUp s fun s => s.takeRecord 3 r fun s => if s.mateState = mateSyncing then s.recordImage r else s

/-- RESYNC_START_RECORD. -/
def execResyncStartRecord (r : MirrorRec) (s : State) : Host.Outcome State Fault Refusal :=
  whenUp s fun s => s.resyncStart r

/-- IMAGE_END_RECORD. -/
def execImageEndRecord (r : MirrorRec) (s : State) : Host.Outcome State Fault Refusal :=
  whenUp s fun s => s.takeRecord 5 r fun s => if s.mateState = mateSyncing then s.imageEnds r else s

/-- EPOCH_APPLY (log entry 12). -/
def execEpochApply (s : State) : Host.Outcome State Fault Refusal := whenUp s fun s => s.epochApply

/-- RESYNC_DONE. -/
def execResyncDone (activeFlipIdle : Bool) (s : State) : Host.Outcome State Fault Refusal :=
  whenUp s fun s => s.resyncDone activeFlipIdle

end Sys2Proof.Machine
end

