-- ==== Sys2Proof/Machine/Marks.lean ====
section
/-! DEFINITION. The marks (R18): what the end of a row period completes, what the frame mark and the row mark
apply, in their order, and what begins with them. -/

namespace Sys2Proof.Machine

/-! ### The end of a row period -/

/-- Engines run: not in a retired device (R409). -/
def State.enginesRun (s : State) : Bool := !s.retired

/-- A missed deadline of engine `e`: 0-55 column, with its columns emitted; 56-71 octet, with the cycles done in
the row (R20) (log entry 69). -/
def State.missed (s : State) (q : Nat × Nat) : State :=
  if q.1 < 56 then s.lateCol q.1 q.2 else if q.1 < 72 then s.lateOct (q.1 - 56) q.2 else s

/-- The end of an execution frame: digests, held words, and the terminations' deliveries (R92, R122, R201). -/
def State.endFrame (s : State) : State :=
  let s := (List.range 16).foldl (fun s d => (s.endProgram d false).dropHeldOct d) s
  s.deliverAll

/-- What the engines complete in the row period that ends; `parity` names the words of the period that failed a
parity check (R13). -/
def State.endEngines (s : State) (late parity : List (Nat × Nat)) : State :=
  let s := s.execRow s.clock.row
  let s := s.endRows
  let s := if s.flipState = flpRehearsing then s.judgeRow else s
  let s := (late.foldl State.missed s).settleLate
  let q := s.dueParity
  let parity := parity ++ q.2
  let s := (parity.foldl State.rowParity q.1).endEmission
  let s := s.endVRows parity
  if s.clock.row = 8 then s.endFrame else s

/-- The row period that runs ends: once, and not before the marks have started. -/
def State.endPeriod (s : State) (late parity : List (Nat × Nat)) : State :=
  if s.clock.ended || !s.clock.started then s
  else
    let s := if s.enginesRun then s.endEngines late parity else s
    { s with clock := { s.clock with ended := true } }

/-! ### The frame mark -/

/-- The frame that begins, and the alignment step that falls on its mark (R398, R224, R262). -/
def State.nextFrame (s : State) : State :=
  let c := s.clock
  let due := s.stepNext
  let n := s.frameAfter
  let s := { s with
    clock := { c with
      frame := n, frames := c.frames + 1, started := true, frameDue := true, ended := true
      step := c.step.bind fun q => if q.1 ≤ 1 then none else some (q.1 - 1, q.2) }
    fab := { s.fab with masterNum := s.fab.masterNum.map (· + 1) } }
  match due with
  | some k => s.stepMark k
  | none => s

/-- Configuration written in the frame that ended takes effect (R57, R81, R96), and the terminations build the
frame that begins (R93). -/
def State.applyTables (s : State) : State :=
  let sdh := (List.range 48).filter s.isSdh
  let s := sdh.foldl (fun s l => (((s.mendAus l).applyAuCfg l).rejudgeLane l).refreshTerms l) s
  let s := s.applyEntries.applyTerms
  (if s.enginesRun then s.buildEgressAll else s).latchCas

/-- Flips, the coordinator lease and selectors of the octet plane (R105, R174, R180, R186, R188, R200). -/
def State.applyFlips (s : State) : State :=
  let s := s.rejectMark.flipMsgMark.flipFrameMark
  s.leaseMark.silenceMark.evalOctet

/-- The fabric, the mate and the timing (R219, R222, R238, R242, R256, R260). -/
def State.applyLinks (s : State) : State :=
  let s := s.loopMark.masterMark.fabricMark.refreshRefLane
  let s := s.epochMark.imageMark
  let s := s.refSelection.refreshQl.movePhase
  s.ageBeats.mateFrame

/-- Once per second: MEM_CE and DEBUG_DENIED may be raised anew (R341, R408). -/
def State.secondMark (s : State) : State :=
  if s.clock.frame.toNat % 8000 ≠ 0 then s
  else { s.ceSecond with power := { s.ceSecond.power with denySaid := false } }

/-- Lanes, monitoring, counters and energy (R270-R272, R291, R298, R300, R320, R323, R344). -/
def State.applyRest (s : State) : State :=
  let s := (List.range 48).foldl State.laneMark s
  let s := s.pmMark.windowMark.snapMark
  s.energyMark.shedMark.memOffApply.secondMark

/-- A soft reset or a step of a life-cycle transition that is due (R402, R407). -/
def State.applyResets (s : State) : State := (if s.power.softDue then s.softApply else s).lcMark

/-- Execution frames begin; octet islands in reset rejoin (R17). -/
def State.beginFrames (s : State) : State :=
  let s := s.rejoin isOctIsland
  if s.enginesRun then (List.range 16).foldl State.beginFrame s else { s with octEng := [] }

/-- The fills, the tones and their directory that the frame reads (R138, R166). -/
def State.latchFrame (s : State) : State :=
  let fill : Sparse W32 := (List.range 16).foldl (fun m p => m.put 0 p (s.rd (Reg.octFill0 + 4 * p))) []
  { s with latched := { s.latched with octFill := fill, tone := s.tone, toneDir := s.toneDirectory } }

/-- FRAME_MARK: it comes at the end of row 8, or first of all after boot, and a row mark follows it (log entry 8). -/
def State.frameMark (s : State) (late parity : List (Nat × Nat)) : State :=
  if s.clock.frameDue || (s.clock.started && s.clock.row ≠ 8) then s
  else
    let s := (s.watchdogs.endPeriod late parity).rehearsalDone.nextFrame.handReports
    let s := s.applyTables.applyFlips.applyLinks.applyRest
    s.applyResets.latchFrame.beginFrames

/-! ### The row mark -/

/-- The row period that begins. -/
def State.openPeriod (s : State) : State :=
  let c := s.clock
  { s with
    clock := { c with
      row := if c.frameDue then 0 else c.row + 1, period := c.period + 1, frameDue := false, ended := false }
    power := { s.power with droopTail := s.power.droopTail - 1 } }

/-- The fills that column rows of the period read (R138). -/
def State.latchRow (s : State) : State :=
  let fill : Sparse W32 := (List.range 16).foldl (fun m p => m.put 0 p (s.rd (Reg.colFill0 + 4 * p))) []
  { s with latched := { s.latched with colFill := fill } }

/-- Program rows begin; column islands in reset rejoin (R17, R106). -/
def State.beginRows (s : State) : State :=
  let s := s.rejoin isColIsland
  if s.enginesRun then (List.range 56).foldl State.beginRow s else { s with colEng := [] }

/-- One row of an alignment step has begun (R224, R262). -/
def State.stepRow (s : State) : State :=
  { s with clock := { s.clock with stepCon := s.clock.stepCon - 1 } }

/-- ROW_MARK: the period that ends, then flips, selectors, APS, lanes and the emission of the one that
begins. The mark of row 0 comes with a frame mark. -/
def State.rowMark (s : State) (late laneBitErrors parity : List (Nat × Nat)) : State :=
  if !s.clock.started || (s.clock.row = 8 && !s.clock.frameDue) then s
  else
    let s := (List.range 48).foldl (State.prbsRow · laneBitErrors) s
    let s := if s.clock.frameDue then s else s.ageBeats
    let s := (s.watchdogs.endPeriod late parity).openPeriod.flipRowMark.rowsMark
    let s := s.evalColumn.evalAps.deepMark
    let s := (List.range 48).foldl State.powerMark s
    let s := s.latchRow.emitAll.beginRows
    s.sweepMark.pmRowMark.stepRow

/-! ### Commands -/

/-- FRAME_MARK. -/
def execFrameMark (late parity : List (Nat × Nat)) (s : State) : Host.Outcome State Fault Refusal :=
  whenUp s fun s => s.frameMark late parity

/-- ROW_MARK. -/
def execRowMark (late laneBitErrors parity : List (Nat × Nat)) (s : State) : Host.Outcome State Fault Refusal :=
  whenUp s fun s => s.rowMark late laneBitErrors parity

end Sys2Proof.Machine
end

