-- ==== Sys2Proof/Machine/Dispatch.lean ====
section
/-! DEFINITION. The dispatch: one arm per command, each one call of its meaning. -/

namespace Sys2Proof.Machine

def exec (i : Instr) (s : State) : Host.Outcome State Fault Refusal :=
  match i with
  | .frameMark late parity => Sys2Proof.Machine.execFrameMark late parity s
  | .rowMark late laneBitErrors parity => Sys2Proof.Machine.execRowMark late laneBitErrors parity s
  | .islandHang island emitted => Sys2Proof.Machine.execIslandHang island emitted s
  | .ingressRow lane r => Sys2Proof.Machine.execIngressRow lane r s
  | .headerRow0Received lane h => Sys2Proof.Machine.execHeaderRow0Received lane h s
  | .amenaminInFrame lane => Sys2Proof.Machine.execAmenaminInFrame lane s
  | .amenaminOof lane => Sys2Proof.Machine.execAmenaminOof lane s
  | .amenaminLofDeclare lane => Sys2Proof.Machine.execAmenaminLofDeclare lane s
  | .amenaminLofClear lane => Sys2Proof.Machine.execAmenaminLofClear lane s
  | .pathEntryWrite path word be v => Sys2Proof.Machine.execPathEntryWrite path word be v s
  | .sdhOof lane => Sys2Proof.Machine.execSdhOof lane s
  | .sdhInFrame lane => Sys2Proof.Machine.execSdhInFrame lane s
  | .sdhLofDeclare lane => Sys2Proof.Machine.execSdhLofDeclare lane s
  | .sdhLofClear lane => Sys2Proof.Machine.execSdhLofClear lane s
  | .losDeclare lane => Sys2Proof.Machine.execLosDeclare lane s
  | .losClear lane => Sys2Proof.Machine.execLosClear lane s
  | .msAisChange lane present => Sys2Proof.Machine.execMsAisChange lane present s
  | .msRdiChange lane present => Sys2Proof.Machine.execMsRdiChange lane present s
  | .b2WindowEnd lane degrade errors => Sys2Proof.Machine.execB2WindowEnd lane degrade errors s
  | .j0Accept lane trace => Sys2Proof.Machine.execJ0Accept lane trace s
  | .kInconsistent lane => Sys2Proof.Machine.execKInconsistent lane s
  | .s1Accept lane s1 => Sys2Proof.Machine.execS1Accept lane s1 s
  | .ltmCfgWrite lane be v => Sys2Proof.Machine.execLtmCfgWrite lane be v s
  | .ltmAuCfgWrite lane n be v => Sys2Proof.Machine.execLtmAuCfgWrite lane n be v s
  | .auPtrNorm lane n => Sys2Proof.Machine.execAuPtrNorm lane n s
  | .auAis lane n => Sys2Proof.Machine.execAuAis lane n s
  | .auLop lane n => Sys2Proof.Machine.execAuLop lane n s
  | .c2Accept lane n c2 => Sys2Proof.Machine.execC2Accept lane n c2 s
  | .j1Accept lane n trace => Sys2Proof.Machine.execJ1Accept lane n trace s
  | .hpUneqChange lane n present => Sys2Proof.Machine.execHpUneqChange lane n present s
  | .hpRdiChange lane n present => Sys2Proof.Machine.execHpRdiChange lane n present s
  | .tuPtrChange tu state => Sys2Proof.Machine.execTuPtrChange tu state s
  | .lomChange lane n present => Sys2Proof.Machine.execLomChange lane n present s
  | .lpLabelAccept path label => Sys2Proof.Machine.execLpLabelAccept path label s
  | .j2Accept path trace => Sys2Proof.Machine.execJ2Accept path trace s
  | .lpRdiChange path present => Sys2Proof.Machine.execLpRdiChange path present s
  | .terminationEntryWrite term word be v => Sys2Proof.Machine.execTerminationEntryWrite term word be v s
  | .trbFeedFrame term => Sys2Proof.Machine.execTrbFeedFrame term s
  | .trbOof term => Sys2Proof.Machine.execTrbOof term s
  | .trbInFrame term => Sys2Proof.Machine.execTrbInFrame term s
  | .trbLofChange term present => Sys2Proof.Machine.execTrbLofChange term present s
  | .trbMfLoss term => Sys2Proof.Machine.execTrbMfLoss term s
  | .trbCrc4Off term => Sys2Proof.Machine.execTrbCrc4Off term s
  | .trbCasLoss term => Sys2Proof.Machine.execTrbCasLoss term s
  | .trbAisChange term present => Sys2Proof.Machine.execTrbAisChange term present s
  | .trbRaiChange term multiframe present => Sys2Proof.Machine.execTrbRaiChange term multiframe present s
  | .casAccept term chan => Sys2Proof.Machine.execCasAccept term chan s
  | .runAhead d => Sys2Proof.Machine.execRunAhead d s
  | .runAheadVRead d => Sys2Proof.Machine.execRunAheadVRead d s
  | .programRowEnd d => Sys2Proof.Machine.execProgramRowEnd d s
  | .octetDigestCheck d unitsDiffer => Sys2Proof.Machine.execOctetDigestCheck d unitsDiffer s
  | .bankWordWrite m plane bank word high be v => Sys2Proof.Machine.execBankWordWrite m plane bank word high be v s
  | .startWrite m e bank be v => Sys2Proof.Machine.execStartWrite m e bank be v s
  | .movc d f => Sys2Proof.Machine.execMovc d f s
  | .movcs d f => Sys2Proof.Machine.execMovcs d f s
  | .filc d f => Sys2Proof.Machine.execFilc d f s
  | .selc d f => Sys2Proof.Machine.execSelc d f s
  | .movo d f => Sys2Proof.Machine.execMovo d f s
  | .movos d f => Sys2Proof.Machine.execMovos d f s
  | .filo d f => Sys2Proof.Machine.execFilo d f s
  | .selo d f => Sys2Proof.Machine.execSelo d f s
  | .mix d f => Sys2Proof.Machine.execMix d f s
  | .mixp d f => Sys2Proof.Machine.execMixp d f s
  | .gain d f => Sys2Proof.Machine.execGain d f s
  | .tone d f => Sys2Proof.Machine.execTone d f s
  | .prbsGenerate d f => Sys2Proof.Machine.execPrbsGenerate d f s
  | .prbsCheck d f => Sys2Proof.Machine.execPrbsCheck d f s
  | .casx d f => Sys2Proof.Machine.execCasx d f s
  | .casi d f => Sys2Proof.Machine.execCasi d f s
  | .endI e => Sys2Proof.Machine.execEndI e s
  | .nop e => Sys2Proof.Machine.execNop e s
  | .mark e tag => Sys2Proof.Machine.execMark e tag s
  | .toneDataAccess write => Sys2Proof.Machine.execToneDataAccess write s
  | .toneLenWrite e be v => Sys2Proof.Machine.execToneLenWrite e be v s
  | .prbsRestart chan => Sys2Proof.Machine.execPrbsRestart chan s
  | .prbsBitsLoRead chan => Sys2Proof.Machine.execPrbsBitsLoRead chan s
  | .proposeReceived peer p => Sys2Proof.Machine.execProposeReceived peer p s
  | .readyReceived peer con txn => Sys2Proof.Machine.execReadyReceived peer con txn s
  | .nackReceived peer con txn reason => Sys2Proof.Machine.execNackReceived peer con txn reason s
  | .commitReceived peer con txn => Sys2Proof.Machine.execCommitReceived peer con txn s
  | .abortReceived peer con txn => Sys2Proof.Machine.execAbortReceived peer con txn s
  | .flpFabCfgWrite rank be v => Sys2Proof.Machine.execFlpFabCfgWrite rank be v s
  | .selCommand path be v => Sys2Proof.Machine.execSelCommand path be v s
  | .selHoldoffExpiry path protect => Sys2Proof.Machine.execSelHoldoffExpiry path protect s
  | .selWtrExpiry path => Sys2Proof.Machine.execSelWtrExpiry path s
  | .conFailExit path protect => Sys2Proof.Machine.execConFailExit path protect s
  | .holdWindowEnd path => Sys2Proof.Machine.execHoldWindowEnd path s
  | .pathSdWindowEnd path errors bits => Sys2Proof.Machine.execPathSdWindowEnd path errors bits s
  | .pathSfClear path => Sys2Proof.Machine.execPathSfClear path s
  | .apsCfgWrite g be v => Sys2Proof.Machine.execApsCfgWrite g be v s
  | .apsCommand g be v => Sys2Proof.Machine.execApsCommand g be v s
  | .apsHoldoffExpiry g chan => Sys2Proof.Machine.execApsHoldoffExpiry g chan s
  | .apsWtrExpiry g => Sys2Proof.Machine.execApsWtrExpiry g s
  | .mspFopChannel g => Sys2Proof.Machine.execMspFopChannel g s
  | .protCommand r => Sys2Proof.Machine.execProtCommand r s
  | .fabCfgWrite be v => Sys2Proof.Machine.execFabCfgWrite be v s
  | .fabLaneWrite lane be v => Sys2Proof.Machine.execFabLaneWrite lane be v s
  | .fabAlignStep => Sys2Proof.Machine.execFabAlignStep s
  | .fabPeerFail peer => Sys2Proof.Machine.execFabPeerFail peer s
  | .fabPeerOk peer => Sys2Proof.Machine.execFabPeerOk peer s
  | .mateHbChannel pin => Sys2Proof.Machine.execMateHbChannel pin s
  | .mateEnableWrite be v => Sys2Proof.Machine.execMateEnableWrite be v s
  | .mirrorWriteRecord r => Sys2Proof.Machine.execMirrorWriteRecord r s
  | .mirrorEpochRecord r => Sys2Proof.Machine.execMirrorEpochRecord r s
  | .mirrorImageRecord r => Sys2Proof.Machine.execMirrorImageRecord r s
  | .resyncStartRecord r => Sys2Proof.Machine.execResyncStartRecord r s
  | .imageEndRecord r => Sys2Proof.Machine.execImageEndRecord r s
  | .resyncDone activeFlipIdle => Sys2Proof.Machine.execResyncDone activeFlipIdle s
  | .oscTempRead ohms => Sys2Proof.Machine.execOscTempRead ohms s
  | .refinSignalLoss input => Sys2Proof.Machine.execRefinSignalLoss input s
  | .refOffsetUpdate slot ofs1 ofs10 => Sys2Proof.Machine.execRefOffsetUpdate slot ofs1 ofs10 s
  | .refQualify slot => Sys2Proof.Machine.execRefQualify slot s
  | .refDisqualify slot => Sys2Proof.Machine.execRefDisqualify slot s
  | .refSuspect slot other disagree => Sys2Proof.Machine.execRefSuspect slot other disagree s
  | .minuteRecord offset theta wholeMinute => Sys2Proof.Machine.execMinuteRecord offset theta wholeMinute s
  | .tmgPhaseStepWrite v => Sys2Proof.Machine.execTmgPhaseStepWrite v s
  | .laneCfgWrite lane be v => Sys2Proof.Machine.execLaneCfgWrite lane be v s
  | .rxDetectProbe lane found => Sys2Proof.Machine.execRxDetectProbe lane found s
  | .laneTrained lane => Sys2Proof.Machine.execLaneTrained lane s
  | .laneRetrain lane => Sys2Proof.Machine.execLaneRetrain lane s
  | .capsBlockReceived lane c => Sys2Proof.Machine.execCapsBlockReceived lane c s
  | .capsTimeout lane => Sys2Proof.Machine.execCapsTimeout lane s
  | .trainTimeout lane => Sys2Proof.Machine.execTrainTimeout lane s
  | .backoffRetry lane found => Sys2Proof.Machine.execBackoffRetry lane found s
  | .laneRetry lane => Sys2Proof.Machine.execLaneRetry lane s
  | .densityWindow lane low => Sys2Proof.Machine.execDensityWindow lane low s
  | .laneLosClear lane => Sys2Proof.Machine.execLaneLosClear lane s
  | .idleOkExpiry lane => Sys2Proof.Machine.execIdleOkExpiry lane s
  | .lanePowerRequest lane pwr => Sys2Proof.Machine.execLanePowerRequest lane pwr s
  | .deepPointOfNoReturn lane => Sys2Proof.Machine.execDeepPointOfNoReturn lane s
  | .deepExitDone lane => Sys2Proof.Machine.execDeepExitDone lane s
  | .laneWake lane => Sys2Proof.Machine.execLaneWake lane s
  | .laneTest lane on => Sys2Proof.Machine.execLaneTest lane on s
  | .lanePrbsInject lane => Sys2Proof.Machine.execLanePrbsInject lane s
  | .sdsPrbsBitsLoRead lane => Sys2Proof.Machine.execSdsPrbsBitsLoRead lane s
  | .pmnTaiWrite be v => Sys2Proof.Machine.execPmnTaiWrite be v s
  | .pmnBinSelWrite be v => Sys2Proof.Machine.execPmnBinSelWrite be v s
  | .cntLoRead k => Sys2Proof.Machine.execCntLoRead k s
  | .cntHiWrite k be v => Sys2Proof.Machine.execCntHiWrite k be v s
  | .cntLoWrite k be v => Sys2Proof.Machine.execCntLoWrite k be v s
  | .storeLinkUp rate => Sys2Proof.Machine.execStoreLinkUp rate s
  | .storeInitDone d => Sys2Proof.Machine.execStoreInitDone d s
  | .nvmeCompletion ok => Sys2Proof.Machine.execNvmeCompletion ok s
  | .storeEraseDone => Sys2Proof.Machine.execStoreEraseDone s
  | .plannerSleep r st gapNs => Sys2Proof.Machine.execPlannerSleep r st gapNs s
  | .resourceWakeDone r => Sys2Proof.Machine.execResourceWakeDone r s
  | .sensorRead temps vcoreMv => Sys2Proof.Machine.execSensorRead temps vcoreMv s
  | .otpBurnCheck ok => Sys2Proof.Machine.execOtpBurnCheck ok s
  | .scrubSlot bank word => Sys2Proof.Machine.execScrubSlot bank word s
  | .scrubWriteback bank => Sys2Proof.Machine.execScrubWriteback bank s
  | .hkRequest m bank locked => Sys2Proof.Machine.execHkRequest m bank locked s
  | .hkGrant bank => Sys2Proof.Machine.execHkGrant bank s
  | .hkWithdraw m => Sys2Proof.Machine.execHkWithdraw m s
  | .xbrTransaction m t addr write release => Sys2Proof.Machine.execXbrTransaction m t addr write release s
  | .xbrLock m t => Sys2Proof.Machine.execXbrLock m t s
  | .xbrLeaseExpiry m => Sys2Proof.Machine.execXbrLeaseExpiry m s
  | .xbrAbandon m t => Sys2Proof.Machine.execXbrAbandon m t s
  | .sweepSlotStart bank => Sys2Proof.Machine.execSweepSlotStart bank s
  | .sweepMarchDone pass => Sys2Proof.Machine.execSweepMarchDone pass s
  | .sweepRetentionExpiry pass => Sys2Proof.Machine.execSweepRetentionExpiry pass s
  | .cringCfgWrite r be v => Sys2Proof.Machine.execCringCfgWrite r be v s
  | .cringTailWrite r be v => Sys2Proof.Machine.execCringTailWrite r be v s
  | .commandFetch r entries ok => Sys2Proof.Machine.execCommandFetch r entries ok s
  | .eringCfgWrite e be v => Sys2Proof.Machine.execEringCfgWrite e be v s
  | .eringHeadWrite e be v => Sys2Proof.Machine.execEringHeadWrite e be v s
  | .eventWrite e => Sys2Proof.Machine.execEventWrite e s
  | .eventCoalesceExpiry e => Sys2Proof.Machine.execEventCoalesceExpiry e s
  | .dmaTimeout r => Sys2Proof.Machine.execDmaTimeout r s
  | .loadBank r words starts ok => Sys2Proof.Machine.execLoadBank r words starts ok s
  | .armFlip r => Sys2Proof.Machine.execArmFlip r s
  | .cancelFlip r => Sys2Proof.Machine.execCancelFlip r s
  | .snapshot r => Sys2Proof.Machine.execSnapshot r s
  | .dumpConfig r => Sys2Proof.Machine.execDumpConfig r s
  | .storeRead r => Sys2Proof.Machine.execStoreRead r s
  | .storeMark r => Sys2Proof.Machine.execStoreMark r s
  | .mateResync r => Sys2Proof.Machine.execMateResync r s
  | .lifecycleAdvance r => Sys2Proof.Machine.execLifecycleAdvance r s
  | .commandBadOpcode r => Sys2Proof.Machine.execCommandBadOpcode r s
  | .hostLinkUp rate width => Sys2Proof.Machine.execHostLinkUp rate width s
  | .busMasterChange bme d3hot => Sys2Proof.Machine.execBusMasterChange bme d3hot s
  | .railDroop rail mv => Sys2Proof.Machine.execRailDroop rail mv s
  | .railDroopClear rail => Sys2Proof.Machine.execRailDroopClear rail s
  | .faultInject be v => Sys2Proof.Machine.execFaultInject be v s
  | .powerOnReset entered => Sys2Proof.Machine.execPowerOnReset entered s
  | .resetNChange low => Sys2Proof.Machine.execResetNChange low s
  | .perstNChange low => Sys2Proof.Machine.execPerstNChange low s
  | .boot otpOk sideB testMode => Sys2Proof.Machine.execBoot otpOk sideB testMode s
  | .islandReset island => Sys2Proof.Machine.execIslandReset island s
  | .debugUnlock on => Sys2Proof.Machine.execDebugUnlock on s
  | .debugTransaction t addr write => Sys2Proof.Machine.execDebugTransaction t addr write s
  | .registerWrite addr be v => Sys2Proof.Machine.execRegisterWrite addr be v s
  | .refinSignalReturn input => Sys2Proof.Machine.execRefinSignalReturn input s
  | .sdsPrbsInSync lane => Sys2Proof.Machine.execSdsPrbsInSync lane s
  | .sdsPrbsSyncLost lane errors => Sys2Proof.Machine.execSdsPrbsSyncLost lane errors s
  | .retainedBankScrubBurst bank => Sys2Proof.Machine.execRetainedBankScrubBurst bank s
  | .oscinStop => Sys2Proof.Machine.execOscinStop s
  | .oscinReturn freq => Sys2Proof.Machine.execOscinReturn freq s
  | .flipArm => Sys2Proof.Machine.execFlipArm s
  | .flipCancel => Sys2Proof.Machine.execFlipCancel s
  | .rehearsalEnd => Sys2Proof.Machine.execRehearsalEnd s
  | .coordLease => Sys2Proof.Machine.execCoordLease s
  | .tmClaim => Sys2Proof.Machine.execTmClaim s
  | .tmWithdraw => Sys2Proof.Machine.execTmWithdraw s
  | .tmTakeover => Sys2Proof.Machine.execTmTakeover s
  | .fabAligned => Sys2Proof.Machine.execFabAligned s
  | .mateHbEdge => Sys2Proof.Machine.execMateHbEdge s
  | .mateFail => Sys2Proof.Machine.execMateFail s
  | .mateReachable => Sys2Proof.Machine.execMateReachable s
  | .mateResyncRequest => Sys2Proof.Machine.execMateResyncRequest s
  | .mateRelease => Sys2Proof.Machine.execMateRelease s
  | .mirrorRecordSend => Sys2Proof.Machine.execMirrorRecordSend s
  | .mirrorResend => Sys2Proof.Machine.execMirrorResend s
  | .epochCommitSend => Sys2Proof.Machine.execEpochCommitSend s
  | .epochApply => Sys2Proof.Machine.execEpochApply s
  | .dpllLock => Sys2Proof.Machine.execDpllLock s
  | .dpllLockLoss => Sys2Proof.Machine.execDpllLockLoss s
  | .dpllBwStep => Sys2Proof.Machine.execDpllBwStep s
  | .holdoverUpdate => Sys2Proof.Machine.execHoldoverUpdate s
  | .driftClear => Sys2Proof.Machine.execDriftClear s
  | .modelRefitHourly => Sys2Proof.Machine.execModelRefitHourly s
  | .modelRefitDaily => Sys2Proof.Machine.execModelRefitDaily s
  | .clearLearn => Sys2Proof.Machine.execClearLearn s
  | .ppsAlignStep away => Sys2Proof.Machine.execPpsAlignStep away s
  | .pmnBinClear => Sys2Proof.Machine.execPmnBinClear s
  | .pfcWindowEnd => Sys2Proof.Machine.execPfcWindowEnd s
  | .snapRequest => Sys2Proof.Machine.execSnapRequest s
  | .dumpDue => Sys2Proof.Machine.execDumpDue s
  | .dumpDone => Sys2Proof.Machine.execDumpDone s
  | .pmRecordWalk => Sys2Proof.Machine.execPmRecordWalk s
  | .flushDue => Sys2Proof.Machine.execFlushDue s
  | .storePerstRelease => Sys2Proof.Machine.execStorePerstRelease s
  | .storeLinkTimeout => Sys2Proof.Machine.execStoreLinkTimeout s
  | .storeReadyTimeout => Sys2Proof.Machine.execStoreReadyTimeout s
  | .storeCmdTimeout => Sys2Proof.Machine.execStoreCmdTimeout s
  | .storeLinkLoss => Sys2Proof.Machine.execStoreLinkLoss s
  | .storeFlushDone => Sys2Proof.Machine.execStoreFlushDone s
  | .storeShutdownDone => Sys2Proof.Machine.execStoreShutdownDone s
  | .storeRetryTimer => Sys2Proof.Machine.execStoreRetryTimer s
  | .storeRetry => Sys2Proof.Machine.execStoreRetry s
  | .storeEraseRequest => Sys2Proof.Machine.execStoreEraseRequest s
  | .storeFlushRequest => Sys2Proof.Machine.execStoreFlushRequest s
  | .budgetRestore => Sys2Proof.Machine.execBudgetRestore s
  | .pfailFall => Sys2Proof.Machine.execPfailFall s
  | .pfailRise => Sys2Proof.Machine.execPfailRise s
  | .floorHoldExpiry => Sys2Proof.Machine.execFloorHoldExpiry s
  | .thermalRise => Sys2Proof.Machine.execThermalRise s
  | .thermalFall => Sys2Proof.Machine.execThermalFall s
  | .serviceHour => Sys2Proof.Machine.execServiceHour s
  | .sweepCopyDone => Sys2Proof.Machine.execSweepCopyDone s
  | .hostLinkDown => Sys2Proof.Machine.execHostLinkDown s
  | .pcieFlr => Sys2Proof.Machine.execPcieFlr s
  | .regScrub => Sys2Proof.Machine.execRegScrub s
  | .softReset => Sys2Proof.Machine.execSoftReset s
  | .softResetDone => Sys2Proof.Machine.execSoftResetDone s
  | .cstsCfs => Sys2Proof.Machine.execCstsCfs s

end Sys2Proof.Machine
end

