-- ==== Sys2Proof/Safety.lean ====
section
/-! DEFINITION. What statements about the block are written with: the completion of a command, what a
command leaves unchanged, and the invariants of the state. -/

namespace Sys2Proof

open Machine

/-- The command completes: `exec` answers a next state, of which `P` holds. -/
def Completes (c : Instr) (s : State) (P : State → Prop) : Prop :=
  ∃ t, Machine.exec c s = .next t ∧ P t

/-- A safe outcome of a step: neither a fault nor a refusal. -/
def Safe (o : Host.Outcome State Fault Refusal) : Prop := ∃ t, o = .next t

/-! ### Frames -/

/-- Registers that keep account of events: the head and oldest record of the history store, its drops, the
drops of event staging, and the last fault (R309, R310, R312, R372, R380). -/
def eventReg (a : Nat) : Bool :=
  [Reg.hstHeadLo, Reg.hstHeadHi, Reg.hstOldestLo, Reg.hstOldestHi, Reg.hstCntDrop, Reg.evtCntDrop,
    Reg.fltLast, Reg.fltStat].contains a

/-- What a command leaves as it was: every register but those of `regs` and those that keep account of
events, every byte behind BAR2 but those of `bytes`, the tone memory, the marks, OTP, and the queue. -/
structure Frame (s t : State) (regs : Nat → Bool) (bytes : Nat → Bool) : Prop where
  reg     : ∀ a, regs a = false → eventReg a = false → t.rd a = s.rd a
  byte    : ∀ a, bytes a = false → t.byte a = s.byte a
  tone    : t.tone = s.tone
  clock   : t.clock = s.clock
  otp     : t.otp = s.otp
  pending : t.pending = s.pending

/-- The listed registers. -/
def theseRegs (l : List Nat) : Nat → Bool := fun a => l.contains a

/-- The registers of a block of BAR0: offsets `lo` to `hi`, `hi` not among them. -/
def regsOf (lo hi : Nat) : Nat → Bool := fun a => lo ≤ a && a < hi

/-- No byte of memory. -/
def noBytes : Nat → Bool := fun _ => false

/-- `n` bytes from `a` on. -/
def bytesAt (a n : Nat) : Nat → Bool := fun x => a ≤ x && x < a + n

/-- Words 3 and 4 of the path table, which the device writes (R57). -/
def pathStatus : Nat → Bool := fun a => 0x1000000 ≤ a && a < 0x1800000 && 12 ≤ a % 32 && a % 32 < 20

/-- The status words of the terminations (R96). -/
def termStatus : Nat → Bool := fun a => 0x1880000 ≤ a && a < 0x18C0000

/-- The summaries of the terminations (R97). -/
def trbSummary : Nat → Bool := regsOf 0x80100 0x80900

/-- The registers that a change of stage of lane `l` may reach: those of the lane, of its line termination, the
summaries of terminations, and the mate's view of its lanes. -/
def laneRegs (l : Nat) : Nat → Bool := fun a =>
  regsOf (0x20000 + 0x400 * l) (0x20400 + 0x400 * l) a || regsOf (0x40000 + 0x1000 * l) (0x41000 + 0x1000 * l) a ||
    trbSummary a || a == Reg.matStat || a == Reg.matResync

/-- Either. -/
def orAt (p q : Nat → Bool) : Nat → Bool := fun a => p a || q a

/-! ### When host commands are taken -/

/-- The host's writes are taken: the device is up, no reset is in progress (R402), and it is not a standby
whose mirrored state only its mate writes (R232). -/
def Machine.State.takesHost (s : State) : Bool := s.up && !s.flag F.rstStat_busy && !s.standsBy

/-- Registers that a host access accounts for itself in: the words received and sent (R297), and on an ACTIVE
device a mirror queue that overflows (R236, R241). -/
def hostAccount : Nat → Bool :=
  theseRegs [Reg.cntLo 96, Reg.cntHi 96, Reg.cntLo 97, Reg.cntHi 97, Reg.matStat, Reg.matResync]

/-! ### What registers and words show -/

/-- lane_fail of a monitored path with a lane is as its lane stands (R57, R75). -/
def Machine.State.laneFailShown (s : State) (p : Nat) : Bool :=
  match (s.path p).entry with
  | some (w0, _, _) =>
    !bit w0 24 || 48 ≤ bits w0 23 18 || bit (s.pathWord p 3) 31 = s.laneFail (s.servedBy (bits w0 23 18))
  | none => true

/-- lop of a monitored TU-2, TU-12 or TU-11 path is as its interpreter and the LOM of its AU stand (R72). -/
def Machine.State.lopShown (s : State) (p : Nat) : Bool :=
  match (s.path p).entry with
  | some (w0, _, _) => bits w0 30 27 = 4 || bit (s.pathWord p 3) 29 = ((s.path p).tu = 2 || s.pathLom p)
  | none => true

/-! ### Events -/

/-- Event staging has room for what one command raises (R372). -/
def Machine.State.eventRoom (s : State) : Bool := s.evt.staged.length ≤ 16000

/-- Event `e` with its parameters, as it is raised in `s`; parameters not listed are 0 (R371). -/
def Machine.State.eventOf (s : State) (e : EvName) (ps : List Nat) : Event :=
  { severity := BitVec.ofNat 2 e.sev, code := BitVec.ofNat 16 e.code
    params := ((ps ++ List.replicate 5 0).take 5).map (BitVec.ofNat 32)
    tai := s.tai, frame := s.clock.frame, ring := (s.fget F.evtCfg_ring).testBit e.sev }

/-- Where `on` says so event `e` is raised, and enters staging if it is delivered; no other event does. Said of
staging that has room (R372, R373). -/
def Told (s t : State) (on : Bool) (e : EvName) (ps : List Nat) : Prop :=
  s.eventRoom = true → t.evt.staged = s.evt.staged ++ (if on && s.delivers e then [s.eventOf e ps] else [])

/-! ### Program rows and execution frames -/

/-- The program row under way of column destination `d`. -/
def Machine.State.rowOf (s : State) (d : Nat) : RowCtx := (s.colEngine d).fetch.getD RowCtx.init

/-- An instruction can be issued on column destination `d`: its program row is open (R106). -/
def Machine.State.rowOpen (s : State) (d : Nat) : Bool :=
  (s.colEngine d).fetch.any fun c => !c.ended && !c.checked && !c.lost

/-- The execution frame under way of octet destination `d`. -/
def Machine.State.frameOf (s : State) (d : Nat) : FrameCtx := (s.octEngine d).run.getD FrameCtx.init

/-- An instruction can be issued on octet destination `d`: its execution frame is open (R110). -/
def Machine.State.frameOpen (s : State) (d : Nat) : Bool :=
  (s.octEngine d).run.any fun c => !c.ended && !c.checked && !c.lost

/-- What the program row has written at position `p`. -/
def Machine.RowCtx.slotAt (c : RowCtx) (p : Nat) : Option Slot := (c.buf.find? (·.1 = p)).map (·.2)

/-- What the execution frame has written at octet address `a`. -/
def Machine.FrameCtx.octAt (c : FrameCtx) (a : Nat) : Option Cell := (c.out.find? (·.1 = a)).map (·.2)

/-- Instruction `i` issued on column destination `d`: its words, cost and digest (R115, R120, R125), and
every other engine as it was. -/
structure ColIssued (s t : State) (d : Nat) (i : ColIns) : Prop where
  open'  : (t.colEngine d).fetch.isSome = true
  pc     : (t.rowOf d).pc = (s.rowOf d).pc + colWords i
  cycles : (t.rowOf d).cycles = (s.rowOf d).cycles + colCost i
  digest : (t.rowOf d).digest = foldCol (s.factor (s.rowOf d).bank (colSrc i)) (s.factor (s.rowOf d).bank d)
    (s.rowOf d).cycles i (s.rowOf d).digest
  ended  : (t.rowOf d).ended = decide (i = .endI)
  others : ∀ e : Fin 56, e.val ≠ d → t.colEngine e.val = s.colEngine e.val

/-- Instruction `i` issued on octet destination `d`: its words, its cost in the row that it executes in, and
its digest (R111, R116, R120, R125), and every other engine as it was. -/
structure OctIssued (s t : State) (d : Nat) (i : OctIns) : Prop where
  open'  : (t.octEngine d).run.isSome = true
  pc     : (t.frameOf d).pc = (s.frameOf d).pc + octWords i
  row    : (t.frameOf d).row = octRow i (s.frameOf d)
  cycles : (t.frameOf d).cycles =
    (if octRow i (s.frameOf d) = (s.frameOf d).row then (s.frameOf d).cycles else 0) + octCost i
  digest : (t.frameOf d).digest = foldOct (s.bankT1 (s.frameOf d).bank)
    (if octRow i (s.frameOf d) = (s.frameOf d).row then (s.frameOf d).cycles else 0) i (s.frameOf d).digest
  ended  : (t.frameOf d).ended = decide (i = .endI)
  others : ∀ e : Fin 16, e.val ≠ d → t.octEngine e.val = s.octEngine e.val

/-- Instruction `i` can be issued on octet destination `d`: its frame is open, and one that writes does so in the row
period of its row (R111). -/
def Machine.State.issues (s : State) (d : Nat) (i : OctIns) : Bool := s.frameOpen d && s.octNow i (s.frameOf d)

/-- The positions of instruction `i` that engine `d` writes hold FILL[0] with CON, and all others are as before: what
a suppressed instruction does (R324). -/
def ShedFill (s t : State) (d : Nat) (i : OctIns) : Prop :=
  ∀ a, (t.frameOf d).octAt a =
    if a ∈ octWrites i ∧ inHalf d a = true then
      some ⟨fillOctet (s.latched.octFill.get 0 0) (addrCol a), true, s.octSeq⟩
    else (s.frameOf d).octAt a

/-- Command `k`, which issues instruction `i` on octet destination `d`, completes. Where it can be issued it is
charged, changes no register but those of `regs`, and does what `P` says, but where it is suppressed it only writes
fill; where it cannot be issued nothing changes (R110, R111, R324). -/
def OctCompletes (k : Instr) (i : OctIns) (d : Nat) (s : State) (regs : List Nat) (P : State → Prop) : Prop :=
  Completes k s fun t =>
    if s.issues d i then
      OctIssued s t d i ∧ Frame s t (theseRegs regs) noBytes ∧ (if s.suppressed i then ShedFill s t d i else P t)
    else t = s

/-- Command `k`, which issues instruction `i` on column destination `d`, completes. On an open program row it is
charged, changes no register but those of `regs`, and does what `P` says; otherwise nothing changes (R106). -/
def ColCompletes (k : Instr) (i : ColIns) (d : Nat) (s : State) (regs : List Nat) (P : State → Prop) : Prop :=
  Completes k s fun t =>
    if s.rowOpen d then ColIssued s t d i ∧ Frame s t (theseRegs regs) noBytes ∧ P t else t = s

/-! ### Ring commands -/

/-- Command `c` of ring `r` completes: its one CMD_DONE with this status is the last event staged, where staging has
room, and HIF_CNT_CMD counts it (R368, R370). -/
structure CmdDone (s t : State) (r : Nat) (c : CmdEntry) (status : Nat) : Prop where
  done    : s.eventRoom = true → t.evt.staged.getLast?.map (fun e => (e.code, e.ring, e.params.take 2)) = some
    (BitVec.ofNat 16 Ev.cmdDone.code, bit (c.w 0) 16,
      [BitVec.ofNat 32 (bits (c.w 0) 31 24 * 2 ^ 24 + status * 2 ^ 16 + bits (c.w 0) 15 0),
        BitVec.ofNat 32 (r * 2 ^ 16 + c.index.toNat)])
  counted : t.rd Reg.hifCntCmd = s.rd Reg.hifCntCmd + 1

/-- The command at the front of ring `r` leaves the ring and completes. -/
structure CmdCompleted (s t : State) (r : Nat) (c : CmdEntry) (status : Nat) : Prop where
  taken : t.fetchedOn r = (s.fetchedOn r).drop 1
  ended : CmdDone s t r c status

/-- It completes with no other effect. -/
def CmdOnly (s t : State) (r : Nat) (c : CmdEntry) (status : Nat) : Prop :=
  CmdCompleted s t r c status ∧ Frame s t (theseRegs [Reg.hifCntCmd]) noBytes

/-- The command at the front of ring `r` leaves the ring and is in progress, waiting for `w`. -/
structure CmdWaits (s t : State) (r : Nat) (c : CmdEntry) (w : Waiting) : Prop where
  taken   : t.fetchedOn r = (s.fetchedOn r).drop 1
  waiting : t.hif.busy.find? (·.1 = r) = some (r, c, w)
  counted : t.rd Reg.hifCntCmd = s.rd Reg.hifCntCmd

/-- Command `k` performs opcode `op` at the front of ring `r`: nothing where the front is no such command; in RETIRED
REJECTED, or LIFECYCLE for LIFECYCLE_ADVANCE; BAD_OPERAND unless its operands are as `ok` says; else what `P` says
(R368, R370, R409). -/
def RingDoes (k : Instr) (r op : Nat) (ok : CmdEntry → Bool) (s : State) (P : CmdEntry → State → Prop) : Prop :=
  Completes k s fun t =>
    match s.nextCmd r with
    | none => t = s
    | some c =>
      if c.op ≠ op then t = s
      else if s.retired then CmdOnly s t r c (if op = opLifecycle then csLifecycle else csRejected)
      else if !ok c then CmdOnly s t r c csBadOperand
      else P c t

/-- A command that writes mirrored state: MATE, counted, where its writes are discarded (R232), REJECTED during a reset
(R402), else what `P` says. -/
def CmdWrites (s t : State) (r : Nat) (c : CmdEntry) (P : Prop) : Prop :=
  if s.standsBy then
    CmdCompleted s t r c csMate ∧ Frame s t (theseRegs [Reg.hifCntCmd, Reg.matCntRej]) noBytes
  else if s.flag F.rstStat_busy then CmdOnly s t r c csRejected
  else P

/-- Registers that the completion of a ring command may reach beside those of its effect: the account of host
accesses, HIF_CNT_CMD and HIF_CNT_DMAERR, the memory block and MAT_CNT_REJ. -/
def cmdAccount : Nat → Bool :=
  orAt hostAccount (orAt (regsOf 0x110000 0x118000) (theseRegs [Reg.hifCntCmd, Reg.hifCntDmaerr, Reg.matCntRej]))

/-! ### Invariants -/

/-- The row number of the marks is one of 0-8 (R18). -/
def Machine.State.rowOk (s : State) : Prop := s.clock.row ≤ 8

/-- The memory behind BAR2 and the tone memory are in canonical form. -/
def Machine.State.memOk (s : State) : Prop := Memory.wf s.mem = true ∧ Memory.wf s.tone = true

end Sys2Proof
end

