-- ==== Sys2Proof/WellFormed.lean ====
section
/-! DEFINITION. Well-formed commands: what an operand can be on the hardware where its type allows more.
The meanings are total and do not look at this check; the decoders of program words answer only
instructions that pass it. -/

namespace Sys2Proof

open Machine

/-- Missed deadlines name engines 0-55 (column) and 56-71 (octet) (R20, R98). -/
def lateOk (late : List (Nat × Nat)) : Bool := late.all fun q => decide (q.1 < 72)

/-- Bit errors of lanes 0-47 (R283). -/
def lanesOk (errors : List (Nat × Nat)) : Bool := errors.all fun q => decide (q.1 < 48)

/-- A trace of 1, 16 or 64 octets (R62, R71, R74). -/
def traceOk (t : List Octet) : Bool := t.length = 1 || t.length = 16 || t.length = 64

/-- The rate of a PCIe link: 1 to 4, 2.5 to 16 GT/s. -/
def rateOk (r : BitVec 3) : Bool := 1 ≤ r.toNat && r.toNat ≤ 4

/-- MIX and MIXP have 1 to 8 sources, each lawful (R148, R149). -/
def mixOk (f : MixF) : Bool :=
  1 ≤ f.sources.length && f.sources.length ≤ 8 && f.sources.all mixSrcOk

/-- Payload columns of the widest canvas, A10 (R32). -/
def maxCols : Nat := 42840

/-- A canvas row in canonical form, no wider than the widest canvas. -/
def Row.wf (r : Row) : Bool := Sparse.wf r.dflt r.cells && r.cells.all fun p => decide (p.1 < maxCols)

/-- What the framer saw of a frame: each bit offset of the frame once (R51, R52). -/
def sightsOk (l : List Sight) : Bool := (l.map (·.offset)).Nodup && l.all fun x => decide (x.differ ≤ 216)

/-- Parity errors name islands with a data path, 0-79 (R13, R394). -/
def parityOk (l : List (Nat × Nat)) : Bool := l.all fun q => decide (q.1 < 80)

/-- A received SDH row begins within one row of the earliest that can serve the arrival period (log entry 78). -/
def SdhRow.wf (r : SdhRow) : Bool := r.content.wf && r.h3.wf && decide (r.phase < 46080)

/-- A received row: its columns are in range (R36). -/
def IngressRow.wf (r : IngressRow) : Bool :=
  r.content.wf && r.parityBad.all (fun c => decide (c < maxCols)) && r.framing.all sightsOk && r.sdh.all SdhRow.wf

/-- The check of a command's operands. -/
def Instr.wf (i : Instr) : Bool :=
  match i with
  | .frameMark late parity => lateOk late && parityOk parity
  | .rowMark late errors parity => lateOk late && lanesOk errors && parityOk parity
  | .islandHang _ emitted => decide (emitted ≤ maxCols)
  | .ingressRow _ r => r.wf
  | .headerRow0Received _ _ => true
  | .amenaminInFrame _ => true
  | .amenaminOof _ => true
  | .amenaminLofDeclare _ => true
  | .amenaminLofClear _ => true
  | .pathEntryWrite _ _ _ _ => true
  | .sdhOof _ => true
  | .sdhInFrame _ => true
  | .sdhLofDeclare _ => true
  | .sdhLofClear _ => true
  | .losDeclare _ => true
  | .losClear _ => true
  | .msAisChange _ _ => true
  | .msRdiChange _ _ => true
  | .b2WindowEnd _ _ _ => true
  | .j0Accept _ t => traceOk t
  | .kInconsistent _ => true
  | .s1Accept _ _ => true
  | .ltmCfgWrite _ _ _ => true
  | .ltmAuCfgWrite _ _ _ _ => true
  | .auPtrNorm _ _ => true
  | .auAis _ _ => true
  | .auLop _ _ => true
  | .c2Accept _ _ _ => true
  | .j1Accept _ _ t => traceOk t
  | .hpUneqChange _ _ _ => true
  | .hpRdiChange _ _ _ => true
  | .tuPtrChange _ st => decide (st.toNat ≤ 2)
  | .lomChange _ _ _ => true
  | .lpLabelAccept _ _ => true
  | .j2Accept _ t => decide (t.length = 1 || t.length = 16)
  | .lpRdiChange _ _ => true
  | .terminationEntryWrite _ _ _ _ => true
  | .trbFeedFrame _ => true
  | .trbOof _ => true
  | .trbInFrame _ => true
  | .trbLofChange _ _ => true
  | .trbMfLoss _ => true
  | .trbCrc4Off _ => true
  | .trbCasLoss _ => true
  | .trbAisChange _ _ => true
  | .trbRaiChange _ _ _ => true
  | .casAccept _ _ => true
  | .runAhead _ => true
  | .runAheadVRead _ => true
  | .programRowEnd _ => true
  | .octetDigestCheck _ _ => true
  | .bankWordWrite _ _ _ _ _ _ _ => true
  | .startWrite _ _ _ _ _ => true
  | .movc _ f => decide (f.srcLane.toNat < 56)
  | .movcs _ f => decide (f.srcLane.toNat < 56) && decide (f.smode.toNat ≤ 2)
  | .filc _ _ => true
  | .selc _ f => decide (f.wLane.toNat < 56) && decide (f.pLane.toNat < 56)
  | .movo _ _ => true
  | .movos _ _ => true
  | .filo _ _ => true
  | .selo _ _ => true
  | .mix _ f => f.sc = 0 && mixOk f
  | .mixp _ f => mixOk f
  | .gain _ f => gainOk f.gain.toNat
  | .tone _ _ => true
  | .prbsGenerate _ _ => true
  | .prbsCheck _ _ => true
  | .casx _ _ => true
  | .casi _ _ => true
  | .endI _ => true
  | .nop _ => true
  | .mark _ _ => true
  | .toneDataAccess _ => true
  | .toneLenWrite _ _ _ => true
  | .prbsRestart _ => true
  | .prbsBitsLoRead _ => true
  | .proposeReceived _ _ => true
  | .readyReceived _ _ _ => true
  | .nackReceived _ _ _ _ => true
  | .commitReceived _ _ _ => true
  | .abortReceived _ _ _ => true
  | .flpFabCfgWrite _ _ _ => true
  | .selCommand _ _ _ => true
  | .selHoldoffExpiry _ _ => true
  | .selWtrExpiry _ => true
  | .conFailExit _ _ => true
  | .holdWindowEnd _ => true
  | .pathSdWindowEnd _ _ _ => true
  | .pathSfClear _ => true
  | .apsCfgWrite _ _ _ => true
  | .apsCommand _ _ _ => true
  | .apsHoldoffExpiry _ _ => true
  | .apsWtrExpiry _ => true
  | .mspFopChannel _ => true
  | .protCommand _ => true
  | .fabCfgWrite _ _ => true
  | .fabLaneWrite _ _ _ => true
  | .fabAlignStep => true
  | .fabPeerFail _ => true
  | .fabPeerOk _ => true
  | .mateHbChannel _ => true
  | .mateEnableWrite _ _ => true
  | .mirrorWriteRecord _ => true
  | .mirrorEpochRecord _ => true
  | .mirrorImageRecord _ => true
  | .resyncStartRecord _ => true
  | .imageEndRecord _ => true
  | .resyncDone _ => true
  | .oscTempRead _ => true
  | .refinSignalLoss _ => true
  | .refOffsetUpdate _ _ _ => true
  | .refQualify _ => true
  | .refDisqualify _ => true
  | .refSuspect a b _ => decide (a ≠ b)
  | .minuteRecord _ _ _ => true
  | .tmgPhaseStepWrite _ => true
  | .laneCfgWrite _ _ _ => true
  | .rxDetectProbe _ _ => true
  | .laneTrained _ => true
  | .laneRetrain _ => true
  | .capsBlockReceived _ _ => true
  | .capsTimeout _ => true
  | .trainTimeout _ => true
  | .backoffRetry _ _ => true
  | .laneRetry _ => true
  | .densityWindow _ _ => true
  | .laneLosClear _ => true
  | .idleOkExpiry _ => true
  | .lanePowerRequest _ p => decide (p.toNat ≤ 2)
  | .deepPointOfNoReturn _ => true
  | .deepExitDone _ => true
  | .laneWake _ => true
  | .laneTest _ _ => true
  | .lanePrbsInject _ => true
  | .sdsPrbsBitsLoRead _ => true
  | .pmnTaiWrite _ _ => true
  | .pmnBinSelWrite _ _ => true
  | .cntLoRead _ => true
  | .cntHiWrite _ _ _ => true
  | .cntLoWrite _ _ _ => true
  | .storeLinkUp rate => rateOk rate
  | .storeInitDone _ => true
  | .nvmeCompletion _ => true
  | .storeEraseDone => true
  | .plannerSleep _ _ _ => true
  | .resourceWakeDone _ => true
  | .sensorRead ts _ => decide (ts.length = 8)
  | .otpBurnCheck _ => true
  | .scrubSlot _ _ => true
  | .scrubWriteback _ => true
  | .hkRequest _ _ _ => true
  | .hkGrant _ => true
  | .hkWithdraw _ => true
  | .xbrTransaction _ _ a _ _ => a.toNat % 4 = 0
  | .xbrLock _ _ => true
  | .xbrLeaseExpiry _ => true
  | .xbrAbandon _ _ => true
  | .sweepSlotStart _ => true
  | .sweepMarchDone _ => true
  | .sweepRetentionExpiry _ => true
  | .cringCfgWrite _ _ _ => true
  | .cringTailWrite _ _ _ => true
  | .commandFetch _ es _ => es.all fun e => decide (e.length = 16)
  | .eringCfgWrite _ _ _ => true
  | .eringHeadWrite _ _ _ => true
  | .eventWrite _ => true
  | .eventCoalesceExpiry _ => true
  | .dmaTimeout _ => true
  | .loadBank _ ws ss _ => decide (ws.length ≤ 524288) && decide (ss.length ≤ 56)
  | .armFlip _ => true
  | .cancelFlip _ => true
  | .snapshot _ => true
  | .dumpConfig _ => true
  | .storeRead _ => true
  | .storeMark _ => true
  | .mateResync _ => true
  | .lifecycleAdvance _ => true
  | .commandBadOpcode _ => true
  | .hostLinkUp rate w => rateOk rate && (w = 1 || w = 2 || w = 4)
  | .busMasterChange _ _ => true
  | .railDroop _ _ => true
  | .railDroopClear _ => true
  | .faultInject _ _ => true
  | .powerOnReset _ => true
  | .resetNChange _ => true
  | .perstNChange _ => true
  | .boot _ _ _ => true
  | .islandReset i => decide (i.toNat < 83)
  | .debugUnlock _ => true
  | .debugTransaction _ a _ => a.toNat % 4 = 0
  | .registerWrite a _ _ => a.toNat % 4 = 0
  | .refinSignalReturn _ => true
  | .sdsPrbsInSync _ => true
  | .sdsPrbsSyncLost _ _ => true
  | .retainedBankScrubBurst _ => true
  | .oscinStop => true
  | .oscinReturn _ => true
  | .flipArm => true
  | .flipCancel => true
  | .rehearsalEnd => true
  | .coordLease => true
  | .tmClaim => true
  | .tmWithdraw => true
  | .tmTakeover => true
  | .fabAligned => true
  | .mateHbEdge => true
  | .mateFail => true
  | .mateReachable => true
  | .mateResyncRequest => true
  | .mateRelease => true
  | .mirrorRecordSend => true
  | .mirrorResend => true
  | .epochCommitSend => true
  | .epochApply => true
  | .dpllLock => true
  | .dpllLockLoss => true
  | .dpllBwStep => true
  | .holdoverUpdate => true
  | .driftClear => true
  | .modelRefitHourly => true
  | .modelRefitDaily => true
  | .clearLearn => true
  | .ppsAlignStep _ => true
  | .pmnBinClear => true
  | .pfcWindowEnd => true
  | .snapRequest => true
  | .dumpDue => true
  | .dumpDone => true
  | .pmRecordWalk => true
  | .flushDue => true
  | .storePerstRelease => true
  | .storeLinkTimeout => true
  | .storeReadyTimeout => true
  | .storeCmdTimeout => true
  | .storeLinkLoss => true
  | .storeFlushDone => true
  | .storeShutdownDone => true
  | .storeRetryTimer => true
  | .storeRetry => true
  | .storeEraseRequest => true
  | .storeFlushRequest => true
  | .budgetRestore => true
  | .pfailFall => true
  | .pfailRise => true
  | .floorHoldExpiry => true
  | .thermalRise => true
  | .thermalFall => true
  | .serviceHour => true
  | .sweepCopyDone => true
  | .hostLinkDown => true
  | .pcieFlr => true
  | .regScrub => true
  | .softReset => true
  | .softResetDone => true
  | .cstsCfs => true

end Sys2Proof
end

