-- ==== Sys2Proof/Certificates/Slice0/Obligations.lean ====
section
/-! DEFINITION. The statements about the model, for the provers. Each is a `Prop`; its docstring says what
it states and the rules of the spec that it rests on. -/

section

open Sys2Proof Sys2Proof.Machine

/-- On an SDH lane in frame, SDH_OOF after five errored patterns declares OOF, counts it and starts the
hunt. Out of frame, SDH_IN_FRAME after two correct patterns at one offset clears OOF and takes that
offset, and a lane in LOCK whose CDR is locked then goes to ACTIVE. MS_RDI_CHANGE sets or clears MS-RDI
while neither LOS, OOF nor LOF is present. B2_WINDOW_END declares MS-EXC (or MS-DEG) above the threshold
of 1,555.2·N errors of STM-N and clears it below a tenth. K_INCONSISTENT declares the defect after
twelve readable frames without a confirmation. Otherwise nothing changes. A defect that becomes declared
sets its bit of LTM_STICKY. No other defect of LTM_STAT and no other register changes. (R59; R60; R61;
R63; R83; R273.) -/
def Obligations.SdhSectionDefects : Prop :=
  ∀ (l : Lane) (s : State), s.up = true → s.isSdh l.val = true →
    let keeps := fun (b : Nat) (regs : List Nat) (t : State) =>
      (∀ d, d ≠ b → d < 32 → t.ltm l.val d = s.ltm l.val d) ∧
        t.rd (Reg.ltmSticky l.val) =
          (if t.ltm l.val b && !s.ltm l.val b then s.rd (Reg.ltmSticky l.val) ||| BitVec.ofNat 32 (2 ^ b)
           else s.rd (Reg.ltmSticky l.val)) ∧
        Frame s t (theseRegs (Reg.ltmStat l.val :: Reg.ltmSticky l.val :: regs)) noBytes
    let goes := fun (found : Bool) =>
      found && decide (s.stage l.val = 3) && s.awake l.val && s.flag (F.sdsStat_cdrLock l.val)
    (Completes (.sdhOof l) s fun t =>
      if s.ltm l.val ltmOof = false ∧ 5 ≤ (s.lane l.val).patBad then
        t.ltm l.val ltmOof = true ∧ t.rd (Reg.ltmOofCnt l.val) = s.rd (Reg.ltmOofCnt l.val) + 1 ∧
        (t.lane l.val).cands = [] ∧ keeps ltmOof [Reg.ltmOofCnt l.val] t
      else t = s) ∧
    (Completes (.sdhInFrame l) s fun t =>
      if (s.sdhFound l.val).isSome = true ∧ s.ltm l.val ltmOof = true then
        t.ltm l.val ltmOof = false ∧ some (t.lane l.val).align = (s.sdhFound l.val).map (·.offset) ∧
        t.stage l.val = (if goes true then 5 else s.stage l.val) ∧
        (goes true = false → keeps ltmOof [] t) ∧
        Frame s t (laneRegs l.val) (orAt pathStatus termStatus)
      else goes (s.lane l.val).inFrameNow = false → t = s) ∧
    (∀ present, Completes (.msRdiChange l present) s fun t =>
      if s.ltm l.val ltmLos = false ∧ s.ltm l.val ltmOof = false ∧ s.ltm l.val ltmLof = false then
        t.ltm l.val ltmMsRdi = present ∧ keeps ltmMsRdi [] t
      else t = s) ∧
    (∀ degrade errors, Completes (.b2WindowEnd l degrade errors) s fun t =>
      let b := if degrade then ltmMsDeg else ltmMsExc
      let expected := 15552 * stmN (s.rate l.val)
      t.ltm l.val b =
        (if errors * 10 > expected then true else if errors * 100 < expected then false else s.ltm l.val b) ∧
      keeps b [] t) ∧
    (Completes (.kInconsistent l) s fun t =>
      if s.ltm l.val ltmKIncons = false ∧ 12 ≤ (s.lane l.val).kMiss then
        t.ltm l.val ltmKIncons = true ∧ keeps ltmKIncons [] t
      else t = s)

/-- On an SDH lane, LOS_DECLARE sets LOS, LOS_CLEAR clears it while the module is present, SDH_LOF_DECLARE
sets LOF after 24 frames of OOF, SDH_LOF_CLEAR clears it after 24 frames in frame, MS_AIS_CHANGE sets or
clears MS-AIS while neither LOS, OOF nor LOF is present. Each completes; where its condition holds,
lane_fail of every monitored path of the lane then is the lane condition that results; where it does
not, the defect stays. Besides LTM_STAT and LTM_STICKY of the lane, only words 3 and 4 of paths and the
status and summaries of terminations change. (R59; R60; R39; R57; R75.) -/
def Obligations.SdhConditionDefects : Prop :=
  ∀ (l : Lane) (s : State), s.up = true → s.isSdh l.val = true →
    let after := fun (b : Nat) (due on : Bool) (t : State) =>
      t.ltm l.val b = (if due then on else s.ltm l.val b) ∧
      (∀ d, d ≠ b → d < 32 → t.ltm l.val d = s.ltm l.val d) ∧
      (due = true → ∀ p ∈ s.pathsFrom l.val, t.laneFailShown p = true) ∧
      Frame s t (orAt (theseRegs [Reg.ltmStat l.val, Reg.ltmSticky l.val]) trbSummary) (orAt pathStatus termStatus)
    let oof := s.ltm l.val ltmOof
    let long := decide (24 ≤ (s.lane l.val).frameRun)
    (Completes (.losDeclare l) s (after ltmLos true true)) ∧
    (Completes (.losClear l) s (after ltmLos (s.flag (F.sdsCfg_modPresent l.val)) false)) ∧
    (Completes (.sdhLofDeclare l) s (after ltmLof (oof && long) true)) ∧
    (Completes (.sdhLofClear l) s (after ltmLof (!oof && long) false)) ∧
    (∀ present, Completes (.msAisChange l present) s
      (after ltmMsAis (!s.ltm l.val ltmLos && !oof && !s.ltm l.val ltmLof) present))

/-- While no LOS, LOF or MS-AIS holds the section overhead, J0_ACCEPT stores the trace, padded to its
length, and RS-TIM is whether it differs from the expected trace while j0_tim_en is set, and S1_ACCEPT
stores S1 as valid; under such a defect neither changes anything. On an AU with a monitored path,
C2_ACCEPT stores C2 and sets HP-PLM, in LTM_AU_STAT and in its paths, when accepted and expected differ
and neither is zero, and clears it when they match (expected 0x01 matches any non-zero C2), and
J1_ACCEPT stores the trace and sets HP-TIM by comparison; without such a path neither changes anything.
(R60; R62; R63; R71; R74.) -/
def Obligations.SdhOverheadAccepted : Prop :=
  ∀ (l : Lane) (n : AuNo) (s : State), s.up = true → s.isSdh l.val = true →
    (∀ trace, Completes (.j0Accept l trace) s fun t =>
      if s.sohHeld l.val then t = s
      else
        let len := if s.flag (F.ltmCfg_j0Len64 l.val) then 64 else 16
        let tr := traceEntry len trace
        t.bytes (0x1901000 + 64 * l.val) len = tr ∧
        t.ltm l.val ltmRsTim =
          (s.flag (F.ltmCfg_j0TimEn l.val) && s.bytes (0x1900000 + 64 * l.val) len ≠ tr) ∧
        Frame s t (theseRegs [Reg.ltmStat l.val, Reg.ltmSticky l.val]) (bytesAt (0x1901000 + 64 * l.val) len)) ∧
    (∀ v, Completes (.s1Accept l v) s fun t =>
      if s.sohHeld l.val then t = s
      else
        t.fget (F.ltmOhRx_s1 l.val) = v.toNat ∧ t.flag (F.ltmOhRx_s1Valid l.val) = true ∧
        t.fget (F.ltmOhRx_k1 l.val) = s.fget (F.ltmOhRx_k1 l.val) ∧
        t.fget (F.ltmOhRx_k2 l.val) = s.fget (F.ltmOhRx_k2 l.val) ∧
        Frame s t (theseRegs [Reg.ltmOhRx l.val]) noBytes) ∧
    (∀ c2, Completes (.c2Accept l n c2) s fun t =>
      if s.auPaths l.val n.toNat = [] then t = s
      else
        let e := bits (s.auCfg l.val n.toNat) 10 3
        let clears := c2.toNat = e ∨ (e = 1 ∧ c2.toNat ≠ 0)
        let sets := ¬clears ∧ c2.toNat ≠ 0 ∧ e ≠ 0
        t.fget (F.ltmAuStat_c2Acc l.val n.toNat) = c2.toNat ∧
        t.flag (F.ltmAuStat_hpPlm l.val n.toNat) =
          (if sets then true else if clears then false else s.flag (F.ltmAuStat_hpPlm l.val n.toNat)) ∧
        (∀ p ∈ s.auPaths l.val n.toNat,
          bit (t.pathWord p 3) 26 = (if sets then true else if clears then false else bit (s.pathWord p 3) 26)) ∧
        t.ptrState l.val n.toNat = s.ptrState l.val n.toNat ∧
        Frame s t (theseRegs [Reg.ltmAuStat l.val n.toNat]) pathStatus) ∧
    (∀ trace, Completes (.j1Accept l n trace) s fun t =>
      if s.auPaths l.val n.toNat = [] then t = s
      else
        let k := 64 * (64 * l.val + n.toNat)
        let len := if bit (s.auCfg l.val n.toNat) 2 then 64 else 16
        let tr := traceEntry len trace
        let tim := decide (s.bytes (0x1910000 + k) len ≠ tr)
        t.bytes (0x1940000 + k) len = tr ∧ t.flag (F.ltmAuStat_hpTim l.val n.toNat) = tim ∧
        (∀ p ∈ s.auPaths l.val n.toNat, bit (t.pathWord p 3) 28 = tim) ∧
        Frame s t (theseRegs [Reg.ltmAuStat l.val n.toNat]) (orAt pathStatus (bytesAt (0x1940000 + k) len)))

/-- On an AU with a monitored path, HP_UNEQ_CHANGE and HP_RDI_CHANGE set their field of LTM_AU_STAT and
their bit of word 3 of every monitored path on the AU. While the AU is in NORM without a lane defect,
LOM_CHANGE sets its LOM, and lop of its monitored TU-2, TU-12 and TU-11 paths follows. For a live lower-
order path, TU_PTR_CHANGE takes the interpreter to NORM, AIS or LOP with ais and lop of word 3,
LP_RDI_CHANGE sets rdi, LP_LABEL_ACCEPT sets uneq by a zero label and, for paths 0-4,095, stores the
label and sets plm by comparison, and J2_ACCEPT of those paths stores the trace and sets tim by
comparison. Each completes, changes no register but the one named, and changes nothing at all where
these conditions do not hold. (R71; R72; R57; R73.) -/
def Obligations.SdhPathDefects : Prop :=
  (∀ (l : Lane) (n : AuNo) (present : Bool) (s : State), s.up = true → s.isSdh l.val = true →
    (Completes (.hpUneqChange l n present) s fun t =>
      if s.auPaths l.val n.toNat = [] then t = s
      else
        t.flag (F.ltmAuStat_hpUneq l.val n.toNat) = present ∧
        (∀ p ∈ s.auPaths l.val n.toNat, bit (t.pathWord p 3) 27 = present) ∧
        Frame s t (theseRegs [Reg.ltmAuStat l.val n.toNat]) pathStatus) ∧
    (Completes (.hpRdiChange l n present) s fun t =>
      if s.auPaths l.val n.toNat = [] then t = s
      else
        t.flag (F.ltmAuStat_hpRdi l.val n.toNat) = present ∧
        (∀ p ∈ s.auPaths l.val n.toNat, bit (t.pathWord p 3) 23 = present) ∧
        Frame s t (theseRegs [Reg.ltmAuStat l.val n.toNat]) pathStatus) ∧
    (Completes (.lomChange l n present) s fun t =>
      if s.laneDefect l.val = true ∨ s.ptrState l.val n.toNat ≠ 0 then t = s
      else
        (t.au l.val n.toNat).lom = present ∧
        (∀ p ∈ s.loPaths l.val n.toNat, t.lopShown p = true) ∧
        Frame s t (theseRegs []) pathStatus)) ∧
  (∀ (p : PathId) (s : State), s.up = true →
    (∀ st : BitVec 2, Completes (.tuPtrChange (.path p) st) s fun t =>
      if s.loLive p.toNat = true ∧ st.toNat ≤ 2 then
        (t.path p.toNat).tu = st ∧ bit (t.pathWord p.toNat 3) 30 = decide (st.toNat = 1) ∧
        bit (t.pathWord p.toNat 3) 29 = (decide (st.toNat = 2) || s.pathLom p.toNat) ∧
        Frame s t (theseRegs []) pathStatus
      else t = s) ∧
    (∀ present, Completes (.lpRdiChange p present) s fun t =>
      if s.loLive p.toNat then
        bit (t.pathWord p.toNat 3) 23 = present ∧ Frame s t (theseRegs []) pathStatus
      else t = s) ∧
    (∀ label, Completes (.lpLabelAccept p label) s fun t =>
      if s.loLive p.toNat then
        let e := s.byte (0x19A0000 + 32 * p.toNat + 16)
        bit (t.pathWord p.toNat 3) 27 = decide (label = 0) ∧
        (p.toNat < 4096 → t.byte (0x19C0000 + 32 * p.toNat + 16) = label ∧
          bit (t.pathWord p.toNat 3) 26 = !(label = e || (e = 1 && label ≠ 0))) ∧
        Frame s t (theseRegs [])
          (orAt pathStatus (bytesAt (0x19C0000 + 32 * p.toNat + 16) (if p.toNat < 4096 then 1 else 0)))
      else t = s) ∧
    (∀ trace, Completes (.j2Accept p trace) s fun t =>
      if s.loLive p.toNat = true ∧ p.toNat < 4096 then
        t.bytes (0x19C0000 + 32 * p.toNat) 16 = traceEntry 16 trace ∧
        bit (t.pathWord p.toNat 3) 28 =
          decide (s.bytes (0x19A0000 + 32 * p.toNat) 16 ≠ traceEntry 16 trace) ∧
        Frame s t (theseRegs []) (orAt pathStatus (bytesAt (0x19C0000 + 32 * p.toNat) 16))
      else t = s))

/-- For an AU in use on a lane without LOS, LOF or MS-AIS, AU_PTR_NORM takes the interpreter from AIS or LOP
to NORM when it has found three identical valid pointers or an enabled NDF with a valid offset, with the
offset of the last pointer; AU_AIS takes it to AIS after three all-ones pointers (of the AU or of a
member of an AU-4-Nc), AU_LOP to LOP after eight invalid pointers or eight enabled NDFs (or eight frames
of a member without its indication), each with au_any set. The bits ais and lop of word 3 of every
monitored path on the AU follow. Where the counts do not say so, or the interpreter is held, its state
stays. Each completes. (R66; R68; R71.) -/
def Obligations.AuPointerStates : Prop :=
  ∀ (l : Lane) (n : AuNo) (s : State), s.up = true →
    let frame := fun (t : State) =>
      Frame s t (orAt (theseRegs [Reg.ltmAuStat l.val n.toNat, Reg.ltmAuDly l.val n.toNat,
        Reg.ltmStat l.val, Reg.ltmSticky l.val]) trbSummary) (orAt pathStatus termStatus)
    let after := fun (st : Nat) (t : State) =>
      t.ptrState l.val n.toNat = st ∧
      (∀ p ∈ s.auPaths l.val n.toNat,
        bit (t.pathWord p 3) 30 = decide (st = 1) ∧ bit (t.pathWord p 3) 29 = decide (st = 2))
    let last := (s.au l.val n.toNat).ptr.last
    (Completes (.auPtrNorm l n) s fun t =>
      frame t ∧
      if s.auRuns l.val n.toNat = true ∧ s.ptrState l.val n.toNat ≠ 0 ∧ s.auPtrFound l.val n.toNat = true then
        after 0 t ∧ t.fget (F.ltmAuStat_ptr l.val n.toNat) = last.toNat % 1024
      else t.ptrState l.val n.toNat = s.ptrState l.val n.toNat) ∧
    (Completes (.auAis l n) s fun t =>
      frame t ∧
      if s.auRuns l.val n.toNat = true ∧ s.ptrState l.val n.toNat ≠ 1 ∧ s.auAllOnes l.val n.toNat = true then
        after 1 t ∧ t.ltm l.val ltmAuAny = true
      else t.ptrState l.val n.toNat = s.ptrState l.val n.toNat) ∧
    (Completes (.auLop l n) s fun t =>
      frame t ∧
      if s.auRuns l.val n.toNat = true ∧ s.ptrState l.val n.toNat ≠ 2 ∧ s.auPtrLost l.val n.toNat = true then
        after 2 t ∧ t.ltm l.val ltmAuAny = true
      else t.ptrState l.val n.toNat = s.ptrState l.val n.toNat)

/-- While no reset is in progress and the device is not retired, LANE_CFG_WRITE stores the merged word when
role and rate are a combination that R269 allows; any other leaves SDS_CFG and sets the cfg_reject
history bit; role and rate in force stay until the frame mark. While the host's writes are taken, on an
SDH lane LTM_CFG_WRITE stores the merged word, but one with au3 = 1 at STM-64 leaves the register;
LTM_AU_CFG_WRITE stores the merged word when the entry keeps the rules of R65 among the entries of the
lane, takes no used AU and has not nc = 3, and otherwise leaves the register with SDH_CFG_REJECT; an
unequipped entry keeps the rules. On a lane of another role neither changes its register. Each completes
and changes nothing outside the lane's registers, what follows from them and the account of host
accesses. (R64; R65; R83; R269; R270; R364; R402; R409.) -/
def Obligations.LaneAndLineConfiguration : Prop :=
  ∀ (l : Lane) (be : BitVec 4) (v : W32) (s : State),
    let block := orAt (regsOf (0x40000 + 0x1000 * l.val) (0x41000 + 0x1000 * l.val)) (orAt trbSummary hostAccount)
    (s.up = true → s.flag F.rstStat_busy = false → s.retired = false → Completes (.laneCfgWrite l be v) s fun t =>
      let new := mergeBe (s.rd (Reg.sdsCfg l.val)) (v &&& 0xFFFE0000) be
      let role := bits new 31 29
      let rate := bits new 28 26
      let lawful := decide (rate ≠ 7 ∧ (role = 0 ∨ (1 ≤ role ∧ role ≤ 3 ∧ 4 ≤ rate) ∨ (role = 4 ∧ rate ≤ 3)))
      (lawful = true → t.rd (Reg.sdsCfg l.val) = new) ∧
      (lawful = false →
        t.rd (Reg.sdsCfg l.val) = s.rd (Reg.sdsCfg l.val) ∧ bit (t.rd (Reg.sdsSticky l.val)) 6 = true) ∧
      t.role l.val = s.role l.val ∧ t.rate l.val = s.rate l.val ∧
      Frame s t (orAt (laneRegs l.val) hostAccount) (orAt pathStatus termStatus)) ∧
    (s.takesHost = true → Completes (.ltmCfgWrite l be v) s fun t =>
      let w := s.merged (Reg.ltmCfg l.val) be v
      t.rd (Reg.ltmCfg l.val) =
        (if s.isSdh l.val = false ∨ (bit w 30 = true ∧ s.rate l.val = 3) then s.rd (Reg.ltmCfg l.val) else w) ∧
      Frame s t block (orAt pathStatus termStatus)) ∧
    (s.takesHost = true → ∀ n : AuNo, Completes (.ltmAuCfgWrite l n be v) s fun t =>
      let a := Reg.ltmAuCfg l.val n.toNat
      let w := s.merged a be v
      let au3 := s.au3 l.val
      let N := stmN (s.rate l.val)
      let cfg := fun m => if m = n.toNat then w else s.auStored l.val m
      let shaped := decide (auTypeOf w = 0) || auShapeOk au3 N w n.toNat
      let covered := decide (auTypeOf w ≠ 0) && (auHead? au3 N cfg n.toNat).isSome
      let takes := auShapeOk au3 N w n.toNat && (auSpan au3 w n.toNat).any fun m => auTypeOf (cfg m) ≠ 0
      let lawful := shaped && !covered && !takes && bits w 29 28 ≠ 3
      t.rd a = (if s.isSdh l.val && lawful then w else s.rd a) ∧
      Told s t (s.isSdh l.val && !lawful) Ev.sdhCfgReject [l.val, n.toNat] ∧
      Frame s t (orAt (theseRegs [a]) hostAccount) noBytes)

/-- While the host's writes are taken, PATH_ENTRY_WRITE of words 0-2, 5 and 7 stores the writable bits of
the enabled bytes, but while valid is 1 the bits [30:18] of word 0 and words 1 and 2 keep their values,
and a write that would change such a bit raises PATH_WRITE_REJECT, once; words 3 and 4 take nothing. A
write of words 0-2 waits for the frame mark. SEL_COMMAND writes word 6 and, with byte 3, clears cmd_rej
and leaves a command to be judged. Each completes and writes nothing but the entry. (R57; R191; R198;
R9; R56; R364.) -/
def Obligations.PathTableWrites : Prop :=
  ∀ (p : PathId) (be : BitVec 4) (v : W32) (s : State), s.takesHost = true →
    let entry := bytesAt (pathAddr p.toNat 0) 32
    let regs := orAt (regsOf 0x110000 0x118000) hostAccount
    let valid := bit (s.pathWord p.toNat 0) 31
    let merge := fun (w : Nat) =>
      let m := pathRw w &&& beMask be &&& (if w = 1 ∧ valid = true then s.path1Mask p.toNat else 0xFFFFFFFF)
      (s.pathWord p.toNat w &&& ~~~m) ||| (v &&& m)
    (∀ w : Fin 8, w.val ≠ 3 → w.val ≠ 4 → w.val ≠ 6 → Completes (.pathEntryWrite p w be v) s fun t =>
      let lock := if valid then pathLocked w.val else 0
      t.pathWord p.toNat w.val = (merge w.val &&& ~~~lock) ||| (s.pathWord p.toNat w.val &&& lock) ∧
      Told s t (merge w.val &&& lock ≠ s.pathWord p.toNat w.val &&& lock) Ev.pathWriteReject [p.toNat] ∧
      (w.val ≤ 2 → (t.path p.toNat).dirty = true) ∧ Frame s t regs entry) ∧
    (∀ w : Fin 8, w.val = 3 ∨ w.val = 4 → Completes (.pathEntryWrite p w be v) s fun t =>
      t.pathWord p.toNat w.val &&& 0x7FFFFFFF = s.pathWord p.toNat w.val &&& 0x7FFFFFFF ∧
      (s.entryBad p.toNat = false → t.pathWord p.toNat w.val = s.pathWord p.toNat w.val) ∧
      Frame s t regs (if s.entryBad p.toNat then entry else noBytes)) ∧
    (Completes (.selCommand p be v) s fun t =>
      t.pathWord p.toNat 6 = (if be.getLsbD 3 then setBits (merge 6) 20 20 0 else merge 6) ∧
      (t.path p.toNat).sel.cmdNew = (be.getLsbD 3 || (s.path p.toNat).sel.cmdNew) ∧
      Told s t false Ev.pathWriteReject [] ∧ Frame s t regs entry)

/-- While the host's writes are taken, TERMINATION_ENTRY_WRITE of words 0-5 stores the writable bits of the
enabled bytes, and the entry then waits for the frame mark. While the entry is enabled, a write that
changes anything but enable is discarded with TRB_CFG_REJECT. A write that sets enable is discarded with
it unless the four paths of the entry are valid, in range, of the type of its kind (feed and emit a
column run on a V-lane, delivery and return an octet block) and on no looped V-lane, and its delivery
and emit positions meet those of no other enabled entry. Words 6 and 7 take nothing. It completes and
writes nothing but the word. (R85; R96; R218; R364.) -/
def Obligations.TerminationEntryWrites : Prop :=
  ∀ (u : TermId) (w : Fin 8) (be : BitVec 4) (v : W32) (s : State), s.takesHost = true →
    Completes (.terminationEntryWrite u w be v) s fun t =>
      let a := termCfgAddr u.toNat w.val
      let old := s.memWord a
      let m := termRw w.val &&& beMask be
      let new := (old &&& ~~~m) ||| (v &&& m)
      let on := bit (s.memWord (termCfgAddr u.toNat 0)) 31
      let keep : W32 := if w.val = 0 then 0x7FFFFFFF else 0xFFFFFFFF
      let entry := fun (k : Nat) => if k = w.val then new else s.memWord (termCfgAddr u.toNat k)
      let col := if bit (entry 0) 30 then 7 else 6
      let oct := if bit (entry 0) 30 then 9 else 8
      let named := fun (k typ : Nat) (lane : Bool) =>
        (s.writtenGeo (bits (entry k) 17 0)).any fun g => g.typ = typ &&
          (if lane then 48 ≤ g.lane && !s.looped (g.lane - 48) else (s.grains g).all fun x => !s.looped (addrV x))
      let apart := (s.othersEnabled u.toNat).all fun q =>
        (s.entryDlv (s.memWord (termCfgAddr q 2))).all (fun x => !(s.entryDlv (entry 2)).contains x) &&
          (s.entryEmit (s.memWord (termCfgAddr q 4))).all fun x => !(s.entryEmit (entry 4)).contains x
      let sound := named 1 col true && named 2 oct false && named 3 oct false && named 4 col true && apart
      let refused := decide (w.val ≤ 5) &&
        (if on then decide (new &&& keep ≠ old &&& keep) else decide (w.val = 0) && bit new 31 && !sound)
      let stored := decide (w.val ≤ 5) && !refused
      t.memWord a = (if stored then new else old) ∧
      (stored = true → (t.term u.toNat).dirty = true) ∧
      Told s t refused Ev.trbCfgReject [u.toNat] ∧
      Frame s t (orAt (regsOf 0x110000 0x118000) hostAccount) (bytesAt a 4)

/-- Each command acts on a termination in use where the counts of its framer call for it, and otherwise
changes nothing. TRB_OOF sets OOF (3 FAS errors, or 2 of 4 Ft or FPS bits) and takes the slip buffer off
centre; TRB_IN_FRAME at a found alignment clears OOF and sets the fill to 1.0 frames; TRB_LOF_CHANGE (24
frames), TRB_MF_LOSS (8 ms, or 915 blocks), TRB_CRC4_OFF (400 ms), TRB_CAS_LOSS, TRB_AIS_CHANGE,
TRB_RAI_CHANGE and, for a TU feed on a live AU, TU_PTR_CHANGE set their flags; CAS_ACCEPT accepts a
value received in 2 multiframes. term_fail is then what its parts give. TRB_FEED_FRAME takes a feed
frame that is complete and not yet taken, unless the path is shed: feed_con is whether a block of it has
CON or a path is looped, V5 errors of a TU feed are counted, a byte-synchronous frame whose flag is not
in frame declares OOF, and in frame the fill grows by the frame, one above the limit being deleted with
a slip. Each completes and writes only the termination's status and its delivery path's. (R87; R88; R89;
R90; R91; R169; R324.) -/
def Obligations.TerminationFraming : Prop :=
  ∀ (u : TermId) (s : State), s.up = true →
    let n := u.toNat
    let x := s.term n
    let oof := s.termFlag n stOof
    let t1 := s.termT1 n
    let frame := fun (t : State) => Frame s t trbSummary (orAt pathStatus (bytesAt (termStatAddr n 0) 32))
    let flags := fun (k : Instr) (due : Bool) (b : Nat) (on : Bool) (P : State → Prop) => Completes k s fun t =>
      if s.termOn n && due then t.termFlag n b = on ∧ t.termFlag n stTermFail = t.termFailNow n ∧ frame t ∧ P t else t = s
    let plain := fun (_ : State) => True
    let found := s.termOn n && (s.framesFound n).isSome &&
      (oof || x.rx.hunt) && !s.termShed n && (!bit (s.termW n 0) 29 || x.rx.inFlag)
    let missed := !oof && x.rx.mfPos.isNone && decide (64 ≤ x.rx.aligned)
    (flags (.trbOof u) (!oof && (if t1 then decide (2 ≤ (x.rx.ftBad.filter id).length) else decide (3 ≤ x.rx.fasBad)))
      stOof true fun t => (t.term n).centred = false) ∧
    (Completes (.trbInFrame u) s fun t =>
      if found then
        t.termFlag n stOof = false ∧ bits (t.termStat n 0) 20 12 = 256 ∧
        (t.term n).fill = (if x.fedAt = s.clock.frames then 2 else 1) * s.frameBits n ∧ frame t
      else t = s) ∧
    (∀ present, flags (.trbLofChange u present) (decide (oof = present) && decide (24 ≤ x.rx.run)) stLof present plain) ∧
    (flags (.trbMfLoss u) (s.termCrc4 n && (missed || decide (915 ≤ x.rx.errored))) stMfLoss true
      fun t => (t.term n).rx.hunt = (missed || x.rx.hunt)) ∧
    (flags (.trbCrc4Off u) (!t1 && bit (s.termW n 0) 26 && s.termFlag n stMfLoss && decide (3200 ≤ x.rx.lossRun))
      stCrc4Off true plain) ∧
    (flags (.trbCasLoss u) (!t1 && s.termSig n && s.casLost n) stCasLoss true fun t => (t.term n).rx.casPos = none) ∧
    (∀ present, flags (.trbAisChange u present) (decide (2 ≤ if present then x.rx.aisLow else x.rx.aisOk))
      stAis present plain) ∧
    (∀ present, flags (.trbRaiChange u false present) (s.raiDue n present) stRai present plain) ∧
    (∀ present, flags (.trbRaiChange u true present)
      (!t1 && s.termSig n && decide (3 ≤ if present then x.rx.mraiOn else x.rx.mraiOff)) stMrai present plain) ∧
    (∀ c : BitVec 5, Completes (.casAccept u c) s fun t =>
      let v := x.rx.sigNow.get 0 c.toNat
      if s.termSig n && s.sigChannel n c.toNat && !s.termFlag n stTermFail && (t1 || !s.termFlag n stCasLoss) &&
          decide (v ≠ 0) && decide (x.rx.sigPrev.get 0 c.toNat = v) then
        (t.term n).cas.get 0 c.toNat = v ∧
        (∀ d, d ≠ c.toNat → (t.term n).cas.get 0 d = x.cas.get 0 d) ∧ Frame s t (theseRegs []) noBytes
      else t = s) ∧
    (∀ st : BitVec 2,
      flags (.tuPtrChange (.term u) st) (!bit (s.termW n 0) 29 && decide (st.toNat ≤ 2) && s.tuLive n && s.tuDue n st.toNat)
        stTuFail (decide (st.toNat ≠ 0)) fun t => (t.term n).tu.state = st) ∧
    (flags (.trbFeedFrame u) (!s.termShed n && s.feedReady n) stFeedCon
      ((s.feedOctets n).any (·.2) || s.termLooped n) fun t =>
        let os := (s.feedOctets n).map (·.1)
        let bsync := bit (s.termW n 0) 29
        let flag := (os.getD (if t1 then 24 else 32) 0).getLsbD 7
        let q := x.tu.frame t1 (s.tuLive n) (s.tuLen n) (s.feedV n) os
        let full := x.fill + (if bsync then s.frameBits n else q.data.length)
        let out := oof || (bsync && !flag)
        let slips := !out && decide (11 * s.frameBits n < 4 * full)
        (t.term n).fedAt = s.clock.frames ∧ t.termFlag n stOof = out ∧
        t.termStat n 5 = s.termStat n 5 + (if bsync then 0 else BitVec.ofNat 32 q.errs) ∧
        (t.term n).fill = (if out then x.fill else if slips then full - s.frameBits n else full) ∧
        bits (t.termStat n 1) 15 0 = (bits (s.termStat n 1) 15 0 + (if slips then 1 else 0)) % 65536)

/-- For an awake lane: in DETECT, RX_DETECT_PROBE (10 ms after a failed one) takes it to TRAIN, or an SDH
lane with its module present to LOCK with OOF, when something is found, and is a failure otherwise.
LANE_TRAINED takes TRAIN to LOCK, LANE_RETRAIN LOCK or CAPS to TRAIN; TRAIN_TIMEOUT after 50 ms and
CAPS_TIMEOUT after 8 frames are failures, the latter with its caps_why. A failure counts in fail_cnt, up
to 8, and in SDS_CNT_FAIL, and leads to DETECT or at the eighth to BACKOFF. CAPS_BLOCK_RECEIVED in CAPS
or ACTIVE keeps the words received without CON; with a correct CRC the block shows in SDS_CAPS_RX and
caps_why. In BACKOFF, BACKOFF_RETRY after a second leaves it when something is found and counts
otherwise; LANE_RETRY leads to DETECT with fail_cnt cleared. Where a command does not apply nothing
changes. (R272; R273; R274; R275; R47; R402.) -/
def Obligations.LaneBringUp : Prop :=
  ∀ (l : Lane) (s : State), s.up = true →
    let x := s.lane l.val
    let frame := fun (t : State) => Frame s t (laneRegs l.val) (orAt pathStatus termStatus)
    let failed := fun (t : State) =>
      let n := min 8 (s.fget (F.sdsStat_failCnt l.val) + 1)
      t.fget (F.sdsStat_failCnt l.val) = n ∧ t.stage l.val = (if n = 8 then 6 else 1) ∧
        t.rd (Reg.sdsCntFail l.val) = s.rd (Reg.sdsCntFail l.val) + 1 ∧ frame t
    let entered := fun (st : Nat) (t : State) =>
      t.stage l.val = st ∧ t.fget (F.sdsStat_failCnt l.val) = s.fget (F.sdsStat_failCnt l.val) ∧ frame t
    let hit := fun (found : Bool) => if s.isSdh l.val then s.flag (F.sdsCfg_modPresent l.val) else found
    let next := if s.isSdh l.val then 3 else 2
    (∀ found, Completes (.rxDetectProbe l found) s fun t =>
      if s.stage l.val = 1 ∧ s.awake l.val = true ∧ x.timer.any (· < 80) = false then
        if hit found then entered next t ∧ (s.isSdh l.val = true → t.ltm l.val ltmOof = true) else failed t
      else t = s) ∧
    (Completes (.laneTrained l) s fun t =>
      if s.stage l.val = 2 ∧ s.awake l.val = true then entered 3 t else t = s) ∧
    (Completes (.laneRetrain l) s fun t =>
      if s.isAmenamin l.val = true ∧ s.awake l.val = true ∧ (s.stage l.val = 3 ∨ s.stage l.val = 4) then entered 2 t
      else t = s) ∧
    (Completes (.trainTimeout l) s fun t =>
      if s.isAmenamin l.val = true ∧ s.awake l.val = true ∧ (s.stage l.val = 2 ∨ s.stage l.val = 3) ∧
        x.timer.any (400 ≤ ·) = true then failed t
      else t = s) ∧
    (Completes (.capsTimeout l) s fun t =>
      if s.stage l.val = 4 ∧ s.awake l.val = true ∧ x.bothAgree = false ∧ x.timer.any (8 ≤ ·) = true then
        failed t ∧ t.fget (F.sdsStat_capsWhy l.val) =
          (if x.capsSeen = false then 1 else if x.capsAgree then 9 else s.fget (F.sdsStat_capsWhy l.val))
      else t = s) ∧
    (∀ received : CapsBlock, Completes (.capsBlockReceived l received) s fun t =>
      if s.isAmenamin l.val = true ∧ s.awake l.val = true ∧ (s.stage l.val = 4 ∨ s.stage l.val = 5) then
        let c := x.caps.merge received
        let why := s.capsWhy l.val c
        (t.lane l.val).caps = c ∧ t.stage l.val = s.stage l.val ∧ Frame s t (laneRegs l.val) noBytes ∧
        (if c.crcOk then
          t.rd (Reg.sdsCapsRx l.val) = capsReg c ∧ t.fget (F.sdsStat_capsWhy l.val) = why ∧
          (t.lane l.val).capsSeen = true ∧ (t.lane l.val).capsAgree = decide (why = 0) ∧
          (t.lane l.val).bothAgree = (decide (why = 0) && c.seen && c.agree)
        else (∀ a, t.rd a = s.rd a) ∧ (t.lane l.val).bothAgree = x.bothAgree)
      else t = s) ∧
    (∀ found, Completes (.backoffRetry l found) s fun t =>
      if s.stage l.val = 6 ∧ x.deep ≠ .exiting ∧ x.timer.any (8000 ≤ ·) = true then
        frame t ∧
        (if hit found then
          t.stage l.val = next ∧ t.fget (F.sdsStat_failCnt l.val) = 0 ∧ t.lanePwr l.val = 0
        else t.stage l.val = 6 ∧ t.rd (Reg.sdsCntFail l.val) = s.rd (Reg.sdsCntFail l.val) + 1)
      else t = s) ∧
    (s.flag F.rstStat_busy = false → Completes (.laneRetry l) s fun t =>
      if s.stage l.val = 6 then
        t.stage l.val = 1 ∧ t.fget (F.sdsStat_failCnt l.val) = 0 ∧ t.lanePwr l.val = 0 ∧
        Frame s t (orAt (laneRegs l.val) hostAccount) (orAt pathStatus termStatus)
      else t.lane l.val = x ∧ Frame s t hostAccount noBytes)

/-- While the framer of an Amenamin lane runs, AMENAMIN_IN_FRAME takes it to IN_FRAME at the offset of a
candidate that has qualified in three frames, AMENAMIN_OOF from IN_FRAME to OOF after 4 failed patterns
or 2 discontinuous numbers, counting it, and AMENAMIN_LOF_DECLARE after 24 frames of OOF declares LOF
and takes an ACTIVE lane to DETECT but within the second of idle_ok; AMENAMIN_LOF_CLEAR after 24 frames
in frame clears LOF. While the CDR runs, DENSITY_WINDOW with transitions thaws the loops (an SDH lane in
LOCK that has been in frame goes to ACTIVE); a low one freezes them and counts, and the 20th in a row
declares LOS on an Amenamin lane: in ACTIVE it goes to DETECT, or with idle_ok hunts for a second.
LANE_LOS_CLEAR after 250 us clears LOS; IDLE_OK_EXPIRY ends the second and takes an ACTIVE lane that
still has LOS or LOF to DETECT. Where a command does not apply nothing changes. (R52; R53; R54; R273;
R277.) -/
def Obligations.AmenaminFraming : Prop :=
  ∀ (l : Lane) (s : State), s.up = true →
    let x := s.lane l.val
    let frame := fun (t : State) => Frame s t (laneRegs l.val) (orAt pathStatus termStatus)
    let stays := fun (t : State) => t.stage l.val = s.stage l.val ∧ frame t
    (Completes (.amenaminInFrame l) s fun t =>
      if s.framerRuns l.val = true ∧ x.framer ≠ .inFrame ∧ (s.qualified l.val).isSome = true then
        (t.lane l.val).framer = .inFrame ∧
        some ((t.lane l.val).align, (t.lane l.val).lastNum) = (s.qualified l.val).map (fun c => (c.offset, c.last)) ∧ stays t
      else t = s) ∧
    (Completes (.amenaminOof l) s fun t =>
      if s.framerRuns l.val = true ∧ x.framer = .inFrame ∧ (4 ≤ x.patBad ∨ 2 ≤ x.numBad) then
        (t.lane l.val).framer = .oof ∧ t.rd (Reg.sdsCntOof l.val) = s.rd (Reg.sdsCntOof l.val) + 1 ∧ stays t
      else t = s) ∧
    (Completes (.amenaminLofDeclare l) s fun t =>
      if s.framerRuns l.val = true ∧ x.framer = .oof ∧ 24 ≤ x.frameRun then
        (t.lane l.val).lof = true ∧
        t.stage l.val = (if s.stage l.val = 5 ∧ x.idleRun = false then 1 else s.stage l.val) ∧ frame t
      else t = s) ∧
    (Completes (.amenaminLofClear l) s fun t =>
      if s.isAmenamin l.val = true ∧ x.framer = .inFrame ∧ 24 ≤ x.frameRun then
        (t.lane l.val).lof = false ∧ stays t
      else t = s) ∧
    (Completes (.densityWindow l false) s fun t =>
      if s.cdrRuns l.val = true then
        t.flag (F.sdsStat_frozen l.val) = false ∧ t.flag (F.sdsStat_cdrLock l.val) = true ∧
        (t.lane l.val).lowRun = 0 ∧ t.flag (F.sdsStat_los l.val) = s.flag (F.sdsStat_los l.val) ∧
        t.stage l.val = (if s.isSdh l.val = true ∧ s.awake l.val = true ∧ s.stage l.val = 3 ∧ x.inFrameNow = true
          then 5 else s.stage l.val) ∧ frame t
      else t = s) ∧
    (Completes (.densityWindow l true) s fun t =>
      let los := s.isAmenamin l.val && decide (20 ≤ x.lowRun + 1) && !s.flag (F.sdsStat_los l.val)
      let idle := s.flag (F.sdsCfg_idleOk l.val)
      let down := los && decide (s.stage l.val = 5) && !idle
      if s.cdrRuns l.val = true then
        t.stage l.val = (if down then 1 else s.stage l.val) ∧
        t.rd (Reg.sdsCntFreeze l.val) =
          s.rd (Reg.sdsCntFreeze l.val) + (if s.flag (F.sdsStat_frozen l.val) then 0 else 1) ∧
        (down = false → t.flag (F.sdsStat_frozen l.val) = true ∧ (t.lane l.val).lowRun = x.lowRun + 1 ∧
          t.flag (F.sdsStat_los l.val) = (los || s.flag (F.sdsStat_los l.val)) ∧
          t.flag (F.sdsStat_cdrLock l.val) = (s.flag (F.sdsStat_frozen l.val) && s.flag (F.sdsStat_cdrLock l.val))) ∧
        (los = true → s.stage l.val = 5 → idle = true →
          (t.lane l.val).idleRun = true ∧ (t.lane l.val).framer ≠ .inFrame) ∧ frame t
      else t = s) ∧
    (Completes (.laneLosClear l) s fun t =>
      if s.isAmenamin l.val = true ∧ 250 ≤ x.losClean then t.flag (F.sdsStat_los l.val) = false ∧ stays t
      else t = s) ∧
    (Completes (.idleOkExpiry l) s fun t =>
      if x.idleRun = true ∧ 8000 ≤ x.idleAge then
        (t.lane l.val).idleRun = false ∧
        t.stage l.val =
          (if s.stage l.val = 5 ∧ (s.flag (F.sdsStat_los l.val) = true ∨ x.lof = true) then 1 else s.stage l.val) ∧
        frame t
      else t = s)

/-- Outside a reset in progress, LANE_POWER_REQUEST stores the request; on a lane that is not OFF and not in
BACKOFF a request of DEEP (or a shed lane) begins an entry, another request cancels one whose PLL still
runs, and starts the exit of a lane in DEEP. DEEP_POINT_OF_NO_RETURN, once the transmitter is idle,
stops the PLL: a lane in ACTIVE shows LOCK, any other DETECT. DEEP_EXIT_DONE makes the lane ACTIVE in
power and resumes it at its stage. LANE_WAKE with wake_rx in STANDBY or DEEP requests ACTIVE and sets
the wake history bit; in BACKOFF it starts the exit, to TRAIN or for an SDH lane DETECT. LANE_TEST
stores the request for the next frame mark. Where a command does not apply nothing changes. (R278; R279;
R280; R283; R325; R402.) -/
def Obligations.LanePower : Prop :=
  ∀ (l : Lane) (s : State), s.up = true →
    let x := s.lane l.val
    let frame := fun (t : State) => Frame s t (laneRegs l.val) (orAt pathStatus termStatus)
    let host := fun (t : State) => Frame s t (orAt (theseRegs [Reg.sdsCtl l.val, Reg.sdsStat l.val]) hostAccount) noBytes
    (∀ pwr : BitVec 2, s.flag F.rstStat_busy = false → Completes (.lanePowerRequest l pwr) s fun t =>
      let deep := decide (2 ≤ pwr.toNat) || x.shedDeep
      t.fget (F.sdsCtl_pwr l.val) = pwr.toNat ∧
      (t.lane l.val).deep =
        (if s.role l.val = 0 ∨ s.stage l.val = 6 then x.deep
         else if deep then (if x.deep = .none then .requested else x.deep)
         else if x.deep = .requested then .none
         else if x.deep = .stopped ∧ s.lanePwr l.val = 2 then .exiting
         else x.deep) ∧
      t.stage l.val = s.stage l.val ∧ host t) ∧
    (Completes (.deepPointOfNoReturn l) s fun t =>
      if x.deep = .idle then
        (t.lane l.val).deep = .stopped ∧ t.stage l.val = (if s.stage l.val = 5 then 3 else 1) ∧
        (t.lane l.val).resume.toNat = t.stage l.val ∧ frame t
      else t = s) ∧
    (Completes (.deepExitDone l) s fun t =>
      if x.deep = .exiting then
        (t.lane l.val).deep = .none ∧ t.lanePwr l.val = 0 ∧ t.stage l.val = x.resume.toNat ∧ frame t
      else t = s) ∧
    (Completes (.laneWake l) s fun t =>
      if s.flag (F.sdsCfg_wakeRx l.val) = true ∧ (s.lanePwr l.val = 1 ∨ s.lanePwr l.val = 2) ∧ x.deep ≠ .exiting then
        t.fget (F.sdsCtl_pwr l.val) = 0 ∧ bit (t.rd (Reg.sdsSticky l.val)) 5 = true ∧
        (s.stage l.val = 6 → (t.lane l.val).deep = .exiting ∧ t.fget (F.sdsStat_failCnt l.val) = 0 ∧
          (t.lane l.val).resume = if s.isSdh l.val then 1 else 2) ∧
        t.stage l.val = s.stage l.val ∧ Frame s t (laneRegs l.val) noBytes
      else t = s) ∧
    (∀ on, s.flag F.rstStat_busy = false → Completes (.laneTest l on) s fun t =>
      t.flag (F.sdsCtl_test l.val) = on ∧ (t.lane l.val).testDue = some on ∧
      t.stage l.val = s.stage l.val ∧ host t)

/-- In TEST with the checker enabled, SDS_PRBS_IN_SYNC sets in_sync; in sync, SDS_PRBS_SYNC_LOST with at
least 256 errors in the block counts 1,024 bits and the errors, clears in_sync and sets sync_lost. In
TEST with the generator enabled, LANE_PRBS_INJECT inverts one transmitted bit. Elsewhere the three
change nothing but the account of the host write. SDS_PRBS_BITS_LO_READ answers the low word and latches
the high bits for the next read of SDS_PRBS_BITS_HI. Each completes. (R283; R171; R402.) -/
def Obligations.LanePrbsTest : Prop :=
  ∀ (l : Lane) (s : State), s.up = true →
    let checks := s.stage l.val = 7 ∧ s.flag (F.sdsPrbs_rxEn l.val) = true
    let checker := theseRegs [Reg.sdsPrbs l.val, Reg.sdsPrbsBitsLo l.val, Reg.sdsPrbsBitsHi l.val, Reg.sdsPrbsErr l.val]
    (Completes (.sdsPrbsInSync l) s fun t =>
      (checks → t.flag (F.sdsPrbs_inSync l.val) = true ∧ Frame s t (theseRegs [Reg.sdsPrbs l.val]) noBytes) ∧
      (¬checks → t = s)) ∧
    (∀ errors, Completes (.sdsPrbsSyncLost l errors) s fun t =>
      let lost := checks ∧ s.flag (F.sdsPrbs_inSync l.val) = true ∧ 256 ≤ errors
      (lost →
        t.flag (F.sdsPrbs_inSync l.val) = false ∧ t.flag (F.sdsPrbs_syncLost l.val) = true ∧
        t.prbsBits l.val = (s.prbsBits l.val + 1024) % 2 ^ 48 ∧
        t.rd (Reg.sdsPrbsErr l.val) = s.rd (Reg.sdsPrbsErr l.val) + BitVec.ofNat 32 errors ∧
        Frame s t checker noBytes) ∧ (¬lost → t = s)) ∧
    (s.flag F.rstStat_busy = false → Completes (.lanePrbsInject l) s fun t =>
      (t.lane l.val).injected = (s.lane l.val).injected +
        (if s.stage l.val = 7 ∧ s.flag (F.sdsPrbs_txEn l.val) = true then 1 else 0) ∧ Frame s t hostAccount noBytes) ∧
    (Completes (.sdsPrbsBitsLoRead l) s fun t =>
      t.io.readData = s.rd (Reg.sdsPrbsBitsLo l.val) ∧ t.io.readError = false ∧
      Sparse.get 0 t.latch (Reg.sdsPrbsBitsHi l.val) = s.rd (Reg.sdsPrbsBitsHi l.val) ∧
      Frame s t hostAccount noBytes)

/-- In frame, a row 0 header replaces the fields of its words without CON. Word 15 without CON gives the
lane its heartbeat, and its QL is accepted after 8 frames; the beat is good when no word has CON and the
heartbeat follows the last by one, and else marks a bad row; on a NATIVE lane no register changes. Out
of frame nothing changes. On a lane that is not OFF, INGRESS_ROW holds the row for its arrival period,
the next one (or by the phase of a fabric or mate lane), unless that has passed; every cell carries CON
while the lane condition holds, and on an Amenamin lane without a parity error, an injected fault or a
phase out of its window the octets are those received, CON staying where it was. On a lane that is OFF
nothing changes. (R47; R48; R225; R229; R251; R39; R22; R221; R36; R38.) -/
def Obligations.HeaderAndRowReceived : Prop :=
  ∀ (l : Lane) (s : State), s.up = true →
    (∀ received : Header, Completes (.headerRow0Received l received) s fun t =>
      if s.framerRuns l.val = true ∧ (s.lane l.val).framer = .inFrame then
        let x := s.lane l.val
        let h := x.hdr.merge received
        let lost := received.con0.getLsbD 3
        let good := decide (received.con0 = 0) && x.heartbeat.any fun b => h.heartbeat = b + 1
        let run := if h.ql = x.qlLast then x.qlRun + 1 else 1
        (t.lane l.val).hdr = h ∧ (t.lane l.val).heartbeat = (if lost then x.heartbeat else some h.heartbeat) ∧
        (t.lane l.val).qlRun = (if lost then 0 else run) ∧
        (t.lane l.val).qlAcc = (if lost = false ∧ 8 ≤ run then some h.ql else x.qlAcc) ∧
        (t.lane l.val).badRow = (x.badRow || !good) ∧
        (s.role l.val = 1 → Frame s t (theseRegs []) noBytes)
      else t = s) ∧
    (∀ r : IngressRow, Completes (.ingressRow l r) s fun t =>
      if s.role l.val = 0 then t = s
      else
        let phased := decide (s.role l.val = 2 ∨ s.role l.val = 3)
        let k := if phased then ((s.clock.period : Int) + 1 - (9 * r.sigma) / 125000).toNat else s.clock.period + 1
        let held := Sparse.get HeldRow.none t.rows (rowKey l.val k)
        (s.clock.period ≤ k → held.period = k ∧
          (t.laneFail l.val = true → ∀ c, (held.row.at c).con = true) ∧
          (s.isAmenamin l.val = true → r.parityBad = [] → (s.island (laneGroup l.val)).parityDue = false →
            phased = false ∨ sigmaOk r.sigma = true →
            ∀ c, (held.row.at c).octet = (r.content.at c).octet ∧
              ((r.content.at c).con = true → (held.row.at c).con = true))) ∧
        (k < s.clock.period → t.rows = s.rows) ∧
        Frame s t (orAt (laneRegs l.val) (theseRegs [Reg.cntLo l.val, Reg.cntHi l.val, Reg.fltCntParity,
          Reg.fabLane l.val, Reg.fabCntFpe])) pathStatus)

/-- On an open program row each completes, adds its words, cost and digest, and writes the positions of its
run that the destination has; all others stay as they were. MOVC and MOVCS write the cells read, with
CON added by force_con and, with check_seq, where SEQ differs from the first word; the mismatches count
in CNT_SEQ, which otherwise stays. FILC writes the fill pattern with CON. SELC writes the pair of
working and protect cells, both with CON where their SEQ differs, counts these in CNT_SEQ, and adds the
CON of both runs to the counts of its selector. On a row that is not open nothing changes. No other
register changes but those of an uncorrectable word found. (R133; R135; R137; R140; R192; R46; R101;
R106; R115; R120; R339.) -/
def Obligations.ColumnInstructions : Prop :=
  ∀ (d : Fin 56) (s : State), s.up = true →
    let c := s.rowOf d.val
    let at' := fun (t : State) => (t.rowOf d.val).slotAt
    let ue := [Reg.memUeAddr, Reg.memCntUe]
    let read := fun (l col : Nat) => s.readCol c.period s.clock.row l col
    let copied := fun (force check : Bool) (x first : Cell) =>
      ({ x with con := x.con || force || (check && decide (x.seq ≠ first.seq)) } : Cell)
    let counts := fun (t : State) (n : Nat) (odd : Nat → Bool) =>
      t.rd (engSeq false d.val) = s.rd (engSeq false d.val) + BitVec.ofNat 32 ((List.range n).filter odd).length
    (∀ f : MovcF, ColCompletes (.movc d f) (.movc f) d.val s (engSeq false d.val :: ue) fun t =>
      let x := fun k => read f.srcLane.toNat (f.srcCol.toNat + k)
      (∀ p, at' t p = if f.dstCol.toNat ≤ p ∧ p ≤ f.dstCol.toNat + f.lenM1.toNat ∧ p < s.payCols d.val then
          some (.one (copied f.forceCon f.checkSeq (x (p - f.dstCol.toNat)) (x 0)))
        else c.slotAt p) ∧
      counts t (f.lenM1.toNat + 1) fun k => f.checkSeq && decide ((x k).seq ≠ (x 0).seq)) ∧
    (∀ f : MovcsF, ColCompletes (.movcs d f) (.movcs f) d.val s (engSeq false d.val :: ue) fun t =>
      let st := movcsStrides f (s.factor c.bank f.srcLane.toNat) (s.factor c.bank d.val)
      let x := fun k => read f.srcLane.toNat (f.srcCol.toNat + k * st.1)
      (0 < st.2 → ∀ k, k ≤ f.countM1.toNat → f.dstCol.toNat + k * st.2 < s.payCols d.val →
        at' t (f.dstCol.toNat + k * st.2) = some (.one (copied f.forceCon f.checkSeq (x k) (x 0)))) ∧
      (∀ p, s.payCols d.val ≤ p ∨ p < f.dstCol.toNat ∨ f.dstCol.toNat + f.countM1.toNat * st.2 < p ∨
        (p - f.dstCol.toNat) % st.2 ≠ 0 → at' t p = c.slotAt p) ∧
      counts t (f.countM1.toNat + 1) fun k => f.checkSeq && decide ((x k).seq ≠ (x 0).seq)) ∧
    (∀ f : FilcF, ColCompletes (.filc d f) (.filc f) d.val s [] fun t =>
      ∀ p, at' t p = if f.dstCol.toNat ≤ p ∧ p ≤ f.dstCol.toNat + f.lenM1.toNat ∧ p < s.payCols d.val then
          some (.one ⟨fillOctet (s.latched.colFill.get 0 f.pattern.toNat) p, true, s.nextSeq⟩)
        else c.slotAt p) ∧
    (∀ f : SelcF, ColCompletes (.selc d f) (.selc f) d.val s (engSeq false d.val :: ue) fun t =>
      let w := fun k => read f.wLane.toNat (f.wCol.toNat + k)
      let q := fun k => read f.pLane.toNat (f.pCol.toNat + k)
      let odd := fun k => decide ((w k).seq ≠ (q k).seq)
      let n := f.lenM1.toNat + 1
      (∀ p, at' t p = if f.dstCol.toNat ≤ p ∧ p ≤ f.dstCol.toNat + f.lenM1.toNat ∧ p < s.payCols d.val then
          let k := p - f.dstCol.toNat
          some (.two f.path { w k with con := (w k).con || odd k } { q k with con := (q k).con || odd k })
        else c.slotAt p) ∧
      counts t n odd ∧
      (t.rowOf d.val).sels = addSel f.path ((List.range n).filter fun k => (w k).con || odd k).length n
        ((List.range n).filter fun k => (q k).con || odd k).length c.sels)

/-- On an open program row or execution frame END ends the program, NOP does nothing and MARK folds its tag
and the cycle count into the digest; each costs one cycle, adds its word, writes no position, and
changes no register. Where the row or frame is not open nothing changes. Each completes. (R158; R159;
R106; R110; R115; R116; R120.) -/
def Obligations.ControlInstructions : Prop :=
  ∀ (s : State), s.up = true →
    (∀ d : Fin 56,
      let still := fun (t : State) => (t.rowOf d.val).buf = (s.rowOf d.val).buf ∧
        (t.rowOf d.val).cycles = (s.rowOf d.val).cycles + 1
      (ColCompletes (.endI (.col d)) .endI d.val s [] fun t => (t.rowOf d.val).ended = true ∧ still t) ∧
      (ColCompletes (.nop (.col d)) .nop d.val s [] fun t =>
        (t.rowOf d.val).digest = foldValue (foldValue (s.rowOf d.val).digest 0xC4000000) 0 ∧ still t) ∧
      (∀ tag, ColCompletes (.mark (.col d) tag) (.mark tag) d.val s [] fun t =>
        (t.rowOf d.val).digest = foldValue (foldValue (foldValue (s.rowOf d.val).digest 0xC8000000)
          (tag.setWidth 32)) (BitVec.ofNat 32 (s.rowOf d.val).cycles) ∧ still t)) ∧
    (∀ d : Fin 16,
      let still := fun (t : State) => (t.frameOf d.val).out = (s.frameOf d.val).out ∧
        (t.frameOf d.val).cycles = (s.frameOf d.val).cycles + 1
      (OctCompletes (.endI (.oct d)) .endI d.val s [] fun t => (t.frameOf d.val).ended = true ∧ still t) ∧
      (OctCompletes (.nop (.oct d)) .nop d.val s [] fun t =>
        (t.frameOf d.val).digest = foldValue (foldValue (s.frameOf d.val).digest 0xC4000000) 0 ∧ still t) ∧
      (∀ tag, OctCompletes (.mark (.oct d) tag) (.mark tag) d.val s [] fun t =>
        (t.frameOf d.val).digest = foldValue (foldValue (foldValue (s.frameOf d.val).digest 0xC8000000)
          (tag.setWidth 32)) (BitVec.ofNat 32 (s.frameOf d.val).cycles) ∧ still t))

/-- In an open execution frame, in the row period of its row, each completes, adds its words, cost and
digest, and writes those positions of its run that lie in the half its engine writes, with the SEQ of
the frame; all others stay. MOVO and MOVOS write the octets read with their CON, MOVO with force_con
added; FILO writes the fill pattern with CON; SELO writes the octets of the committed side, one with CON
giving way in an open window to the octet held for its position, and adds the CON of both runs to the
counts of its selector. An instruction whose first destination position lies in a shed path writes
FILL[0] with CON in its positions and does nothing else. Elsewhere nothing changes. (R142; R144; R145;
R146; R147; R141; R192; R202; R324; R110; R111.) -/
def Obligations.OctetCopies : Prop :=
  ∀ (d : Fin 16) (s : State), s.up = true →
    let c := s.frameOf d.val
    let at' := fun (t : State) => (t.frameOf d.val).octAt
    let ue := [Reg.memUeAddr, Reg.memCntUe]
    let cell := fun (x : Octet × Bool) => some (⟨x.1, x.2, s.octSeq⟩ : Cell)
    (∀ f : MovoF, OctCompletes (.movo d f) (.movo f) d.val s ue fun t =>
      ∀ a, at' t a =
        if f.dst.toNat ≤ a ∧ a ≤ f.dst.toNat + f.lenM1.toNat ∧ inHalf d.val a = true then
          let x := s.readOct (f.src.toNat + (a - f.dst.toNat))
          cell (x.1, x.2 || f.forceCon)
        else c.octAt a) ∧
    (∀ f : MovosF, OctCompletes (.movos d f) (.movos f) d.val s ue fun t =>
      (∀ k, k ≤ f.countM1.toNat → inHalf d.val (f.dst.toNat + k * (f.dstrideM1.toNat + 1)) = true →
        at' t (f.dst.toNat + k * (f.dstrideM1.toNat + 1)) =
          cell (s.readOct (f.src.toNat + k * (f.sstrideM1.toNat + 1)))) ∧
      (∀ a, inHalf d.val a = false ∨ a < f.dst.toNat ∨
        f.dst.toNat + f.countM1.toNat * (f.dstrideM1.toNat + 1) < a ∨
        (a - f.dst.toNat) % (f.dstrideM1.toNat + 1) ≠ 0 → at' t a = c.octAt a)) ∧
    (∀ f : FiloF, OctCompletes (.filo d f) (.filo f) d.val s [] fun t =>
      ∀ a, at' t a =
        if f.dst.toNat ≤ a ∧ a ≤ f.dst.toNat + f.lenM1.toNat ∧ inHalf d.val a = true then
          cell (fillOctet (s.latched.octFill.get 0 f.pattern.toNat) (addrCol a), true)
        else c.octAt a) ∧
    (∀ f : SeloF, OctCompletes (.selo d f) (.selo f) d.val s ue fun t =>
      let n := f.lenM1.toNat + 1
      let protect := (s.path f.path.toNat).entry.isSome && bit (s.pathWord f.path.toNat 6) 28
      let window := decide (0 < (s.path f.path.toNat).sel.window)
      let w := fun k => s.readOct (f.wSrc.toNat + k)
      let q := fun k => s.readOct (f.pSrc.toNat + k)
      let x := fun k => if protect then q k else w k
      let held := fun a => if window && !bit (s.pathWord f.path.toNat 5) 7 then
        (s.heldOct.find? (·.1 = a)).map (·.2) else none
      (∀ a, at' t a =
        if f.dst.toNat ≤ a ∧ a ≤ f.dst.toNat + f.lenM1.toNat ∧ inHalf d.val a = true then
          cell (if (x (a - f.dst.toNat)).2 ∧ (held a).isSome then ((held a).getD 0, false) else x (a - f.dst.toNat))
        else c.octAt a) ∧
      (t.path f.path.toNat).sel.winCon =
        ((s.path f.path.toNat).sel.winCon || (window && (List.range n).any fun k => (x k).2)) ∧
      (t.frameOf d.val).sels = addSel f.path ((List.range n).filter fun k => (w k).2).length n
        ((List.range n).filter fun k => (q k).2).length c.sels)

/-- In an open execution frame, in the row period of its row, each completes. A source is a scratch word or
the octet at the anchor plus a displacement, expanded; one before address 0 has CON. MIX writes at its
anchor the compression of the sum of its sources without CON, each with its gain, limited by sat18 after
each addition, with CON when no source is live; MIXP writes the same sum to its scratch word and no
position. GAIN writes each octet of its run expanded, gained, limited and compressed, with the CON of
its source. An execution in which sat18 limits a sum (MIX, MIXP) or a value compressed (MIX, GAIN) lies
beyond the law's largest counts once in CNT_CLIP, which otherwise stays. A suppressed MIX or GAIN writes
FILL[0] with CON. (R148; R149; R150; R151; R152; R160; R161; R162; R163; R110; R111; R324.) -/
def Obligations.OctetArithmetic : Prop :=
  ∀ (d : Fin 16) (s : State), s.up = true →
    let c := s.frameOf d.val
    let at' := fun (t : State) => (t.frameOf d.val).octAt
    let regs := [Reg.memUeAddr, Reg.memCntUe, engClip d.val]
    let value := fun (f : MixF) (x : BitVec 16) =>
      if x.getLsbD 15 then c.scratch.get (0, true) (x.extractLsb' 8 6).toNat
      else
        let a := (f.anchor.toNat : Int) + (x.extractLsb' 8 7).toInt
        if a < 0 then (0, true) else (expand f.law (s.readOct a.toNat).1, (s.readOct a.toNat).2)
    let live := fun (f : MixF) => f.sources.filter fun x => !(value f x).2
    let sum := fun (f : MixF) => (live f).foldl (fun (r : Int × Bool) x =>
      let v := r.1 + applyGain (x.extractLsb' 0 8).toNat (value f x).1
      (sat18 v, r.2 || decide (sat18 v ≠ v))) (0, false)
    let clips := fun (t : State) (on : Bool) => t.rd (engClip d.val) = s.rd (engClip d.val) + (if on then 1 else 0)
    (∀ f : MixF, OctCompletes (.mix d f) (.mix f) d.val s regs fun t =>
      (∀ a, at' t a =
        if a = f.anchor.toNat ∧ inHalf d.val a = true then
          some ⟨compress f.law (sum f).1, (live f).isEmpty, s.octSeq⟩
        else c.octAt a) ∧
      (t.frameOf d.val).scratch = c.scratch ∧
      clips t ((sum f).2 || decide (lawMax f.law < (sum f).1.natAbs))) ∧
    (∀ f : MixF, OctCompletes (.mixp d f) (.mixp f) d.val s regs fun t =>
      (∀ k, (t.frameOf d.val).scratch.get (0, true) k =
        if k = f.sc.toNat then ((sum f).1, (live f).isEmpty) else c.scratch.get (0, true) k) ∧
      (t.frameOf d.val).out = c.out ∧ clips t (sum f).2) ∧
    (∀ f : GainF, OctCompletes (.gain d f) (.gain f) d.val s regs fun t =>
      let lin := fun (k : Nat) => sat18 (applyGain f.gain.toNat (expand f.lawIn (s.readOct (f.src.toNat + k)).1))
      (∀ a, at' t a =
        if f.dst.toNat ≤ a ∧ a ≤ f.dst.toNat + f.nM1.toNat ∧ inHalf d.val a = true then
          let k := a - f.dst.toNat
          some ⟨compress f.lawOut (lin k), (s.readOct (f.src.toNat + k)).2, s.octSeq⟩
        else c.octAt a) ∧
      clips t ((List.range (f.nM1.toNat + 1)).any fun k => decide (lawMax f.lawOut < (lin k).natAbs)))

/-- In an open execution frame, in the row period of its row, each completes. TONE of a directory entry of
length 0 writes FILL[1] with CON; any other writes sample (frame + phase + i times pstep) modulo the
length, without CON, and all-ones with CON where the tone memory cannot be read. PRBS_G writes the next
octets of its channel without CON and leaves the channel after them. PRBS_C writes no position; its
channel takes the bits of the octets without CON, most significant first. A checker out of sync loads as
many bits as the degree, then confirms, starting anew at a bit that disagrees, and is in sync after 64;
in sync each bit is counted, with an error where it differs from the sequence, and 16 errors or more in
a block of 64 end the sync. A suppressed TONE or PRBS_G writes FILL[0] with CON. (R153; R154; R155;
R165; R166; R167; R168; R171; R110; R111; R324.) -/
def Obligations.TonesAndPatterns : Prop :=
  (∀ (d : Fin 16) (s : State), s.up = true →
    let c := s.frameOf d.val
    let at' := fun (t : State) => (t.frameOf d.val).octAt
    let ue := [Reg.memUeAddr, Reg.memCntUe]
    (∀ f : ToneF, OctCompletes (.tone d f) (.tone f) d.val s ue fun t =>
      let e := s.latched.toneDir.get (0, 0) f.tone.toNat
      let len := min (bits e.2 20 0) 1048576
      ∀ a, at' t a =
        if f.dst.toNat ≤ a ∧ a ≤ f.dst.toNat + f.nM1.toNat ∧ inHalf d.val a = true then
          let k := (s.clock.frame.toNat + f.phase.toNat + (a - f.dst.toNat) * f.pstep.toNat) % len
          let addr := (bits e.1 19 0 + k) % 1048576
          if len = 0 then some ⟨fillOctet (s.latched.octFill.get 0 1) (addrCol a), true, s.octSeq⟩
          else if s.toneBad addr then some ⟨0xFF, true, s.octSeq⟩
          else some ⟨Sparse.get 0 s.latched.tone addr, false, s.octSeq⟩
        else c.octAt a) ∧
    (∀ f : PrbsF, OctCompletes (.prbsGenerate d f) (.prbs false f) d.val s [] fun t =>
      let r := prbsOctets f.poly (f.nM1.toNat + 1) (s.prbsCh f.chan.toNat).reg
      (∀ a, at' t a =
        if f.addr.toNat ≤ a ∧ a ≤ f.addr.toNat + f.nM1.toNat ∧ inHalf d.val a = true then
          some ⟨r.1.getD (a - f.addr.toNat) 0, false, s.octSeq⟩
        else c.octAt a) ∧
      t.prbsCh f.chan.toNat = { s.prbsCh f.chan.toNat with reg := r.2 } ∧
      (∀ ch, ch ≠ f.chan.toNat → t.prbsCh ch = s.prbsCh ch)) ∧
    (∀ f : PrbsF,
      let n := f.chan.toNat
      let regs := [Reg.prbsStat n, Reg.prbsBitsLo n, Reg.prbsBitsHi n, Reg.prbsErr n]
      OctCompletes (.prbsCheck d f) (.prbs true f) d.val s (ue ++ regs) fun t =>
        let taken := (List.range (f.nM1.toNat + 1)).flatMap fun k =>
          let x := s.readOct (f.addr.toNat + k)
          if x.2 then [] else (List.range 8).map fun i => x.1.getLsbD (7 - i)
        let u := taken.foldl (fun u b => u.prbsCheckBit n f.poly b) s
        (t.frameOf d.val).out = c.out ∧ t.prbsCh n = u.prbsCh n ∧ (∀ a ∈ regs, t.rd a = u.rd a) ∧
        (∀ ch, ch ≠ n → t.prbsCh ch = s.prbsCh ch))) ∧
  (∀ (n : BitVec 10) (poly : BitVec 2) (b : Bool) (s : State),
    let x := s.prbsCh n.toNat
    let t := s.prbsCheckBit n.toNat poly b
    let y := t.prbsCh n.toNat
    let next := prbsNext poly x.reg
    let inSync := fun (u : State) => u.flag (F.prbsStat_inSync n.toNat)
    let counted := fun (u : State) => (u.rd (Reg.prbsBitsLo n.toNat), u.rd (Reg.prbsErr n.toNat))
    (inSync s = false → counted t = counted s ∧
      (if x.loaded < (prbsTaps poly).1 then y.reg = prbsLoad x.reg b ∧ y.loaded = x.loaded + 1 ∧ inSync t = false
       else if next.1 = b then
         y.reg = next.2 ∧ y.confirm = x.confirm + 1 ∧ inSync t = decide (x.confirm + 1 = 64)
       else y.loaded = 0 ∧ inSync t = false)) ∧
    (inSync s = true →
      let errs := x.blkErr + (if next.1 = b then 0 else 1)
      t.rd (Reg.prbsBitsLo n.toNat) = s.rd (Reg.prbsBitsLo n.toNat) + 1 ∧
      t.rd (Reg.prbsErr n.toNat) = s.rd (Reg.prbsErr n.toNat) + (if next.1 = b then 0 else 1) ∧
      (if x.blkBits + 1 = 64 ∧ 16 ≤ errs then
         inSync t = false ∧ t.flag (F.prbsStat_syncLost n.toNat) = true ∧ y.loaded = 0
       else inSync t = true ∧ y.reg = next.2 ∧
         (y.blkBits, y.blkErr) = (if x.blkBits + 1 = 64 then (0, 0) else (x.blkBits + 1, errs)))))

/-- In an open execution frame, in the row period of its row, CASX and CASI complete and write one octet at
their destination. For a termination without signalling it is FILL[1] with CON. CASX otherwise writes
the ABCD of its channel that had been accepted when the frame began, in a T1 superframe AB twice, with
CON while none is held, while the termination fails, and on an E1 while its signalling is lost. CASI of
an E1 writes 0 in frame 0 of its multiframe, and otherwise the nibbles of channels m and m + 16; CASI of
a T1 puts the signalling bit of its frame, if it has one, into bit 0 of the octet. A suppressed one
writes FILL[0] with CON. (R156; R157; R169; R170; R110; R111; R324.) -/
def Obligations.SignallingInstructions : Prop :=
  ∀ (d : Fin 16) (s : State), s.up = true →
    let c := s.frameOf d.val
    let wrote := fun (t : State) (x : Nat) (o : Octet) (con : Bool) => ∀ a, (t.frameOf d.val).octAt a =
      if a = x ∧ inHalf d.val a = true then some ⟨o, con, s.octSeq⟩ else c.octAt a
    let ue := [Reg.memUeAddr, Reg.memCntUe]
    let fill := fun (a : Nat) => fillOctet (s.latched.octFill.get 0 1) (addrCol a)
    (∀ f : CasxF, OctCompletes (.casx d f) (.casx f) d.val s [] fun t =>
      let n := f.term.toNat
      let held := (s.term n).casNow.get 0 f.chan.toNat
      let abcd := held % 16
      let fails := decide (held < 16) || s.termFlag n stTermFail
      if s.termSig n = false then wrote t f.dst.toNat (fill f.dst.toNat) true
      else if s.termT1 n = false then
        wrote t f.dst.toNat (BitVec.ofNat 8 abcd) (fails || s.termFlag n stCasLoss)
      else wrote t f.dst.toNat (BitVec.ofNat 8 (if bit (s.termW n 0) 28 then abcd else abcd / 4 * 5)) fails) ∧
    (∀ f : CasiF, OctCompletes (.casi d f) (.casi f) d.val s ue fun t =>
      let n := f.term.toNat
      let m := (s.term n).txPos
      if s.termSig n = false then wrote t f.dst.toNat (fill f.dst.toNat) true
      else if s.termT1 n = false then
        let x := s.readOct (f.src.toNat + m)
        let y := s.readOct (f.src.toNat + m + 16)
        if m = 0 then wrote t f.dst.toNat 0 false
        else wrote t f.dst.toNat (x.1 <<< 4 ||| y.1 &&& 0xF) (x.2 || y.2)
      else
        let v := s.readOct f.src.toNat
        let x := s.readOct (f.src.toNat + 32)
        let esf := bit (s.termW n 0) 28
        let carried := if m = 5 then some 3 else if m = 11 then some 2 else if esf ∧ m = 17 then some 1
          else if esf ∧ m = 23 then some 0 else none
        wrote t f.dst.toNat
          (if carried = none then v.1
           else v.1 &&& 0xFE ||| (if x.1.getLsbD (carried.getD 0) then 1 else 0)) (v.2 || x.2))

/-- PROGRAM_ROW_END, and OCTET_DIGEST_CHECK in row 8, run the rest of the program of an open row or frame
and end it; ecc_sub shows whether a word was uncorrectable. One that ended without loss or substitution
shows its digest in DIG_LIVE; where it differs from the recorded digest of its bank (or the arithmetic
units differed) dig_bad is set, CNT_DIG counts, and the row (column) or the next frame (octet) is
masked, and else dig_bad is clear; positions that nothing wrote count once in CNT_UNWR. A column row
with an uncorrectable word counts in CNT_ECC. RUN_AHEAD of a destination that is not idle, with no row
ahead, ends its row and opens the row of the next period; RUN_AHEAD_V_READ issues the V-output read that
waits. Elsewhere nothing changes. (R106; R107; R112; R121; R122; R123; R124; R385.) -/
def Obligations.ProgramEnds : Prop :=
  ∀ (s : State), s.up = true →
    let own := fun (o : Bool) (d : Nat) (t : State) => Frame s t (fun a =>
      regsOf (engReg o d 0) (engReg o d 0x40) a ||
      theseRegs [Reg.memUeAddr, Reg.memCntUe, Reg.cntLo ((if o then 158 else 102) + d),
        Reg.cntHi ((if o then 158 else 102) + d)] a || regsOf (Reg.prbsStat 0) (Reg.prbsStat 1024) a) noBytes
    let judged := fun (o : Bool) (d : Nat) (u t : State) (bank bad : Bool) (v : W32) (n : Nat) =>
      t.rd (engLive o d) = u.judgedDigest o d bank v ∧ bit (t.rd (engStat o d)) statDigBad = bad ∧
        t.rd (engDigCnt o d) = u.rd (engDigCnt o d) + (if bad then 1 else 0) ∧
        t.rd (engUnwr o d) = u.rd (engUnwr o d) + (if n = 0 then 0 else 1)
    (∀ d : Fin 56, Completes (.programRowEnd d) s fun t =>
      if (s.colEngine d.val).fetch.any (fun c => !c.checked) then
        let r := s.runCol d.val s.clock.row (fun _ _ => true) bankWords (s.rowOf d.val, 0)
        let c := r.1
        let bad := decide (s.judgedDigest false d.val c.bank c.digest ≠ s.rd (engDig false d.val c.bank))
        (t.rowOf d.val).checked = true ∧ (t.rowOf d.val).buf = c.buf ∧
        t.rd (engSeq false d.val) = s.rd (engSeq false d.val) + BitVec.ofNat 32 r.2 ∧
        bit (t.rd (engStat false d.val)) statEccSub = c.subst ∧
        (c.lost = false → c.subst = true → t.rd (engEcc false d.val) = s.rd (engEcc false d.val) + 1) ∧
        (c.lost = false → c.subst = false →
          judged false d.val s t c.bank bad c.digest (s.openCols d.val c) ∧
          (t.rowOf d.val).mask = (c.mask || s.maskedOff || bad)) ∧
        (∀ e : Fin 56, e ≠ d → t.colEngine e.val = s.colEngine e.val) ∧ own false d.val t
      else t = s) ∧
    (∀ (d : Fin 16) (differ : Bool), Completes (.octetDigestCheck d differ) s fun t =>
      if s.inLastRow = true ∧ (s.octEngine d.val).run.any (fun c => !c.checked) = true then
        let r := s.runOct d.val 8 none bankWords (s.frameOf d.val)
        let u := r.1
        let c := r.2
        let bad := differ || decide (u.judgedDigest true d.val c.bank c.digest ≠ u.rd (engDig true d.val c.bank))
        (t.frameOf d.val).checked = true ∧ (t.frameOf d.val).out = c.out ∧
        bit (t.rd (engStat true d.val)) statEccSub = c.subst.isSome ∧
        (c.lost = false → (c.subst = none ∨ differ = true) →
          judged true d.val u t c.bank bad c.digest (u.openOcts d.val c.openRows c) ∧
          (t.octEngine d.val).maskNext = bad) ∧
        (∀ e : Fin 16, e ≠ d → t.octEngine e.val = s.octEngine e.val) ∧ own true d.val t
      else t = s) ∧
    (∀ d : Fin 56, Completes (.runAhead d) s fun t =>
      if (s.colEngine d.val).fetch.any (fun c => !c.idle && !c.lost) = true ∧ (s.colEngine d.val).ahead = none then
        (t.rowOf d.val).checked = true ∧
        (t.colEngine d.val).ahead.map (·.period) = some ((s.rowOf d.val).period + 1) ∧
        (t.colEngine d.val).ahead.map (!·.ended) = some (t.colEngine d.val).waiting ∧
        (∀ e : Fin 56, e ≠ d → t.colEngine e.val = s.colEngine e.val) ∧ own false d.val t
      else t = s) ∧
    (∀ (d : Fin 56) (i : ColIns), s.fetchCol (s.rowOf d.val).bank (s.rowOf d.val).pc = .ins i →
      Completes (.runAheadVRead d) s fun t =>
        if s.rowOpen d.val = true ∧ (s.colEngine d.val).ahead = none ∧ readsV i = true then
          ColIssued s t d.val i ∧ own false d.val t
        else t = s)

/-- FRAME_MARK completes; where it is due (before the marks have started, or after row 8, and no frame mark
since the last row mark) the frame number becomes the one that an alignment step on this mark gives, and
otherwise one more (modulo 2^32; the first mark after boot begins frame 0), with the row and the period
as they were, and a row mark due. ROW_MARK completes; where it is due (the marks have started, and after
row 8 only behind a frame mark) the row is 0 behind a frame mark and otherwise one more, the period is
the next, and the frame is as it was. Where a mark is not due nothing changes. (That the marks are
commands and which may come next is the model's, log entry 8.) (R18; R224; R260; R262; R398.) -/
def Obligations.Marks : Prop :=
  ∀ (late parity : List (Nat × Nat)) (s : State), s.up = true →
    (Completes (.frameMark late parity) s fun t =>
      if s.clock.frameDue || (s.clock.started && s.clock.row ≠ 8) then t = s
      else
        (s.clock.step.all (fun q => q.1 ≠ 1) = true →
          t.clock.frame = if s.clock.started then s.clock.frame + 1 else s.clock.frame) ∧
        (∀ n, s.clock.step = some (1, .number n) → t.clock.frame = n) ∧
        (s.clock.step = some (1, .master) → t.clock.frame = s.fab.masterNum.getD s.clock.frame + 1) ∧
        t.clock.started = true ∧ t.clock.frameDue = true ∧
        t.clock.ended = true ∧ t.clock.row = s.clock.row ∧ t.clock.period = s.clock.period) ∧
    (∀ bits, Completes (.rowMark late bits parity) s fun t =>
      if !s.clock.started || (s.clock.row = 8 && !s.clock.frameDue) then t = s
      else
        t.clock.row = (if s.clock.frameDue then 0 else s.clock.row + 1) ∧ t.clock.period = s.clock.period + 1 ∧
        t.clock.frameDue = false ∧ t.clock.ended = false ∧ t.clock.frame = s.clock.frame)

/-- While the host's writes are taken, FLIP_ARM of a request that no rule of R173 rejects leads to ARMED
with the request, its target and the frame recorded, and a new transaction of a fabric flip; a rejected
one leaves the flip, shows the first reason of R173 and raises FLIP_REJECT. FLIP_CANCEL of a flip that
is ARMED, REHEARSING or READY aborts it with CANCELLED and counts it; in COMMITTED it raises
FLIP_CANCEL_LATE; it changes nothing of the flip else. FLP_FAB_CFG_WRITE is stored unless a flip is
open, which rejects it with BUSY; a new rank order makes its first device the lease holder (log entry
90). REHEARSAL_END in row 8 of the rehearsal frame leads to READY when every destination passes, else to
ABORTED with reason REHEARSAL, and else changes nothing. COORD_LEASE makes the lease due for a device
that is next after a holder silent for 16 frames, and else changes nothing. Each completes. At the frame
mark of its target a COMMITTED flip makes the target bank live in the planes of the request only, and
ends. (R172; R173; R174; R175; R176; R178; R180; R188; R189.) -/
def Obligations.FlipArmAndCancel : Prop :=
  ∀ (s : State), s.up = true →
    let flips := orAt (regsOf 0xC0000 0xD0000) (orAt (regsOf 0x110000 0x118000)
      (orAt hostAccount (theseRegs [Reg.colBank, Reg.octBank, Reg.hifCntCmd])))
    let txn := if s.fabricFlip then s.fget F.flpStat_txn else 0
    let told := fun (t : State) (on : Bool) (e : EvName) (reason : Nat) =>
      Told s t on e [s.flip.req.toNat, txn, reason, s.flip.target.toNat, (s.rd Reg.flpArmedAt).toNat]
    let kept := fun (t : State) => t.flip = s.flip ∧ t.flipState = s.flipState
    (s.takesHost = true →
      (let req := (s.rd Reg.flpReq).extractLsb' 0 4
       let target := s.rd Reg.flpTarget
       let d := (target - s.clock.frame).toNat
       let fabric := req.getLsbD 3
       let same := (req.getLsbD 1 && s.live false = req.getLsbD 0) || (req.getLsbD 2 && s.live true = req.getLsbD 0)
       let reason := if s.flipOpen then 3 else if !req.getLsbD 1 && !req.getLsbD 2 then 0xA else if same then 5
         else if d < (if fabric then 9 else 3) || 2 ^ 30 < d then 4
         else if fabric && !s.flag F.flpCoord_self then 6 else 0
       Completes .flipArm s fun t =>
        (if reason = 0 then t.flipState = flpArmed ∧ t.flip.req = req ∧ t.flip.target = target ∧
            t.flip.coord = fabric ∧ t.rd Reg.flpArmedAt = s.clock.frame ∧ t.flag F.flpStat_uncertain = false ∧
            bit (t.rd Reg.flpFail) 31 = false ∧
            t.fget F.flpStat_txn = (if fabric then (s.fget F.flpCoord_lastTxn + 1) % 2 ^ 16 else s.fget F.flpStat_txn)
         else kept t ∧ t.fget F.flpStat_reason = reason ∧
            Told s t true Ev.flipReject [req.toNat, 0, reason, target.toNat]) ∧
        Frame s t flips noBytes) ∧
      (Completes .flipCancel s fun t =>
        if s.flipStoppable then
          t.flipState = flpAborted ∧ t.fget F.flpStat_reason = frCancelled ∧
          t.rd Reg.flpCntAbort = s.rd Reg.flpCntAbort + 1 ∧
          (s.hif.busy = [] → told t true Ev.flipAbort frCancelled) ∧ Frame s t flips noBytes
        else kept t ∧ told t (s.flipState = flpCommitted) Ev.flipCancelLate frCancelled ∧ Frame s t hostAccount noBytes) ∧
      (∀ (rank : Bool) (be : BitVec 4) (v : W32),
        let a := if rank then Reg.flpFabRank else Reg.flpFabCfg
        let new := mergeBe (s.rd a) (v &&& if rank then 0x00FFFFFF else 0x000000FF) be
        let moves := rank && !s.flipOpen && new ≠ s.rd a
        let first := if moves then bits new 2 0 else s.fget F.flpCoord_coordId
        Completes (.flpFabCfgWrite rank be v) s fun t =>
          t.rd a = (if s.flipOpen then s.rd a else new) ∧
          t.fget F.flpStat_reason = (if s.flipOpen then frBusy else s.fget F.flpStat_reason) ∧
          Told s t s.flipOpen Ev.flipReject [0, 0, frBusy] ∧ t.fget F.flpCoord_coordId = first ∧
          t.flag F.flpCoord_self = (if moves then s.flag F.fabCfg_en && decide (first = s.fget F.fabCfg_deviceId)
            else s.flag F.flpCoord_self) ∧
          Frame s t (orAt (theseRegs [a, Reg.flpStat, Reg.flpCoord]) hostAccount) noBytes)) ∧
    (Completes .rehearsalEnd s fun t =>
      if s.flipState = flpRehearsing ∧ s.inLastRow = true then
        let passes := s.judgeRow.flip.results.all fun q => q.2.fail.isNone
        t.flipState = (if passes then flpReady else flpAborted) ∧
        t.fget F.flpStat_reason = (if passes then s.fget F.flpStat_reason else frRehearsal) ∧
        t.rd Reg.flpCntAbort = s.rd Reg.flpCntAbort + (if passes then 0 else 1) ∧ t.flip.results = []
      else t = s) ∧
    (Completes .coordLease s fun t =>
      if s.flag F.fabCfg_en = true ∧ s.flag F.flpCoord_self = false ∧
          16 ≤ s.silence (s.fget F.flpCoord_coordId) ∧ s.nextHolder = some s.me then
        t.flip = { s.flip with leaseDue := true } ∧ Frame s t (theseRegs []) noBytes
      else t = s) ∧
    (s.flipState = flpCommitted → s.flip.unsure = false → s.flip.target = s.clock.frame →
      let t := s.flipFrameMark
      let b := s.flip.req.getLsbD 0
      t.live false = (if s.flip.req.getLsbD 1 then b else s.live false) ∧
      t.live true = (if s.flip.req.getLsbD 2 then b else s.live true) ∧
      t.flipState = flpIdle ∧ t.rd Reg.flpCntDone = s.rd Reg.flpCntDone + 1)

/-- Each completes; one received with CON changes nothing. A member that receives a PROPOSE of another
device for a transaction that it has not answered, nor has open, is ARMED with its target and request,
or, for the first reason of R184 that holds, keeps its flip and answers NACK with the reason from the
next frame on. A coordinator with this open transaction notes READY of a peer up to two frames before
the target; on NACK it notes it with its reason and, before COMMITTED, aborts with reason NACK and sends
ABORT for 3 frames. COMMIT and ABORT end the answer to their transaction; a READY member of it commits
on COMMIT in the frame before the target, or as an uncertain one that holds valid rehearsals, to flip at
the next frame mark; on ABORT a member before COMMITTED is ABORTED with reason LATE (log entry 28). Else
nothing changes. (R47; R183; R184; R185; R186.) -/
def Obligations.FlipMessages : Prop :=
  ∀ (peer : Peer) (con : Bool) (txn : BitVec 16) (s : State), s.up = true →
    let flips := orAt (regsOf 0xC0000 0xD0000) (orAt (regsOf 0x110000 0x118000)
      (theseRegs [Reg.colBank, Reg.octBank, Reg.hifCntCmd]))
    let me := s.fget F.fabCfg_deviceId
    let openTxn := s.fabricFlip && s.flipOpen && decide (s.fget F.flpStat_txn = txn.toNat)
    let member := !s.flip.coord && openTxn
    let coord := s.flip.coord && openTxn
    let d := (s.flip.target - s.clock.frame).toNat
    let ended := fun (t : State) => t.flip.answer = s.flip.answer.filter fun m => m.txn ≠ txn
    (∀ p : Proposal, p.txn = txn → Completes (.proposeReceived peer p) s fun t =>
      let joins := s.flag F.fabCfg_en && (s.rd Reg.flpFabCfg).getLsbD me
      if p.con || !joins || s.flip.answered = some txn || member || peer.val = me then t = s
      else
        let ahead := (p.target - s.clock.frame).toNat
        let same := (p.col && s.live false = p.bank) || (p.oct && s.live true = p.bank)
        let reason := if s.flipOpen then 3 else if ahead < 8 then 7 else if ahead < 9 || 2 ^ 30 < ahead then 4
          else if same then 5 else if p.src.toNat ≠ s.fget F.flpCoord_coordId then 6 else 0
        t.fget F.flpCoord_lastTxn = txn.toNat ∧ t.flip.answered = some txn ∧ Frame s t flips noBytes ∧
        (if reason = 0 then t.flipState = flpArmed ∧ t.flip.target = p.target ∧ t.flip.coord = false ∧
            t.flip.req = proposalReq p ∧ t.fget F.flpStat_txn = txn.toNat
         else t.flipState = s.flipState ∧ t.fget F.flpStat_txn = s.fget F.flpStat_txn ∧
            t.fget F.flpStat_reason = reason ∧
            t.flip = { s.flip with
              answered := some txn, answerOn := false
              answer := some ⟨3, txn, p.target, proposalReq p, BitVec.ofNat 8 reason, none⟩ })) ∧
    (Completes (.readyReceived peer con txn) s fun t =>
      if !con && coord && decide (2 ≤ d) && decide (d ≤ 2 ^ 30) then
        t.flag (F.flpPeer_ready peer.val) = true ∧ t.flip = s.flip ∧
        Frame s t (theseRegs [Reg.flpPeer peer.val]) noBytes
      else t = s) ∧
    (∀ reason : BitVec 8, Completes (.nackReceived peer con txn reason) s fun t =>
      if con || !coord then t = s
      else
        t.flag (F.flpPeer_nack peer.val) = true ∧ t.flag (F.flpPeer_ready peer.val) = false ∧
        t.fget (F.flpPeer_nackReason peer.val) = reason.toNat ∧ Frame s t flips noBytes ∧
        (if s.flipStoppable then
          t.flipState = flpAborted ∧ t.fget F.flpStat_reason = frNack ∧
          t.rd Reg.flpCntAbort = s.rd Reg.flpCntAbort + 1 ∧
          t.flip.out.getLast? = some ⟨5, txn, s.flip.target, s.flip.req, 0, some 3⟩
         else t.flipState = s.flipState ∧ t.flip = s.flip)) ∧
    (Completes (.commitReceived peer con txn) s fun t =>
      if con then t = s
      else
        let commits := member && decide (s.flipState = flpReady) && if s.flip.unsure then s.rehValid else decide (d = 1)
        ended t ∧ t.flipState = (if commits then flpCommitted else s.flipState) ∧
        t.flip.catchUp = (commits && s.flip.unsure || s.flip.catchUp) ∧
        Frame s t (if commits then flips else theseRegs []) noBytes) ∧
    (Completes (.abortReceived peer con txn) s fun t =>
      if con then t = s
      else
        let aborts := member && s.flipStoppable
        ended t ∧ t.flipState = (if aborts then flpAborted else s.flipState) ∧
        t.fget F.flpStat_reason = (if aborts then frLate else s.fget F.flpStat_reason) ∧
        t.rd Reg.flpCntAbort = s.rd Reg.flpCntAbort + (if aborts then 1 else 0) ∧
        Frame s t (if aborts then flips else theseRegs []) noBytes)

/-- SEL_HOLDOFF_EXPIRY and SEL_WTR_EXPIRY bring a running timer of a selector that runs (valid, sel_en,
named by a live bank) to its last evaluation, and CON_FAIL_EXIT the run of clean evaluations of a side
in CON-fail that is not dense now; they change nothing else (log entry 67). An evaluation puts a dense
side into CON-fail and takes it out after 1 ms without density, ends a hold-off at its last evaluation
with a request if the condition is still present, ends a wait to restore at its last, and selects the
side of the request then in force; a change of side counts, and opens a hold window unless hold is off
or one is open. HOLD_WINDOW_END closes an open window, counting it if its last period showed CON.
PATH_SD_WINDOW_END sets sd of a checked path above the errors expected in its window and clears it below
a tenth of them; PATH_SF_CLEAR clears sf of a monitored path. Each completes, and where it does not
apply changes nothing. (R190; R192; R193; R194; R195; R196; R197; R202; R435.) -/
def Obligations.SelectorEvents : Prop :=
  ∀ (p : PathId) (s : State), s.up = true →
    let n := p.toNat
    let x := s.sel n
    let only := fun (t : State) (y : SelSt) =>
      t.sel n = y ∧ (∀ q, q ≠ n → t.path q = s.path q) ∧ Frame s t (theseRegs []) noBytes
    let last := fun (h : HoldOff) => if h.left.isSome then { h with left := some 1 } else h
    let exitAfter := fun (octet : Bool) => if octet then 8 else 72
    let dense6 := fun (protect : Bool) => bit (s.pathWord n 6) (if protect then 18 else 19)
    (∀ protect : Bool, Completes (.selHoldoffExpiry p protect) s fun t => only t
      (if s.selRuns n = false then x
       else if protect then { x with pHold := last x.pHold } else { x with wHold := last x.wHold })) ∧
    (Completes (.selWtrExpiry p) s fun t =>
      only t (if s.selRuns n then { x with wtr := x.wtr.map fun _ => 1 } else x)) ∧
    (∀ protect : Bool, Completes (.conFailExit p protect) s fun t => only t
      (if s.selRuns n = false ∨ dense6 protect = true then x
       else if protect then (if x.pFail then { x with pClean := exitAfter (s.octetPath n) - 1 } else x)
       else if x.wFail then { x with wClean := exitAfter (s.octetPath n) - 1 } else x)) ∧
    (∀ (octet : Bool) (wCon all pCon : Nat), (s.path n).entry.isSome = true → s.selBad n = false →
      bit (s.pathWord n 5) 31 = true →
      let t := s.evalSel octet n wCon all pCon
      let y := t.sel n
      let req := bits (t.pathWord n 6) 27 24
      let mode := bits (s.pathWord n 5) 29 28
      let dense := fun (con : Nat) =>
        if mode = 0 then decide (1 ≤ con)
        else decide (1 ≤ all) && decide (all ≤ con * (if mode = 1 then 4 else if mode = 2 then 2 else 1)) &&
          (decide (mode ≤ 2) || decide (con ≤ all))
      let wait := exitAfter octet
      let present := fun (side : Bool) =>
        let f := if side then s.sideFails (s.protectPath n) y.pFail else s.sideFails (some n) y.wFail
        f.1 || f.2
      y.wFail = (dense wCon || (x.wFail && decide (x.wClean + 1 < wait))) ∧
      y.pFail = (dense pCon || (x.pFail && decide (x.pClean + 1 < wait))) ∧
      bit (t.pathWord n 6) 19 = dense wCon ∧ bit (t.pathWord n 6) 18 = dense pCon ∧
      (x.wHold.left = some 1 → x.wHold.expired = false → y.wHold = ⟨none, present false⟩) ∧
      (x.pHold.left = some 1 → x.pHold.expired = false → y.pHold = ⟨none, present true⟩) ∧
      y.wtr.isSome = decide (req = reqWtr) ∧
      (x.wtr = some 1 → bits (s.pathWord n 6) 27 24 = reqWtr → req ≠ reqWtr) ∧
      t.sideOf n = reqSide req ∧ y.cmdNew = false ∧
      (let a := if octet then Reg.prtCntOct else Reg.prtCntCol
       t.rd a = s.rd a + (if t.sideOf n = s.sideOf n then 0 else 1)) ∧
      y.window = (if t.sideOf n = s.sideOf n ∨ bit (s.pathWord n 5) 7 = true ∨ 0 < x.window then x.window
        else if octet then 2 else 18)) ∧
    (Completes (.holdWindowEnd p) s fun t =>
      if x.window = 0 then t = s
      else
        (t.sel n).window = 0 ∧ bit (t.pathWord n 6) 21 = false ∧
        t.rd Reg.prtCntHold = s.rd Reg.prtCntHold + (if x.winCon then 1 else 0) ∧
        Frame s t (theseRegs [Reg.prtCntHold]) (bytesAt (pathAddr n 6) 4)) ∧
    (∀ errors count : Nat, Completes (.pathSdWindowEnd p errors count) s fun t =>
      let thr := bits (s.pathWord n 5) 27 25
      if s.sdChecked n = true ∧ 1 ≤ thr ∧ thr ≤ 5 then
        bit (t.pathWord n 3) 25 =
          (if count < errors * 10 ^ (thr + 4) then true
           else if errors * 10 ^ (thr + 4) * 10 < count then false else bit (s.pathWord n 3) 25) ∧
        Frame s t (theseRegs []) (orAt pathStatus (bytesAt (pathAddr n 3) 4))
      else t = s) ∧
    (Completes (.pathSfClear p) s fun t =>
      if (s.path n).entry.any (fun e => bit e.1 24) = true then
        bit (t.pathWord n 3) 24 = false ∧ Frame s t (theseRegs []) (orAt pathStatus (bytesAt (pathAddr n 3) 4))
      else t = s)

/-- While the host's writes are taken, APS_CFG_WRITE of a disabled controller stores a word without en, or
one that the checks of R204 pass; while enabled only a clear of en is stored, which resets its state;
any other write leaves the register and raises MSP_CFG_REJECT. APS_COMMAND stores the command, to be
judged at the next evaluation, and clears cmd_rej. APS_HOLDOFF_EXPIRY and APS_WTR_EXPIRY of an enabled
controller bring a running timer to its last evaluation (log entry 67). MSP_FOP_CHANNEL of an enabled
bidirectional controller whose mismatch has lasted 400 frames declares the failure of protocol and
evaluates it. An evaluation shows the lowest cause of failure of protocol that is present, and sends in
K2 the bridged channel, the architecture and the mode. Each completes, and where it does not apply
changes nothing. (R204; R206; R207; R208; R209; R210; R213.) -/
def Obligations.MspControllers : Prop :=
  ∀ (g : Fin 24) (s : State), s.up = true →
    let n := g.val
    let group := regsOf (Reg.apsCfg n) (Reg.apsCfg n + 0x40)
    let en := s.flag (F.apsCfg_en n)
    let acted := fun (t : State) =>
      t.fget (F.apsKtx_k2 n) = (t.fget (F.apsStat_bridged n) % 16) * 16 + (if t.apsArch n = 2 then 8 else 0) +
        (if t.apsArch n = 0 then 4 else 5) ∧
      (t.flag (F.apsStat_fop n) = true ↔ t.fget (F.apsStat_fopCause n) ≠ 0) ∧ (t.apsSt n).cmdNew = false ∧
      ((∀ k : Fin 15, s.apsLane n k.val < 48) →
        Frame s t (orAt group (theseRegs [Reg.prtCntRej, Reg.hifCntCmd])) (orAt pathStatus fun a =>
          0x1000000 ≤ a && a < 0x1800000 && 12 ≤ a % 32 && a % 32 < 16))
    (∀ (be : BitVec 4) (v : W32), s.takesHost = true →
      let a := Reg.apsCfg n
      let w := s.merged a be v
      let arch := bits w 30 29
      let chans := bits w 20 17
      let p := bits w 26 21
      let wl := fun c => let j := (c - 1) % 5; bits (s.rd (Reg.apsWl n ((c - 1) / 5))) (6 * j + 5) (6 * j)
      let alike := fun l => s.isSdh l && s.rate l = s.rate p && s.flag (F.ltmCfg_sonet l) = s.flag (F.ltmCfg_sonet p) &&
        s.au3 l = s.au3 p && (List.range 64).all fun i =>
          bits (s.rd (Reg.ltmAuCfg l i)) 31 28 = bits (s.rd (Reg.ltmAuCfg p i)) 31 28
      let lawful := decide (arch ≤ 2) && decide (1 ≤ chans) && decide (chans ≤ 14) && (arch = 2 || chans = 1) &&
        (p :: (List.range chans).map fun c => wl (c + 1)).all fun l =>
          decide (l < 48) && alike l && (s.apsOwner l).isNone
      let stored := !bit w 31 || (!en && lawful)
      (Completes (.apsCfgWrite g be v) s fun t =>
        t.rd a = (if stored then w else s.rd a) ∧ Told s t (!stored) Ev.mspCfgReject [n] ∧
        (stored = true → en ≠ bit w 31 → t.apsSt n = ApsSt.init) ∧
        (en = true → stored = true → t.rd (Reg.apsStat n) = 0 ∧ t.rd (Reg.apsKtx n) = 0) ∧
        (en = false → stored = true → bit w 31 = true →
          t.fget (F.apsStat_bridged n) = if arch = 2 then 0 else 1) ∧
        Frame s t (orAt group hostAccount) pathStatus) ∧
      (Completes (.apsCommand g be v) s fun t =>
        t.rd (Reg.apsCmd n) = s.merged (Reg.apsCmd n) be v ∧ t.flag (F.apsStat_cmdRej n) = false ∧
        t.apsSt n = { s.apsSt n with cmdNew := true } ∧
        Frame s t (orAt (theseRegs [Reg.apsCmd n, Reg.apsStat n]) hostAccount) noBytes)) ∧
    (∀ c : BitVec 4, Completes (.apsHoldoffExpiry g c) s fun t =>
      if en then
        (∀ k, (t.apsSt n).hold.get .init k =
          let h := (s.apsSt n).hold.get .init k
          if k = c.toNat ∧ h.left.isSome = true then { h with left := some 1 } else h) ∧
        (t.apsSt n).wtr = (s.apsSt n).wtr ∧ Frame s t (theseRegs []) noBytes
      else t = s) ∧
    (Completes (.apsWtrExpiry g) s fun t =>
      if en then
        t.apsSt n = { s.apsSt n with wtr := (s.apsSt n).wtr.map fun _ => 1 } ∧ Frame s t (theseRegs []) noBytes
      else t = s) ∧
    (Completes (.mspFopChannel g) s fun t =>
      if en && s.apsBidir n && s.apsMismatch n && decide (3600 ≤ (s.apsSt n).fopRun) then
        t.flag (F.apsStat_fop n) = true ∧ (t.apsSt n).fopChan = true ∧ acted t
      else t = s) ∧
    (en = true →
      let t := s.apsAct n
      t.fget (F.apsStat_fopCause n) = (s.apsMode n).apsFop n ∧ acted t)

/-- While no reset is in progress FAB_CFG_WRITE stores the word, but while a fabric or mate lane is beyond
DETECT the identity is kept and a write of its bytes raises FAB_CFG_REJECT (log entry 30); with en = 0
the device has no timing role and no lease. FAB_LANE_WRITE stores the peer, unless the lane is beyond
DETECT, which raises FAB_CFG_REJECT, and clears fpe by 1. TM_CLAIM after 16 frames with an ACTIVE fabric
lane and no claim makes the first in rank the master at once; TM_WITHDRAW of a master that hears an
earlier-ranked claim and TM_TAKEOVER of the first in rank whose master has failed take effect at the
frame mark. FAB_ALIGNED shows a follower aligned after 8 frames at the target; FAB_ALIGN_STEP of one
without an aligned phase decides a step to the master's number on the second mark to come. FAB_PEER_FAIL
after nine rows with only bad rows from a peer, and FAB_PEER_OK after eight frames with a good lane,
show it; the master followed is then the earliest-ranked claimant that has not failed. Each completes;
where it does not apply nothing changes. (R215; R216; R219; R222; R223; R224; R225.) -/
def Obligations.FabricRoles : Prop :=
  ∀ (s : State), s.up = true →
    let stat := theseRegs [Reg.fabStat]
    let fabricActive := decide (∃ l : Lane, s.role l.val = roleFabric ∧ s.stage l.val = stageActive)
    let follows := fun (t : State) =>
      if s.flag F.fabCfg_en = false ∨ s.tmRole = tmMaster then
        t.tmRole = s.tmRole ∧ t.fget F.fabStat_tmId = s.fget F.fabStat_tmId
      else
        t.tmRole = (if t.claimant.isSome then tmFollower else if s.tmRole = tmFollower then tmHolds else s.tmRole) ∧
        t.fget F.fabStat_tmId = (t.claimant.map (· % 8)).getD (s.fget F.fabStat_tmId)
    (∀ (be : BitVec 4) (v : W32), s.flag F.rstStat_busy = false → Completes (.fabCfgWrite be v) s fun t =>
      let old := s.rd Reg.fabCfg
      let new := mergeBe old (v &&& 0xFFF00000) be
      let refused := (be.getLsbD 3 || be.getLsbD 2) && s.identityHeld
      t.rd Reg.fabCfg = (if refused then (old &&& 0x7FFFFFFF) ||| (new &&& 0x80000000) else new) ∧
      Told s t refused Ev.fabCfgReject [] ∧
      (t.flag F.fabCfg_en = false → t.tmRole = tmAlone ∧ t.flag F.fabStat_aligned = false) ∧
      t.flag F.flpCoord_self =
        (t.flag F.fabCfg_en && decide (s.fget F.flpCoord_coordId = t.fget F.fabCfg_deviceId)) ∧
      Frame s t (orAt (theseRegs [Reg.fabCfg, Reg.fabStat, Reg.flpCoord]) hostAccount) noBytes) ∧
    (∀ (l : Lane) (be : BitVec 4) (v : W32), s.flag F.rstStat_busy = false →
      Completes (.fabLaneWrite l be v) s fun t =>
        let held := s.beyondDetect l.val
        t.fget (F.fabLane_peer l.val) =
          (if be.getLsbD 3 && !held then bits v 30 28 else s.fget (F.fabLane_peer l.val)) ∧
        t.flag (F.fabLane_fpe l.val) = (s.flag (F.fabLane_fpe l.val) && !(be.getLsbD 3 && bit v 27)) ∧
        Told s t (be.getLsbD 3 && held) Ev.fabCfgReject [l.val] ∧
        Frame s t (orAt (theseRegs [Reg.fabLane l.val]) hostAccount) noBytes) ∧
    (Completes .tmClaim s fun t =>
      if s.flag F.fabCfg_en && decide (s.tmRole ≠ tmMaster) && fabricActive && decide (s.claimant = none) &&
          decide (16 ≤ s.fab.claimRun) && s.ranksFirst then
        t.tmRole = tmMaster ∧ t.fget F.fabStat_tmId = s.me ∧
        Told s t (s.tmRole = tmAlone || decide (s.fget F.fabStat_tmId ≠ s.me)) Ev.fabTmChange [s.me] ∧
        Frame s t stat noBytes
      else t = s) ∧
    (Completes .tmWithdraw s fun t => t = { s with fab := { s.fab with
      dropDue := s.fab.dropDue ||
        (decide (s.tmRole = tmMaster) && s.claimant.any fun i => decide (s.tmRank i < s.tmRank s.me)) } }) ∧
    (Completes .tmTakeover s fun t => t = { s with fab := { s.fab with
      claimDue := s.fab.claimDue || (s.flag F.fabCfg_en && decide (s.tmRole = tmHolds) &&
        s.peerFailed (s.fget F.fabStat_tmId) && s.ranksFirst) } }) ∧
    (Completes .fabAligned s fun t =>
      if s.followLane.isSome && decide (8 ≤ s.fab.alignRun) then
        t.flag F.fabStat_aligned = true ∧ t.fab.phased = true ∧ Frame s t stat noBytes
      else t = s) ∧
    (Completes .fabAlignStep s fun t =>
      let decides := s.followLane.isSome && !s.fab.phased && s.fab.masterNum.isSome && s.clock.step.isNone
      t = { s with clock := { s.clock with step := if decides then some (2, .master) else s.clock.step } }) ∧
    (∀ i : Peer, Completes (.fabPeerFail i) s fun t =>
      if decide (i.val ≠ s.me) && !s.peerFailed i.val && s.fabPeers.contains i.val &&
          decide (9 ≤ s.fab.badRows.get 0 i.val) then
        t.peerFailed i.val = true ∧ t.rd Reg.fabCntPfail = s.rd Reg.fabCntPfail + 1 ∧ follows t ∧
        (∀ k : Peer, k ≠ i → t.peerFailed k.val = s.peerFailed k.val) ∧
        Frame s t (orAt stat (theseRegs [Reg.fabPeer i.val, Reg.fabCntPfail])) noBytes
      else t = s) ∧
    (∀ i : Peer, Completes (.fabPeerOk i) s fun t =>
      if s.peerFailed i.val && decide (8 ≤ s.fab.goodRows.get 0 i.val) then
        t.peerFailed i.val = false ∧ follows t ∧
        (∀ k : Peer, k ≠ i → t.peerFailed k.val = s.peerFailed k.val) ∧
        Frame s t (orAt stat (theseRegs [Reg.fabPeer i.val])) noBytes
      else t = s) ∧
    (let t := s.masterMark
     t.fab.claimDue = false ∧ t.fab.dropDue = false ∧
     (s.fab.dropDue = true → s.tmRole = tmMaster →
       t.tmRole = (if s.claimant.isSome then tmFollower else tmHolds) ∧ t.flag F.fabStat_aligned = false) ∧
     (s.fab.dropDue = false → s.fab.claimDue = true → s.flag F.fabCfg_en = true → s.tmRole = tmHolds →
       s.claimant = none → t.tmRole = tmMaster ∧ t.fget F.fabStat_tmId = s.me))

/-- While no reset is in progress, REGISTER_WRITE of a GLB, EVT or lane profile register takes the enabled
bytes only: a writable bit takes the bit written, a write-one-to-clear bit written as 1 is cleared,
every other bit keeps its value. A write to a reserved offset changes no register. It completes and
changes nothing but that register and the account of host accesses. (R6; R8; R364; R411.) -/
def Obligations.RegisterWriteBits : Prop :=
  ∀ (addr : BitVec 22) (be : BitVec 4) (v : W32) (s : State), s.up = true → s.flag F.rstStat_busy = false →
    let a := addr.toNat / 4 * 4
    a < 0x8000 ∨ (0x2C000 ≤ a ∧ a < 0x40000) →
    Completes (.registerWrite addr be v) s fun t =>
      (∀ r, regRow? a = some r → ∀ i : Fin 32,
        (t.rd a).getLsbD i.val =
          if be.getLsbD (i.val / 8) then
            if (s.writable r).getLsbD i.val then v.getLsbD i.val && !(v.getLsbD i.val && r.w1c.getLsbD i.val)
            else (s.rd a).getLsbD i.val && !(v.getLsbD i.val && r.w1c.getLsbD i.val)
          else (s.rd a).getLsbD i.val) ∧
      (regRow? a = none → t.rd a = s.rd a) ∧
      Frame s t (orAt (theseRegs [a]) hostAccount) noBytes

/-- In a device that is up, with no reset in progress and outside the mate states that refuse it, a write of
half a program word by any master but MIRROR stores its enabled bytes and clears every rehearsal result
of its bank; a write of a start value stores its writable bits and clears the result of its destination.
A write to a bank that is live or committed changes neither, and is noted for PROG_WRITE_REJECT. Each
completes. (R102; R104; R105; R178; R364.) -/
def Obligations.ProgramMemoryWrites : Prop :=
  ∀ (m : Master) (bank : Bool) (be : BitVec 4) (v : W32) (s : State), s.takesHost = true → m ≠ .mirror → be ≠ 0 →
    let flips := fun (a : Nat) => regsOf 0xC0000 0xD0000 a || regsOf 0x110000 0x118000 a || hostAccount a ||
      theseRegs [Reg.hifCntCmd] a
    (∀ (plane : Plane) (word : BitVec 19) (high : Bool),
      let o := decide (plane = .octet)
      let a := bankAddr o bank word.toNat + if high then 4 else 0
      Completes (.bankWordWrite m plane bank word high be v) s fun t =>
        (s.progLocked m o bank = false →
          t.memWord a = mergeBe (s.memWord a) v be ∧
          (∀ d : Fin 56, o = false ∨ d.val < 16 → bit (t.rd (engReh o d.val bank)) 31 = false) ∧
          Frame s t (orAt flips fun x => regsOf (if o then 0xB1000 else 0xA1000) (if o then 0xB1400 else 0xA2000) x)
            (bytesAt a 4)) ∧
        (s.progLocked m o bank = true → t.discards ≠ [] ∧ Frame s t flips noBytes)) ∧
    (∀ e : Engine,
      let o := (engineOf e).1
      let d := (engineOf e).2
      let a := engStart o d bank
      Completes (.startWrite m e bank be v) s fun t =>
        (s.progLocked m o bank = false →
          t.rd a = mergeBe (s.rd a) (v &&& 0x8007FFFF) be ∧ bit (t.rd (engReh o d bank)) 31 = false ∧
          Frame s t (orAt flips (theseRegs [a, engReh o d bank])) noBytes) ∧
        (s.progLocked m o bank = true → t.rd a = s.rd a ∧ t.discards ≠ [] ∧ Frame s t flips noBytes))

/-- While the host's writes are taken, TONE_DATA_ACCESS writes the enabled ones of the four samples that
OCT_TONE_ADDR selects, the first in [31:24], or reads all four (0xFFFF_FFFF where the tone memory is
uncorrectable), and OCT_TONE_ADDR advances by one, wrapping. TONE_LEN_WRITE with a byte enabled stores
the length and commits the staged base with it; with none it changes nothing. PRBS_RESTART clears
in_sync and leaves the channel with no loaded bits, the sequence at its start and every other channel as
it was. PRBS_BITS_LO_READ answers the low word and latches the high bits for the next read of
PRBS_BITS_HI. Each completes. (R165; R166; R167; R171.) -/
def Obligations.ToneAndPatternRegisters : Prop :=
  ∀ (s : State), s.takesHost = true →
    let a := 4 * s.fget F.octToneAddr_addr
    let mem := regsOf 0x110000 0x118000
    let sample := fun (x : State) (k : Nat) => Sparse.get (0 : BitVec 8) x.tone k
    let next := (s.fget F.octToneAddr_addr + 1) % 2 ^ 18
    (∀ (be : BitVec 4) (v : W32), Completes (.toneDataAccess (some (be, v))) s fun t =>
      (∀ k, sample t k =
        if k = a ∧ be.getLsbD 3 = true then v.extractLsb' 24 8
        else if k = a + 1 ∧ be.getLsbD 2 = true then v.extractLsb' 16 8
        else if k = a + 2 ∧ be.getLsbD 1 = true then v.extractLsb' 8 8
        else if k = a + 3 ∧ be.getLsbD 0 = true then v.extractLsb' 0 8
        else sample s k) ∧
      t.fget F.octToneAddr_addr = next ∧
      Frame s { t with tone := s.tone } (orAt (theseRegs [Reg.octToneAddr]) hostAccount) noBytes) ∧
    (Completes (.toneDataAccess none) s fun t =>
      t.io.readData = (if s.toneBad a then 0xFFFFFFFF
        else sample s a ++ sample s (a + 1) ++ sample s (a + 2) ++ sample s (a + 3)) ∧
      t.io.readError = false ∧ t.fget F.octToneAddr_addr = next ∧
      Frame s t (orAt (if s.toneBad a then mem else theseRegs []) (orAt (theseRegs [Reg.octToneAddr]) hostAccount))
        noBytes) ∧
    (∀ (e : BitVec 8) (be : BitVec 4) (v : W32), Completes (.toneLenWrite e be v) s fun t =>
      let len := Reg.octToneLen e.toNat
      let base := Reg.octToneBase e.toNat
      t.rd len = (if be = 0 then s.rd len
        else (s.rd len &&& ~~~0x801FFFFF) ||| (mergeBe (s.rd len) v be &&& 0x801FFFFF)) ∧
      Sparse.get 0 t.latch base = (if be = 0 then Sparse.get 0 s.latch base else s.rd base) ∧
      Frame s t (orAt (theseRegs [len]) hostAccount) noBytes) ∧
    (∀ ch : BitVec 10, Completes (.prbsRestart ch) s fun t =>
      t.flag (F.prbsStat_inSync ch.toNat) = false ∧
      t.prbsCh ch.toNat = { PrbsSt.init with last := (s.prbsCh ch.toNat).last } ∧
      (∀ k, k ≠ ch.toNat → t.prbsCh k = s.prbsCh k) ∧
      Frame s t (orAt (theseRegs [Reg.prbsStat ch.toNat]) hostAccount) noBytes) ∧
    (∀ ch : BitVec 10, Completes (.prbsBitsLoRead ch) s fun t =>
      t.io.readData = s.rd (Reg.prbsBitsLo ch.toNat) ∧ t.io.readError = false ∧
      Sparse.get 0 t.latch (Reg.prbsBitsHi ch.toNat) = s.regView (Reg.prbsBitsHi ch.toNat) ∧
      Frame s t hostAccount noBytes)

/-- A master that already waits has no second transaction. Otherwise XBR_LOCK and XBR_TRANSACTION are
answered with LEASE after a lease has run out, once; a lock of REGS by another master than HOST with
DENIED; and one to a target that is neither held nor above every target held with ORDER; the last two
count in XBR_CNT_ORDER, and XBR_ERR shows each. A lock of a target held by another waits, and else is
granted; a transaction to a target locked by another waits, but for DEBUG at SRAM and REGS.
XBR_LEASE_EXPIRY of a master with a lock releases its locks, counts and leaves a LEASE error, and
abandons its transaction in progress; XBR_ABANDON releases them, drops its transaction, records ABANDON
and counts; then those that wait are served. A DEBUG transaction of a closed master reads 0, counts, and
is reported once in a second. DEBUG_UNLOCK stores unlock in FIELD alone. Each completes. (R351; R352;
R353; R354; R355; R408.) -/
def Obligations.CrossbarLocks : Prop :=
  ∀ (m : Fin 6) (x : Target) (s : State), s.up = true →
    let n := targetNo x
    let held := fun (t : State) (i : Nat) => (t.fget F.xbrLocks_held).testBit i
    let mine := fun (k : Nat) => held s (5 * m.val + k)
    let ordered := mine n || (List.range 5).all fun k => !mine k || decide (k < n)
    let others := (List.range 6).any fun k => decide (k ≠ m.val) && held s (5 * k + n)
    let waiting := (s.outstanding m.val).isSome
    let freed := fun (t : State) => ∀ i : Fin 30, held t i.val = (held s i.val && decide (i.val / 5 ≠ m.val))
    let error := fun (cause : Nat) => BitVec.ofNat 32 (2 ^ 31 + m.val * 2 ^ 28 + n * 2 ^ 25 + cause * 2 ^ 22)
    let refused := fun (cause : Nat) (t : State) =>
      t.io.readError = true ∧ t.rd Reg.xbrErr = error cause ∧
      t.rd Reg.xbrCntOrder = s.rd Reg.xbrCntOrder + (if cause = xeLease then 0 else 1) ∧
      t.hk.leaseErr = (if cause = xeLease then s.hk.leaseErr.filter (· ≠ m.val) else s.hk.leaseErr) ∧
      Frame s t (theseRegs [Reg.xbrErr, Reg.xbrCntOrder]) noBytes
    let waits := fun (ask : XbrAsk) (t : State) =>
      t.outstanding m.val = some ⟨x, ask, false⟩ ∧
      (∀ k : Fin 6, k ≠ m → t.outstanding k.val = s.outstanding k.val) ∧ Frame s t (theseRegs []) noBytes
    (Completes (.xbrLock m x) s fun t =>
      if waiting then t = s
      else if s.hk.leaseErr.contains m.val then refused xeLease t
      else if n = 1 ∧ m.val ≠ 0 then refused xeDenied t
      else if ordered = false then refused xeOrder t
      else if others then waits .lock t
      else (∀ i : Fin 30, held t i.val = (held s i.val || decide (i.val = 5 * m.val + n))) ∧
        Frame s t (theseRegs [Reg.xbrLocks]) noBytes) ∧
    (∀ addr w release, m.val ≠ 5 ∨ s.debugOpen = true → Completes (.xbrTransaction m x addr w release) s fun t =>
      if waiting then t = s
      else if s.hk.leaseErr.contains m.val then refused xeLease t
      else if ordered = false then refused xeOrder t
      else others = true → (m.val = 5 → n ≠ 1 ∧ n ≠ 3) → waits (.beat addr w release) t) ∧
    (Completes (.xbrLeaseExpiry m) s fun t =>
      let holds := (List.range 5).any mine
      let u := s.endLease m.val
      t = u.serveAll ∧
      (if holds then
        freed u ∧ u.rd Reg.xbrCntLease = s.rd Reg.xbrCntLease + 1 ∧ u.hk.leaseErr.contains m.val = true ∧
        u.outstanding m.val = none ∧
        u.rd Reg.xbrCntAbandon = s.rd Reg.xbrCntAbandon + (if waiting then 1 else 0) ∧
        Frame s u (theseRegs [Reg.xbrLocks, Reg.xbrCntLease, Reg.xbrErr, Reg.xbrCntAbandon]) noBytes
       else u = s)) ∧
    (Completes (.xbrAbandon m x) s fun t =>
      let u := s.abandon m.val n
      t = u.serveAll ∧ freed u ∧ u.outstanding m.val = none ∧ u.rd Reg.xbrErr = error xeAbandon ∧
      u.rd Reg.xbrCntAbandon = s.rd Reg.xbrCntAbandon + 1 ∧ Told s u true Ev.xbrAbandon [m.val, n] ∧
      Frame s u (theseRegs [Reg.xbrLocks, Reg.xbrErr, Reg.xbrCntAbandon]) noBytes) ∧
    (s.hk.waits = [] → s.serveAll = s) ∧
    (∀ addr w,
      (Completes (.debugTransaction x addr w) s fun t =>
        Machine.exec (.xbrTransaction 5 x addr w false) s = .next t) ∧
      (s.debugOpen = false → ∀ release, Completes (.xbrTransaction 5 x addr w release) s fun t =>
        t.io.readData = 0 ∧ t.rd Reg.rstCntDbg = s.rd Reg.rstCntDbg + 1 ∧
        Told s t (!s.power.denySaid) Ev.debugDenied [] ∧ t.power.denySaid = true ∧
        Frame s t (theseRegs [Reg.rstCntDbg]) noBytes)) ∧
    (∀ on, s.flag F.rstStat_busy = false → Completes (.debugUnlock on) s fun t =>
      let field := decide (s.lc = 2)
      t.flag F.rstDbg_unlock = (if field then on else s.flag F.rstDbg_unlock) ∧
      (field = true → t.flag F.rstStat_dbgOpen = on) ∧
      Told s t (field && on && !s.flag F.rstDbg_unlock) Ev.debugUnlock [] ∧
      Frame s t (orAt (theseRegs [Reg.rstDbg, Reg.rstStat]) hostAccount) noBytes)

/-- A transaction of a master that does not wait, has no LEASE error and is in order, to a target that no
other master holds (or of DEBUG, when open, past a lock on REGS), with no other waiting, completes: at
REGS and LANECTL it reads a plain register's value or writes its writable bits in the enabled bytes; at
SRAM a read of an entry of the path table whose bank is free answers its word (0xFFFF_FFFF where
uncorrectable), and one whose bank is not free is raised as a request and waits; at OTP and STORE it
changes no register. One that releases ends the locks of its master when it is served. In the safe halt
a host read of GLB, RST or FLT registers answers them, any other reads 0, and all else is discarded.
Each completes. (R351; R352; R353; R413; R364; R389; R408; R6.) -/
def Obligations.CrossbarAccess : Prop :=
  ∀ (m : Fin 6) (x : Target) (addr : BitVec 26) (s : State),
    let a := addr.toNat / 4 * 4
    let n := targetNo x
    let plain := a < 0x4000 ∧ a ≠ Reg.evtStat
    let counts := theseRegs [Reg.xbrLocks]
    let released := fun (release : Bool) (t : State) => release = true → ∀ k : Fin 5, t.holdsLock m.val k.val = false
    (s.up = true → s.flag F.rstStat_busy = false → s.hk.waits = [] → s.hk.leaseErr.contains m.val = false →
      s.inOrder m.val n = true → (s.heldByOther m.val n = false ∨ (m.val = 5 ∧ n = 1)) →
      (m.val = 5 → s.debugOpen = true) → ∀ release : Bool,
      (x = .regs ∨ x = .lanectl → plain →
        (Completes (.xbrTransaction m x addr none release) s fun t =>
          t.io.readData = s.rd a ∧ t.io.readError = false ∧ released release t ∧
          Frame s t (orAt counts hostAccount) noBytes) ∧
        (∀ be v r, regRow? a = some r → Completes (.xbrTransaction m x addr (some (be, v)) release) s fun t =>
          t.rd a &&& s.writable r = mergeBe (s.rd a) v be &&& s.writable r &&& ~~~(v &&& beMask be &&& r.w1c) ∧
          released release t ∧ Frame s t (orAt (theseRegs [a]) (orAt counts hostAccount)) noBytes)) ∧
      (x = .sram → 0x1000000 ≤ a → a < 0x1800000 → Completes (.xbrTransaction m x addr none release) s fun t =>
        let p := portOf m.val
        if s.clearWay p (addr.toNat / 131072) then
          t.io.readData = (if s.ueAt a then 0xFFFFFFFF else s.shownWord a) ∧ t.io.readError = false ∧
          released release t ∧ Frame s t (orAt (orAt (regsOf 0x110000 0x118000) (regsOf 0xF9000 0xFA000))
            (orAt counts hostAccount)) noBytes
        else
          t.io = s.io ∧ t.outstanding m.val =
            some ⟨x, .beat addr none release, (s.hk.reqs.find? fun q => q.1 = p && !q.2.granted).isNone⟩ ∧
          Frame s t (orAt (regsOf 0x110000 0x118000) (regsOf 0xF9000 0xFA000)) noBytes) ∧
      (x = .otp ∨ x = .store → ∀ w, Completes (.xbrTransaction m x addr w release) s fun t =>
        released release t ∧ t.io.readError = (if m.val = 0 ∨ w.isSome = true then s.io.readError else false) ∧
        Frame s t counts noBytes)) ∧
    (s.outOfReset = true → s.power.safeHalt = true → ∀ w release,
      Completes (.xbrTransaction m x addr w release) s fun t =>
        let answered := a < 0x4000 ∨ (0x8000 ≤ a ∧ a < 0x10000) ∨ (0x128000 ≤ a ∧ a < 0x130000)
        if m.val ≠ 0 ∨ w.isSome = true then t = s
        else t.io.readData = (if x = .regs ∧ answered then s.rd a else 0) ∧ Frame s t (theseRegs []) noBytes)

/-- In a device that is up each completes and writes only the ring's registers. CRING_CFG_WRITE stores en by
byte 3 and size by byte 0, the size only while the ring was off; with byte 3 the entries fetched are
dropped, and en = 1 sets head and tail to 0, en = 0 ends a fault. CRING_TAIL_WRITE stores the tail, and
one outside the ring stops the ring with HIF_CMD_FAULT. ERING_CFG_WRITE stores the enabled bytes, its
size only while off; en = 1 sets head and tail to 0 and the phase to 1, and the first after boot raises
RST_BOOT with the cause. ERING_HEAD_WRITE stores the head. (R367; R374; R378; R398.) -/
def Obligations.RingRegisters : Prop :=
  ∀ (be : BitVec 4) (v : W32) (s : State), s.up = true →
    let on := be.getLsbD 3 && bit v 31
    (∀ r : Fin 4,
      let n := r.val
      let en := s.flag (F.hifCringCfg_en n)
      let fault := s.flag (F.hifCringCfg_fault n)
      let regs := orAt (theseRegs [Reg.hifCringCfg n, Reg.hifCringHead n, Reg.hifCringTail n]) hostAccount
      (Completes (.cringCfgWrite r be v) s fun t =>
        t.flag (F.hifCringCfg_en n) = (if be.getLsbD 3 then bit v 31 else en) ∧
        t.flag (F.hifCringCfg_fault n) = (fault && !(be.getLsbD 3 && !bit v 31)) ∧
        t.fget (F.hifCringCfg_size n) = (if be.getLsbD 0 && !en then bits v 3 0 else s.fget (F.hifCringCfg_size n)) ∧
        t.rd (Reg.hifCringHead n) = (if on then 0 else s.rd (Reg.hifCringHead n)) ∧
        t.rd (Reg.hifCringTail n) = (if on then 0 else s.rd (Reg.hifCringTail n)) ∧
        t.fetchedOn n = (if be.getLsbD 3 then [] else s.fetchedOn n) ∧
        (∀ k : Fin 4, k ≠ r → t.fetchedOn k.val = s.fetchedOn k.val) ∧ Frame s t regs noBytes) ∧
      (Completes (.cringTailWrite r be v) s fun t =>
        let tail := bits (mergeBe (s.rd (Reg.hifCringTail n)) v be) 15 0
        let stops := decide (be ≠ 0) && decide (s.cringLen n ≤ tail)
        t.fget (F.hifCringTail_index n) = tail ∧ t.flag (F.hifCringCfg_fault n) = (fault || stops) ∧
        Told s t (stops && !fault) Ev.hifCmdFault [n] ∧ Frame s t regs noBytes)) ∧
    (∀ e : Fin 2,
      let n := e.val
      let cfg := Reg.hifEringCfg n
      let m : W32 := if s.flag (F.hifEringCfg_en n) then 0xFFFFFFC0 else 0xFFFFFFCF
      let regs := orAt (theseRegs [cfg, Reg.hifEringHead n, Reg.hifEringTail n]) hostAccount
      let phase := fun (x : State) => if n = 0 then x.evt.phase0 else x.evt.phase1
      (Completes (.eringCfgWrite e be v) s fun t =>
        t.rd cfg = (s.rd cfg &&& ~~~m) ||| (mergeBe (s.rd cfg) v be &&& m) ∧
        t.rd (Reg.hifEringHead n) = (if on then 0 else s.rd (Reg.hifEringHead n)) ∧
        t.rd (Reg.hifEringTail n) = (if on then 0 else s.rd (Reg.hifEringTail n)) ∧
        phase t = (on || phase s) ∧ t.power.bootSaid = (on || s.power.bootSaid) ∧
        Told s t (on && !s.power.bootSaid) Ev.rstBoot [0, 0, s.fget F.rstStat_cause] ∧ Frame s t regs noBytes) ∧
      (Completes (.eringHeadWrite e be v) s fun t =>
        t.fget (F.hifEringHead_index n) = bits (mergeBe (s.rd (Reg.hifEringHead n)) v be) 15 0 ∧
        Frame s t regs noBytes))

/-- COMMAND_FETCH of a ring that is enabled, has no fault and has entries, while the device may issue DMA,
takes as many of the entries read as lie between head and tail, at most 8, and the head moves past them
modulo the ring; a failed read stops the ring with its fault bit and HIF_CMD_FAULT, and moves nothing.
Otherwise it changes nothing. DMA_TIMEOUT of a LOAD_BANK in progress on the ring, or of one that begins
at its front, completes it with DMA_ERROR; else it is the timeout of a fetch, which stops a ring that
fetches (log entry 49). Each completes. (R366; R367; R370; R363.) -/
def Obligations.CommandFetching : Prop :=
  ∀ (r : Fin 4) (s : State), s.up = true →
    let n := r.val
    let head := s.fget (F.hifCringHead_index n)
    let due := (s.fget (F.hifCringTail_index n) + s.cringLen n - head) % s.cringLen n
    let fetches := s.flag (F.hifCringCfg_en n) && !s.flag (F.hifCringCfg_fault n) && s.dmaOn && decide (0 < due)
    let stops := fun (t : State) =>
      if fetches then
        t.flag (F.hifCringCfg_fault n) = true ∧ t.hif = s.hif ∧ Told s t true Ev.hifCmdFault [n] ∧
        Frame s t (theseRegs [Reg.hifCringCfg n]) noBytes
      else t = s
    let dies := fun (c : CmdEntry) (t : State) => CmdDone s t n c csDmaError ∧
      t.rd Reg.hifCntDmaerr = s.rd Reg.hifCntDmaerr + 1 ∧ t.hif.busy.find? (·.1 = n) = none ∧
      Frame s t (theseRegs [Reg.hifCntCmd, Reg.hifCntDmaerr]) noBytes
    (∀ es : List (List W32),
      (Completes (.commandFetch r es true) s fun t =>
        let k := min es.length (min 8 due)
        if fetches then
          t.fetchedOn n = s.fetchedOn n ++ (t.fetchedOn n).drop (s.fetchedOn n).length ∧
          ((t.fetchedOn n).drop (s.fetchedOn n).length).map (·.words) =
            (es.take k).map (fun ws => (List.range 16).map fun i => ws.getD i 0) ∧
          (head < s.cringLen n → t.fget (F.hifCringHead_index n) = (head + k) % s.cringLen n) ∧
          Frame s t (theseRegs [Reg.hifCringHead n, Reg.cntLo 96, Reg.cntHi 96]) noBytes
        else t = s) ∧
      Completes (.commandFetch r es false) s stops) ∧
    (Completes (.dmaTimeout r) s fun t =>
      match s.loading n, s.nextCmd n with
      | some (c, _, _), _ => dies c t ∧ t.hif.fetched = s.hif.fetched
      | none, some c =>
        if c.op = opLoadBank ∧ loadOk c = true ∧ s.retired = false then
          dies c t ∧ t.fetchedOn n = (s.fetchedOn n).drop 1
        else stops t
      | none, none => stops t)

/-- When an event ring is enabled, has room and an event staged, and DMA is on, EVENT_WRITE writes the
oldest staged event of the ring as eight words at base + 32 times tail, with the ring's phase bit and
lost bit in word 0, removes it from staging and advances the tail modulo the ring; the phase turns over
when the tail wraps, and the lost bit clears. The vector is signalled with it when the coalescing time
is 0 or the entries since the last signal exceed the coalescing count; otherwise the entry is counted
towards it. EVENT_COALESCE_EXPIRY signals a ring whose entries have waited their coalescing time. A
signal is the message of the vector's table entry, or its pending bit while the vector is masked.
Otherwise they change nothing. Each completes. (R366; R367; R371; R372; R374.) -/
def Obligations.EventDelivery : Prop :=
  ∀ (e : Fin 2) (s : State), s.up = true →
    let n := e.val
    let regs := orAt (theseRegs [Reg.hifEringTail n, Reg.cntLo 97, Reg.cntHi 97])
      (regsOf (Reg.hifMsixPba 0) (Reg.hifMsixPba 32))
    let tail := s.fget (F.hifEringTail_index n)
    let next := (tail + 1) % s.eringLen n
    let vec := s.fget (F.hifEringCfg_vec n)
    let word := fun (i : Nat) => s.rd (Reg.hifMsixTable (4 * vec + i))
    let masked := bit (word 3) 0
    let signals := fun (t : State) (before : List (Nat × W32)) =>
      t.since n = 0 ∧
      (if masked then bit (t.rd (Reg.hifMsixPba (vec / 32))) (vec % 32) = true ∧ t.io.posted = before
       else t.io.posted = before ++ [((word 0).toNat + 2 ^ 32 * (word 1).toNat, word 2)])
    (Completes (.eventWrite e) s fun t =>
      match s.evt.staged.find? fun y => y.ring = decide (n = 1) with
      | none => t = s
      | some x =>
        if s.flag (F.hifEringCfg_en n) && s.dmaOn && decide (next ≠ s.fget (F.hifEringHead_index n)) then
          let phase := if n = 0 then s.evt.phase0 else s.evt.phase1
          let lost := if n = 0 then s.evt.lost0 else s.evt.lost1
          let base := (s.rd (Reg.hifEringBaseLo n)).toNat + 2 ^ 32 * (s.rd (Reg.hifEringBaseHi n)).toNat
          let ws := BitVec.ofNat 32 (b2n phase * 2 ^ 31 + b2n lost * 2 ^ 30 + x.severity.toNat * 2 ^ 25 +
            x.code.toNat) :: (x.params ++ [x.tai, x.frame])
          let posted := s.io.posted ++ (List.range ws.length).map fun i => (base + 32 * tail + 4 * i, ws.getD i 0)
          t.evt.staged = s.evt.staged.eraseP (fun y => y.ring = decide (n = 1)) ∧
          t.fget (F.hifEringTail_index n) = next ∧
          (if n = 0 then t.evt.phase0 else t.evt.phase1) = (phase != decide (next = 0)) ∧
          (if n = 0 then t.evt.lost0 else t.evt.lost1) = false ∧
          (if s.fget (F.hifEringCfg_coalUs n) = 0 ∨ s.fget (F.hifEringCfg_coalCnt n) < s.since n + 1 then
            signals t posted
           else t.since n = s.since n + 1 ∧ t.io.posted = posted) ∧ Frame s t regs noBytes
        else t = s) ∧
    (Completes (.eventCoalesceExpiry e) s fun t =>
      let time := min 1000 (s.fget (F.hifEringCfg_coalUs n)) * 9 / 125
      if 0 < s.since n ∧ s.dmaOn = true ∧ s.sinceFrom n + time ≤ s.clock.period then
        t.evt.staged = s.evt.staged ∧ signals t s.io.posted ∧ Frame s t regs noBytes
      else t = s)

/-- COMMAND_BAD_OPCODE completes a command at the front of a ring whose opcode R369 does not list with
BAD_OPCODE, and leaves any other. Each command of R369 leaves a front that is another command; on a
retired device it completes with REJECTED, or LIFECYCLE for LIFECYCLE_ADVANCE; and with BAD_OPERAND when
a word or bit that R369 does not list is not 0, an address is not aligned as it says, or a count is out
of range. During a reset SNAPSHOT, DUMP_CONFIG and MATE_RESYNC complete with REJECTED (log entry 54).
Nothing but the account of completions changes. Each has one CMD_DONE. (R368; R369; R370; R402; R409.) -/
def Obligations.RingCommandRefusals : Prop :=
  ∀ (r : Fin 4) (s : State), s.up = true →
    let any := fun (_ : CmdEntry) (_ : State) => True
    let busy := fun (c : CmdEntry) (t : State) => s.flag F.rstStat_busy = true → CmdOnly s t r.val c csRejected
    let zero := fun (c : CmdEntry) (ms : List W32) =>
      (List.range 16).all fun i => c.w i &&& ~~~((0xFF01FFFF :: ms).getD i 0) = 0
    let all : W32 := 0xFFFFFFFF
    let apart := fun (c : CmdEntry) (n : Nat) => decide ((c.w 4).toNat % n = 0)
    (Completes (.commandBadOpcode r) s fun t =>
      match s.nextCmd r.val with
      | none => t = s
      | some c => if c.op = 0 ∨ 10 < c.op then CmdOnly s t r.val c csBadOpcode else t = s) ∧
    (s.loading r.val = none → RingDoes (.loadBank r [] [] true) r.val 1 (fun c =>
      let n := (c.w 3).toNat
      zero c [7, 0x7FFFF, all, all, all, all, all] && decide (1 ≤ n) && decide (n ≤ 524288) &&
        decide ((c.w 2).toNat + n ≤ 524288) && apart c 8) s any) ∧
    RingDoes (.armFlip r) r.val 2 (fun c => zero c [0x10F, all]) s any ∧
    RingDoes (.cancelFlip r) r.val 3 (fun c => zero c []) s any ∧
    RingDoes (.snapshot r) r.val 4 (fun c => zero c [0, 0, 0, all, all] && apart c 4096) s busy ∧
    RingDoes (.dumpConfig r) r.val 5 (fun c => zero c [0xC00FFFFF, 0xFFFF, 0, all, all] && apart c 4096) s busy ∧
    RingDoes (.storeRead r) r.val 6 (fun c => zero c [0x1FFFF, all, all, all, all] && apart c 32 &&
      decide (1 ≤ bits (c.w 1) 16 0) && decide (bits (c.w 1) 16 0 ≤ 65536)) s any ∧
    RingDoes (.storeMark r) r.val 7 (fun c => zero c [0xFFFF, 0, 0, 0, 0, all, all, all, all]) s any ∧
    RingDoes (.protCommand r) r.val 8 (fun c =>
      if bit (c.w 1) 31 then zero c [0x8000001F, 0x7F] && decide (bits (c.w 1) 4 0 < 24)
      else zero c [0x3FFFF, 7]) s any ∧
    RingDoes (.mateResync r) r.val 9 (fun c => zero c []) s busy ∧
    RingDoes (.lifecycleAdvance r) r.val 10 (fun c => zero c [3, all]) s any

/-- A lawful command at the front of a ring of a device that is not retired. The writes to mirrored state
complete with MATE where R232 discards them, and with REJECTED during a reset; otherwise ARM_FLIP that
the rules of R173 let pass is armed, and completes with OK or waits for the flip, and one they reject
completes with REJECTED; CANCEL_FLIP aborts a flip that can be stopped and completes with OK, and else
with REJECTED; PROT_COMMAND writes the command of the selector or group and waits for the evaluation.
Outside a reset SNAPSHOT is asked for and waits; DUMP_CONFIG stores its registers; MATE_RESYNC on an
ACTIVE device starts a resync and waits, and else completes with REJECTED. LIFECYCLE_ADVANCE with its
key, outside a reset and with no transition under way, of a move that R405 allows, begins it and waits;
another completes with LIFECYCLE. (R369; R370; R301; R405; R232; R241.) -/
def Obligations.RingCommandEffects : Prop :=
  ∀ (r : Fin 4) (s : State), s.up = true →
    let flips := orAt (regsOf 0xC0000 0xD0000) (orAt (theseRegs [Reg.colBank, Reg.octBank]) cmdAccount)
    RingDoes (.armFlip r) r.val opArmFlip (fun c => c.fits [0x10F, allBits]) s (fun c t => CmdWrites s t r.val c
      (let req := (c.w 1).extractLsb' 0 4
       let reason := s.armReason req (c.w 2)
       t.rd Reg.flpReq = req.setWidth 32 ∧ t.rd Reg.flpTarget = c.w 2 ∧ Frame s t flips noBytes ∧
       (if reason = 0 then
          t.flipState = flpArmed ∧ t.flip.req = req ∧ t.flip.target = c.w 2 ∧
          (if bit (c.w 1) 8 then CmdWaits s t r.val c .flip else CmdCompleted s t r.val c csOk)
        else t.flipState = s.flipState ∧ t.flip = s.flip ∧ t.fget F.flpStat_reason = reason ∧
          CmdCompleted s t r.val c csRejected))) ∧
    RingDoes (.cancelFlip r) r.val opCancelFlip (fun c => c.fits []) s (fun c t => CmdWrites s t r.val c
      (Frame s t flips noBytes ∧
       (if s.flipStoppable then
          t.flipState = flpAborted ∧ t.fget F.flpStat_reason = frCancelled ∧
          (s.hif.busy.all (fun q => q.2.2 ≠ .flip) = true → CmdCompleted s t r.val c csOk)
        else t.flipState = s.flipState ∧ t.flip = s.flip ∧ CmdCompleted s t r.val c csRejected))) ∧
    RingDoes (.snapshot r) r.val opSnapshot (fun c => c.fits [0, 0, 0, allBits, allBits] && c.aligned 4096) s (fun c t =>
      s.flag F.rstStat_busy = false → t.flag F.pfcSnap_pending = true ∧ CmdWaits s t r.val c .snapshot ∧
        Frame s t (theseRegs [Reg.pfcSnap]) noBytes) ∧
    RingDoes (.dumpConfig r) r.val opDumpConfig
      (fun c => c.fits [0xC00FFFFF, 0xFFFF, 0, allBits, allBits] && c.aligned 4096) s (fun c t =>
      s.flag F.rstStat_busy = false →
        t.rd Reg.pfcDumpCtl &&& 0xC00FFFFF = c.w 1 ∧ t.rd Reg.pfcWin = c.w 2 ∧ t.rd Reg.pfcDumpAddrLo = c.w 4 ∧
        t.rd Reg.pfcDumpAddrHi = c.w 5 ∧ t.fget F.pfcDumpStat_buf = 0 ∧ CmdCompleted s t r.val c csOk ∧
        Frame s t (orAt (theseRegs [Reg.pfcDumpCtl, Reg.pfcWin, Reg.pfcDumpAddrLo, Reg.pfcDumpAddrHi, Reg.pfcDumpStat])
          cmdAccount) noBytes) ∧
    RingDoes (.protCommand r) r.val opProtCommand protOk s (fun c t => CmdWrites s t r.val c
      (let g := bits (c.w 1) 4 0
       let p := bits (c.w 1) 17 0
       if bit (c.w 1) 31 then
         CmdWaits s t r.val c (.aps g) ∧ t.rd (Reg.apsCmd g) &&& 0x7F = c.w 2 ∧ (t.apsSt g).cmdNew = true ∧
         t.flag (F.apsStat_cmdRej g) = false ∧ Frame s t (orAt cmdAccount (theseRegs [Reg.apsCmd g, Reg.apsStat g])) noBytes
       else
         CmdWaits s t r.val c (.prot (BitVec.ofNat 18 p)) ∧ (t.path p).sel.cmdNew = true ∧
         (s.entryBad p = false → bits (t.pathWord p 6) 31 29 = (c.w 2).toNat) ∧
         Frame s t cmdAccount (bytesAt (pathAddr p 6) 4))) ∧
    RingDoes (.mateResync r) r.val opMateResync (fun c => c.fits []) s (fun c t => s.flag F.rstStat_busy = false →
      if s.mateState = mateActive then
        t.mate.startDue = true ∧ t.mate.image = some 0 ∧ t.flag F.matStat_mirrorBroken = false ∧
        CmdWaits s t r.val c .resync ∧ Frame s t (theseRegs [Reg.matStat, Reg.matResync]) noBytes
      else CmdOnly s t r.val c csRejected) ∧
    RingDoes (.lifecycleAdvance r) r.val opLifecycle (fun c => c.fits [3, allBits]) s (fun c t =>
      let target := bits (c.w 1) 1 0
      if lcAllowed s.lc (s.fget F.rstStat_lcUsed) target = true ∧ (c.w 2).toNat = 0x4C430000 + target ∧
          s.flag F.rstStat_busy = false ∧ s.power.lcTarget = none then
        t.power.lcTarget = some (BitVec.ofNat 2 target) ∧ t.power.lcStep = 0 ∧ CmdWaits s t r.val c .lifeCycle ∧
        Frame s t (theseRegs []) noBytes
      else CmdOnly s t r.val c csLifecycle ∧ t.power.lcTarget = s.power.lcTarget)

/-- A lawful LOAD_BANK at the front of a ring, or one in progress on it while DMA is on, of a device that is
not retired, stores the program words that this delivery brings, from where it stood, and, once all
words are there, the start values that it brings; it completes with REJECTED and stores nothing when the
bank is locked, with MATE where R232 discards its writes, with REJECTED at start values during a reset,
with DMA_ERROR where the read failed, with OK when all is stored, and else waits with what it has stored
(log entry 10). STORE_READ of a record number that is not held yet or no longer held completes with
NOT_YET or STALE, having posted nothing; one whose first record waits in staging, or that the drive can
serve, posts its words and completes; another waits, or completes with NO_STORE where the store cannot
be used. STORE_MARK stages a marker record, and waits for the store or completes with NO_STORE. (R366;
R369; R309; R312; R313; R102; R105.) -/
def Obligations.RingCommandData : Prop :=
  ∀ (r : Fin 4) (s : State), s.up = true →
    (∀ (words : List W64) (starts : List W32) (ok : Bool),
      let loads := fun (front : Bool) (c : CmdEntry) (nw nv : Nat) (t : State) =>
        let o := bit (c.w 1) 1
        let b := bit (c.w 1) 0
        let n := (c.w 3).toNat
        let want := if bit (c.w 1) 2 then (if o then 16 else 56) else 0
        let from' := (c.w 2).toNat + nw
        let ws := words.take (n - nw)
        let vs := if nw + ws.length < n then [] else starts.take (want - nv)
        let locked := s.progLocked .dma o b
        let closed := s.flag F.rstStat_busy && !vs.isEmpty
        let stores := !locked && !s.standsBy
        let quiet := s.hif.busy.all fun q => q.2.2 ≠ .flip
        let left := t.fetchedOn r.val = (s.fetchedOn r.val).drop (if front then 1 else 0)
        let ends := fun (status : Nat) =>
          left ∧ t.hif.busy.find? (·.1 = r.val) = none ∧ (quiet = true → CmdDone s t r.val c status)
        (stores = true →
          (∀ i, i < ws.length → t.progWord o b (from' + i) = ws.getD i 0) ∧
          (∀ d, d < vs.length → closed = false → t.rd (engStart o (nv + d) b) &&& 0x8007FFFF = vs.getD d 0 &&& 0x8007FFFF)) ∧
        (∀ a, stores = false ∨ a < bankAddr o b from' ∨ bankAddr o b (from' + ws.length) ≤ a → t.byte a = s.byte a) ∧
        (if locked then ends csRejected
         else if s.standsBy then ends csMate
         else if closed then ends csRejected
         else if !ok then ends csDmaError
         else if nw + ws.length < n ∨ nv + vs.length < want then
           left ∧ t.hif.busy.find? (·.1 = r.val) = some (r.val, c, .load (nw + ws.length) (nv + vs.length))
         else ends csOk)
      match s.loading r.val with
      | some (c, nw, nv) => Completes (.loadBank r words starts ok) s fun t =>
          if s.dmaOn then loads false c nw nv t else t = s
      | none => RingDoes (.loadBank r words starts ok) r.val opLoadBank loadOk s fun c t => loads true c 0 0 t) ∧
    RingDoes (.storeRead r) r.val opStoreRead
      (fun c => c.fits [0x1FFFF, allBits, allBits, allBits, allBits] && c.aligned 32 && 1 ≤ c.readCount &&
        c.readCount ≤ 65536) s (fun c t =>
      let first := c.readFirst
      if first < s.hstOldest then CmdOnly s t r.val c csStale ∧ t.io = s.io
      else if s.hstHead ≤ first then CmdOnly s t r.val c csNotYet ∧ t.io = s.io
      else if s.hstFirst ≤ first ∨ s.driveReady = true then
        ∀ x, (s.hst.staging ++ s.hst.stored).find? (fun y => y.number = first) = some x → c.readCount = 1 →
          CmdCompleted s t r.val c csOk ∧
          t.io.posted = s.io.posted ++ (List.zip (List.range x.words.length) x.words).map
            (fun q => (c.address + 4 * q.1, q.2)) ∧
          Frame s t (theseRegs [Reg.hifCntCmd, Reg.cntLo 97, Reg.cntHi 97, Reg.cntLo 99, Reg.cntHi 99]) noBytes
      else if s.storeAllowed = false ∨ s.store = hsFailed then CmdOnly s t r.val c csNoStore ∧ t.io = s.io
      else CmdWaits s t r.val c .storeRead ∧ (s.store = hsOff → t.store = hsPowering)) ∧
    RingDoes (.storeMark r) r.val opStoreMark
      (fun c => c.fits [0xFFFF, 0, 0, 0, 0, allBits, allBits, allBits, allBits]) s (fun c t =>
      s.hst.staging.length < stagingMax → s.hstHead + 1 < 2 ^ 64 →
        if s.storeAllowed = false ∨ s.store = hsFailed then CmdOnly s t r.val c csNoStore
        else if s.store = hsReady ∧ s.hst.erasePend = true then
          (t.hif.busy.find? (·.1 = r.val)).map (·.2) = some (c, .storeMark (some s.hstHead)) ∧ t.store = hsErasing
        else
          (t.hif.busy.find? (·.1 = r.val)).map (·.2) = some (c, .storeMark (some s.hstHead)) ∧
          (t.hst.staging.getLast?.map fun x => (x.number, (x.words.drop 1).take 4)) =
            some (s.hstHead, [c.w 6, c.w 7, c.w 8, c.w 9]) ∧
          Frame s t (theseRegs [Reg.hstStat]) noBytes)

/-- HOST_LINK_DOWN on a link that is up ends it: rate and width read 0, link_lost is set, every ring is
disabled, commands in progress stop, and HIF_LINK_DOWN is raised. HOST_LINK_UP on a link that is down
with a rate stores rate and width and raises HIF_LINK_UP. Otherwise they change nothing.
BUS_MASTER_CHANGE stores the enable and the power state; while DMA then is off nothing else changes, and
when it is on the pending signals of vectors that are not masked are sent. PCIE_FLR without flr_full
returns the HIF and EVT blocks to their reset values but for the link, stops commands, keeps staged
events and shows cause 4; with it a soft reset is also requested. Each completes. (R366; R374; R376;
R377; R401; R403.) -/
def Obligations.HostLink : Prop :=
  ∀ (s : State), s.up = true →
    let rings := theseRegs [Reg.hifCringCfg 0, Reg.hifCringCfg 1, Reg.hifCringCfg 2, Reg.hifCringCfg 3,
      Reg.hifEringCfg 0, Reg.hifEringCfg 1, Reg.hifStat]
    let linked := decide (s.fget F.hifStat_rate ≠ 0)
    (Completes .hostLinkDown s fun t =>
      if linked then
        t.fget F.hifStat_rate = 0 ∧ t.fget F.hifStat_width = 0 ∧ t.flag F.hifStat_linkLost = true ∧
        (∀ r : Fin 4, t.flag (F.hifCringCfg_en r.val) = false) ∧ (∀ e : Fin 2, t.flag (F.hifEringCfg_en e.val) = false) ∧
        t.hif.busy = [] ∧ t.hif.fetched = [] ∧ Told s t true Ev.hifLinkDown [] ∧ Frame s t rings noBytes
      else t = s) ∧
    (∀ rate width : BitVec 3, Completes (.hostLinkUp rate width) s fun t =>
      if linked ∨ rate = 0 then t = s
      else t.fget F.hifStat_rate = rate.toNat ∧ t.fget F.hifStat_width = width.toNat ∧
        Told s t true Ev.hifLinkUp [] ∧ Frame s t (theseRegs [Reg.hifStat]) noBytes) ∧
    (∀ bme d3hot, Completes (.busMasterChange bme d3hot) s fun t =>
      let on := bme && !d3hot && linked
      t.flag F.hifStat_bme = bme ∧ t.hif.bme = bme ∧ t.hif.d3hot = d3hot ∧
      (on = false → t.hif.busy = s.hif.busy ∧ t.io = s.io ∧ Frame s t (theseRegs [Reg.hifStat]) noBytes) ∧
      (on = true → ∀ v : Fin 64, bit (t.rd (Reg.hifMsixPba (v.val / 32))) (v.val % 32) =
        (bit (s.rd (Reg.hifMsixPba (v.val / 32))) (v.val % 32) && bit (s.rd (Reg.hifMsixTable (4 * v.val + 3))) 0))) ∧
    (Completes .pcieFlr s fun t =>
      let full := s.flag F.rstCfg_flrFull
      (∀ a, endpointReg a = true → a ≠ Reg.hifStat → t.rd a = regReset a) ∧
      t.fget F.hifStat_rate = s.fget F.hifStat_rate ∧ t.fget F.hifStat_width = s.fget F.hifStat_width ∧
      t.hif.busy = [] ∧ t.hif.fetched = [] ∧ t.evt.staged = s.evt.staged ∧
      (full = false → t.fget F.rstStat_cause = 4) ∧
      (full = true → s.flag F.rstStat_busy = false → s.power.lcTarget = none →
        t.flag F.rstStat_busy = true ∧ t.power.softDue = true ∧ t.power.softFlr = true) ∧
      Frame s t (orAt endpointReg (theseRegs [Reg.rstStat])) noBytes)

/-- A reset that is entered returns every register to its reset value, empties every memory, keeps the OTP
contents and the commands that wait, holds the device and remembers its cause, but one within another
keeps the first cause unless it is power-on; PERST_N does not end the safe halt. A reset that ends
leaves the rest as it is. BOOT of a device that no reset holds and that has not booted, with a good OTP
CRC, runs it: RST_STAT shows the cause, the life-cycle state of the OTP records and TEST_MODE,
GLB_SERIAL the serial number, memory holds zeros, and PFAIL_N low shows pfail; with a bad one it enters
the safe halt and sets otp_bad; otherwise it changes nothing. SOFT_RESET on a running device, with no
reset in progress and no life-cycle transition, sets busy and leaves the reset for the next frame mark;
else it changes nothing but the account of host accesses. There it empties the memories, keeps every RWS
field and shows its cause. SOFT_RESET_DONE at least 7 frames into the wipe clears busy, with RST_DONE,
and completes a life-cycle transition; else it changes nothing. Each completes. (R396; R397; R398; R399;
R389; R401; R402; R403; R406; R408; R422.) -/
def Obligations.Resets : Prop :=
  ∀ (s : State),
    let empty := fun (t : State) => t.mem = [] ∧ t.tone = [] ∧ t.paths = [] ∧ t.terms = [] ∧ t.rows = []
    let entered := fun (cause : BitVec 3) (t : State) =>
      t.up = false ∧ t.power.booted = false ∧
      t.power.cause = (if s.power.held = true ∧ cause ≠ 0 then s.power.cause else cause) ∧
      (∀ a, t.rd a = regReset a) ∧ empty t ∧ t.lanes = [] ∧ t.hst.staging = [] ∧ t.evt.staged = [] ∧
      t.pending = s.pending ∧ t.otp.records = s.otp.records ∧ t.otp.serial = s.otp.serial ∧
      t.otp.retired = s.otp.retired
    (Completes (.powerOnReset true) s fun t => t.power.por = true ∧ entered 0 t) ∧
    (Completes (.resetNChange true) s fun t => t.power.resetN = true ∧ entered 1 t) ∧
    (Completes (.perstNChange true) s fun t =>
      if s.power.safeHalt then t = { s with power := { s.power with perstN := true } }
      else t.power.perstN = true ∧ entered 2 t) ∧
    (Completes (.powerOnReset false) s fun t => t = { s with power := { s.power with por := false } }) ∧
    (Completes (.resetNChange false) s fun t => t = { s with power := { s.power with resetN := false } }) ∧
    (Completes (.perstNChange false) s fun t => t = { s with power := { s.power with perstN := false } }) ∧
    (∀ otpOk sideB testMode, Completes (.boot otpOk sideB testMode) s fun t =>
      if s.power.held || s.power.booted then t = s
      else
        t.pending = s.pending ∧ t.power.booted = true ∧ t.otp.records = s.otp.records ∧ empty t ∧
        t.fget F.rstStat_cause = s.power.cause.toNat ∧ t.flag F.rstStat_testMode = testMode ∧
        t.lc = (s.otp.records.getLast?.map fun r => r.1.toNat).getD 0 ∧
        (if otpOk then
          t.up = true ∧ t.flag F.matStat_side = sideB ∧ t.flag F.rstStat_busy = false ∧
          t.rd Reg.glbSerialLo = s.otp.serial.extractLsb' 0 32 ∧
          t.rd Reg.glbSerialHi = s.otp.serial.extractLsb' 32 32 ∧ t.flag F.nrgStat_pfail = s.power.pfailLow
         else t.up = false ∧ t.power.safeHalt = true ∧ t.flag F.fltStat_otpBad = true)) ∧
    (s.up = true →
      (Completes .softReset s fun t =>
        let asked := !s.flag F.rstStat_busy && s.power.lcTarget.isNone
        t.flag F.rstStat_busy = (s.flag F.rstStat_busy || asked) ∧ t.power.softDue = (asked || s.power.softDue) ∧
        t.power.softFlr = (s.power.softFlr && !asked) ∧
        Frame s t (orAt (theseRegs (if asked then [Reg.rstStat] else [])) hostAccount) noBytes) ∧
      (Completes .softResetDone s fun t =>
        if s.power.wiping = false ∨ s.clock.frames < s.power.wipeFrom + 7 then t = s
        else
          t.flag F.rstStat_busy = false ∧ t.power.wiping = false ∧ t.power.lcTarget = none ∧
          (s.power.lcTarget = none → Told s t true Ev.rstDone []) ∧
          Frame s t (theseRegs [Reg.rstStat, Reg.hifCntCmd]) noBytes)) ∧
    (let t := s.softApply
     empty t ∧ t.fget F.rstStat_cause = (if s.power.softFlr then 4 else 3) ∧ t.power.softDue = false ∧
     t.power.wiping = true ∧ t.clock = s.clock ∧ t.pending = s.pending ∧
     (∀ a r, s.power.lcTarget = none → regRow? a = some r → t.rd a &&& r.rws = s.rd a &&& r.rws))

/-- ISLAND_HANG of an island that is not in reset counts in FLT_CNT_HANG and shows in FLT_LAST; of one in
reset it changes nothing. ISLAND_RESET by the host of a running island does not count, and for the
memory island, a number above 82, or an island in reset changes nothing but the account of host
accesses. Then an engine island is held in reset until its next mark at 1,200 MHz, a column engine
losing the program row that it fetched and an octet engine its execution frame; each lane of a lane
group that is not OFF returns to DETECT; the management island (number 83, log entry 75) drops the
requests and locks of the arbiter and crossbar; the other islands keep their state. Each completes.
(R14; R17; R20; R390; R394; R403.) -/
def Obligations.IslandResets : Prop :=
  ∀ (s : State), s.up = true →
    let reset := fun (i : Nat) (t : State) =>
      (isColIsland i = true ∨ isOctIsland i = true → (t.island i).down = true ∧ (t.island i).step = 1200) ∧
      (isColIsland i = true → (t.colEngine (i - 6)).fetch.all (·.lost) = true ∧ (t.colEngine (i - 6)).ahead = none) ∧
      (isOctIsland i = true → (t.octEngine (i - 62)).run.all (·.lost) = true) ∧
      (i < 6 → ∀ k : Fin 8, t.stage (8 * i + k.val) = if s.stage (8 * i + k.val) = 0 then 0 else 1) ∧
      (i = 83 → t.hk = HkSt.init) ∧ (i ≠ 83 → t.hk = s.hk) ∧
      (∀ j : Fin 84, j.val ≠ i → t.island j.val = s.island j.val)
    let regs := fun (i a : Nat) =>
      if i < 6 then (List.range 8).any fun k => laneRegs (8 * i + k) a
      else if isColIsland i then theseRegs [engLateCnt false (i - 6), engStat false (i - 6)] a
      else if isOctIsland i then regsOf (engReg true (i - 62) 0) (engReg true (i - 62) 0x40) a ||
        theseRegs [Reg.memUeAddr, Reg.memCntUe] a || regsOf (Reg.prbsStat 0) (Reg.prbsStat 1024) a
      else false
    (∀ (i : Fin 84) (n : Nat), Completes (.islandHang i n) s fun t =>
      if (s.island i.val).down then t = s
      else
        t.rd Reg.fltCntHang = s.rd Reg.fltCntHang + 1 ∧ bits (t.rd Reg.fltLast) 15 0 = i.val ∧ reset i.val t ∧
        Frame s t (orAt (theseRegs [Reg.fltCntHang]) (regs i.val)) (orAt pathStatus termStatus)) ∧
    (∀ i : BitVec 7, s.flag F.rstStat_busy = false → Completes (.islandReset i) s fun t =>
      if i.toNat = 78 ∨ 82 < i.toNat ∨ (s.island i.toNat).down = true then
        t.islands = s.islands ∧ t.colEng = s.colEng ∧ t.octEng = s.octEng ∧ t.hk = s.hk ∧ Frame s t hostAccount noBytes
      else reset i.toNat t ∧ Frame s t (orAt hostAccount (regs i.toNat)) (orAt pathStatus termStatus))

/-- REG_SCRUB counts each register with a parity fault, shows the last in FLT_LAST, and leaves its value.
RAIL_DROOP of a rail that is not in droop shows it, counts and reports it; RAIL_DROOP_CLEAR of one in
droop ends it; else they change nothing. FAULT_INJECT while inj_en = 1, naming a fault, raises
FAULT_INJECTED and damages the word named (beyond correction by kind 2 or a second fault), leaves a
parity fault, a hang or a differing digest due in the island named, or spoils the parity of the register
named; while inj_en = 0, or naming no fault, it changes nothing but the account of host accesses. Each
completes. (R387; R388; R393; R339; R380; R390.) -/
def Obligations.FaultsAndRails : Prop :=
  ∀ (s : State), s.up = true →
    (Completes .regScrub s fun t =>
      t.rd Reg.fltCntReg = s.rd Reg.fltCntReg + BitVec.ofNat 32 s.sram.regBad.length ∧
      (∀ x, s.sram.regBad.getLast? = some x → bits (t.rd Reg.fltLast) 15 0 = x % 2 ^ 16 ∧
        t.flag F.fltStat_lastValid = true) ∧
      t.sram.regBad = s.sram.regBad ∧ Frame s t (theseRegs [Reg.fltCntReg]) noBytes) ∧
    (∀ rail : Fin 6,
      let others := fun (t : State) => ∀ k : Fin 6, k ≠ rail → t.railLow k.val = s.railLow k.val
      (∀ mv : Nat, Completes (.railDroop rail mv) s fun t =>
        if s.railLow rail.val then t = s
        else
          t.railLow rail.val = true ∧ t.flag F.fltStat_droopNow = true ∧ others t ∧
          t.rd Reg.fltCntDroop = s.rd Reg.fltCntDroop + 1 ∧ bits (t.rd Reg.fltLast) 15 0 = rail.val ∧
          Frame s t (theseRegs [Reg.fltCntDroop]) noBytes) ∧
      (Completes (.railDroopClear rail) s fun t =>
        if s.railLow rail.val then
          t.railLow rail.val = false ∧ others t ∧
          t.flag F.fltStat_droopNow = (List.range 6).any (fun k => k ≠ rail.val && s.railLow k) ∧
          Frame s t (theseRegs []) noBytes
        else t = s)) ∧
    (∀ (be : BitVec 4) (v : W32), s.flag F.rstStat_busy = false → Completes (.faultInject be v) s fun t =>
      let w := v &&& beMask be
      let kind := bits w 31 28
      let bank := bits w 24 16
      let target := bits w 14 0
      let named := if kind = 1 ∨ kind = 2 then decide (bank ≤ 387) else if kind = 3 ∨ kind = 4 then decide (target ≤ 82)
        else if kind = 5 then decide (6 ≤ target) && decide (target ≤ 77)
        else kind = 6 && decide (regWritable (bank * 131072 + target * 4) ≠ 0)
      let on := s.flag F.fltCfg_injEn && named
      let k := damageKey (s.contentOf bank) target
      let was := (s.sram.damage.find? (·.1 = k)).any (·.2.double)
      (on = true → kind = 1 ∨ kind = 2 → s.bankState bank ≠ bankBorrowed →
        (t.sram.damage.find? (·.1 = k)).map (·.2.double) = some (decide (kind = 2) || was)) ∧
      (on = true → kind = 3 → if target < 80 then (t.island target).parityDue = true
        else t.rd Reg.fltCntParity = s.rd Reg.fltCntParity + 1) ∧
      (on = true → kind = 4 → (t.island target).hung = true) ∧
      (on = true → kind = 5 → (t.island target).digestDue = true) ∧
      (on = true → kind = 6 → t.sram.regBad.contains (bank * 131072 + target * 4) = true) ∧
      (on = false → t.sram.damage = s.sram.damage ∧ t.islands = s.islands) ∧
      (kind ≠ 3 ∨ target < 80 → Told s t on Ev.faultInjected []) ∧
      Frame s t (orAt (theseRegs [Reg.fltCntParity]) hostAccount) pathStatus)

/-- SCRUB_SLOT of a bank in ACTIVE or RETAIN, or of the counter memory, reads a word of the array that holds
its content: an uncorrectable one not reported since it was written is reported in MEM_UE_ADDR and
MEM_CNT_UE, a correctable one waits for its write-back, any other changes nothing. SCRUB_WRITEBACK
corrects the word that waits, counts it in MEM_CNT_CE and shows it in MEM_CE_ADDR.
RETAINED_BANK_SCRUB_BURST of a bank in RETAIN for a whole pass corrects its correctable words and
reports its uncorrectable ones. HK_REQUEST of a port with no ungranted request raises one, and its
region wakes. HK_GRANT of an awake bank grants the requester that R347 allows and that comes first, by
port order where two or more meet and MEM_ARB holds losers off, and else by rank with ties by port
order; the beat granted is performed, and those that wait are served. HK_WITHDRAW takes a request away,
counting an unused cycle if it was granted. Each completes, and else changes nothing. (R339; R341; R342;
R344; R345; R346; R347; R348; R349; R351; R384.) -/
def Obligations.ScrubAndArbiter : Prop :=
  ∀ (s : State), s.up = true →
    let ue := theseRegs [Reg.memUeAddr, Reg.memCntUe]
    let ce := theseRegs [Reg.memCeAddr, Reg.memCntCe]
    let place := fun (array w : Nat) => BitVec.ofNat 32 (2 ^ 31 + (if array = 388 then 511 else array) * 2 ^ 16 + w)
    let damaged := fun (x : State) (array w : Nat) => (x.sram.damage.find? (·.1 = damageKey array w)).map (·.2)
    let arrayOf := fun (b : Nat) => if b = 388 then 388 else s.contentOf b
    (∀ (b : Fin 389) (w : BitVec 15), Completes (.scrubSlot b w) s fun t =>
      let array := arrayOf b.val
      if b.val = 388 ∨ s.bankState b.val ≤ 1 then
        match damaged s array w.toNat with
        | some ⟨true, false⟩ => t.rd Reg.memCntUe = s.rd Reg.memCntUe + 1 ∧ t.rd Reg.memUeAddr = place array w.toNat ∧
            damaged t array w.toNat = some ⟨true, true⟩ ∧ Frame s t ue noBytes
        | some ⟨false, _⟩ => t.sram = { s.sram with writeback := t.sram.writeback } ∧
            t.sram.writeback.find? (·.1 = array) = some (array, w.toNat) ∧ Frame s t (theseRegs []) noBytes
        | _ => t = s
      else t = s) ∧
    (∀ b : Fin 389, Completes (.scrubWriteback b) s fun t =>
      let array := arrayOf b.val
      match (s.sram.writeback.find? (·.1 = array)).map (·.2) with
      | some w => damaged t array w = none ∧ t.sram.writeback.find? (·.1 = array) = none ∧
          t.rd Reg.memCntCe = s.rd Reg.memCntCe + 1 ∧ t.rd Reg.memCeAddr = place array w ∧ Frame s t ce noBytes
      | none => t = s) ∧
    (∀ b : Fin 388, Completes (.retainedBankScrubBurst b) s fun t =>
      let array := s.contentOf b.val
      if s.bankState b.val = bankRetain ∧ s.sram.retainAt.get 0 b.val + 14316 ≤ s.clock.frames then
        (s.sram.writeback.find? (·.1 = array) = none → ∀ w, w < 32768 →
          damaged t array w = (damaged s array w).bind fun d => if d.double then some ⟨true, true⟩ else none) ∧
        Frame s t (orAt ue ce) noBytes
      else t = s) ∧
    (∀ (m : Master) (b : Fin 388) (locked : Bool), Completes (.hkRequest m b locked) s fun t =>
      let p := portNo m
      if (s.hk.reqs.find? fun q => q.1 = p && !q.2.granted).isSome then t = s
      else
        (t.hk.reqs.find? (·.1 = p)).map (fun q => (q.2.bank, q.2.granted, q.2.locked)) =
          some (b.val, false, locked && s.mayLock p) ∧
        (∀ k : Fin 7, k.val ≠ p → t.hk.reqs.find? (·.1 = k.val) = s.hk.reqs.find? (·.1 = k.val)) ∧
        (∀ r, s.regionOf b.val = some r → t.regionOff r = false) ∧ Frame s t (regsOf 0x110000 0x118000) noBytes) ∧
    (∀ b : Fin 388, Completes (.hkGrant b) s fun t =>
      let u := s.hkGrant b.val
      let here := ((s.hk.reqs.filter fun q => q.2.bank = b.val && !q.2.granted && !q.2.held).map (·.1)).filter fun p =>
        !(s.hk.reqs.any fun q => q.1 = p && q.2.bank = b.val && q.2.held && !q.2.granted)
      let conf := s.fget F.memArb_conf
      let byPort := (s.hk.held.all fun q => q.1 ≠ b.val) && decide (2 ≤ here.length) && (conf = 0 || conf = 2)
      let before := fun (p q : Nat) => if byPort then decide (p < q)
        else decide (s.rank q < s.rank p) || (decide (s.rank p = s.rank q) && decide (p < q))
      let may := here.filter (s.hkAllowed b.val)
      let winner := if s.bankState b.val = bankRetain ∨ s.bankState b.val = bankOff then none
        else may.find? fun p => may.all fun q => q = p || before p q
      (∀ q ∈ u.hk.reqs, q.2.bank = b.val → q.2.granted = decide (winner = some q.1)) ∧
      Frame s u (regsOf (Reg.cntLo 174) (Reg.cntLo 195)) noBytes ∧
      t = (match winner with
        | some p => (u.performBeat p).serveAll
        | none => u)) ∧
    (∀ m : Master, Completes (.hkWithdraw m) s fun t =>
      let p := portNo m
      let request := (s.hk.reqs.find? (·.1 = p)).map (·.2)
      t.hk.reqs.find? (·.1 = p) = none ∧
      (∀ k : Fin 7, k.val ≠ p → t.hk.reqs.find? (·.1 = k.val) = s.hk.reqs.find? (·.1 = k.val)) ∧
      (∀ x, masterAt p = some x → t.outstanding x = (s.outstanding x).map fun w => { w with raised := false }) ∧
      t.rd Reg.memCntDead = s.rd Reg.memCntDead + (if request.any (·.granted) then 1 else 0) ∧
      Frame s t (theseRegs [Reg.memCntDead]) noBytes)

/-- With the sweep enabled and idle, SWEEP_SLOT_START of the next bank in order, after the slot before it
has ended, tests a free spare of that number in slots 0-3, and else takes a free spare for the copy of
the bank, unless the shed level or the bank's state forbids it or no spare is free, which is said once.
SWEEP_COPY_DONE marks a copy done; at the next row mark accesses go to the spare, or back to the bank,
which ends its sweep. SWEEP_MARCH_DONE and SWEEP_RETENTION_EXPIRY end a part of a test after its time,
or at once when it fails: passed, the next part follows, or the copy back, or a free spare; failed, the
array is retired and the burn of its record queued. OTP_BURN_CHECK outside a droop of the core or SRAM
rail, and the wipe of a transition, takes the burn off the queue when it reads back right, retries it
once, and reports it when it fails again. Each completes, and else changes nothing. (R358; R359; R360;
R382; R388; R405; R406; R407.) -/
def Obligations.SweepAndBurns : Prop :=
  ∀ (s : State), s.up = true →
    let mem := regsOf 0x110000 0x118000
    let level := s.fget F.nrgStat_level
    (∀ b : Fin 388, Completes (.sweepSlotStart b) s fun t =>
      let n := b.val
      let idle := decide (level = 0) && !s.sweepSkips n
      if s.flag F.memSweep_en && s.sram.sweep.isNone && decide (s.sram.slotBank = n) &&
          s.sram.slotFrom.all (fun f => decide (f + 300000 ≤ s.clock.frames)) then
        t.sram.slotFrom = some s.clock.frames ∧
        t.sram.slotBank = (if idle && decide (s.freeSpares = []) then n else (n + 1) % 384) ∧
        Frame s t mem noBytes ∧
        (if n < 4 ∧ level = 0 ∧ s.freeSpares.contains n = true then
          t.sram.sweep = some ⟨n, n, 4, false, 0, s.clock.frames⟩ ∧ t.fget F.memStat_phase = 4
         else if idle = false then t.sram.sweep = none
         else if s.freeSpares = [] then
          t.sram.sweep = none ∧ Told s t (!s.sram.nospareSaid) Ev.memSweepNospare [n]
         else
          t.sram.sweep.all (fun w => s.freeSpares.contains w.spare) = true ∧ t.fget F.memStat_phase = 1 ∧
          t.sram.sweep.map (fun w => { w with spare := 0 }) = some ⟨n, 0, 1, false, 0, s.clock.frames⟩)
      else t = s) ∧
    (Completes .sweepCopyDone s fun t =>
      match s.sram.sweep with
      | some w => if w.phase = 1 ∨ w.phase = 3 then t = { s with sram := { s.sram with
          sweep := some { w with copied := true } } } else t = s
      | none => t = s) ∧
    (∀ w, s.sram.sweep = some w → w.copied = true → w.bank < 384 →
      let t := s.sweepMark
      if w.phase = 1 then
        t.bankState w.bank = bankBorrowed ∧ t.sram.sweep = some { w with
          phase := 2, copied := false, passed := 0, since := s.clock.frames }
      else
        t.bankState w.bank = bankActive ∧ t.sram.sweep = none ∧ t.rd Reg.memCntSweep = s.rd Reg.memCntSweep + 1) ∧
    (∀ march pass : Bool,
      let k := if march then .sweepMarchDone pass else .sweepRetentionExpiry pass
      Completes k s fun t =>
        match s.sram.sweep with
        | none => t = s
        | some w =>
          if (w.phase = 2 ∨ w.phase = 4) ∧ march = decide (w.passed = 0) ∧
              (pass = false ∨ w.since + (if march then 2 else 800) ≤ s.clock.frames) then
            let found := if w.phase = 4 then (384 + w.spare, 7) else (w.bank, w.spare)
            t.sram.retired = s.sram.retired ++ (if pass then [] else [found]) ∧
            t.otp.burns = s.otp.burns ++ (if pass then [] else [Burn.retire found.1 found.2]) ∧
            (pass = true → w.passed < 2 →
              t.sram.sweep = some { w with passed := w.passed + 1, since := s.clock.frames }) ∧
            (pass = true → 2 ≤ w.passed → w.phase = 2 →
              t.sram.sweep = some { w with phase := 3, copied := false, passed := 3 }) ∧
            (pass = false → w.phase = 2 → t.sram.sweep = none) ∧
            (w.phase = 4 → pass = false ∨ 2 ≤ w.passed →
              t.sram.sweep.all (fun x => decide (x.bank = w.bank) && decide (x.phase = 1)) = true) ∧
            (w.bank < 384 → w.spare < 4 → ∀ a, mem a = false → eventReg a = false → t.rd a = s.rd a) ∧ t.mem = s.mem
          else t = s) ∧
    (∀ ok : Bool, Completes (.otpBurnCheck ok) s fun t =>
      match s.otp.burns with
      | [] => t = s
      | b :: bs =>
        if s.railLow 0 ∨ s.railLow 1 ∨ (s.power.lcStep = 3 ∧ s.clock.frames < s.power.wipeFrom + 8) then t = s
        else if ok = false ∧ s.otp.retried = false then t = { s with otp := { s.otp with retried := true } }
        else
          t.otp.retried = false ∧ t.otp.burns = bs ∧
          (ok = false → t.flag F.fltStat_lastValid = true ∧ t.otp.records = s.otp.records ∧
            t.otp.retired = s.otp.retired) ∧
          (ok = true → match b with
            | .ledger => t.otp.ledgerBits = min 1023 (s.otp.ledgerBits + 1) ∧
                t.fget F.nrgOtp_ledgerK = t.otp.ledgerBits
            | .service => t.otp.svcBits = min 1023 (s.otp.svcBits + 1) ∧ t.fget F.nrgOtp_svcK = t.otp.svcBits
            | .retire bank k => if s.otp.retired.length < 4 then
                t.otp.retired = s.otp.retired ++ [(bank, k)] ∧ t.flag (F.memRetire_valid s.otp.retired.length) = true
              else t.otp.retired = s.otp.retired
            | .lifeCycle target => t.otp.records = s.otp.records ++ [(target, false)] ∧ t.lc = target.toNat ∧
                t.power.lcStep = 4 ∧ (t.hst.erasePend = true ∨ t.store = hsErasing)
            | .eraseDone => t.otp.records = s.otp.records.dropLast ++
                (s.otp.records.getLast?.map fun r => (r.1, true)).toList ∧
                t.power.softDue = (s.power.softDue || decide (s.power.lcStep = 5))))

/-- FLUSH_DUE where a flush is due by R311, and STORE_FLUSH_REQUEST outside a reset, ask for a flush: with
the port allowed, OFF goes to POWERING and READY to FLUSHING or, with an erase pending, to ERASING; a
flush is not begun at level 3 or above unless a STORE_MARK waits. STORE_PERST_RELEASE on_ms after
POWERING began releases the drive; STORE_LINK_UP of a released drive leads to INIT; STORE_LINK_TIMEOUT
after 1 s, STORE_READY_TIMEOUT after ready_ms in INIT, a completion with error status, STORE_CMD_TIMEOUT
after 1 s (600 s for Format NVM, SHUTDOWN excepted), STORE_LINK_LOSS and CSTS_CFS each lead to FAILED
with their cause: counted, told, the drive's power cut, and the commands that wait for the store ended.
A good completion restarts the time. STORE_RETRY, and STORE_RETRY_TIMER retry_s after the failure, leave
FAILED for POWERING, or for OFF while the flush is shed. STORE_SHUTDOWN_DONE leads to OFF, and to
POWERING when something is due. Each completes, and else changes nothing. (R306; R311; R315; R316; R319;
R321.) -/
def Obligations.StoreStates : Prop :=
  ∀ (s : State), s.up = true →
    let port := theseRegs [Reg.hstStat, Reg.hstCntFail, Reg.hifCntCmd]
    let now := s.clock.frames
    let after := fun (frames : Nat) => decide (s.hst.since + frames ≤ now)
    let others := s.hif.busy.filter fun q => match q.2.2 with
      | .storeRead => false
      | .storeMark _ => false
      | _ => true
    let busy := s.flag F.rstStat_busy
    let allowed := s.flag F.hstCfg_en && !s.flag F.nrgStat_pfail && !s.retired
    let flushes := decide (s.fget F.nrgStat_level < 3) || s.markWaits
    let powered := decide (s.store = hsInit) || decide (s.store = hsFlushing) || decide (s.store = hsReady) ||
      decide (s.store = hsShutdown) || decide (s.store = hsErasing)
    let powers := fun (t : State) =>
      t.store = hsPowering ∧ t.hst.pwrEn = true ∧ t.hst.perstN = false ∧ t.hst.since = now
    let asked := fun (t : State) =>
      if allowed && decide (s.store = hsOff) && (flushes || s.hst.erasePend || s.hst.readDue) then powers t
      else if allowed && decide (s.store = hsReady) && s.hst.erasePend then
        t.store = hsErasing ∧ t.hst.staging = [] ∧ t.hst.stored = [] ∧ t.hstHead = 0
      else if allowed && decide (s.store = hsReady) && flushes then
        t.store = hsFlushing ∧ t.hst.flushing = s.hst.staging.length ∧ t.hst.flushDue = false
      else t.hst = { s.hst with flushDue := true } ∧ t.store = s.store
    let failed := fun (on : Bool) (why : Nat) (t : State) =>
      if on then
        t.store = hsFailed ∧ t.fget F.hstStat_failWhy = why ∧ t.rd Reg.hstCntFail = s.rd Reg.hstCntFail + 1 ∧
        t.hst.pwrEn = false ∧ t.hst.perstN = false ∧ t.fget F.hstStat_linkRate = 0 ∧ t.hst.since = now ∧
        t.hif.busy = others ∧ (others = s.hif.busy → Told s t true Ev.storeFail [0, 0, why]) ∧ Frame s t port noBytes
      else t = s
    let retries := fun (t : State) => t.fget F.hstStat_failWhy = 0 ∧
      (if flushes || s.hst.erasePend || s.hst.readDue then powers t
       else t.store = hsOff ∧ t.hst.flushDue = true ∧ t.hst.pwrEn = s.hst.pwrEn)
    let due := decide (s.hst.lastFlush + 8000 * clamp 1 86400 (s.fget F.hstFlush_maxS) ≤ now) ||
      decide (4096 * (if s.fget F.hstFlush_level = 0 then 16 else s.fget F.hstFlush_level) ≤ s.hst.staging.length) ||
      (s.hst.staging.drop s.hst.flushing).any fun r => decide (bits (r.words.getD 0 0) 31 28 = 4)
    (Completes .flushDue s fun t => if due then asked t ∧ Frame s t port noBytes else t = s) ∧
    (Completes .storeFlushRequest s fun t => Frame s t (orAt port hostAccount) noBytes ∧
      (if busy then t.hst = s.hst ∧ t.store = s.store else asked t)) ∧
    (Completes .storePerstRelease s fun t =>
      if decide (s.store = hsPowering) && !s.hst.perstN && after (8 * clamp 1 1000 (s.fget F.hstPwr_onMs)) then
        t = { s with hst := { s.hst with since := now, perstN := true } }
      else t = s) ∧
    (∀ rate, Completes (.storeLinkUp rate) s fun t =>
      if decide (s.store = hsPowering) && s.hst.perstN then
        t.store = hsInit ∧ t.fget F.hstStat_linkRate = rate.toNat ∧ t.hst = { s.hst with since := now } ∧
        Frame s t port noBytes
      else t = s) ∧
    Completes .storeLinkTimeout s (failed (decide (s.store = hsPowering) && s.hst.perstN && after 8000) whyNoLink) ∧
    Completes .storeReadyTimeout s
      (failed (decide (s.store = hsInit) && after (8 * clamp 100 60000 (s.fget F.hstPwr_readyMs))) whyNotReady) ∧
    Completes (.nvmeCompletion false) s (failed powered whyError) ∧
    (Completes (.nvmeCompletion true) s fun t =>
      if powered then t = { s with hst := { s.hst with
        since := now, formatted := s.hst.formatted || decide (s.store = hsErasing) } }
      else t = s) ∧
    Completes .storeCmdTimeout s (failed (powered && decide (s.store ≠ hsShutdown) &&
      after (8000 * if s.store = hsErasing ∧ s.hst.formatted = false then 600 else 1)) whyTimeout) ∧
    Completes .storeLinkLoss s (failed powered whyNoLink) ∧
    Completes .cstsCfs s (failed powered whyCfs) ∧
    (Completes .storeRetryTimer s fun t =>
      if allowed && decide (s.store = hsFailed) && after (8000 * clamp 10 86400 (s.fget F.hstCfg_retryS)) then
        retries t ∧ Frame s t port noBytes
      else t = s) ∧
    (Completes .storeRetry s fun t => Frame s t (orAt port hostAccount) noBytes ∧
      (if allowed && decide (s.store = hsFailed) && !busy then retries t else t.hst = s.hst ∧ t.store = s.store)) ∧
    (Completes .storeShutdownDone s fun t =>
      if s.store = hsShutdown then
        t.fget F.hstStat_linkRate = 0 ∧ Frame s t port noBytes ∧
        (if allowed && (s.hst.flushDue && flushes || s.hst.erasePend || s.hst.readDue) then powers t
         else t.store = hsOff ∧ t.hst.pwrEn = false ∧ t.hst.perstN = false)
      else t = s)

/-- STORE_INIT_DONE in INIT of a drive that fails R305 or R306 leads to FAILED. Of another it sets HST_RING
and HST_SMART; with an erase pending, or no format or anchor and auto_fmt, it leads to ERASING, with
staging empty and numbers from 0; with none and no auto_fmt to FAILED; else it adopts the valid anchor
of the higher sequence, numbers the staged records from its head, and leads to FLUSHING, or rests when
flushes are shed. STORE_FLUSH_DONE counts the flush, moves its records from staging to the drive, ends
the STORE_MARK commands it covers, writes an anchor, and leads to ERASING when an erase is pending and
no power failure stands, else to rest. At rest the port is in SHUTDOWN with pwr_cut, else in READY or,
with a flush due, FLUSHING. STORE_ERASE_REQUEST with erase_en outside a reset makes an erase pending,
which READY begins and OFF powers up for. STORE_ERASE_DONE in ERASING shows its kind, raises the erase
count, writes an anchor with head 0 and goes to rest, and queues the burn that a transition waits for.
Each completes, and else changes nothing. (R306; R307; R308; R311; R312; R315; R407.) -/
def Obligations.StoreRecords : Prop :=
  ∀ (s : State), s.up = true →
    let port := theseRegs [Reg.hstStat, Reg.hstRing, Reg.hstSmart, Reg.hstCntFlush, Reg.hstCntFail, Reg.hifCntCmd,
      Reg.cntLo 97, Reg.cntHi 97, Reg.cntLo 98, Reg.cntHi 98, Reg.cntLo 99, Reg.cntHi 99]
    let allowed := s.flag F.hstCfg_en && !s.flag F.nrgStat_pfail && !s.retired
    let flushes := decide (s.fget F.nrgStat_level < 3) || s.markWaits
    let noReads := s.hif.busy.all fun q => decide (q.2.2 ≠ .storeRead)
    let erasing := fun (t : State) =>
      t.store = hsErasing ∧ t.hst.staging = [] ∧ t.hst.stored = [] ∧ t.hstHead = 0 ∧ t.hst.erasePend = true
    let rests := fun (t : State) => t.store =
      if s.flag F.hstCfg_pwrCut then hsShutdown
      else if allowed && s.hst.flushDue && (decide (s.fget F.nrgStat_level < 3) || t.markWaits) then hsFlushing
      else hsReady
    let wrote := fun (t : State) (head : Nat) (erases : W32) =>
      t.hst.anchorSeq = s.hst.anchorSeq + 1 ∧ t.hst.erases = erases ∧ t.hst.nextCopy = !s.hst.nextCopy ∧
      (if s.hst.nextCopy then t.hst.anchor1 else t.hst.anchor0).map (fun a => (a.seq, a.head, a.erases, a.valid)) =
        some (s.hst.anchorSeq + 1, BitVec.ofNat 64 head, erases, true) ∧
      (if s.hst.nextCopy then t.hst.anchor0 = s.hst.anchor0 else t.hst.anchor1 = s.hst.anchor1)
    (∀ d : DriveInfo, Completes (.storeInitDone d) s fun t =>
      let good := fun (a : Anchor) => decide (a.format = 0x4B570001) && decide (a.crc = a.check)
      let newer := decide (d.anchorB.seq ≠ d.anchorA.seq) && decide ((d.anchorB.seq - d.anchorA.seq).toNat < 2 ^ 31)
      let pick := if good d.anchorB && (!good d.anchorA || newer) then some d.anchorB
        else if good d.anchorA then some d.anchorA else none
      let failed := fun (why : Nat) => t.store = hsFailed ∧ t.fget F.hstStat_failWhy = why ∧
        t.rd Reg.hstCntFail = s.rd Reg.hstCntFail + 1 ∧ t.hst.pwrEn = false
      if s.store ≠ hsInit then t = s
      else Frame s t port noBytes ∧
        (if d.usable = false then failed whyIdentify
         else
          t.rd Reg.hstRing = BitVec.ofNat 32 (min (d.size - 1) 976562499 - 1) ∧
          bits (t.rd Reg.hstSmart) 31 24 = d.critWarn.toNat ∧ bits (t.rd Reg.hstSmart) 23 16 = d.usedPct.toNat ∧
          (match (if d.formatOk then pick else none) with
           | none => if s.hst.erasePend || s.flag F.hstCfg_autoFmt then erasing t
               else failed (if d.formatOk then whyNoAnchor else whyIdentify)
           | some a => if s.hst.erasePend then erasing t
               else
                t.flag F.hstStat_anchorOk = true ∧ t.hst.anchorSeq = a.seq ∧ t.hst.erases = a.erases ∧
                t.store = (if flushes then hsFlushing else if s.flag F.hstCfg_pwrCut then hsShutdown else hsReady) ∧
                (d.critWarn = 0 → noReads = true → a.head.toNat + s.hst.staging.length < 2 ^ 64 →
                  t.hstHead = a.head.toNat + s.hst.staging.length ∧
                  t.hst.staging.map (·.number) =
                    (List.range s.hst.staging.length).map (a.head.toNat + ·))))) ∧
    (Completes .storeFlushDone s fun t =>
      if s.store = hsFlushing then
        t.rd Reg.hstCntFlush = s.rd Reg.hstCntFlush + 1 ∧ t.hst.lastFlush = s.clock.frames ∧
        wrote t (s.hstFirst + s.hst.flushing) s.hst.erases ∧
        t.hif.busy = s.hif.busy.filter (fun q => match q.2.2 with
          | .storeMark (some m) => decide (s.hstFirst + s.hst.flushing ≤ m)
          | .storeMark none => false
          | _ => true) ∧
        Frame s t port noBytes ∧
        (if s.flag F.nrgStat_pfail = false ∧ s.hst.erasePend = true then erasing t
         else
          (if s.flag F.nrgStat_pfail then t.store = hsShutdown else rests t) ∧
          (s.markWaits = false → t.hst.staging = s.hst.staging.drop s.hst.flushing) ∧
          ∀ r ∈ s.hst.staging.take s.hst.flushing,
            s.hstHead ≤ r.number + 128 * (s.rd Reg.hstRing).toNat → r ∈ t.hst.stored)
      else t = s) ∧
    (Completes .storeEraseRequest s fun t => Frame s t (orAt port hostAccount) noBytes ∧
      (if s.flag F.rstStat_busy || !s.flag F.hstCfg_eraseEn then t.hst = s.hst ∧ t.store = s.store
       else t.hst.erasePend = true ∧
        (if allowed && decide (s.store = hsReady) then erasing t
         else if allowed && decide (s.store = hsOff) then
          t.store = hsPowering ∧ t.hst.pwrEn = true ∧ t.hst.perstN = false
         else t.store = s.store ∧ t.hst = { s.hst with erasePend := true }))) ∧
    (Completes .storeEraseDone s fun t =>
      if s.store = hsErasing then
        t.flag F.hstStat_eraseKind = s.hst.crypto ∧ t.flag F.hstStat_anchorOk = true ∧ t.hst.erasePend = false ∧
        wrote t 0 (s.hst.erases + 1) ∧ rests t ∧
        (noReads = true → Told s t true Ev.storeErased [0, 0, if s.hst.crypto then 1 else 0]) ∧
        t.power = { s.power with lcStep := if s.power.lcStep = 4 then 5 else s.power.lcStep } ∧
        (let owed := if otpErasePending s.otp && !s.otp.burns.contains .eraseDone then [Burn.eraseDone] else []
         t.otp = { s.otp with burns := s.otp.burns ++ owed }) ∧
        Frame s { t with otp := s.otp } port noBytes
      else t = s)

/-- The shed level in force is the largest demand in force, and a rise of it is counted. PFAIL_FALL while
PFAIL_N was high shows pfail and the floor, counts, ends the commands that wait for the store, and
switches the store off at once unless finish_flush lets a flush under way end; PFAIL_RISE ends pfail and
begins the hold, and FLOOR_HOLD_EXPIRY at its end, hold_s later, ends the floor. BUDGET_RESTORE after
restore_s of evaluations at most at 90 % of a budget lowers a demand of 1 or more by one. PLANNER_SLEEP
with planning enabled puts a resource into a sleep state of R327 whose exit plus margin, and whose
break-even time, lie within the gap, unless a deeper one does; the termination island follows TRB_ACTIVE
alone. RESOURCE_WAKE_DONE makes it ACTIVE. Each completes, and else changes nothing. (R97; R317; R320;
R321; R322; R326; R327; R328; R335.) -/
def Obligations.PowerAndShedding : Prop :=
  ∀ (s : State), s.up = true →
    let wanted := fun (x : State) => max
      (if x.flag F.nrgStat_floor then min 6 (x.fget F.nrgFloor_level) else 0)
      (if x.flag F.nrgCfg_en then max (x.fget F.nrgStat_budgetLvl) (x.fget F.nrgStat_thermLvl) else 0)
    let regs := theseRegs [Reg.nrgStat, Reg.nrgCntLevel, Reg.nrgCntPfail, Reg.hstStat, Reg.hifCntCmd]
    let relevels := fun (t : State) =>
      t.fget F.nrgStat_level = wanted t ∧ Frame s t regs noBytes ∧
      t.rd Reg.nrgCntLevel = s.rd Reg.nrgCntLevel + if s.fget F.nrgStat_level < wanted t then 1 else 0
    let toldLevel := fun (t : State) =>
      Told s t (decide (wanted t ≠ s.fget F.nrgStat_level)) Ev.nrgLevel [0, 0, wanted t]
    (Completes .pfailFall s fun t => t.power = { s.power with pfailLow := true } ∧
      (if s.flag F.nrgStat_pfail then t = { s with power := t.power }
       else
        t.flag F.nrgStat_pfail = true ∧ t.flag F.nrgStat_floor = true ∧ t.nrg = { s.nrg with holding := false } ∧
        t.rd Reg.nrgCntPfail = s.rd Reg.nrgCntPfail + 1 ∧ relevels t ∧
        t.hif.busy = s.hif.busy.filter (fun q => match q.2.2 with
          | .storeRead => false
          | .storeMark _ => false
          | _ => true) ∧
        (if s.store = hsFailed ∨ s.store = hsOff ∨
            s.flag F.nrgFloor_finishFlush = true ∧ (s.store = hsFlushing ∨ s.store = hsShutdown) then
          t.store = s.store ∧ t.hst.pwrEn = s.hst.pwrEn
         else t.store = hsOff ∧ t.hst.pwrEn = false ∧ t.hst.perstN = false))) ∧
    (Completes .pfailRise s fun t => t.power = { s.power with pfailLow := false } ∧
      (if s.flag F.nrgStat_pfail then
        t.flag F.nrgStat_pfail = false ∧ t.flag F.nrgStat_floor = s.flag F.nrgStat_floor ∧
        t.fget F.nrgStat_level = s.fget F.nrgStat_level ∧
        t.nrg = { s.nrg with holding := true, holdFrom := s.clock.frames } ∧ Frame s t regs noBytes
       else t = { s with power := t.power })) ∧
    (Completes .floorHoldExpiry s fun t =>
      if s.nrg.holding = true ∧ s.nrg.holdFrom + 8000 * min 3600 (s.fget F.nrgFloor_holdS) ≤ s.clock.frames then
        t.flag F.nrgStat_floor = false ∧ t.nrg = { s.nrg with holding := false } ∧ relevels t ∧ toldLevel t
      else t = s) ∧
    (Completes .budgetRestore s fun t =>
      if s.flag F.nrgCfg_en = true ∧ s.fget F.nrgBudget_budget ≠ 0 ∧ 1 ≤ s.fget F.nrgStat_budgetLvl ∧
          1000 * clamp 1 3600 (s.fget F.nrgCfg_restoreS) ≤ s.nrg.lowRun then
        t.fget F.nrgStat_budgetLvl = s.fget F.nrgStat_budgetLvl - 1 ∧ t.nrg = { s.nrg with lowRun := 0 } ∧
        relevels t ∧ toldLevel t
      else t = s) ∧
    (∀ (r : Resource) (st : Sleep) (gap : Nat), Completes (.plannerSleep r st gap) s fun t =>
      let usable := fun (x : Sleep) => match r, x with
        | .engine _, .clockGated => true
        | .engine e, .powerGated => s.mayGate e
        | .bank b, .retain => decide (s.bankState b.val = bankActive)
        | .termination, .clockGated => decide (s.trbActive = 0)
        | _, _ => false
      let times := fun (x : Sleep) => match r, x with
        | .engine _, .clockGated => (20, 100)
        | .engine _, _ => (2000, 40000)
        | .bank _, .clockGated => (20, 20000)
        | .bank _, _ => (2000, 20000)
        | .termination, _ => (1000, 0)
      let fits := fun (x : Sleep) => usable x &&
        decide ((times x).1 + clamp 100 2000 (s.fget F.nrgCfg_margin) < gap) && decide ((times x).2 < gap)
      let deeper := match r, st with
        | .engine _, .clockGated => fits .powerGated
        | _, _ => false
      if s.flag F.nrgCfg_en && fits st && !deeper then
        match r with
        | .engine e => (t.island (engineIsland e)).sleep = some st ∧
            (∀ i, i ≠ engineIsland e → t.island i = s.island i) ∧ t.regs = s.regs ∧ Frame s t (theseRegs []) noBytes
        | .bank b => t.bankState b.val = bankRetain ∧
            (∀ k : Fin 388, k ≠ b → t.bankState k.val = s.bankState k.val) ∧
            Frame s t (regsOf 0x110000 0x118000) noBytes
        | .termination => t = s
      else t = s) ∧
    (∀ r : Resource, Completes (.resourceWakeDone r) s fun t =>
      match r with
      | .engine e => (t.island (engineIsland e)).sleep = none ∧
          (∀ i, i ≠ engineIsland e → t.island i = s.island i) ∧ t.regs = s.regs ∧ Frame s t (theseRegs []) noBytes
      | .bank b => if s.bankState b.val ≤ bankRetain then
            t.bankState b.val = bankActive ∧ (∀ k : Fin 388, k ≠ b → t.bankState k.val = s.bankState k.val) ∧
            Frame s t (regsOf 0x110000 0x118000) noBytes
          else t = s
      | .termination => t = s)

/-- SENSOR_READ stores each valid reading and clears valid of a sensor that gave none; a sensor 100 readings
beyond 8 °C of the median is excluded, and back after 100 within 4 °C. NRG_TJ shows the largest reading
of the sensors that are not excluded, or the grade's maximum when fewer than three are left, and the cap
less the derating, at least 60 °C. VCORE is stored, THERM_N follows the trip point with its hysteresis,
and the ledger and the service hours gain what 10 ms at that temperature and voltage age the part.
THERMAL_RISE after 1 s of readings above the cap raises the thermal demand by one up to max_level;
THERMAL_FALL after restore_s below the cap less hysteresis lowers it. SERVICE_HOUR at another whole hour
is told and sets the derating of R334. Each completes, and else changes nothing. (R329; R330; R331;
R332; R333; R334; R335.) -/
def Obligations.TemperatureAndLedger : Prop :=
  ∀ (s : State), s.up = true →
    let wanted := fun (x : State) => max
      (if x.flag F.nrgStat_floor then min 6 (x.fget F.nrgFloor_level) else 0)
      (if x.flag F.nrgCfg_en then max (x.fget F.nrgStat_budgetLvl) (x.fget F.nrgStat_thermLvl) else 0)
    let relevels := fun (t : State) =>
      t.fget F.nrgStat_level = wanted t ∧
      Told s t (decide (wanted t ≠ s.fget F.nrgStat_level)) Ev.nrgLevel [0, 0, wanted t] ∧
      Frame s t (theseRegs [Reg.nrgStat, Reg.nrgCntLevel, Reg.hstStat]) noBytes
    let tj := fun (x : State) => signed 16 (x.fget F.nrgTj_tjMax)
    let hyst : Int := clamp 1 20 (s.fget F.nrgTherm_hyst)
    let trip : Int := clamp 70 125 (s.fget F.nrgTherm_trip)
    let grade := if s.otp.gradeW then 115 else 105
    (∀ (temps : List (Option Int)) (mv : BitVec 16), (∀ x, some x ∈ temps → -1000 ≤ x ∧ x ≤ 3000) →
      Completes (.sensorRead temps mv) s fun t =>
        let cap := max 60 (clamp 60 grade (s.fget F.nrgTherm_cap) - s.fget F.nrgTj_derate)
        let med2 := twiceMedian ((List.range 8).filterMap t.sensor)
        let aged := s.nrg.ledgerAcc + ledgerRate (tj t) mv.toNat
        (∀ i : Fin 8, t.sensor i.val = temps.getD i.val none ∧
          t.nrg.badRun.get 0 i.val = (match t.sensor i.val with
            | some x => if 160 < (2 * x - med2).natAbs then min 100 (s.nrg.badRun.get 0 i.val + 1) else 0
            | none => 0) ∧
          t.nrg.goodRun.get 0 i.val = (match t.sensor i.val with
            | some x => if (2 * x - med2).natAbs ≤ 80 then min 100 (s.nrg.goodRun.get 0 i.val + 1) else 0
            | none => 0) ∧
          t.sensorOut i.val = (if t.nrg.badRun.get 0 i.val = 100 then true
            else if t.nrg.goodRun.get 0 i.val = 100 then false else s.sensorOut i.val)) ∧
        t.fget F.nrgStat_sensors = t.goodSensors.length ∧
        (3 ≤ t.goodSensors.length → tj t ∈ t.goodSensors ∧ ∀ x ∈ t.goodSensors, x ≤ tj t) ∧
        (t.goodSensors.length < 3 → tj t = 10 * grade) ∧
        t.fget F.nrgTj_capEff = cap ∧
        t.nrg.hotRun = (if 10 * (cap : Int) < tj t then s.nrg.hotRun + 1 else 0) ∧
        t.nrg.coolRun = (if tj t < 10 * ((cap : Int) - hyst) then s.nrg.coolRun + 1 else 0) ∧
        t.rd Reg.nrgVcore = BitVec.ofNat 32 mv.toNat ∧
        t.nrg.thermLow = (if 10 * trip ≤ tj t then true else if tj t < 10 * (trip - hyst) then false
          else s.nrg.thermLow) ∧
        t.rd Reg.nrgLedger = s.rd Reg.nrgLedger + BitVec.ofNat 32 (aged / ledgerUnit) ∧
        t.nrg.ledgerAcc = aged % ledgerUnit ∧
        t.rd Reg.nrgSvcHours = s.rd Reg.nrgSvcHours + BitVec.ofNat 32 ((s.nrg.svcAcc + 1000000) / serviceUnit) ∧
        t.nrg.svcAcc = (s.nrg.svcAcc + 1000000) % serviceUnit ∧
        (let passed := fun (a : Nat) => (t.rd a).toNat / 1024000 - (s.rd a).toNat / 1024000
         let due := List.replicate (passed Reg.nrgLedger) Burn.ledger ++ List.replicate (passed Reg.nrgSvcHours) Burn.service
         t.otp = { s.otp with burns := s.otp.burns ++ due }) ∧
        Frame s { t with otp := s.otp } (orAt (regsOf (Reg.nrgSensor 0) (Reg.nrgSensor 8))
          (theseRegs [Reg.nrgStat, Reg.nrgTj, Reg.nrgVcore, Reg.nrgLedger, Reg.nrgSvcHours])) noBytes) ∧
    (Completes .thermalRise s fun t =>
      let lvl := s.fget F.nrgStat_thermLvl
      if s.flag F.nrgCfg_en = true ∧ 100 ≤ s.nrg.hotRun ∧ lvl < min 6 (s.fget F.nrgCfg_maxLevel) then
        t.fget F.nrgStat_thermLvl = lvl + 1 ∧ t.nrg = { s.nrg with hotRun := 0 } ∧ relevels t
      else t = s) ∧
    (Completes .thermalFall s fun t =>
      let lvl := s.fget F.nrgStat_thermLvl
      if 100 * clamp 1 3600 (s.fget F.nrgCfg_restoreS) ≤ s.nrg.coolRun ∧ 1 ≤ lvl then
        t.fget F.nrgStat_thermLvl = lvl - 1 ∧ t.nrg = { s.nrg with coolRun := 0 } ∧ relevels t
      else t = s) ∧
    (Completes .serviceHour s fun t =>
      let ledger := (s.rd Reg.nrgLedger).toNat
      let hours := (s.rd Reg.nrgSvcHours).toNat
      let step := 1024 * clamp 100 65535 (s.fget F.nrgLife_stepH)
      if hours / 1024 = s.nrg.hourSaid then t = s
      else
        t.fget F.nrgTj_derate = min (min 40 (s.fget F.nrgLife_derateMax)) ((ledger - hours + step - 1) / step) ∧
        t.nrg = { s.nrg with hourSaid := hours / 1024 } ∧ Frame s t (theseRegs [Reg.nrgTj]) noBytes ∧
        (t.fget F.nrgTj_derate = s.fget F.nrgTj_derate → Told s t true Ev.lifeLedger [0, 0, 0, ledger, hours]))

/-- CNT_LO_READ answers the low word and keeps the high word for the next read of CNT_HI. A host access
counts itself in the words received or sent first, and a write during a reset does no more. CNT_HI_WRITE
stages bits [15:0] of the enabled bytes, and a 1 in bit 31 clears ovf; CNT_LO_WRITE of any byte commits
the staged high bits with the written low bits. PFC_WINDOW_END, once the window has lasted its frames,
latches every window, limited to 32 bits, and begins the next. SNAP_REQUEST sets pending. DUMP_DUE at a
frame mark every + 1 frames after the last captures a dump and moves to the next buffer, or counts a
skip while one is being written or dumps are shed; DUMP_DONE while DMA is on writes it and shows its
number. Each completes, and else changes nothing. (R297; R298; R299; R300; R301; R302; R366; R402.) -/
def Obligations.SpeedCounters : Prop :=
  ∀ (s : State), s.up = true →
    let busy := s.flag F.rstStat_busy
    (∀ k : Fin 195, Completes (.cntLoRead k) s fun t =>
      t.io = { s.io with readData := s.view (Reg.cntLo k.val), readError := false } ∧
      t.latch = s.latch.insert (Reg.cntHi k.val) (s.view (Reg.cntHi k.val)) ∧ Frame s t hostAccount noBytes) ∧
    (∀ (k : Fin 195) (be : BitVec 4) (v : W32),
      let c := s.speed 96 4
      let lo := Reg.cntLo k.val
      let hi := Reg.cntHi k.val
      let regs := orAt (theseRegs [lo, hi]) hostAccount
      (Completes (.cntHiWrite k be v) s fun t => t.rd lo = c.rd lo ∧ t.fget (F.cntHi_hi k.val) = c.fget (F.cntHi_hi k.val) ∧
        t.flag (F.cntHi_ovf k.val) =
          (c.flag (F.cntHi_ovf k.val) && !(!busy && be.getLsbD 3 && bit v 31)) ∧
        (if !busy && (be.getLsbD 0 || be.getLsbD 1) then
          Sparse.get 0 t.latch lo = mergeBe (s.latch.get (c.rd hi) lo) v be &&& 0xFFFF
         else t.latch = s.latch) ∧ Frame s t regs noBytes) ∧
      (Completes (.cntLoWrite k be v) s fun t => Frame s t regs noBytes ∧
        t.flag (F.cntHi_ovf k.val) = c.flag (F.cntHi_ovf k.val) ∧
        (if busy || decide (be = 0) then
          t.rd lo = c.rd lo ∧ t.fget (F.cntHi_hi k.val) = c.fget (F.cntHi_hi k.val) ∧ t.latch = s.latch
         else
          t.rd lo = mergeBe (c.rd lo) v be ∧
          t.fget (F.cntHi_hi k.val) = ((s.latch.find? (·.1 = lo)).map (fun q => q.2.toNat % 2 ^ 16)).getD
            (c.fget (F.cntHi_hi k.val)) ∧
          t.latch.find? (·.1 = lo) = none))) ∧
    (Completes .pfcWindowEnd s fun t =>
      if s.pm.winFrom + s.pm.winLen ≤ s.clock.frames then
        (∀ k : Fin 195, t.rd (Reg.cntWin k.val) = BitVec.ofNat 32 (min (2 ^ 32 - 1) (s.pm.window.get 0 k.val)) ∧
          t.rd (Reg.cntLo k.val) = s.rd (Reg.cntLo k.val) ∧ t.rd (Reg.cntHi k.val) = s.rd (Reg.cntHi k.val)) ∧
        t.pm = { s.pm with window := [], winFrom := s.pm.winFrom + s.pm.winLen } ∧
        Frame s t (regsOf (Reg.cntLo 0) (Reg.cntLo 195)) noBytes
      else t = s) ∧
    (Completes .snapRequest s fun t =>
      t.flag F.pfcSnap_pending = (s.flag F.pfcSnap_pending || !busy) ∧
      t.fget F.pfcSnap_seq = s.fget F.pfcSnap_seq ∧ t.flag F.pfcSnap_view = s.flag F.pfcSnap_view ∧
      Frame s t (orAt (theseRegs [Reg.pfcSnap]) hostAccount) noBytes) ∧
    (Completes .dumpDue s fun t =>
      let buf := s.fget F.pfcDumpStat_buf
      if s.flag F.pfcDumpCtl_en = true ∧ s.clock.frameDue = true ∧
          s.pm.dumpFrom + s.fget F.pfcDumpCtl_every + 1 ≤ s.clock.frames then
        if s.pm.dump.isSome = true ∨ 2 ≤ s.fget F.nrgStat_level then
          t.rd Reg.pfcCntSkip = s.rd Reg.pfcCntSkip + 1 ∧ t.pm = { s.pm with dumpFrom := s.clock.frames } ∧
          Frame s t (theseRegs [Reg.pfcCntSkip]) noBytes
        else
          let seq := s.pm.dumpSeq + 1
          let place := (s.rd Reg.pfcDumpAddrLo).toNat / 4096 * 4096 + 2 ^ 32 * (s.rd Reg.pfcDumpAddrHi).toNat + 4096 * buf
          let counters := (List.range 195).flatMap fun k => [s.rd (Reg.cntLo k),
            BitVec.ofNat 32 (s.fget (F.cntHi_hi k) + if s.flag (F.cntHi_ovf k) then 2 ^ 16 else 0),
            s.rd (Reg.cntWin k), 0]
          let image := [0x22400001, s.clock.frame, s.tai, seq, 195, BitVec.ofNat 32 (s.fget F.pfcWin_frames), 0, 0] ++
            counters ++ List.replicate 235 0 ++ [seq]
          t.pm = { s.pm with dumpFrom := s.clock.frames, dumpSeq := seq, dump := some (place, image) } ∧
          t.flag F.pfcDumpStat_busy = true ∧ t.fget F.pfcDumpStat_seq = s.fget F.pfcDumpStat_seq ∧
          t.fget F.pfcDumpStat_buf = (if s.fget F.pfcDumpCtl_nbuf ≤ buf then 0 else buf + 1) ∧
          Frame s t (theseRegs [Reg.pfcDumpStat]) noBytes
      else t = s) ∧
    (Completes .dumpDone s fun t =>
      match s.pm.dump with
      | none => t = s
      | some d =>
        if s.hif.bme && !s.hif.d3hot && decide (s.fget F.hifStat_rate ≠ 0) then
          t.pm.dump = none ∧ t.flag F.pfcDumpStat_busy = false ∧
          t.fget F.pfcDumpStat_seq = (d.2.getD 3 0).toNat % 2 ^ 16 ∧ t.fget F.pfcDumpStat_buf = s.fget F.pfcDumpStat_buf ∧
          t.io.posted = s.io.posted ++ (List.zip (List.range d.2.length) d.2).map (fun q => (d.1 + 4 * q.1, q.2)) ∧
          Told s t (s.flag F.pfcDumpCtl_evt) Ev.pfcDumpDone [] ∧
          Frame s t (theseRegs [Reg.pfcDumpStat, Reg.cntLo 97, Reg.cntHi 97]) noBytes
        else t = s)

/-- While the host's writes are taken, PMN_TAI_WRITE of any byte leaves the counted value, keeps the written
one for the next PM second and sets tai_valid; PMN_BIN_SEL_WRITE copies the chosen bin of the chosen
path into PMN_BIN_DATA; PMN_BIN_CLEAR clears the current bins of that path, marks them and leaves the
rest. During a reset, and of the first two on a standby, the bins, the seconds and these registers stay.
PM_RECORD_WALK stages one type 1 record per path due, in order, of its previous 15-minute bin, while
staging has room, and keeps the others due. Each completes. (R232; R286; R292; R294; R295; R308; R309;
R310; R402.) -/
def Obligations.PmHostAccess : Prop :=
  ∀ (s : State), s.up = true →
    let busy := s.flag F.rstStat_busy
    let pm := fun (t : State) => { t.pm with window := s.pm.window }
    let refused := fun (t : State) => pm t = s.pm ∧ Frame s t (orAt (theseRegs [Reg.matCntRej]) hostAccount) noBytes
    (∀ (be : BitVec 4) (v : W32), Completes (.pmnTaiWrite be v) s fun t =>
      if busy || s.standsBy || decide (be = 0) then refused t
      else
        t.flag F.pmnStat_taiValid = true ∧ t.fget F.pmnStat_committed = s.fget F.pmnStat_committed ∧
        pm t = { s.pm with taiDue := some (mergeBe (s.rd Reg.pmnTai) v be) } ∧
        Frame s t (orAt (theseRegs [Reg.pmnStat]) hostAccount) noBytes) ∧
    (∀ (be : BitVec 4) (v : W32), Completes (.pmnBinSelWrite be v) s fun t =>
      if busy || s.standsBy || decide (be = 0) then refused t
      else
        let x := s.pmPath (t.fget F.pmnBinSel_path)
        let b := match t.fget F.pmnBinSel_bin with
          | 0 => x.cur15
          | 1 => x.prev15
          | 2 => x.cur24
          | _ => x.prev24
        let w0 := t.rd (Reg.pmnBinData 0)
        t.rd Reg.pmnBinSel = mergeBe (s.rd Reg.pmnBinSel) (v &&& 0x000FFFFF) be ∧
        bits w0 31 27 = b.flags.toNat ∧ bit w0 26 = x.ne ∧ bit w0 25 = x.fe ∧ bits w0 24 17 = 0 ∧
        bits w0 16 0 = b.seconds % 2 ^ 17 ∧
        (b.ne.length = 4 → b.fe.length = 4 →
          (∀ k : Fin 4, t.rd (Reg.pmnBinData (1 + k.val)) = BitVec.ofNat 32 (b.ne.getD k.val 0) ∧
            t.rd (Reg.pmnBinData (5 + k.val)) = BitVec.ofNat 32 (b.fe.getD k.val 0)) ∧
          t.rd (Reg.pmnBinData 9) = b.start) ∧
        pm t = s.pm ∧
        Frame s t (orAt (theseRegs [Reg.pmnBinSel]) (orAt (regsOf (Reg.pmnBinData 0) (Reg.pmnBinData 10)) hostAccount))
          noBytes) ∧
    (Completes .pmnBinClear s fun t =>
      let p := s.fget F.pmnBinSel_path
      let x := s.pmPath p
      let cleared := fun (b : Bin) =>
        { b with seconds := 0, ne := [0, 0, 0, 0], fe := [0, 0, 0, 0], flags := b.flags ||| 0b10000 }
      if busy then refused t
      else
        t.pmPath p = { x with cur15 := cleared x.cur15, cur24 := cleared x.cur24 } ∧
        (∀ q, q ≠ p → t.pmPath q = s.pmPath q) ∧ Frame s t hostAccount noBytes) ∧
    (s.hstHead + s.pm.walk.length < 2 ^ 64 → Completes .pmRecordWalk s fun t =>
      let n := min s.pm.walk.length (65536 - s.hst.staging.length)
      let ten := fun (l : List Nat) =>
        min 1023 (l.getD 0 0) * 2 ^ 20 + min 1023 (l.getD 1 0) * 2 ^ 10 + min 1023 (l.getD 3 0)
      t.pm = { s.pm with walk := s.pm.walk.drop n } ∧
      t.hst.staging.take s.hst.staging.length = s.hst.staging ∧
      (t.hst.staging.drop s.hst.staging.length).map (fun r =>
        (r.number, bits (r.words.headD 0) 31 28, bits (r.words.headD 0) 26 25, bits (r.words.headD 0) 24 0,
          r.words.drop 1)) =
        (List.zip (List.range n) s.pm.walk).map (fun q =>
          let b := (s.pmPath q.2).prev15
          (s.hstHead + q.1, 1, 1, (b.flags.toNat * 2 ^ 20 + q.2) % 2 ^ 25,
            [b.start, BitVec.ofNat 32 (ten b.ne), BitVec.ofNat 32 (ten b.fe), BitVec.ofNat 32 (b.ne.getD 2 0),
              BitVec.ofNat 32 (b.fe.getD 2 0), BitVec.ofNat 32 (min 1023 b.seconds * 2 ^ 22), s.clock.frame])) ∧
      Frame s t (theseRegs []) noBytes)

/-- MATE_HB_EDGE is a beat of the pin channel; MATE_HB_CHANNEL of a channel silent for 8 frames, while the
other is not, clears its flag and is told. MATE_REACHABLE after 8 good frames of a mate not yet
reachable, and outside a reset a write of MAT_CTL with en, or its release, set the state that follows
from the mate's: ALONE goes to SYNCING or ACTIVE by side unless its image is bad, STANDBY to ACTIVE when
the mate is ALONE, DUAL to ACTIVE or by side to SYNCING; ACTIVE with a mate in SYNCING begins a resync.
en cleared gives ALONE. MATE_FAIL with both channels silent for 8 frames first applies an epoch that
waits for the mark, then clears the channels; SYNCING goes ALONE with the image bad, STANDBY and ACTIVE
go DUAL, and a standby counts a takeover and marks the bins under way. MATE_RESYNC_REQUEST on an ACTIVE
device starts a resync. Each completes, and else changes nothing. (R229; R230; R231; R232; R233; R240;
R241; R402.) -/
def Obligations.MateStates : Prop :=
  ∀ (s : State), s.up = true →
    let p := s.mate.peerState.toNat
    let st := s.mateState
    let busy := s.flag F.rstStat_busy
    let en := s.flag F.matCtl_en
    let goes := fun (ok bad : Bool) =>
      if ok = false then st
      else if st = mateAlone then
        if bad = true then mateAlone
        else if s.sideB = true then (if p = 1 ∨ p = 2 then mateActive else mateSyncing)
        else if p = 3 ∨ p = 4 then mateSyncing else mateActive
      else if st = mateStandby then (if p = 0 then mateActive else mateStandby)
      else if st = mateDual then
        (if p = 1 then mateActive else if s.sideB = true ∧ (p = 3 ∨ p = 4) then mateSyncing else mateDual)
      else st
    let regs := theseRegs [Reg.matStat, Reg.matResync, Reg.fabStat]
    let begun := fun (t : State) =>
      t.rd Reg.matResync = 0x80000000 ∧ t.mate.startDue = true ∧ t.mate.image = some 0 ∧
      t.flag F.matStat_mirrorBroken = false
    let becomes := fun (t : State) (next : Nat) (resync : Bool) =>
      t.mateState = next ∧ (next = mateActive → resync = true → begun t) ∧
      (next ≠ st → t.mate.queue = [] ∧ t.mate.unacked = [] ∧ t.mate.peerState = s.mate.peerState ∧
        (next = mateSyncing → t.rd Reg.matResync = 0x80000000)) ∧
      (next = st → next ≠ mateActive ∨ resync = false → t.mate = s.mate ∧ t.rd Reg.matResync = s.rd Reg.matResync)
    let silent := fun (age : Nat) => decide (72 ≤ age)
    (Completes .mateHbEdge s fun t => t.flag F.matStat_hbPin = true ∧ t.mateState = st ∧
      t.flag F.matStat_hbLane = s.flag F.matStat_hbLane ∧ t.mate = { s.mate with pinAge := 0 } ∧
      Frame s t (theseRegs [Reg.matStat]) noBytes) ∧
    (∀ pin : Bool, Completes (.mateHbChannel pin) s fun t =>
      let was := if pin then s.flag F.matStat_hbPin else s.flag F.matStat_hbLane
      let mine := if pin then s.mate.pinAge else s.mate.laneAge
      let other := if pin then s.mate.laneAge else s.mate.pinAge
      if was && silent mine && !silent other then
        t.flag F.matStat_hbPin = (!pin && s.flag F.matStat_hbPin) ∧
        t.flag F.matStat_hbLane = (pin && s.flag F.matStat_hbLane) ∧ t.mateState = st ∧ t.mate = s.mate ∧
        Told s t true Ev.mateHbChannel [if pin then 1 else 0] ∧ Frame s t (theseRegs [Reg.matStat]) noBytes
      else t = s) ∧
    (Completes .mateReachable s fun t =>
      if decide (8 ≤ s.mate.beatRun) && !s.flag F.matStat_mateOk then
        t.flag F.matStat_mateOk = true ∧ becomes t (goes en (s.flag F.matStat_imageBad)) (decide (p = 1)) ∧
        Frame s t regs noBytes
      else t = s) ∧
    (Completes .mateRelease s fun t => Frame s t (orAt regs hostAccount) noBytes ∧
      (if busy then t.mate = s.mate ∧ t.rd Reg.matStat = s.rd Reg.matStat
       else
        let next := goes (en && s.flag F.matStat_mateOk) false
        t.flag F.matStat_imageBad = false ∧
        becomes t next (decide (p = 1) && (decide (next ≠ st) || !bit (s.rd Reg.matResync) 31)))) ∧
    (∀ (be : BitVec 4) (v : W32), Completes (.mateEnableWrite be v) s fun t =>
      Frame s t (orAt (theseRegs [Reg.matCtl, Reg.hifCntCmd]) (orAt regs hostAccount)) noBytes ∧
      (if busy || !be.getLsbD 3 then t.mate = s.mate ∧ t.rd Reg.matStat = s.rd Reg.matStat ∧ t.flag F.matCtl_en = en
       else
        t.flag F.matCtl_en = bit v 31 ∧
        t.flag F.matStat_imageBad = (s.flag F.matStat_imageBad && !bit v 29) ∧
        (if bit v 31 then
          let next := goes (s.flag F.matStat_mateOk) (s.flag F.matStat_imageBad && !bit v 29)
          becomes t next (bit v 30 && decide (st = mateActive) || decide (p = 1) && (decide (next ≠ st) || !en))
         else if en then t.mateState = mateAlone ∧ t.mate.queue = [] ∧ (∀ q ∈ t.hif.busy, q.2.2 ≠ .resync)
         else t.mateState = st ∧ t.mate = s.mate))) ∧
    (Completes .mateResyncRequest s fun t => t.mateState = st ∧ Frame s t (orAt regs hostAccount) noBytes ∧
      (if decide (st = mateActive) && !busy then begun t
       else t.mate = s.mate ∧ t.rd Reg.matResync = s.rd Reg.matResync)) ∧
    (Completes .mateFail s fun t =>
      let u := s.epochApply
      if silent s.mate.pinAge && silent s.mate.laneAge then
        t.flag F.matStat_mateOk = false ∧ t.flag F.matStat_hbLane = false ∧ t.flag F.matStat_hbPin = false ∧
        t.mateState = (if st = mateSyncing then mateAlone else if st = mateStandby ∨ st = mateActive then mateDual else st) ∧
        t.flag F.matStat_imageBad = (s.flag F.matStat_imageBad || decide (st = mateSyncing)) ∧
        (∀ q ∈ t.hif.busy, q.2.2 ≠ .resync) ∧
        (st = mateSyncing ∨ st = mateStandby ∨ st = mateActive →
          t.mate.staged = [] ∧ t.mate.heard = none ∧ t.mate.queue = [] ∧ t.rd Reg.matResync = 0) ∧
        (∀ k, (t.pmPath k).cur15.flags = (u.pmPath k).cur15.flags ||| (if st = mateStandby then 0b01001 else 0) ∧
          (t.pmPath k).cur24.flags = (u.pmPath k).cur24.flags ||| (if st = mateStandby then 0b01001 else 0)) ∧
        t.rd Reg.matCntTake = s.rd Reg.matCntTake + (if st = mateStandby then 1 else 0) ∧
        (s.hif.busy.all (fun q => decide (q.2.2 ≠ .resync)) = true →
          (st = mateActive → Told u t true Ev.mateFail []) ∧ (st = mateSyncing → Told u t true Ev.mateTakeoverFail [])) ∧
        Frame u t (theseRegs [Reg.matStat, Reg.matResync, Reg.matCntTake, Reg.hifCntCmd]) noBytes
      else t = s)

/-- A device that follows takes a record with a good CRC and the seq after the last applied, and shows its
seq: a write record acts as its write, an epoch record is staged, an image record is written in SYNCING
and counted, one of the epoch state waiting for the image end, which names the live banks; any other
record changes nothing. A resync start makes it SYNCING and starts the seq and the image anew.
EPOCH_APPLY at a frame mark, with the marker and every record before it received, puts the staged words
in place and shows the epoch; RESYNC_DONE at one takes the named banks and enters STANDBY unless the
mate has failed. An ACTIVE device with a mate lane sends first the start record, then the image, its
epoch state and its end, then its queue, each with the next seq and its CRC; MIRROR_RESEND sends the
unacknowledged again after 2 frames without progress; EPOCH_COMMIT_SEND sends the marker of the epoch
that ended. Each completes, and else changes nothing. (R232; R233; R234; R235; R236; R238; R239; R241;
R242; R245; R339.) -/
def Obligations.MirrorRecords : Prop :=
  ∀ (s : State), s.up = true →
    let shown := theseRegs [Reg.matMir, Reg.cntLo 101, Reg.cntHi 101]
    let mem := regsOf 0x110000 0x118000
    let takes := fun (k : BitVec 4) (r : MirrorRec) =>
      s.standsBy && decide (r.crc = recordCrc k r) && decide (r.seq = BitVec.ofNat 16 (s.fget F.matMir_appliedSeq) + 1)
    let image := fun (t : State) => t.mate.imageIn = s.mate.imageIn + 1 ∧
      t.fget F.matResync_doneKib = (s.mate.imageIn + 1) / 256 % 2 ^ 15
    (∀ r : MirrorRec,
      let a := r.offset.toNat / 4 * 4
      (Completes (.mirrorWriteRecord r) s fun t =>
        if takes 1 r then
          let u := if r.region.toNat ≤ 1 then s.writeAs .mirror (r.region = 1) a r.be r.data else s
          t = (u.fset F.matMir_appliedSeq r.seq.toNat).speed 101 1 ∧
          (r.region = 1 → traceWritable a = true → s.ueAt a = false →
            t.memWord a = mergeBe (s.memWord a) r.data r.be ∧ t.fget F.matMir_appliedSeq = r.seq.toNat ∧
            Frame s t (orAt shown mem) (bytesAt a 4)) ∧
          (r.region = 0 → a = Reg.flpTarget → s.flag F.rstStat_busy = false →
            t.rd a = mergeBe (s.rd a) r.data r.be ∧ t.fget F.matMir_appliedSeq = r.seq.toNat ∧
            Frame s t (orAt shown (theseRegs [a])) noBytes)
        else t = s) ∧
      (Completes (.mirrorEpochRecord r) s fun t =>
        if takes 2 r then
          t.mate = { s.mate with staged := s.mate.staged ++ [r] } ∧ t.fget F.matMir_appliedSeq = r.seq.toNat ∧
          Frame s t shown noBytes
        else t = s) ∧
      (Completes (.mirrorImageRecord r) s fun t =>
        if takes 3 r then t.fget F.matMir_appliedSeq = r.seq.toNat ∧
          (if s.mateState = mateSyncing then
            let regs := orAt shown (theseRegs [Reg.matResync])
            image t ∧
            (r.region = 0 → mirroredReg a || rehearsalReg a → a < 0x40000 ∨ 0x70000 ≤ a → a ≠ Reg.octToneData →
              t.rd a = mergeBe (s.rd a) r.data r.be ∧ Frame s t (orAt regs (theseRegs [a])) noBytes) ∧
            (r.region = 1 → a < 0x1A00000 → s.ueAt a = false →
              t.memWord a = mergeBe (s.memWord a) r.data r.be ∧ Frame s t (orAt regs mem) (bytesAt a 4)) ∧
            (2 ≤ r.region.toNat →
              t.mate = { s.mate with imageIn := s.mate.imageIn + 1, tail := some (s.mate.tail.getD [] ++ [r]) } ∧
              Frame s t regs noBytes)
           else t.mate = s.mate ∧ Frame s t shown noBytes)
        else t = s) ∧
      (Completes (.imageEndRecord r) s fun t =>
        if takes 5 r then
          let u := if s.mateState = mateSyncing then s.fillEpoch (s.mate.tail.getD []) else s
          t.fget F.matMir_appliedSeq = r.seq.toNat ∧ Frame u t shown noBytes ∧ t.tmg = u.tmg ∧ t.pm.paths = u.pm.paths ∧
          t.mate = (if s.mateState = mateSyncing then
            { s.mate with imageEnd := some (bit r.data 0, bit r.data 1), tail := none } else s.mate)
        else t = s) ∧
      (Completes (.resyncStartRecord r) s fun t =>
        if s.standsBy && decide (r.crc = recordCrc 4 r) then
          t.mateState = mateSyncing ∧ t.mate.staged = s.mate.staged ∧ t.mate.heard = s.mate.heard ∧
          t.mate.imageEnd = none ∧ t.mate.tail = none ∧ t.mate.imageIn = 0 ∧ t.rd Reg.matResync = 0x80000000 ∧
          t.fget F.matMir_appliedSeq = r.seq.toNat ∧
          Frame s t (orAt shown (theseRegs [Reg.matStat, Reg.matResync])) noBytes
        else t = s)) ∧
    (Completes .epochApply s fun t =>
      match s.mate.heard with
      | none => t = s
      | some e =>
        if s.mateState = mateStandby ∧ s.clock.frameDue = true ∧
            (BitVec.ofNat 16 (s.fget F.matMir_appliedSeq) - s.mate.heardSeq).toNat < 2 ^ 15 then
          let words := carriedWords s.mate.staged
          t.rd Reg.matCommit = e ∧ t.mate = { s.mate with staged := [], heard := none, marker := some e } ∧
          Frame (s.fillEpoch s.mate.staged) t (theseRegs [Reg.matCommit]) noBytes ∧
          (∀ g : Fin 24, words (.aps g.val) ≠ [] → t.rd (Reg.apsStat g.val) = wordAt (words (.aps g.val)) 0 ∧
            t.rd (Reg.apsKtx g.val) = wordAt (words (.aps g.val)) 1 ∧
            t.apsSt g.val = (s.apsSt g.val).ofWords ((words (.aps g.val)).drop 2)) ∧
          (words .timing ≠ [] → t.tmg = s.tmg.ofWords ((words .timing).drop 13)) ∧
          (words .idleMonitor = [] → t.pm.paths = s.pm.paths)
        else t = s) ∧
    (∀ idle : Bool, Completes (.resyncDone idle) s fun t =>
      match s.mate.imageEnd with
      | none => t = s
      | some (c, o) =>
        if s.mateState = mateSyncing ∧ idle = true ∧ s.clock.frameDue = true ∧
            (s.mate.laneAge < 72 ∨ s.mate.pinAge < 72) then
          t.mateState = mateStandby ∧ t.live false = c ∧ t.live true = o ∧ t.rd Reg.matResync = 0 ∧
          t.rd Reg.matCntResync = s.rd Reg.matCntResync + 1 ∧ Told s t true Ev.mateResyncDone [] ∧
          Frame s t (orAt (regsOf 0xB0000 0xB8000)
            (theseRegs [Reg.colBank, Reg.octBank, Reg.matStat, Reg.matResync, Reg.matCntResync])) noBytes
        else t = s) ∧
    (Completes .mirrorRecordSend s fun t =>
      let sends := fun (kind : BitVec 4) (b : MirrorRec) =>
        let r := { b with seq := s.mate.nextSeq }
        let q : QueuedRec := ⟨kind, { r with crc := recordCrc kind r }⟩
        t.io.sent = s.io.sent ++ [q] ∧ t.mate.unacked = s.mate.unacked ++ [q] ∧ t.mate.line = s.mate.line ++ [q] ∧
        t.mate.nextSeq = s.mate.nextSeq + 1 ∧ t.fget F.matMir_sentSeq = s.mate.nextSeq.toNat ∧
        Frame s t (theseRegs [Reg.matMir, Reg.cntLo 100, Reg.cntHi 100, Reg.matResync, Reg.memUeAddr, Reg.memCntUe]) noBytes
      if s.mateState ≠ mateActive ∨ s.mateLane? = none then t = s
      else if s.mate.startDue then sends 4 ⟨0, 0, 0, 0, 0xF, 0⟩ ∧ t.mate.startDue = false ∧ t.mate.queue = s.mate.queue
      else match s.mate.image, s.mate.queue with
        | none, [] => t = s
        | none, q :: qs => sends q.kind q.body ∧ t.mate.queue = qs
        | some k, _ => t.mate.queue = s.mate.queue ∧ (match s.imageWord k with
          | some r => (k < 4194304 → r = ⟨1, 0, BitVec.ofNat 32 (4 * k), (s.hkRead (4 * k)).1, 0xF, 0⟩) ∧ sends 3 r ∧
              t.mate.image = some (k + 1) ∧ t.fget F.matResync_doneKib = (k + 1) / 256 % 2 ^ 15
          | none => match s.mate.tail.getD s.epochRecs with
            | r :: rs => sends 3 r ∧ t.mate.image = some (k + 1) ∧ t.mate.tail = some rs
            | [] => sends 5 ⟨0, 0, 0, BitVec.ofNat 32 ((if s.live false then 1 else 0) + if s.live true then 2 else 0),
                  0xF, 0⟩ ∧
                t.mate.image = none ∧ t.mate.endBanks = some (s.live false, s.live true))) ∧
    (Completes .mirrorResend s fun t =>
      if s.mateState = mateActive ∧ s.mate.unacked ≠ [] ∧ 2 ≤ s.mate.stall then
        t.io = { s.io with sent := s.io.sent ++ s.mate.unacked } ∧
        t.mate = { s.mate with line := s.mate.unacked, stall := 0 } ∧
        t.rd Reg.matCntResend = s.rd Reg.matCntResend + 1 ∧ Frame s t (theseRegs [Reg.matCntResend]) noBytes
      else t = s) ∧
    (Completes .epochCommitSend s fun t =>
      if s.mateState = mateActive ∧ s.mate.epochOut = true ∧ s.mate.epochCut = false ∧
          s.mate.queue.all (fun q => decide (q.kind ≠ 2)) = true then
        t = { s with mate := { s.mate with epochOut := false, marker := some (s.rd Reg.matEpoch - 1) } }
      else t = s)

/-- A loss of signal of an input disqualifies its slots at once and freezes the DPLL when one is selected;
its return shows again. REF_OFFSET_UPDATE stores the means, judges the hard and soft limit, moves a
locked output that is not frozen, counts the seconds that pairs of slots are apart or close, and
declares drift of the selected slot beyond the threshold or counts towards its end. REF_QUALIFY of a
slot whose conditions hold makes the next evaluation qualify it; REF_DISQUALIFY acts where the signal
condition fails; REF_SUSPECT marks the farther slot of a pair apart for 10 s, and ends the pair's
suspicion after 10 s close. DPLL_LOCK, DPLL_LOCK_LOSS and DPLL_BW_STEP move between ACQUIRING and LOCKED
and step the bandwidth. OSC_TEMP_READ stores the temperature, and LOST follows HOLDOVER when it is bad.
OSCIN_STOP of a detected OSCIN enters LOST; OSCIN_RETURN detects it with its frequency or, at that
frequency, ends the stop. Each completes, and else changes nothing. (R246; R247; R248; R249; R252; R253;
R254; R256; R257; R258; R259; R264.) -/
def Obligations.TimingReferences : Prop :=
  ∀ (s : State), s.up = true →
    let stat := theseRegs [Reg.tmgStat, Reg.tmgSticky]
    let refs := fun (a : Nat) => (List.range 12).any fun i => a == Reg.tmgRefStat i
    let sel := s.fget F.tmgStat_sel
    let source := fun (i : Nat) => s.slotAllowed i && s.slotSignal i
    let told := fun (t : State) (state : Nat) => s.rd Reg.tmgIntEn = 0 → Told s t true Ev.tmgState [0, 0, state]
    let fails := fun (t : State) (i : Nat) => t.slotQualified i = false ∧ t.flag (F.tmgRefStat_sigOk i) = false ∧
      t.flag (F.tmgRefStat_wtrRun i) = false ∧ t.tmg.waits.get 0 i = 0
    (∀ j : Fin 5, Completes (.refinSignalLoss j) s fun t =>
      let mine := fun (i : Nat) => decide (s.slotSrc i = 48 + j.val)
      (∀ i : Fin 12, mine i.val = true → fails t i.val) ∧
      (∀ i : Fin 12, mine i.val = false → t.rd (Reg.tmgRefStat i.val) = s.rd (Reg.tmgRefStat i.val) ∧
        t.tmg.waits.get 0 i.val = s.tmg.waits.get 0 i.val) ∧
      t.tmg.frozen = (s.tmg.frozen || decide (sel < 12) && mine sel) ∧
      (∀ k, t.tmg.noSignal.contains k = (k == j.val || s.tmg.noSignal.contains k)) ∧ Frame s t refs noBytes) ∧
    (∀ j : Fin 5, Completes (.refinSignalReturn j) s fun t =>
      (∀ i : Fin 12, t.slotQualified i.val = s.slotQualified i.val ∧
        (if s.slotSrc i.val = 48 + j.val then t.flag (F.tmgRefStat_sigOk i.val) = s.slotAllowed i.val ∧
          t.flag (F.tmgRefStat_wtrRun i.val) = (t.slotOk i.val && !s.slotQualified i.val)
         else t.rd (Reg.tmgRefStat i.val) = s.rd (Reg.tmgRefStat i.val))) ∧
      t.tmg = { s.tmg with noSignal := s.tmg.noSignal.filter (· ≠ j.val) } ∧ Frame s t refs noBytes) ∧
    (∀ (i : Fin 12) (ofs1 ofs10 : Int), Completes (.refOffsetUpdate i ofs1 ofs10) s fun t =>
      let hard : Int := (clamp 10 10000 (s.fget F.tmgLimits_hard) * 10000 : Nat)
      let soft : Int := (clamp 10 10000 (s.fget F.tmgLimits_soft) * 10000 : Nat)
      let beyond := decide (min soft hard < (ofs1.natAbs : Int))
      let before := (s.tmg.minutes.filter (·.eligible)).take 30
      let n : Int := before.length
      let away : Int := (ofs10 * n - sumOf (before.map (·.offset))).natAbs
      let thr : Int := (clamp 1 200 (s.fget F.tmgHo_driftThr) * 10000 : Nat)
      let apart : Int := (clamp 10 1000 (s.fget F.tmgHo_disThr) * 10000 : Nat)
      let judged := decide (sel = i.val) && decide (0 < n)
      let drifts := judged && !s.flag F.tmgStat_drift && decide (thr * n < away)
      t.rd (Reg.tmgRefOfs i.val) = BitVec.ofInt 32 ofs1 ∧ t.rd (Reg.tmgRefOfs10 i.val) = BitVec.ofInt 32 ofs10 ∧
      t.flag (F.tmgRefStat_inLimit i.val) = decide ((ofs1.natAbs : Int) ≤ hard) ∧
      t.flag (F.tmgRefStat_soft i.val) = beyond ∧ t.slotQualified i.val = s.slotQualified i.val ∧
      t.tmg.measured.contains i.val = true ∧
      t.flag F.tmgStat_drift = (s.flag F.tmgStat_drift || drifts) ∧
      (if drifts then
        t.flag (F.tmgRefStat_suspect i.val) = true ∧ t.tmg.drifted = some i.val ∧ t.tmg.calm = 0 ∧
        bit (t.rd Reg.tmgSticky) 7 = true ∧ (∀ m ∈ t.tmg.minutes.take 30, m.eligible = false) ∧
        t.tmg.minutes.drop 30 = s.tmg.minutes.drop 30
       else
        t.flag (F.tmgRefStat_suspect i.val) = s.flag (F.tmgRefStat_suspect i.val) ∧ t.tmg.minutes = s.tmg.minutes ∧
        t.rd Reg.tmgSticky = s.rd Reg.tmgSticky ∧
        t.tmg.calm = (if judged && s.flag F.tmgStat_drift then
          (if 2 * away < thr * n then min 1800 (s.tmg.calm + 1) else 0) else s.tmg.calm) ∧
        Told s t (beyond && !s.flag (F.tmgRefStat_soft i.val)) Ev.tmgSoftLimit [i.val]) ∧
      t.rd Reg.tmgFreq = (if sel = i.val ∧ s.tmState = tmLocked ∧ s.tmg.frozen = false then
        BitVec.ofInt 32 (rounded (ofs1 * 10 ^ 10 - s.modelNow) (10 ^ 10)) else s.rd Reg.tmgFreq) ∧
      (∀ a b : Fin 12, a < b → t.tmg.pairs.get (0, 0) (12 * a.val + b.val) =
        let q := s.tmg.pairs.get (0, 0) (12 * a.val + b.val)
        let d : Int := (t.sreg (Reg.tmgRefOfs10 a.val) - t.sreg (Reg.tmgRefOfs10 b.val)).natAbs
        let equal := s.slotQualified a.val && s.slotQualified b.val && decide (s.slotQl a.val = s.slotQl b.val) &&
          decide (s.slotPrio a.val = s.slotPrio b.val)
        if b = i then (if equal && decide (apart < d) then min 10 (q.1 + 1) else 0, if 2 * d < apart then min 10 (q.2 + 1) else 0)
        else q) ∧
      Frame s t (orAt stat (theseRegs [Reg.tmgRefOfs i.val, Reg.tmgRefOfs10 i.val, Reg.tmgRefStat i.val,
        Reg.tmgFreq])) noBytes) ∧
    (∀ i : Fin 12, Completes (.refQualify i) s fun t =>
      let ql := !s.flag F.tmgCfg_qlEn || !badRank (s.flag F.tmgCfg_opt2) (s.slotRank i.val)
      if source i.val && s.flag (F.tmgRefStat_inLimit i.val) && s.tmg.oscSeen && !s.flag F.tmgStat_oscFail && ql &&
          !s.slotQualified i.val then
        t.regs = s.regs ∧ Frame s t (theseRegs []) noBytes ∧ (t.judgeSlot i.val).slotQualified i.val = true
      else t = s) ∧
    (∀ i : Fin 12, Completes (.refDisqualify i) s fun t =>
      if source i.val then t = s
      else
        fails t i.val ∧ t.tmg.frozen = (s.tmg.frozen || decide (sel = i.val)) ∧
        Frame s t (theseRegs [Reg.tmgRefStat i.val]) noBytes) ∧
    (∀ i j : Fin 12, i ≠ j →
      let pair := 12 * min i.val j.val + max i.val j.val
      let q := s.tmg.pairs.get (0, 0) pair
      let mid := match s.formBase with
        | some b => s.holdValue b + rounded s.modelNow (10 ^ 10)
        | none => 0
      let far := fun (k : Nat) => (s.sreg (Reg.tmgRefOfs10 k) - mid).natAbs
      let k := if far i.val = far j.val then max i.val j.val else if far j.val < far i.val then i.val else j.val
      (Completes (.refSuspect i j true) s fun t =>
        if decide (10 ≤ q.1) && s.tmg.odd.all (fun x => decide (x.2 ≠ pair)) then
          t.flag (F.tmgRefStat_suspect k) = true ∧ t.tmg = { s.tmg with odd := (k, pair) :: s.tmg.odd } ∧
          (s.flag (F.tmgRefStat_suspect k) = false → bit (t.rd Reg.tmgSticky) 8 = true) ∧
          Frame s t (theseRegs [Reg.tmgRefStat k, Reg.tmgSticky]) noBytes
        else t = s) ∧
      (Completes (.refSuspect i j false) s fun t =>
        if 10 ≤ q.2 then
          let left := s.tmg.odd.filter fun x => decide (x.2 ≠ pair)
          let still := fun (x : Nat) => decide (s.tmg.drifted = some x) || left.any fun y => decide (y.1 = x)
          t.tmg = { s.tmg with odd := left } ∧ t.flag (F.tmgRefStat_suspect i.val) = still i.val ∧
          t.flag (F.tmgRefStat_suspect j.val) = still j.val ∧
          Frame s t (theseRegs [Reg.tmgRefStat i.val, Reg.tmgRefStat j.val, Reg.tmgSticky]) noBytes
        else t = s)) ∧
    (Completes .dpllLock s fun t =>
      if s.tmState = tmAcquiring then
        t.tmState = tmLocked ∧ bit (t.rd Reg.tmgSticky) 2 = true ∧ t.fget F.tmgStat_bw = s.fget F.tmgStat_bw ∧
        t.tmg = { s.tmg with ppsAsk := s.tmg.ppsDue, ppsDue := false } ∧ told t tmLocked ∧ Frame s t stat noBytes
      else t = s) ∧
    (Completes .dpllLockLoss s fun t =>
      if s.tmState = tmLocked then
        t.tmState = tmAcquiring ∧ bit (t.rd Reg.tmgSticky) 1 = true ∧ t.tmg = { s.tmg with ppsAsk := false } ∧
        t.fget F.tmgStat_bw = (if s.ppsSlot sel then 3 else 0) ∧ told t tmAcquiring ∧ Frame s t stat noBytes
      else t = s) ∧
    (Completes .dpllBwStep s fun t =>
      let code := s.fget F.tmgDpll_finalBw
      let named := if code = 0 ∨ 6 ≤ code then 2 else code
      let last := if s.ppsSlot sel then max 3 named else named
      if (s.tmState = tmAcquiring ∨ s.tmState = tmLocked) ∧ s.fget F.tmgStat_bw < last then
        t.fget F.tmgStat_bw = s.fget F.tmgStat_bw + 1 ∧ t.tmState = s.tmState ∧ t.tmg = s.tmg ∧
        Frame s t (theseRegs [Reg.tmgStat]) noBytes
      else t = s) ∧
    (∀ ohms : Option Nat, Completes (.oscTempRead ohms) s fun t =>
      let reading := if s.flag F.tmgNtc_useDie then
          (if s.flag (F.nrgSensor_valid 0) then some (10 * signed 16 (s.fget (F.nrgSensor_temp 0))) else none)
        else ohms.map fun r => ntcTheta (s.fget F.tmgNtc_beta) r
      let valid := reading.any fun x => decide (-5000 ≤ x) && decide (x ≤ 13000)
      let lo := signed 16 (s.fget F.tmgTrange_tMin) * 10
      let hi := signed 16 (s.fget F.tmgTrange_tMax) * 10
      let bad := !valid || decide (lo ≤ hi) && (decide (t.theta < lo) || decide (hi < t.theta))
      t.fget F.tmgOscTemp_theta = (reading.map fun x => (BitVec.ofInt 16 x).toNat).getD (s.fget F.tmgOscTemp_theta) ∧
      t.flag F.tmgOscTemp_valid = valid ∧ t.flag F.tmgStat_tempBad = bad ∧
      t.tmState = (if s.tmState = tmHoldover ∧ bad = true then tmLost else s.tmState) ∧
      Frame s t (orAt stat (theseRegs [Reg.tmgOscTemp])) noBytes) ∧
    (Completes .oscinStop s fun t =>
      if s.tmg.oscSeen && !s.flag F.tmgStat_oscFail then
        t.flag F.tmgStat_oscFail = true ∧ t.tmState = tmLost ∧ t.clock = { s.clock with backup := true } ∧
        bit (t.rd Reg.tmgSticky) 6 = true ∧ (s.tmState ≠ tmLost → bit (t.rd Reg.tmgSticky) 4 = true ∧ told t tmLost) ∧
        Frame s { t with clock := s.clock } stat noBytes
      else t = s) ∧
    (∀ freq : Fin 5, Completes (.oscinReturn freq) s fun t =>
      if s.tmg.oscSeen = false then
        t.fget F.tmgStat_oscFreq = freq.val ∧ t.tmg = { s.tmg with oscSeen := true } ∧
        t.clock = { s.clock with backup := false } ∧ t.tmState = s.tmState ∧
        Frame s { t with clock := s.clock } (theseRegs [Reg.tmgStat]) noBytes
      else if s.flag F.tmgStat_oscFail = true ∧ freq.val = s.fget F.tmgStat_oscFreq then
        t.flag F.tmgStat_oscFail = false ∧ t.clock = { s.clock with backup := false } ∧
        t.tmState = (if s.tmState = tmLost then (if sel = selNone then tmFreeRun else tmAcquiring) else s.tmState) ∧
        (s.tmState = tmLost → sel ≠ selNone → t.fget F.tmgStat_bw = if s.ppsSlot sel then 3 else 0) ∧
        (s.tmState = tmLost → sel = selNone → t.rd Reg.tmgFreq = BitVec.ofInt 32 (rounded (-s.modelNow) (10 ^ 10))) ∧
        Frame s { t with clock := s.clock } (orAt stat (theseRegs [Reg.tmgFreq])) noBytes
      else t = s)

/-- Outside a reset a phase step within its limits adds to the pending phase; beyond one, or on a device
that follows, it changes only TMG_STICKY. PPS_ALIGN_STEP at the first lock to such a source, more than 1
µs from the point, decides a step for the second frame mark to come, for 1 PPS to a multiple of 8,000
(which one is free, log entry 3). HOLDOVER_UPDATE in FREE_RUN gives the models' output, in HOLDOVER and
the LOST that follows it the modelled value and error, LOST following beyond the limit or on a bad
temperature; without a locked reference TMG_HO_VALUE shows what holdover would take. MINUTE_RECORD keeps
128 records, eligible as R263 says, and an eligible one teaches the models. DRIFT_CLEAR after 30 minutes
within half the threshold ends a drift. The hourly refit counts the hour, and with learning refits the
temperature model over the bins (4 of them, 10 K apart); the daily one closes the day and refits ageing
after 7 days, by a fit the spec does not give (log entry 5). CLEAR_LEARN empties the bins. Each
completes, and else changes nothing. (R261; R262; R263; R264; R265; R224; R402.) -/
def Obligations.TimingModels : Prop :=
  ∀ (s : State), s.up = true →
    let stat := theseRegs [Reg.tmgStat, Reg.tmgSticky]
    let busy := s.flag F.rstStat_busy
    let learns := s.flag F.tmgCfg_learnEn
    let shown := fun (x : Int) => BitVec.ofInt 32 (rounded x (10 ^ 10))
    let held := fun (b : HoldBase) =>
      shown (b.y * 10 ^ 10 + s.tempPart b.theta - s.tempPart s.theta + s.agePart b.t - s.agePart s.hoursNow)
    let would := (s.formBase.map held).getD (s.rd Reg.tmgHoValue)
    let hold := theseRegs [Reg.tmgHoValue, Reg.tmgFreq, Reg.tmgHoErr]
    (∀ v : W32, Completes (.tmgPhaseStepWrite v) s fun t =>
      let new := s.sreg Reg.tmgPhasePend + v.toInt
      let lawful := decide (-500000 ≤ v.toInt ∧ v.toInt ≤ 500000 ∧ -10000000 ≤ new ∧ new ≤ 10000000) &&
        decide (s.fget F.fabStat_tmRole < 2) && decide (s.mateState ≠ mateSyncing) && decide (s.mateState ≠ mateStandby)
      t.rd Reg.tmgPhasePend = (if !busy && lawful then BitVec.ofInt 32 new else s.rd Reg.tmgPhasePend) ∧
      t.rd Reg.tmgSticky = (if !busy && !lawful then s.rd Reg.tmgSticky ||| 0x200 else s.rd Reg.tmgSticky) ∧
      Frame s t (orAt (theseRegs [Reg.tmgPhasePend, Reg.tmgSticky]) hostAccount) noBytes) ∧
    (∀ away : Int, Completes (.ppsAlignStep away) s fun t =>
      let sel := s.fget F.tmgStat_sel
      let pps := s.ppsSlot sel
      if s.flag F.tmgCfg_ppsPhase = true ∧ s.fget F.fabStat_tmRole ≤ 1 ∧ s.tmState = tmLocked ∧
          (pps = true ∨ sel < 12 ∧ s.slotSrc sel = 52) ∧ s.tmg.ppsAsk = true ∧
          1000 < (away - s.sreg Reg.tmgPpsOfs).natAbs ∧ s.clock.step = none then
        t.tmg = { s.tmg with ppsAsk := false } ∧ t.regs = s.regs ∧ t.clock = { s.clock with step := t.clock.step } ∧
        Frame s { t with clock := s.clock } (theseRegs []) noBytes ∧
        (match t.clock.step with
         | some (n, .number x) => n = 2 ∧ pps = true ∧ x.toNat % 8000 = 0
         | some (n, .next) => n = 2 ∧ pps = false
         | _ => False)
      else t = s) ∧
    (Completes .holdoverUpdate s fun t =>
      match s.tmState with
      | 0 => t.rd Reg.tmgFreq = shown (-s.modelNow) ∧ t.rd Reg.tmgHoValue = would ∧ t.tmg = s.tmg ∧
          Frame s t (theseRegs [Reg.tmgFreq, Reg.tmgHoValue]) noBytes
      | 1 => t.rd Reg.tmgHoValue = would ∧ t.tmg = s.tmg ∧ Frame s t (theseRegs [Reg.tmgHoValue]) noBytes
      | st => match s.tmg.base with
        | none => t = s
        | some b =>
          if st = tmHoldover ∨ st = tmLost ∧ s.tmg.oscSeen = true ∧ s.flag F.tmgStat_oscFail = false then
            let e := rounded (b.e0 * 8640000 + (s.fget F.tmgHoK_kT : Int) * (s.theta - b.theta).natAbs * 86400 +
              (s.fget F.tmgHoK_kA : Int) * ((s.tmg.lost : Int) + 1) * 100) 8640000
            let beyond := decide (((clamp 1 4600 (s.fget F.tmgHo_hoLimit) * 1000 : Nat) : Int) < e) || s.tempBad
            t.rd Reg.tmgHoValue = held b ∧ t.rd Reg.tmgFreq = held b ∧ t.rd Reg.tmgHoErr = BitVec.ofInt 32 e ∧
            t.tmState = (if beyond then tmLost else st) ∧ t.tmg.lost = s.tmg.lost + 1 ∧ t.tmg.base = some b ∧
            Frame s t (orAt stat hold) noBytes
          else t = s) ∧
    (∀ (offset theta : Int) (whole : Bool), Completes (.minuteRecord offset theta whole) s fun t =>
      let ok := whole && decide (s.tmState = tmLocked) && decide (s.fget F.tmgStat_bw = s.finalBw) &&
        s.flag F.tmgOscTemp_valid && !s.flag F.tmgStat_drift
      let sel := s.fget F.tmgStat_sel
      let opt2 := s.flag F.tmgCfg_opt2
      let teaches := ok && learns && decide (qlRank opt2 s.selQl ≤ qlRank opt2 (s.fget F.tmgCfg_learnQl)) &&
        !(decide (sel < 12) && s.flag (F.tmgRefStat_suspect sel))
      let hours := (s.rd Reg.tmgAgeHours).toNat
      let middle := if s.clock.frames < s.tmg.hourAt + 240000 then hours - 1 else hours
      let kept := { s.tmg with minutes := (⟨offset, theta, middle, ok⟩ :: s.tmg.minutes).take 128 }
      t.regs = s.regs ∧ Frame s t (theseRegs []) noBytes ∧
      t.tmg = (if teaches then
        let v := rounded (offset * 10 ^ 10 + s.agePart s.hoursNow) (10 ^ 10)
        { kept with
          bins := s.tmg.bins.insert ((theta + 5000) / 100).toNat v, daySum := s.tmg.daySum + offset
          dayHours := s.tmg.dayHours + s.hoursNow, dayCount := s.tmg.dayCount + 1 }
       else kept)) ∧
    (Completes .driftClear s fun t =>
      if s.flag F.tmgStat_drift = true ∧ 1800 ≤ s.tmg.calm then
        t.flag F.tmgStat_drift = false ∧ t.tmg = { s.tmg with drifted := none, calm := 0 } ∧
        (∀ i : Fin 12, t.flag (F.tmgRefStat_suspect i.val) = s.tmg.odd.any fun x => decide (x.1 = i.val)) ∧
        Frame s t (orAt stat (regsOf (Reg.tmgRefStat 0) (Reg.tmgRefStat 12))) noBytes
      else t = s) ∧
    (Completes .modelRefitHourly s fun t =>
      let ps := s.tmg.bins.map fun q => ((q.1 : Int) - 75, -q.2)
      let tc := theseRegs [Reg.tmgTc 0, Reg.tmgTc 1, Reg.tmgTc 2, Reg.tmgTc 3, Reg.tmgTrange]
      t.rd Reg.tmgAgeHours = s.rd Reg.tmgAgeHours + 1 ∧ t.tmg = { s.tmg with hourAt := s.clock.frames } ∧
      Frame s t (orAt (theseRegs [Reg.tmgAgeHours]) tc) noBytes ∧
      (match ps.head?, ps.getLast? with
       | some lo, some hi =>
         if learns && decide (4 ≤ ps.length) && decide (10 ≤ hi.1 - lo.1) then
           (∀ k : Fin 4, t.rd (Reg.tmgTc k.val) = BitVec.ofInt 32 (cubicFit k.val ps)) ∧
           t.fget F.tmgTrange_tMin = (BitVec.ofInt 16 ((lo.1 + 25) * 10)).toNat ∧
           t.fget F.tmgTrange_tMax = (BitVec.ofInt 16 ((hi.1 + 25) * 10)).toNat
         else Frame s t (theseRegs [Reg.tmgAgeHours]) noBytes
       | _, _ => Frame s t (theseRegs [Reg.tmgAgeHours]) noBytes)) ∧
    (Completes .modelRefitDaily s fun t =>
      let days := s.tmg.days ++ (if s.tmg.dayCount = 0 then []
        else [(rounded s.tmg.dayHours s.tmg.dayCount, rounded s.tmg.daySum s.tmg.dayCount)])
      if learns then
        t.tmg = { s.tmg with
          days := days, dayCount := 0
          daySum := if s.tmg.dayCount = 0 then s.tmg.daySum else 0
          dayHours := if s.tmg.dayCount = 0 then s.tmg.dayHours else 0 } ∧
        Frame s t (theseRegs [Reg.tmgAgeA, Reg.tmgAgeB, Reg.tmgAgeTau]) noBytes ∧
        (if days.length < 7 then t.regs = s.regs
         else
          t.rd Reg.tmgAgeA = BitVec.ofInt 32 (Config.ageFit 0 days) ∧
          t.rd Reg.tmgAgeB = BitVec.ofInt 32 (Config.ageFit 1 days) ∧
          t.fget F.tmgAgeTau_tau = clamp 1 65535 (Config.ageFit 2 days).toNat)
      else t = s) ∧
    (Completes .clearLearn s fun t => Frame s t (orAt (theseRegs [Reg.tmgTrange]) hostAccount) noBytes ∧
      (if busy then t.tmg = s.tmg ∧ t.rd Reg.tmgTrange = s.rd Reg.tmgTrange
       else t.tmg = { s.tmg with bins := [] } ∧ t.rd Reg.tmgTrange = 0x80007FFF))

/-- expand of an octet follows the table of R160 in sign, exponent and mantissa, and has the largest,
smallest and zero codes named there. compress answers a code whose expanded value is at least as near as
that of every other code, at equal distance of no larger magnitude, and at equal magnitude the positive
one; beyond the law's largest magnitude it answers the largest code of the sign. A 0 dB GAIN returns
each code but µ-law 0x7F, which becomes 0xFF; an A-law to µ-law to A-law round trip changes some code.
G[g] is 65,536 times 10^(-g/40) rounded, and the gain term of a linear value is the rounded product with
the value's sign, 0 for code 0x80. (R160; R161; R162.) -/
def Obligations.LawCodes : Prop :=
  let y := fun (mu : Bool) (x : Octet) => x ^^^ (if mu then 0xFF else 0x55)
  let e := fun mu x => ((y mu x).extractLsb' 4 3).toNat
  let m := fun mu x => ((y mu x).extractLsb' 0 4).toNat
  let positive := fun mu x => (y mu x).getLsbD 7 != mu
  let largest := fun (mu : Bool) => if mu then 64248 else 64512
  (∀ x : Octet,
    expand false x = (if positive false x then 1 else -1) *
      (16 * (if e false x = 0 then 2 * (m false x : Int) + 1 else (2 * (m false x : Int) + 33) * 2 ^ (e false x - 1))) ∧
    expand true x = (if positive true x then 1 else -1) * (8 * ((2 * (m true x : Int) + 33) * 2 ^ (e true x) - 33))) ∧
  (∀ mu x, (expand mu x).natAbs ≤ largest mu) ∧
  expand false 0xAA = 64512 ∧ expand false 0x2A = -64512 ∧ expand true 0x80 = 64248 ∧ expand true 0x00 = -64248 ∧
  expand false 0xD5 = 16 ∧ expand false 0x55 = -16 ∧ (∀ x, 16 ≤ (expand false x).natAbs) ∧
  expand true 0xFF = 0 ∧ expand true 0x7F = 0 ∧
  (∀ (mu : Bool) (v : Int) (x : Octet),
    let c := compress mu v
    (expand mu c - v).natAbs ≤ (expand mu x - v).natAbs ∧
    ((expand mu c - v).natAbs = (expand mu x - v).natAbs → (expand mu c).natAbs ≤ (expand mu x).natAbs) ∧
    ((expand mu c - v).natAbs = (expand mu x - v).natAbs → (expand mu c).natAbs = (expand mu x).natAbs →
      positive mu x = true → positive mu c = true)) ∧
  (∀ (mu : Bool) (v : Int), (largest mu : Int) < v.natAbs →
    expand mu (compress mu v) = if 0 ≤ v then (largest mu : Int) else -(largest mu : Int)) ∧
  compress false 0 = 0xD5 ∧ compress true 0 = 0xFF ∧
  (∀ (mu : Bool) (x : Octet), compress mu (applyGain 0 (expand mu x)) = if mu ∧ x = 0x7F then 0xFF else x) ∧
  (∃ x, compress false (expand true (compress true (expand false x))) ≠ x) ∧
  (∀ g : Fin 128,
    (2 * gainTable.getD g.val 0 - 1) ^ 40 * 10 ^ g.val ≤ 131072 ^ 40 ∧
    131072 ^ 40 < (2 * gainTable.getD g.val 0 + 1) ^ 40 * 10 ^ g.val) ∧
  (∀ (g : Nat) (v : Int), applyGain g v =
    if 128 ≤ g then 0
    else if 0 ≤ v then (((v.natAbs * gainTable.getD g 0 + 32768) / 65536 : Nat) : Int)
    else -(((v.natAbs * gainTable.getD g 0 + 32768) / 65536 : Nat) : Int)) ∧
  (∀ v, applyGain 0 v = v)

/-- With no other transaction waiting, a host transaction that the crossbar serves at a BAR0 offset above
0x12_FFFF, or at a BAR2 offset from 0x240_0000 on, completes without error: a read answers 0, a write is
discarded, and neither changes any register but the counts of words received and sent, or any byte of
memory. The same holds of REGISTER_WRITE. (R8.) -/
def Obligations.ReservedOffsets : Prop :=
  ∀ (s : State), s.up = true →
    let counts := theseRegs [Reg.cntLo 96, Reg.cntHi 96, Reg.cntLo 97, Reg.cntHi 97]
    (∀ (addr : BitVec 26) (tgt : Target), s.hk.leaseErr.contains 0 = false → s.hk.waits = [] →
      (tgt = .regs ∧ 0x12FFFF < addr.toNat ∨ tgt = .sram ∧ 0x2400000 ≤ addr.toNat) →
      s.inOrder 0 (targetNo tgt) = true → s.heldByOther 0 (targetNo tgt) = false →
      (Completes (.xbrTransaction 0 tgt addr none false) s fun t =>
        t.io.readData = 0 ∧ t.io.readError = false ∧ Frame s t counts noBytes) ∧
      (∀ be v, Completes (.xbrTransaction 0 tgt addr (some (be, v)) false) s fun t =>
        t.io = s.io ∧ Frame s t counts noBytes)) ∧
    (∀ (addr : BitVec 22) (be : BitVec 4) (v : W32), 0x12FFFF < addr.toNat →
      Completes (.registerWrite addr be v) s fun t => t.io = s.io ∧ Frame s t counts noBytes)

/-- For every state whose queue is a command c and a rest, the step is exec of c on the state with that
rest; with an empty queue the step answers the same state (the model's choice, log entry 1: the block
has no fetch, and the queue is its own field). (20_reset_lifecycle.md; 01_architecture.md.) -/
def Obligations.StepRunsTheFront : Prop :=
  (∀ (c : Instr) (cs : List Instr) (s : State), s.pending = c :: cs →
    Machine.step s = Machine.exec c { s with pending := cs }) ∧
  (∀ s : State, s.pending = [] → Machine.step s = .next s)

/-- After reset the block runs with an empty queue; every register reads its reset value but RST_STAT and
NRG_TJ, which BOOT loads from OTP (what OTP holds is the model's choice, log entry 55); memory reads 0
everywhere and nothing waits; bank A is live in both planes, every lane is OFF, the flip is IDLE, the
mate state ALONE, the timing state FREE_RUN and the store state OFF. The invariants of
StepKeepsInvariants hold. (R104; R174; R231; R258; R271; R398; R399; R400; 21_register_map.md.) -/
def Obligations.ResetState : Prop :=
  State.reset.up = true ∧ State.reset.pending = [] ∧
  (∀ a, a ≠ Reg.rstStat → a ≠ Reg.nrgTj → State.reset.rd a = regReset a) ∧
  (∀ a, State.reset.byte a = 0) ∧ State.reset.live false = false ∧ State.reset.live true = false ∧
  (∀ (o b : Bool) (d : Nat), bit (State.reset.rd (engStart o d b)) 31 = false) ∧
  (∀ l : Lane, State.reset.role l.val = 0 ∧ State.reset.stage l.val = 0) ∧
  State.reset.flipState = 0 ∧ State.reset.mateState = 0 ∧ State.reset.tmState = tmFreeRun ∧
  State.reset.evt.staged = [] ∧ State.reset.hst.staging = [] ∧ State.reset.hif.fetched = [] ∧
  State.reset.memOk ∧ State.reset.rowOk

/-- For every state, the step answers a next state: neither a fault nor a refusal. If the memory behind BAR2
and the tone memory list strictly rising addresses and no zero byte, they do so after the step; if the
row number of the marks is one of 0-8, it is so after the step; and the queue after the step is the
queue before it without its front. (R18; R56; R102; R165; R338; 20_reset_lifecycle.md.) -/
def Obligations.StepKeepsInvariants : Prop :=
  ∀ s : State, ∃ t, Machine.step s = .next t ∧ (s.memOk → t.memOk) ∧ (s.rowOk → t.rowOk) ∧
    t.pending = s.pending.drop 1

/-- The decoder of column programs, given the words that encode a column instruction and then any others,
answers that instruction, with every operand at every value that its fields admit; MOVCS with smode 3 is
not well formed. The same of octet programs: MIX and MIXP have 1 to 8 lawful sources, MIX has no scratch
index, and GAIN has a gain code of at most 0x80. MARK, NOP and END are in both. (R125; R126; R132; R134;
R136; R139; R142; R144; R145; R146; R148; R158.) -/
def Obligations.ProgramRoundTrip : Prop :=
  (∀ (i : ColIns) (u v : W64), (∀ f, i = .movcs f → f.smode ≠ 3) →
    let ws := encodeCol i ++ [u, v]
    decodeCol (ws.getD 0 0) (ws.getD 1 0) = some i) ∧
  (∀ (i : OctIns) (u v : W64),
    (∀ f, i = .mix f → f.sc = 0 ∧ mixOk f = true) → (∀ f, i = .mixp f → mixOk f = true) →
    (∀ f, i = .gain f → gainOk f.gain.toNat = true) →
    let ws := encodeOct i ++ [u, v]
    decodeOct (ws.getD 0 0) (ws.getD 1 0) (ws.getD 2 0) = some i)

end
end

