-- ==== Sys2Proof/Laws/Bits.lean ====
section
/-! SUPPORT. Laws of bit fields and of byte enables. -/

namespace Sys2Proof.Machine

/-- A field's number fits its width. -/
theorem bits_lt (v : W32) (hi lo : Nat) : bits v hi lo < 2 ^ (hi + 1 - lo) :=
  Nat.mod_lt _ (Nat.two_pow_pos _)

/-- A word split at a field: above, the field, below. -/
theorem word_split (v : W32) {hi lo : Nat} (h : lo ≤ hi) :
    v.toNat = v.toNat / 2 ^ (hi + 1) * 2 ^ (hi + 1) + bits v hi lo * 2 ^ lo + v.toNat % 2 ^ lo := by
  have e : 2 ^ (hi + 1) = 2 ^ lo * 2 ^ (hi + 1 - lo) := by rw [← Nat.pow_add]; congr 1; omega
  have h1 := Nat.div_add_mod v.toNat (2 ^ lo)
  have h2 := Nat.div_add_mod (v.toNat / 2 ^ lo) (2 ^ (hi + 1 - lo))
  rw [Nat.div_div_eq_div_mul, ← e] at h2
  unfold bits
  generalize v.toNat / 2 ^ lo % 2 ^ (hi + 1 - lo) = m at *
  generalize v.toNat / 2 ^ (hi + 1) = a at *
  generalize v.toNat % 2 ^ lo = r at *
  rw [e]
  rw [← h2] at h1
  rw [← h1]
  ring

/-- A word with a field replaced, as a number. -/
theorem setBits_toNat (v : W32) {hi lo : Nat} (n : Nat) (h : lo ≤ hi) (h32 : hi < 32) :
    (setBits v hi lo n).toNat =
      v.toNat / 2 ^ (hi + 1) * 2 ^ (hi + 1) + n % 2 ^ (hi + 1 - lo) * 2 ^ lo + v.toNat % 2 ^ lo := by
  have hs := word_split v h
  have e : 2 ^ (hi + 1) = 2 ^ (hi + 1 - lo) * 2 ^ lo := by rw [← Nat.pow_add]; congr 1; omega
  have hn := Nat.mod_lt n (Nat.two_pow_pos (hi + 1 - lo))
  have hr := Nat.mod_lt v.toNat (Nat.two_pow_pos lo)
  have e32 : (2 : Nat) ^ 32 = 2 ^ (31 - hi) * 2 ^ (hi + 1) := by rw [← Nat.pow_add]; congr 1; omega
  have ha : v.toNat / 2 ^ (hi + 1) < 2 ^ (31 - hi) := by
    rw [Nat.div_lt_iff_lt_mul (Nat.two_pow_pos _), ← e32]; exact v.isLt
  have key : v.toNat - bits v hi lo * 2 ^ lo + n % 2 ^ (hi + 1 - lo) * 2 ^ lo =
      v.toNat / 2 ^ (hi + 1) * 2 ^ (hi + 1) + n % 2 ^ (hi + 1 - lo) * 2 ^ lo + v.toNat % 2 ^ lo := by
    omega
  unfold setBits
  rw [BitVec.toNat_ofNat, key]
  apply Nat.mod_eq_of_lt
  rw [e32]
  have hb : n % 2 ^ (hi + 1 - lo) * 2 ^ lo + v.toNat % 2 ^ lo < 2 ^ (hi + 1) := by
    calc n % 2 ^ (hi + 1 - lo) * 2 ^ lo + v.toNat % 2 ^ lo
        < n % 2 ^ (hi + 1 - lo) * 2 ^ lo + 2 ^ lo := by omega
      _ = (n % 2 ^ (hi + 1 - lo) + 1) * 2 ^ lo := by ring
      _ ≤ 2 ^ (hi + 1 - lo) * 2 ^ lo := Nat.mul_le_mul_right _ hn
      _ = 2 ^ (hi + 1) := e.symm
  calc v.toNat / 2 ^ (hi + 1) * 2 ^ (hi + 1) + n % 2 ^ (hi + 1 - lo) * 2 ^ lo + v.toNat % 2 ^ lo
      < v.toNat / 2 ^ (hi + 1) * 2 ^ (hi + 1) + 2 ^ (hi + 1) := by omega
    _ = (v.toNat / 2 ^ (hi + 1) + 1) * 2 ^ (hi + 1) := by ring
    _ ≤ 2 ^ (31 - hi) * 2 ^ (hi + 1) := Nat.mul_le_mul_right _ ha

/-- A field reads as the number just set. -/
theorem bits_setBits_self (v : W32) {hi lo : Nat} (n : Nat) (h : lo ≤ hi) (h32 : hi < 32) :
    bits (setBits v hi lo n) hi lo = n % 2 ^ (hi + 1 - lo) := by
  have e : 2 ^ (hi + 1) = 2 ^ (hi + 1 - lo) * 2 ^ lo := by rw [← Nat.pow_add]; congr 1; omega
  unfold bits
  rw [setBits_toNat v n h h32, e]
  have hr := Nat.mod_lt v.toNat (Nat.two_pow_pos lo)
  rw [show v.toNat / (2 ^ (hi + 1 - lo) * 2 ^ lo) * (2 ^ (hi + 1 - lo) * 2 ^ lo) + n % 2 ^ (hi + 1 - lo) * 2 ^ lo +
      v.toNat % 2 ^ lo = 2 ^ lo * (v.toNat / (2 ^ (hi + 1 - lo) * 2 ^ lo) * 2 ^ (hi + 1 - lo) +
        n % 2 ^ (hi + 1 - lo)) + v.toNat % 2 ^ lo by ring]
  rw [Nat.mul_add_div (Nat.two_pow_pos _), Nat.div_eq_of_lt hr, Nat.add_zero, Nat.mul_add_mod']
  exact Nat.mod_mod _ _

/-- A field above the one set reads as before. -/
theorem bits_setBits_above (v : W32) {hi lo hi' lo' : Nat} (n : Nat) (h : lo ≤ hi) (h32 : hi < 32)
    (hd : hi < lo') : bits (setBits v hi lo n) hi' lo' = bits v hi' lo' := by
  have e : 2 ^ (hi + 1) = 2 ^ (hi + 1 - lo) * 2 ^ lo := by rw [← Nat.pow_add]; congr 1; omega
  have hn := Nat.mod_lt n (Nat.two_pow_pos (hi + 1 - lo))
  have hr := Nat.mod_lt v.toNat (Nat.two_pow_pos lo)
  have hb : n % 2 ^ (hi + 1 - lo) * 2 ^ lo + v.toNat % 2 ^ lo < 2 ^ (hi + 1) := by
    calc n % 2 ^ (hi + 1 - lo) * 2 ^ lo + v.toNat % 2 ^ lo
        < n % 2 ^ (hi + 1 - lo) * 2 ^ lo + 2 ^ lo := by omega
      _ = (n % 2 ^ (hi + 1 - lo) + 1) * 2 ^ lo := by ring
      _ ≤ 2 ^ (hi + 1 - lo) * 2 ^ lo := Nat.mul_le_mul_right _ hn
      _ = 2 ^ (hi + 1) := e.symm
  have hq : (setBits v hi lo n).toNat / 2 ^ (hi + 1) = v.toNat / 2 ^ (hi + 1) := by
    rw [setBits_toNat v n h h32, Nat.add_assoc, Nat.mul_comm,
      Nat.mul_add_div (Nat.two_pow_pos _), Nat.div_eq_of_lt hb, Nat.add_zero]
  have e' : 2 ^ lo' = 2 ^ (hi + 1) * 2 ^ (lo' - (hi + 1)) := by rw [← Nat.pow_add]; congr 1; omega
  unfold bits
  rw [e', ← Nat.div_div_eq_div_mul, ← Nat.div_div_eq_div_mul, hq]

/-- A field below the one set reads as before. -/
theorem bits_setBits_below (v : W32) {hi lo hi' lo' : Nat} (n : Nat) (h : lo ≤ hi) (h32 : hi < 32)
    (hd : hi' < lo) : bits (setBits v hi lo n) hi' lo' = bits v hi' lo' := by
  rcases Nat.lt_or_ge hi' lo' with hl | hl
  · have : hi' + 1 - lo' = 0 := by omega
    simp [bits, this, Nat.mod_one]
  have e : 2 ^ (hi + 1) = 2 ^ (hi + 1 - lo) * 2 ^ lo := by rw [← Nat.pow_add]; congr 1; omega
  have hm : (setBits v hi lo n).toNat % 2 ^ lo = v.toNat % 2 ^ lo := by
    rw [setBits_toNat v n h h32, e]
    rw [show v.toNat / (2 ^ (hi + 1 - lo) * 2 ^ lo) * (2 ^ (hi + 1 - lo) * 2 ^ lo) + n % 2 ^ (hi + 1 - lo) * 2 ^ lo +
      v.toNat % 2 ^ lo = 2 ^ lo * (v.toNat / (2 ^ (hi + 1 - lo) * 2 ^ lo) * 2 ^ (hi + 1 - lo) +
        n % 2 ^ (hi + 1 - lo)) + v.toNat % 2 ^ lo by ring, Nat.mul_add_mod, Nat.mod_mod]
  have ed : 2 ^ (hi' + 1) = 2 ^ lo' * 2 ^ (hi' + 1 - lo') := by rw [← Nat.pow_add]; congr 1; omega
  have hdvd : 2 ^ (hi' + 1) ∣ 2 ^ lo := Nat.pow_dvd_pow 2 hd
  have hm' : (setBits v hi lo n).toNat % 2 ^ (hi' + 1) = v.toNat % 2 ^ (hi' + 1) := by
    rw [← Nat.mod_mod_of_dvd _ hdvd, hm, Nat.mod_mod_of_dvd _ hdvd]
  unfold bits
  rw [← Nat.mod_mul_right_div_self, ← Nat.mod_mul_right_div_self, ← ed, hm']

/-- One bit of a merge: the new word where the byte is enabled, the old one elsewhere (R364). -/
theorem beMask_getLsbD (be : BitVec 4) (i : Nat) :
    (beMask be).getLsbD i = (decide (i < 32) && be.getLsbD (i / 8)) := by
  by_cases h : i < 32
  · revert be
    interval_cases i <;> decide
  · rw [BitVec.getLsbD_of_ge _ _ (by omega)]; simp [h]

theorem mergeBe_getLsbD (old new : W32) (be : BitVec 4) {i : Nat} (h : i < 32) :
    (mergeBe old new be).getLsbD i = if be.getLsbD (i / 8) then new.getLsbD i else old.getLsbD i := by
  unfold mergeBe
  simp only [BitVec.getLsbD_or, BitVec.getLsbD_and, BitVec.getLsbD_not, beMask_getLsbD, h, decide_true,
    Bool.true_and]
  cases be.getLsbD (i / 8) <;> simp

/-- No byte enabled: the old word. -/
@[simp] theorem mergeBe_none (old new : W32) : mergeBe old new 0 = old := by
  apply BitVec.eq_of_getLsbD_eq
  intro i hi
  rw [mergeBe_getLsbD old new 0 hi, if_neg (by simp)]

/-- All bytes enabled: the new word. -/
@[simp] theorem mergeBe_all (old new : W32) : mergeBe old new 0xF = new := by
  apply BitVec.eq_of_getLsbD_eq
  intro i hi
  rw [mergeBe_getLsbD old new 0xF hi]
  have : i / 8 < 4 := by omega
  have : (0xF : BitVec 4).getLsbD (i / 8) = true := by interval_cases i / 8 <;> rfl
  rw [if_pos this]

@[simp] theorem b2n_lt (b : Bool) : b2n b < 2 := by cases b <;> decide

theorem b2n_eq_one {b : Bool} : b2n b = 1 ↔ b = true := by cases b <;> decide

end Sys2Proof.Machine
end

