-- ==== Sys2Proof/Laws/Sparse.lean ====
section
/-! SUPPORT. Laws of the sparse arrays: what is read after a change, and that every change keeps the
canonical form. -/

namespace Sys2Proof.Sparse

variable {α : Type}

/-! ### Reads -/

theorem get_insert (d : α) (m : Sparse α) (k : Nat) (v : α) (j : Nat) :
    get d (insert k v m) j = if k = j then v else get d m j := by
  induction m with
  | nil => simp [insert, get]
  | cons q r ih =>
    obtain ⟨i, w⟩ := q
    simp only [insert]
    split
    · simp [get]
    · split
      · subst k; by_cases h : i = j <;> simp [get, h]
      · simp only [get, ih]
        by_cases h : i = j
        · subst j; simp [show ¬ k = i by assumption]
        · simp [h]

theorem get_erase (d : α) (m : Sparse α) (k : Nat) (j : Nat) :
    get d (erase k m) j = if k = j then d else get d m j := by
  induction m with
  | nil => simp [erase, get]
  | cons q r ih =>
    obtain ⟨i, w⟩ := q
    simp only [erase]
    split
    · subst k
      rw [ih]
      by_cases h : i = j <;> simp [get, h]
    · simp only [get, ih]
      by_cases h : i = j
      · subst j; simp [show ¬ k = i by omega]
      · simp [h]

theorem get_put [DecidableEq α] (d : α) (m : Sparse α) (k : Nat) (v : α) (j : Nat) :
    get d (put d m k v) j = if k = j then v else get d m j := by
  unfold put
  split
  · subst v; exact get_erase d m k j
  · exact get_insert d m k v j

/-- Reading what was just written. -/
@[simp] theorem get_put_self [DecidableEq α] (d : α) (m : Sparse α) (k : Nat) (v : α) :
    get d (put d m k v) k = v := by simp [get_put]

/-- Reading another place, whatever its default. -/
theorem get_put_ne [DecidableEq α] (d e : α) (m : Sparse α) {k j : Nat} (v : α) (h : k ≠ j) :
    get e (put d m k v) j = get e m j := by
  unfold put
  split
  · rw [get_erase, if_neg h]
  · rw [get_insert, if_neg h]

/-- Reading what a filter by key keeps. -/
theorem get_filter_key (d : α) (m : Sparse α) (p : Nat → Bool) (j : Nat) :
    get d (m.filter fun q => p q.1) j = if p j then get d m j else d := by
  induction m with
  | nil => simp [get]
  | cons q r ih =>
    obtain ⟨i, w⟩ := q
    by_cases hp : p i = true
    · rw [List.filter_cons_of_pos (by simpa using hp)]
      simp only [get, ih]
      by_cases h : i = j
      · subst j; simp [hp]
      · simp [h]
    · rw [List.filter_cons_of_neg (by simpa using hp), ih]
      by_cases h : i = j
      · subst j; simp [hp]
      · simp [get, h]

/-! ### The canonical form -/

theorem rising_weaken {m : Sparse α} {i j : Nat} (h : i ≤ j) (hr : rising (some j) m = true) :
    rising (some i) m = true := by
  cases m with
  | nil => rfl
  | cons q r =>
    simp only [rising, Bool.and_eq_true, decide_eq_true_eq] at hr ⊢
    exact ⟨by omega, hr.2⟩

theorem rising_none {m : Sparse α} {i : Nat} (hr : rising (some i) m = true) : rising none m = true := by
  cases m with
  | nil => rfl
  | cons q r =>
    simp only [rising, Bool.and_eq_true, decide_eq_true_eq] at hr ⊢
    exact hr.2

/-- Rising from a key: the key lies below the head, and the rest rises from the head. -/
theorem rising_cons {q : Nat × α} {r : Sparse α} {b : Option Nat} :
    rising b (q :: r) = true ↔ (∀ i, b = some i → i < q.1) ∧ rising (some q.1) r = true := by
  cases b <;> simp [rising]

theorem rising_filter (p : Nat × α → Bool) :
    ∀ (m : Sparse α) (b : Option Nat), rising b m = true → rising b (m.filter p) = true
  | [], b, _ => by cases b <;> rfl
  | q :: r, b, h => by
    rw [rising_cons] at h
    by_cases hp : p q = true
    · rw [List.filter_cons_of_pos hp, rising_cons]
      exact ⟨h.1, rising_filter p r _ h.2⟩
    · rw [List.filter_cons_of_neg hp]
      have := rising_filter p r _ h.2
      cases b with
      | none => exact rising_none this
      | some i => exact rising_weaken (Nat.le_of_lt (h.1 i rfl)) this

theorem rising_insert (k : Nat) (v : α) :
    ∀ (m : Sparse α) (b : Option Nat), (∀ i, b = some i → i < k) → rising b m = true →
      rising b (insert k v m) = true
  | [], b, hb, _ => by rw [insert, rising_cons]; exact ⟨hb, rfl⟩
  | q :: r, b, hb, h => by
    rw [rising_cons] at h
    obtain ⟨j, w⟩ := q
    simp only [insert]
    split
    · rw [rising_cons, rising_cons]; exact ⟨hb, by simpa using by assumption, h.2⟩
    · split
      · subst k; rw [rising_cons]; exact ⟨hb, h.2⟩
      · rw [rising_cons]
        exact ⟨h.1, rising_insert k v r _ (by intro i hi; cases hi; omega) h.2⟩

theorem erase_eq_filter (k : Nat) (m : Sparse α) : erase k m = m.filter fun q => q.1 ≠ k := by
  induction m with
  | nil => rfl
  | cons q r ih =>
    obtain ⟨j, w⟩ := q
    by_cases h : j = k <;> simp [erase, h, ih]

theorem mem_insert {k : Nat} {v : α} {q : Nat × α} :
    ∀ {m : Sparse α}, q ∈ insert k v m → q = (k, v) ∨ q ∈ m
  | [], h => by simpa [insert] using h
  | (j, w) :: r, h => by
    simp only [insert] at h
    split at h
    · simpa using h
    · split at h
      · rcases List.mem_cons.1 h with h | h
        · exact .inl h
        · exact .inr (List.mem_cons_of_mem _ h)
      · rcases List.mem_cons.1 h with h | h
        · exact .inr (h ▸ List.mem_cons_self)
        · exact (mem_insert h).imp id (List.mem_cons_of_mem _)

/-- Two rising runs, every key of the first below every key of the second. -/
theorem rising_append {l r : Sparse α} (n : Nat) :
    ∀ b, rising b l = true → (∀ q ∈ l, q.1 < n) →
      rising none r = true → (∀ q ∈ r, n ≤ q.1) → (∀ i, b = some i → i < n) → rising b (l ++ r) = true := by
  induction l with
  | nil =>
    intro b _ _ hr hn hb
    cases r with
    | nil => cases b <;> rfl
    | cons q r =>
      rw [List.nil_append, rising_cons]
      exact ⟨fun i hi => Nat.lt_of_lt_of_le (hb i hi) (hn q List.mem_cons_self), (rising_cons.1 hr).2⟩
  | cons q l ih =>
    intro b h hl hr hn hb
    rw [rising_cons] at h
    rw [List.cons_append, rising_cons]
    refine ⟨h.1, ih _ h.2 (fun p hp => hl p (List.mem_cons_of_mem _ hp)) hr hn ?_⟩
    intro i hi; cases hi; exact hl q List.mem_cons_self

/-- The listed cells of a run rise from its first key. -/
theorem rising_run (vs : List α) : ∀ (k : Nat) (b : Option Nat), (∀ i, b = some i → i < k) →
    rising b (List.zip (List.range' k vs.length) vs) = true := by
  induction vs with
  | nil => intro k b _; cases b <;> rfl
  | cons v vs ih =>
    intro k b hb
    simp only [List.length_cons, List.range'_succ, List.zip_cons_cons]
    rw [rising_cons]
    exact ⟨hb, ih (k + 1) _ (by intro i hi; cases hi; exact Nat.lt_succ_self k)⟩

theorem mem_run {k : Nat} {vs : List α} {q : Nat × α} (h : q ∈ List.zip (List.range' k vs.length) vs) :
    k ≤ q.1 ∧ q.1 < k + vs.length := by
  have := (List.of_mem_zip h).1
  simpa using List.mem_range'_1.1 this

variable [DecidableEq α]

theorem wf_iff {d : α} {m : Sparse α} :
    wf d m = true ↔ rising none m = true ∧ ∀ q ∈ m, q.2 ≠ d := by
  simp [wf, List.all_eq_true]

theorem wf_filter {d : α} {m : Sparse α} (p : Nat × α → Bool) (h : wf d m = true) :
    wf d (m.filter p) = true := by
  rw [wf_iff] at h ⊢
  exact ⟨rising_filter p m _ h.1, fun q hq => h.2 q (List.mem_of_mem_filter hq)⟩

theorem wf_erase {d : α} {m : Sparse α} (k : Nat) (h : wf d m = true) : wf d (erase k m) = true := by
  rw [erase_eq_filter]; exact wf_filter _ h

theorem wf_insert {d : α} {m : Sparse α} (k : Nat) {v : α} (hv : v ≠ d) (h : wf d m = true) :
    wf d (insert k v m) = true := by
  rw [wf_iff] at h ⊢
  refine ⟨rising_insert k v m _ (by simp) h.1, fun q hq => ?_⟩
  rcases mem_insert hq with rfl | hq
  · exact hv
  · exact h.2 q hq

/-- A write keeps the canonical form. -/
theorem wf_put {d : α} {m : Sparse α} (k : Nat) (v : α) (h : wf d m = true) :
    wf d (put d m k v) = true := by
  unfold put
  split
  · exact wf_erase k h
  · exact wf_insert k (by assumption) h

@[simp] theorem wf_nil (d : α) : wf d [] = true := rfl

/-- A run of writes keeps the canonical form. -/
theorem wf_putRun {d : α} {m : Sparse α} (k : Nat) (vs : List α) (h : wf d m = true) :
    wf d (putRun d m k vs) = true := by
  have hl := wf_iff.1 (wf_filter (fun q : Nat × α => q.1 < k) h)
  have hr := wf_iff.1 (wf_filter (fun q : Nat × α => k + vs.length ≤ q.1) h)
  have hm := rising_filter (fun p : Nat × α => p.2 ≠ d) _ none (rising_run vs k none (by simp))
  rw [wf_iff]
  constructor
  · unfold putRun
    refine rising_append (k + vs.length) none ?_ ?_ hr.1 ?_ (by simp)
    · refine rising_append k none hl.1 ?_ hm ?_ (by simp)
      · intro q hq; simpa using (List.mem_filter.1 hq).2
      · intro q hq; exact (mem_run (List.mem_of_mem_filter hq)).1
    · intro q hq
      rcases List.mem_append.1 hq with hq | hq
      · have : q.1 < k := by simpa using (List.mem_filter.1 hq).2
        omega
      · exact (mem_run (List.mem_of_mem_filter hq)).2
    · intro q hq; simpa using (List.mem_filter.1 hq).2
  · intro q hq
    unfold putRun at hq
    rcases List.mem_append.1 hq with hq | hq
    · rcases List.mem_append.1 hq with hq | hq
      · exact hl.2 q hq
      · simpa using (List.mem_filter.1 hq).2
    · exact hr.2 q hq

end Sys2Proof.Sparse
end

