-- ==== Sys2Proof/Laws/State.lean ====
section
/-! SUPPORT. What the primitive updates of the state leave as it was, and what the field that each changes
becomes: one lemma per field. -/

namespace Sys2Proof.Machine.State

variable (s : State)

/-! ### wr -/

@[simp] theorem wr_regs (a : Nat) (v : W32) : (s.wr a v).regs = s.regs.put (regReset a) a v := rfl
@[simp] theorem wr_pending (a : Nat) (v : W32) : (s.wr a v).pending = s.pending := rfl
@[simp] theorem wr_mem (a : Nat) (v : W32) : (s.wr a v).mem = s.mem := rfl
@[simp] theorem wr_tone (a : Nat) (v : W32) : (s.wr a v).tone = s.tone := rfl
@[simp] theorem wr_clock (a : Nat) (v : W32) : (s.wr a v).clock = s.clock := rfl
@[simp] theorem wr_power (a : Nat) (v : W32) : (s.wr a v).power = s.power := rfl
@[simp] theorem wr_otp (a : Nat) (v : W32) : (s.wr a v).otp = s.otp := rfl
@[simp] theorem wr_evt (a : Nat) (v : W32) : (s.wr a v).evt = s.evt := rfl
@[simp] theorem wr_hst (a : Nat) (v : W32) : (s.wr a v).hst = s.hst := rfl
@[simp] theorem wr_hif (a : Nat) (v : W32) : (s.wr a v).hif = s.hif := rfl
@[simp] theorem wr_io (a : Nat) (v : W32) : (s.wr a v).io = s.io := rfl
@[simp] theorem wr_flip (a : Nat) (v : W32) : (s.wr a v).flip = s.flip := rfl
@[simp] theorem wr_mate (a : Nat) (v : W32) : (s.wr a v).mate = s.mate := rfl
@[simp] theorem wr_tmg (a : Nat) (v : W32) : (s.wr a v).tmg = s.tmg := rfl
@[simp] theorem wr_fab (a : Nat) (v : W32) : (s.wr a v).fab = s.fab := rfl
@[simp] theorem wr_sram (a : Nat) (v : W32) : (s.wr a v).sram = s.sram := rfl
@[simp] theorem wr_pm (a : Nat) (v : W32) : (s.wr a v).pm = s.pm := rfl
@[simp] theorem wr_drawn (a : Nat) (v : W32) : (s.wr a v).drawn = s.drawn := rfl

/-! ### fset -/

@[simp] theorem fset_pending (f : Fld) (n : Nat) : (s.fset f n).pending = s.pending := rfl
@[simp] theorem fset_mem (f : Fld) (n : Nat) : (s.fset f n).mem = s.mem := rfl
@[simp] theorem fset_tone (f : Fld) (n : Nat) : (s.fset f n).tone = s.tone := rfl
@[simp] theorem fset_clock (f : Fld) (n : Nat) : (s.fset f n).clock = s.clock := rfl
@[simp] theorem fset_power (f : Fld) (n : Nat) : (s.fset f n).power = s.power := rfl
@[simp] theorem fset_otp (f : Fld) (n : Nat) : (s.fset f n).otp = s.otp := rfl
@[simp] theorem fset_evt (f : Fld) (n : Nat) : (s.fset f n).evt = s.evt := rfl
@[simp] theorem fset_hst (f : Fld) (n : Nat) : (s.fset f n).hst = s.hst := rfl
@[simp] theorem fset_hif (f : Fld) (n : Nat) : (s.fset f n).hif = s.hif := rfl
@[simp] theorem fset_io (f : Fld) (n : Nat) : (s.fset f n).io = s.io := rfl
@[simp] theorem fset_flip (f : Fld) (n : Nat) : (s.fset f n).flip = s.flip := rfl
@[simp] theorem fset_mate (f : Fld) (n : Nat) : (s.fset f n).mate = s.mate := rfl
@[simp] theorem fset_tmg (f : Fld) (n : Nat) : (s.fset f n).tmg = s.tmg := rfl
@[simp] theorem fset_fab (f : Fld) (n : Nat) : (s.fset f n).fab = s.fab := rfl
@[simp] theorem fset_sram (f : Fld) (n : Nat) : (s.fset f n).sram = s.sram := rfl
@[simp] theorem fset_pm (f : Fld) (n : Nat) : (s.fset f n).pm = s.pm := rfl
@[simp] theorem fset_drawn (f : Fld) (n : Nat) : (s.fset f n).drawn = s.drawn := rfl

/-! ### fbit -/

@[simp] theorem fbit_pending (f : Fld) (b : Bool) : (s.fbit f b).pending = s.pending := rfl
@[simp] theorem fbit_mem (f : Fld) (b : Bool) : (s.fbit f b).mem = s.mem := rfl
@[simp] theorem fbit_tone (f : Fld) (b : Bool) : (s.fbit f b).tone = s.tone := rfl
@[simp] theorem fbit_clock (f : Fld) (b : Bool) : (s.fbit f b).clock = s.clock := rfl
@[simp] theorem fbit_power (f : Fld) (b : Bool) : (s.fbit f b).power = s.power := rfl
@[simp] theorem fbit_otp (f : Fld) (b : Bool) : (s.fbit f b).otp = s.otp := rfl
@[simp] theorem fbit_evt (f : Fld) (b : Bool) : (s.fbit f b).evt = s.evt := rfl
@[simp] theorem fbit_hst (f : Fld) (b : Bool) : (s.fbit f b).hst = s.hst := rfl
@[simp] theorem fbit_hif (f : Fld) (b : Bool) : (s.fbit f b).hif = s.hif := rfl
@[simp] theorem fbit_io (f : Fld) (b : Bool) : (s.fbit f b).io = s.io := rfl
@[simp] theorem fbit_flip (f : Fld) (b : Bool) : (s.fbit f b).flip = s.flip := rfl
@[simp] theorem fbit_mate (f : Fld) (b : Bool) : (s.fbit f b).mate = s.mate := rfl
@[simp] theorem fbit_tmg (f : Fld) (b : Bool) : (s.fbit f b).tmg = s.tmg := rfl
@[simp] theorem fbit_fab (f : Fld) (b : Bool) : (s.fbit f b).fab = s.fab := rfl
@[simp] theorem fbit_sram (f : Fld) (b : Bool) : (s.fbit f b).sram = s.sram := rfl
@[simp] theorem fbit_pm (f : Fld) (b : Bool) : (s.fbit f b).pm = s.pm := rfl
@[simp] theorem fbit_drawn (f : Fld) (b : Bool) : (s.fbit f b).drawn = s.drawn := rfl

/-! ### count -/

@[simp] theorem count_pending (a n : Nat) : (s.count a n).pending = s.pending := rfl
@[simp] theorem count_mem (a n : Nat) : (s.count a n).mem = s.mem := rfl
@[simp] theorem count_tone (a n : Nat) : (s.count a n).tone = s.tone := rfl
@[simp] theorem count_clock (a n : Nat) : (s.count a n).clock = s.clock := rfl
@[simp] theorem count_power (a n : Nat) : (s.count a n).power = s.power := rfl
@[simp] theorem count_otp (a n : Nat) : (s.count a n).otp = s.otp := rfl
@[simp] theorem count_evt (a n : Nat) : (s.count a n).evt = s.evt := rfl
@[simp] theorem count_hst (a n : Nat) : (s.count a n).hst = s.hst := rfl
@[simp] theorem count_hif (a n : Nat) : (s.count a n).hif = s.hif := rfl
@[simp] theorem count_io (a n : Nat) : (s.count a n).io = s.io := rfl
@[simp] theorem count_flip (a n : Nat) : (s.count a n).flip = s.flip := rfl
@[simp] theorem count_mate (a n : Nat) : (s.count a n).mate = s.mate := rfl
@[simp] theorem count_tmg (a n : Nat) : (s.count a n).tmg = s.tmg := rfl
@[simp] theorem count_fab (a n : Nat) : (s.count a n).fab = s.fab := rfl
@[simp] theorem count_sram (a n : Nat) : (s.count a n).sram = s.sram := rfl
@[simp] theorem count_pm (a n : Nat) : (s.count a n).pm = s.pm := rfl
@[simp] theorem count_drawn (a n : Nat) : (s.count a n).drawn = s.drawn := rfl

/-! ### countSat -/

@[simp] theorem countSat_pending (f : Fld) (cap n : Nat) : (s.countSat f cap n).pending = s.pending := rfl
@[simp] theorem countSat_mem (f : Fld) (cap n : Nat) : (s.countSat f cap n).mem = s.mem := rfl
@[simp] theorem countSat_tone (f : Fld) (cap n : Nat) : (s.countSat f cap n).tone = s.tone := rfl
@[simp] theorem countSat_clock (f : Fld) (cap n : Nat) : (s.countSat f cap n).clock = s.clock := rfl
@[simp] theorem countSat_power (f : Fld) (cap n : Nat) : (s.countSat f cap n).power = s.power := rfl
@[simp] theorem countSat_otp (f : Fld) (cap n : Nat) : (s.countSat f cap n).otp = s.otp := rfl
@[simp] theorem countSat_evt (f : Fld) (cap n : Nat) : (s.countSat f cap n).evt = s.evt := rfl
@[simp] theorem countSat_hst (f : Fld) (cap n : Nat) : (s.countSat f cap n).hst = s.hst := rfl
@[simp] theorem countSat_hif (f : Fld) (cap n : Nat) : (s.countSat f cap n).hif = s.hif := rfl
@[simp] theorem countSat_io (f : Fld) (cap n : Nat) : (s.countSat f cap n).io = s.io := rfl
@[simp] theorem countSat_flip (f : Fld) (cap n : Nat) : (s.countSat f cap n).flip = s.flip := rfl
@[simp] theorem countSat_mate (f : Fld) (cap n : Nat) : (s.countSat f cap n).mate = s.mate := rfl
@[simp] theorem countSat_tmg (f : Fld) (cap n : Nat) : (s.countSat f cap n).tmg = s.tmg := rfl
@[simp] theorem countSat_fab (f : Fld) (cap n : Nat) : (s.countSat f cap n).fab = s.fab := rfl
@[simp] theorem countSat_sram (f : Fld) (cap n : Nat) : (s.countSat f cap n).sram = s.sram := rfl
@[simp] theorem countSat_pm (f : Fld) (cap n : Nat) : (s.countSat f cap n).pm = s.pm := rfl
@[simp] theorem countSat_drawn (f : Fld) (cap n : Nat) : (s.countSat f cap n).drawn = s.drawn := rfl

/-! ### setLane -/

@[simp] theorem setLane_lanes (l : Nat) (x : LaneSt) : (s.setLane l x).lanes = s.lanes.put .init l x := rfl
@[simp] theorem setLane_pending (l : Nat) (x : LaneSt) : (s.setLane l x).pending = s.pending := rfl
@[simp] theorem setLane_regs (l : Nat) (x : LaneSt) : (s.setLane l x).regs = s.regs := rfl
@[simp] theorem setLane_mem (l : Nat) (x : LaneSt) : (s.setLane l x).mem = s.mem := rfl
@[simp] theorem setLane_tone (l : Nat) (x : LaneSt) : (s.setLane l x).tone = s.tone := rfl
@[simp] theorem setLane_clock (l : Nat) (x : LaneSt) : (s.setLane l x).clock = s.clock := rfl
@[simp] theorem setLane_power (l : Nat) (x : LaneSt) : (s.setLane l x).power = s.power := rfl
@[simp] theorem setLane_otp (l : Nat) (x : LaneSt) : (s.setLane l x).otp = s.otp := rfl
@[simp] theorem setLane_evt (l : Nat) (x : LaneSt) : (s.setLane l x).evt = s.evt := rfl
@[simp] theorem setLane_hst (l : Nat) (x : LaneSt) : (s.setLane l x).hst = s.hst := rfl
@[simp] theorem setLane_hif (l : Nat) (x : LaneSt) : (s.setLane l x).hif = s.hif := rfl
@[simp] theorem setLane_io (l : Nat) (x : LaneSt) : (s.setLane l x).io = s.io := rfl
@[simp] theorem setLane_flip (l : Nat) (x : LaneSt) : (s.setLane l x).flip = s.flip := rfl
@[simp] theorem setLane_mate (l : Nat) (x : LaneSt) : (s.setLane l x).mate = s.mate := rfl
@[simp] theorem setLane_tmg (l : Nat) (x : LaneSt) : (s.setLane l x).tmg = s.tmg := rfl
@[simp] theorem setLane_fab (l : Nat) (x : LaneSt) : (s.setLane l x).fab = s.fab := rfl
@[simp] theorem setLane_sram (l : Nat) (x : LaneSt) : (s.setLane l x).sram = s.sram := rfl
@[simp] theorem setLane_pm (l : Nat) (x : LaneSt) : (s.setLane l x).pm = s.pm := rfl
@[simp] theorem setLane_drawn (l : Nat) (x : LaneSt) : (s.setLane l x).drawn = s.drawn := rfl

/-! ### onLane -/

@[simp] theorem onLane_lanes (l : Nat) (f : LaneSt → LaneSt) : (s.onLane l f).lanes = s.lanes.put .init l (f (s.lane l)) := rfl
@[simp] theorem onLane_pending (l : Nat) (f : LaneSt → LaneSt) : (s.onLane l f).pending = s.pending := rfl
@[simp] theorem onLane_regs (l : Nat) (f : LaneSt → LaneSt) : (s.onLane l f).regs = s.regs := rfl
@[simp] theorem onLane_mem (l : Nat) (f : LaneSt → LaneSt) : (s.onLane l f).mem = s.mem := rfl
@[simp] theorem onLane_tone (l : Nat) (f : LaneSt → LaneSt) : (s.onLane l f).tone = s.tone := rfl
@[simp] theorem onLane_clock (l : Nat) (f : LaneSt → LaneSt) : (s.onLane l f).clock = s.clock := rfl
@[simp] theorem onLane_power (l : Nat) (f : LaneSt → LaneSt) : (s.onLane l f).power = s.power := rfl
@[simp] theorem onLane_otp (l : Nat) (f : LaneSt → LaneSt) : (s.onLane l f).otp = s.otp := rfl
@[simp] theorem onLane_evt (l : Nat) (f : LaneSt → LaneSt) : (s.onLane l f).evt = s.evt := rfl
@[simp] theorem onLane_hst (l : Nat) (f : LaneSt → LaneSt) : (s.onLane l f).hst = s.hst := rfl
@[simp] theorem onLane_hif (l : Nat) (f : LaneSt → LaneSt) : (s.onLane l f).hif = s.hif := rfl
@[simp] theorem onLane_io (l : Nat) (f : LaneSt → LaneSt) : (s.onLane l f).io = s.io := rfl
@[simp] theorem onLane_flip (l : Nat) (f : LaneSt → LaneSt) : (s.onLane l f).flip = s.flip := rfl
@[simp] theorem onLane_mate (l : Nat) (f : LaneSt → LaneSt) : (s.onLane l f).mate = s.mate := rfl
@[simp] theorem onLane_tmg (l : Nat) (f : LaneSt → LaneSt) : (s.onLane l f).tmg = s.tmg := rfl
@[simp] theorem onLane_fab (l : Nat) (f : LaneSt → LaneSt) : (s.onLane l f).fab = s.fab := rfl
@[simp] theorem onLane_sram (l : Nat) (f : LaneSt → LaneSt) : (s.onLane l f).sram = s.sram := rfl
@[simp] theorem onLane_pm (l : Nat) (f : LaneSt → LaneSt) : (s.onLane l f).pm = s.pm := rfl
@[simp] theorem onLane_drawn (l : Nat) (f : LaneSt → LaneSt) : (s.onLane l f).drawn = s.drawn := rfl

/-! ### onAu -/

@[simp] theorem onAu_aus (l n : Nat) (f : AuSt → AuSt) : (s.onAu l n f).aus = s.aus.put .init (auKey l n) (f (s.au l n)) := rfl
@[simp] theorem onAu_pending (l n : Nat) (f : AuSt → AuSt) : (s.onAu l n f).pending = s.pending := rfl
@[simp] theorem onAu_regs (l n : Nat) (f : AuSt → AuSt) : (s.onAu l n f).regs = s.regs := rfl
@[simp] theorem onAu_mem (l n : Nat) (f : AuSt → AuSt) : (s.onAu l n f).mem = s.mem := rfl
@[simp] theorem onAu_tone (l n : Nat) (f : AuSt → AuSt) : (s.onAu l n f).tone = s.tone := rfl
@[simp] theorem onAu_clock (l n : Nat) (f : AuSt → AuSt) : (s.onAu l n f).clock = s.clock := rfl
@[simp] theorem onAu_power (l n : Nat) (f : AuSt → AuSt) : (s.onAu l n f).power = s.power := rfl
@[simp] theorem onAu_otp (l n : Nat) (f : AuSt → AuSt) : (s.onAu l n f).otp = s.otp := rfl
@[simp] theorem onAu_evt (l n : Nat) (f : AuSt → AuSt) : (s.onAu l n f).evt = s.evt := rfl
@[simp] theorem onAu_hst (l n : Nat) (f : AuSt → AuSt) : (s.onAu l n f).hst = s.hst := rfl
@[simp] theorem onAu_hif (l n : Nat) (f : AuSt → AuSt) : (s.onAu l n f).hif = s.hif := rfl
@[simp] theorem onAu_io (l n : Nat) (f : AuSt → AuSt) : (s.onAu l n f).io = s.io := rfl
@[simp] theorem onAu_flip (l n : Nat) (f : AuSt → AuSt) : (s.onAu l n f).flip = s.flip := rfl
@[simp] theorem onAu_mate (l n : Nat) (f : AuSt → AuSt) : (s.onAu l n f).mate = s.mate := rfl
@[simp] theorem onAu_tmg (l n : Nat) (f : AuSt → AuSt) : (s.onAu l n f).tmg = s.tmg := rfl
@[simp] theorem onAu_fab (l n : Nat) (f : AuSt → AuSt) : (s.onAu l n f).fab = s.fab := rfl
@[simp] theorem onAu_sram (l n : Nat) (f : AuSt → AuSt) : (s.onAu l n f).sram = s.sram := rfl
@[simp] theorem onAu_pm (l n : Nat) (f : AuSt → AuSt) : (s.onAu l n f).pm = s.pm := rfl
@[simp] theorem onAu_drawn (l n : Nat) (f : AuSt → AuSt) : (s.onAu l n f).drawn = s.drawn := rfl

/-! ### onPath -/

@[simp] theorem onPath_paths (p : Nat) (f : PathSt → PathSt) : (s.onPath p f).paths = s.paths.put .init p (f (s.path p)) := rfl
@[simp] theorem onPath_pending (p : Nat) (f : PathSt → PathSt) : (s.onPath p f).pending = s.pending := rfl
@[simp] theorem onPath_regs (p : Nat) (f : PathSt → PathSt) : (s.onPath p f).regs = s.regs := rfl
@[simp] theorem onPath_mem (p : Nat) (f : PathSt → PathSt) : (s.onPath p f).mem = s.mem := rfl
@[simp] theorem onPath_tone (p : Nat) (f : PathSt → PathSt) : (s.onPath p f).tone = s.tone := rfl
@[simp] theorem onPath_clock (p : Nat) (f : PathSt → PathSt) : (s.onPath p f).clock = s.clock := rfl
@[simp] theorem onPath_power (p : Nat) (f : PathSt → PathSt) : (s.onPath p f).power = s.power := rfl
@[simp] theorem onPath_otp (p : Nat) (f : PathSt → PathSt) : (s.onPath p f).otp = s.otp := rfl
@[simp] theorem onPath_evt (p : Nat) (f : PathSt → PathSt) : (s.onPath p f).evt = s.evt := rfl
@[simp] theorem onPath_hst (p : Nat) (f : PathSt → PathSt) : (s.onPath p f).hst = s.hst := rfl
@[simp] theorem onPath_hif (p : Nat) (f : PathSt → PathSt) : (s.onPath p f).hif = s.hif := rfl
@[simp] theorem onPath_io (p : Nat) (f : PathSt → PathSt) : (s.onPath p f).io = s.io := rfl
@[simp] theorem onPath_flip (p : Nat) (f : PathSt → PathSt) : (s.onPath p f).flip = s.flip := rfl
@[simp] theorem onPath_mate (p : Nat) (f : PathSt → PathSt) : (s.onPath p f).mate = s.mate := rfl
@[simp] theorem onPath_tmg (p : Nat) (f : PathSt → PathSt) : (s.onPath p f).tmg = s.tmg := rfl
@[simp] theorem onPath_fab (p : Nat) (f : PathSt → PathSt) : (s.onPath p f).fab = s.fab := rfl
@[simp] theorem onPath_sram (p : Nat) (f : PathSt → PathSt) : (s.onPath p f).sram = s.sram := rfl
@[simp] theorem onPath_pm (p : Nat) (f : PathSt → PathSt) : (s.onPath p f).pm = s.pm := rfl
@[simp] theorem onPath_drawn (p : Nat) (f : PathSt → PathSt) : (s.onPath p f).drawn = s.drawn := rfl

/-! ### onTerm -/

@[simp] theorem onTerm_terms (t : Nat) (f : TermSt → TermSt) : (s.onTerm t f).terms = s.terms.put .init t (f (s.term t)) := rfl
@[simp] theorem onTerm_pending (t : Nat) (f : TermSt → TermSt) : (s.onTerm t f).pending = s.pending := rfl
@[simp] theorem onTerm_regs (t : Nat) (f : TermSt → TermSt) : (s.onTerm t f).regs = s.regs := rfl
@[simp] theorem onTerm_mem (t : Nat) (f : TermSt → TermSt) : (s.onTerm t f).mem = s.mem := rfl
@[simp] theorem onTerm_tone (t : Nat) (f : TermSt → TermSt) : (s.onTerm t f).tone = s.tone := rfl
@[simp] theorem onTerm_clock (t : Nat) (f : TermSt → TermSt) : (s.onTerm t f).clock = s.clock := rfl
@[simp] theorem onTerm_power (t : Nat) (f : TermSt → TermSt) : (s.onTerm t f).power = s.power := rfl
@[simp] theorem onTerm_otp (t : Nat) (f : TermSt → TermSt) : (s.onTerm t f).otp = s.otp := rfl
@[simp] theorem onTerm_evt (t : Nat) (f : TermSt → TermSt) : (s.onTerm t f).evt = s.evt := rfl
@[simp] theorem onTerm_hst (t : Nat) (f : TermSt → TermSt) : (s.onTerm t f).hst = s.hst := rfl
@[simp] theorem onTerm_hif (t : Nat) (f : TermSt → TermSt) : (s.onTerm t f).hif = s.hif := rfl
@[simp] theorem onTerm_io (t : Nat) (f : TermSt → TermSt) : (s.onTerm t f).io = s.io := rfl
@[simp] theorem onTerm_flip (t : Nat) (f : TermSt → TermSt) : (s.onTerm t f).flip = s.flip := rfl
@[simp] theorem onTerm_mate (t : Nat) (f : TermSt → TermSt) : (s.onTerm t f).mate = s.mate := rfl
@[simp] theorem onTerm_tmg (t : Nat) (f : TermSt → TermSt) : (s.onTerm t f).tmg = s.tmg := rfl
@[simp] theorem onTerm_fab (t : Nat) (f : TermSt → TermSt) : (s.onTerm t f).fab = s.fab := rfl
@[simp] theorem onTerm_sram (t : Nat) (f : TermSt → TermSt) : (s.onTerm t f).sram = s.sram := rfl
@[simp] theorem onTerm_pm (t : Nat) (f : TermSt → TermSt) : (s.onTerm t f).pm = s.pm := rfl
@[simp] theorem onTerm_drawn (t : Nat) (f : TermSt → TermSt) : (s.onTerm t f).drawn = s.drawn := rfl

/-! ### onIsland -/

@[simp] theorem onIsland_islands (i : Nat) (f : Island → Island) : (s.onIsland i f).islands = s.islands.put .init i (f (s.island i)) := rfl
@[simp] theorem onIsland_pending (i : Nat) (f : Island → Island) : (s.onIsland i f).pending = s.pending := rfl
@[simp] theorem onIsland_regs (i : Nat) (f : Island → Island) : (s.onIsland i f).regs = s.regs := rfl
@[simp] theorem onIsland_mem (i : Nat) (f : Island → Island) : (s.onIsland i f).mem = s.mem := rfl
@[simp] theorem onIsland_tone (i : Nat) (f : Island → Island) : (s.onIsland i f).tone = s.tone := rfl
@[simp] theorem onIsland_clock (i : Nat) (f : Island → Island) : (s.onIsland i f).clock = s.clock := rfl
@[simp] theorem onIsland_power (i : Nat) (f : Island → Island) : (s.onIsland i f).power = s.power := rfl
@[simp] theorem onIsland_otp (i : Nat) (f : Island → Island) : (s.onIsland i f).otp = s.otp := rfl
@[simp] theorem onIsland_evt (i : Nat) (f : Island → Island) : (s.onIsland i f).evt = s.evt := rfl
@[simp] theorem onIsland_hst (i : Nat) (f : Island → Island) : (s.onIsland i f).hst = s.hst := rfl
@[simp] theorem onIsland_hif (i : Nat) (f : Island → Island) : (s.onIsland i f).hif = s.hif := rfl
@[simp] theorem onIsland_io (i : Nat) (f : Island → Island) : (s.onIsland i f).io = s.io := rfl
@[simp] theorem onIsland_flip (i : Nat) (f : Island → Island) : (s.onIsland i f).flip = s.flip := rfl
@[simp] theorem onIsland_mate (i : Nat) (f : Island → Island) : (s.onIsland i f).mate = s.mate := rfl
@[simp] theorem onIsland_tmg (i : Nat) (f : Island → Island) : (s.onIsland i f).tmg = s.tmg := rfl
@[simp] theorem onIsland_fab (i : Nat) (f : Island → Island) : (s.onIsland i f).fab = s.fab := rfl
@[simp] theorem onIsland_sram (i : Nat) (f : Island → Island) : (s.onIsland i f).sram = s.sram := rfl
@[simp] theorem onIsland_pm (i : Nat) (f : Island → Island) : (s.onIsland i f).pm = s.pm := rfl
@[simp] theorem onIsland_drawn (i : Nat) (f : Island → Island) : (s.onIsland i f).drawn = s.drawn := rfl

/-! ### onAps -/

@[simp] theorem onAps_aps (g : Nat) (f : ApsSt → ApsSt) : (s.onAps g f).aps = s.aps.put .init g (f (s.apsSt g)) := rfl
@[simp] theorem onAps_pending (g : Nat) (f : ApsSt → ApsSt) : (s.onAps g f).pending = s.pending := rfl
@[simp] theorem onAps_regs (g : Nat) (f : ApsSt → ApsSt) : (s.onAps g f).regs = s.regs := rfl
@[simp] theorem onAps_mem (g : Nat) (f : ApsSt → ApsSt) : (s.onAps g f).mem = s.mem := rfl
@[simp] theorem onAps_tone (g : Nat) (f : ApsSt → ApsSt) : (s.onAps g f).tone = s.tone := rfl
@[simp] theorem onAps_clock (g : Nat) (f : ApsSt → ApsSt) : (s.onAps g f).clock = s.clock := rfl
@[simp] theorem onAps_power (g : Nat) (f : ApsSt → ApsSt) : (s.onAps g f).power = s.power := rfl
@[simp] theorem onAps_otp (g : Nat) (f : ApsSt → ApsSt) : (s.onAps g f).otp = s.otp := rfl
@[simp] theorem onAps_evt (g : Nat) (f : ApsSt → ApsSt) : (s.onAps g f).evt = s.evt := rfl
@[simp] theorem onAps_hst (g : Nat) (f : ApsSt → ApsSt) : (s.onAps g f).hst = s.hst := rfl
@[simp] theorem onAps_hif (g : Nat) (f : ApsSt → ApsSt) : (s.onAps g f).hif = s.hif := rfl
@[simp] theorem onAps_io (g : Nat) (f : ApsSt → ApsSt) : (s.onAps g f).io = s.io := rfl
@[simp] theorem onAps_flip (g : Nat) (f : ApsSt → ApsSt) : (s.onAps g f).flip = s.flip := rfl
@[simp] theorem onAps_mate (g : Nat) (f : ApsSt → ApsSt) : (s.onAps g f).mate = s.mate := rfl
@[simp] theorem onAps_tmg (g : Nat) (f : ApsSt → ApsSt) : (s.onAps g f).tmg = s.tmg := rfl
@[simp] theorem onAps_fab (g : Nat) (f : ApsSt → ApsSt) : (s.onAps g f).fab = s.fab := rfl
@[simp] theorem onAps_sram (g : Nat) (f : ApsSt → ApsSt) : (s.onAps g f).sram = s.sram := rfl
@[simp] theorem onAps_pm (g : Nat) (f : ApsSt → ApsSt) : (s.onAps g f).pm = s.pm := rfl
@[simp] theorem onAps_drawn (g : Nat) (f : ApsSt → ApsSt) : (s.onAps g f).drawn = s.drawn := rfl

/-! ### onPm -/

@[simp] theorem onPm_pending (p : Nat) (f : PmPath → PmPath) : (s.onPm p f).pending = s.pending := rfl
@[simp] theorem onPm_regs (p : Nat) (f : PmPath → PmPath) : (s.onPm p f).regs = s.regs := rfl
@[simp] theorem onPm_mem (p : Nat) (f : PmPath → PmPath) : (s.onPm p f).mem = s.mem := rfl
@[simp] theorem onPm_tone (p : Nat) (f : PmPath → PmPath) : (s.onPm p f).tone = s.tone := rfl
@[simp] theorem onPm_clock (p : Nat) (f : PmPath → PmPath) : (s.onPm p f).clock = s.clock := rfl
@[simp] theorem onPm_power (p : Nat) (f : PmPath → PmPath) : (s.onPm p f).power = s.power := rfl
@[simp] theorem onPm_otp (p : Nat) (f : PmPath → PmPath) : (s.onPm p f).otp = s.otp := rfl
@[simp] theorem onPm_evt (p : Nat) (f : PmPath → PmPath) : (s.onPm p f).evt = s.evt := rfl
@[simp] theorem onPm_hst (p : Nat) (f : PmPath → PmPath) : (s.onPm p f).hst = s.hst := rfl
@[simp] theorem onPm_hif (p : Nat) (f : PmPath → PmPath) : (s.onPm p f).hif = s.hif := rfl
@[simp] theorem onPm_io (p : Nat) (f : PmPath → PmPath) : (s.onPm p f).io = s.io := rfl
@[simp] theorem onPm_flip (p : Nat) (f : PmPath → PmPath) : (s.onPm p f).flip = s.flip := rfl
@[simp] theorem onPm_mate (p : Nat) (f : PmPath → PmPath) : (s.onPm p f).mate = s.mate := rfl
@[simp] theorem onPm_tmg (p : Nat) (f : PmPath → PmPath) : (s.onPm p f).tmg = s.tmg := rfl
@[simp] theorem onPm_fab (p : Nat) (f : PmPath → PmPath) : (s.onPm p f).fab = s.fab := rfl
@[simp] theorem onPm_sram (p : Nat) (f : PmPath → PmPath) : (s.onPm p f).sram = s.sram := rfl
@[simp] theorem onPm_drawn (p : Nat) (f : PmPath → PmPath) : (s.onPm p f).drawn = s.drawn := rfl

/-! ### onCol -/

@[simp] theorem onCol_colEng (d : Nat) (f : ColEng → ColEng) : (s.onCol d f).colEng = s.colEng.put .init d (f (s.colEngine d)) := rfl
@[simp] theorem onCol_pending (d : Nat) (f : ColEng → ColEng) : (s.onCol d f).pending = s.pending := rfl
@[simp] theorem onCol_regs (d : Nat) (f : ColEng → ColEng) : (s.onCol d f).regs = s.regs := rfl
@[simp] theorem onCol_mem (d : Nat) (f : ColEng → ColEng) : (s.onCol d f).mem = s.mem := rfl
@[simp] theorem onCol_tone (d : Nat) (f : ColEng → ColEng) : (s.onCol d f).tone = s.tone := rfl
@[simp] theorem onCol_clock (d : Nat) (f : ColEng → ColEng) : (s.onCol d f).clock = s.clock := rfl
@[simp] theorem onCol_power (d : Nat) (f : ColEng → ColEng) : (s.onCol d f).power = s.power := rfl
@[simp] theorem onCol_otp (d : Nat) (f : ColEng → ColEng) : (s.onCol d f).otp = s.otp := rfl
@[simp] theorem onCol_evt (d : Nat) (f : ColEng → ColEng) : (s.onCol d f).evt = s.evt := rfl
@[simp] theorem onCol_hst (d : Nat) (f : ColEng → ColEng) : (s.onCol d f).hst = s.hst := rfl
@[simp] theorem onCol_hif (d : Nat) (f : ColEng → ColEng) : (s.onCol d f).hif = s.hif := rfl
@[simp] theorem onCol_io (d : Nat) (f : ColEng → ColEng) : (s.onCol d f).io = s.io := rfl
@[simp] theorem onCol_flip (d : Nat) (f : ColEng → ColEng) : (s.onCol d f).flip = s.flip := rfl
@[simp] theorem onCol_mate (d : Nat) (f : ColEng → ColEng) : (s.onCol d f).mate = s.mate := rfl
@[simp] theorem onCol_tmg (d : Nat) (f : ColEng → ColEng) : (s.onCol d f).tmg = s.tmg := rfl
@[simp] theorem onCol_fab (d : Nat) (f : ColEng → ColEng) : (s.onCol d f).fab = s.fab := rfl
@[simp] theorem onCol_sram (d : Nat) (f : ColEng → ColEng) : (s.onCol d f).sram = s.sram := rfl
@[simp] theorem onCol_pm (d : Nat) (f : ColEng → ColEng) : (s.onCol d f).pm = s.pm := rfl
@[simp] theorem onCol_drawn (d : Nat) (f : ColEng → ColEng) : (s.onCol d f).drawn = s.drawn := rfl

/-! ### onOct -/

@[simp] theorem onOct_octEng (d : Nat) (f : OctEng → OctEng) : (s.onOct d f).octEng = s.octEng.put .init d (f (s.octEngine d)) := rfl
@[simp] theorem onOct_pending (d : Nat) (f : OctEng → OctEng) : (s.onOct d f).pending = s.pending := rfl
@[simp] theorem onOct_regs (d : Nat) (f : OctEng → OctEng) : (s.onOct d f).regs = s.regs := rfl
@[simp] theorem onOct_mem (d : Nat) (f : OctEng → OctEng) : (s.onOct d f).mem = s.mem := rfl
@[simp] theorem onOct_tone (d : Nat) (f : OctEng → OctEng) : (s.onOct d f).tone = s.tone := rfl
@[simp] theorem onOct_clock (d : Nat) (f : OctEng → OctEng) : (s.onOct d f).clock = s.clock := rfl
@[simp] theorem onOct_power (d : Nat) (f : OctEng → OctEng) : (s.onOct d f).power = s.power := rfl
@[simp] theorem onOct_otp (d : Nat) (f : OctEng → OctEng) : (s.onOct d f).otp = s.otp := rfl
@[simp] theorem onOct_evt (d : Nat) (f : OctEng → OctEng) : (s.onOct d f).evt = s.evt := rfl
@[simp] theorem onOct_hst (d : Nat) (f : OctEng → OctEng) : (s.onOct d f).hst = s.hst := rfl
@[simp] theorem onOct_hif (d : Nat) (f : OctEng → OctEng) : (s.onOct d f).hif = s.hif := rfl
@[simp] theorem onOct_io (d : Nat) (f : OctEng → OctEng) : (s.onOct d f).io = s.io := rfl
@[simp] theorem onOct_flip (d : Nat) (f : OctEng → OctEng) : (s.onOct d f).flip = s.flip := rfl
@[simp] theorem onOct_mate (d : Nat) (f : OctEng → OctEng) : (s.onOct d f).mate = s.mate := rfl
@[simp] theorem onOct_tmg (d : Nat) (f : OctEng → OctEng) : (s.onOct d f).tmg = s.tmg := rfl
@[simp] theorem onOct_fab (d : Nat) (f : OctEng → OctEng) : (s.onOct d f).fab = s.fab := rfl
@[simp] theorem onOct_sram (d : Nat) (f : OctEng → OctEng) : (s.onOct d f).sram = s.sram := rfl
@[simp] theorem onOct_pm (d : Nat) (f : OctEng → OctEng) : (s.onOct d f).pm = s.pm := rfl
@[simp] theorem onOct_drawn (d : Nat) (f : OctEng → OctEng) : (s.onOct d f).drawn = s.drawn := rfl

/-! ### putByte -/

@[simp] theorem putByte_mem (a : Nat) (v : BitVec 8) : (s.putByte a v).mem = Sparse.put (0 : BitVec 8) s.mem a (v ^^^ resetByte a) := rfl
@[simp] theorem putByte_pending (a : Nat) (v : BitVec 8) : (s.putByte a v).pending = s.pending := rfl
@[simp] theorem putByte_regs (a : Nat) (v : BitVec 8) : (s.putByte a v).regs = s.regs := rfl
@[simp] theorem putByte_tone (a : Nat) (v : BitVec 8) : (s.putByte a v).tone = s.tone := rfl
@[simp] theorem putByte_clock (a : Nat) (v : BitVec 8) : (s.putByte a v).clock = s.clock := rfl
@[simp] theorem putByte_power (a : Nat) (v : BitVec 8) : (s.putByte a v).power = s.power := rfl
@[simp] theorem putByte_otp (a : Nat) (v : BitVec 8) : (s.putByte a v).otp = s.otp := rfl
@[simp] theorem putByte_evt (a : Nat) (v : BitVec 8) : (s.putByte a v).evt = s.evt := rfl
@[simp] theorem putByte_hst (a : Nat) (v : BitVec 8) : (s.putByte a v).hst = s.hst := rfl
@[simp] theorem putByte_hif (a : Nat) (v : BitVec 8) : (s.putByte a v).hif = s.hif := rfl
@[simp] theorem putByte_io (a : Nat) (v : BitVec 8) : (s.putByte a v).io = s.io := rfl
@[simp] theorem putByte_flip (a : Nat) (v : BitVec 8) : (s.putByte a v).flip = s.flip := rfl
@[simp] theorem putByte_mate (a : Nat) (v : BitVec 8) : (s.putByte a v).mate = s.mate := rfl
@[simp] theorem putByte_tmg (a : Nat) (v : BitVec 8) : (s.putByte a v).tmg = s.tmg := rfl
@[simp] theorem putByte_fab (a : Nat) (v : BitVec 8) : (s.putByte a v).fab = s.fab := rfl
@[simp] theorem putByte_sram (a : Nat) (v : BitVec 8) : (s.putByte a v).sram = s.sram := rfl
@[simp] theorem putByte_pm (a : Nat) (v : BitVec 8) : (s.putByte a v).pm = s.pm := rfl
@[simp] theorem putByte_drawn (a : Nat) (v : BitVec 8) : (s.putByte a v).drawn = s.drawn := rfl

/-! ### putSample -/

@[simp] theorem putSample_tone (a : Nat) (v : Octet) : (s.putSample a v).tone = Sparse.put (0 : BitVec 8) s.tone a v := rfl
@[simp] theorem putSample_pending (a : Nat) (v : Octet) : (s.putSample a v).pending = s.pending := rfl
@[simp] theorem putSample_regs (a : Nat) (v : Octet) : (s.putSample a v).regs = s.regs := rfl
@[simp] theorem putSample_mem (a : Nat) (v : Octet) : (s.putSample a v).mem = s.mem := rfl
@[simp] theorem putSample_clock (a : Nat) (v : Octet) : (s.putSample a v).clock = s.clock := rfl
@[simp] theorem putSample_power (a : Nat) (v : Octet) : (s.putSample a v).power = s.power := rfl
@[simp] theorem putSample_otp (a : Nat) (v : Octet) : (s.putSample a v).otp = s.otp := rfl
@[simp] theorem putSample_evt (a : Nat) (v : Octet) : (s.putSample a v).evt = s.evt := rfl
@[simp] theorem putSample_hst (a : Nat) (v : Octet) : (s.putSample a v).hst = s.hst := rfl
@[simp] theorem putSample_hif (a : Nat) (v : Octet) : (s.putSample a v).hif = s.hif := rfl
@[simp] theorem putSample_io (a : Nat) (v : Octet) : (s.putSample a v).io = s.io := rfl
@[simp] theorem putSample_flip (a : Nat) (v : Octet) : (s.putSample a v).flip = s.flip := rfl
@[simp] theorem putSample_mate (a : Nat) (v : Octet) : (s.putSample a v).mate = s.mate := rfl
@[simp] theorem putSample_tmg (a : Nat) (v : Octet) : (s.putSample a v).tmg = s.tmg := rfl
@[simp] theorem putSample_fab (a : Nat) (v : Octet) : (s.putSample a v).fab = s.fab := rfl
@[simp] theorem putSample_sram (a : Nat) (v : Octet) : (s.putSample a v).sram = s.sram := rfl
@[simp] theorem putSample_pm (a : Nat) (v : Octet) : (s.putSample a v).pm = s.pm := rfl
@[simp] theorem putSample_drawn (a : Nat) (v : Octet) : (s.putSample a v).drawn = s.drawn := rfl

/-! ### lostOn -/

@[simp] theorem lostOn_pending (ring : Bool) : (s.lostOn ring).pending = s.pending := rfl
@[simp] theorem lostOn_regs (ring : Bool) : (s.lostOn ring).regs = s.regs := rfl
@[simp] theorem lostOn_mem (ring : Bool) : (s.lostOn ring).mem = s.mem := rfl
@[simp] theorem lostOn_tone (ring : Bool) : (s.lostOn ring).tone = s.tone := rfl
@[simp] theorem lostOn_clock (ring : Bool) : (s.lostOn ring).clock = s.clock := rfl
@[simp] theorem lostOn_power (ring : Bool) : (s.lostOn ring).power = s.power := rfl
@[simp] theorem lostOn_otp (ring : Bool) : (s.lostOn ring).otp = s.otp := rfl
@[simp] theorem lostOn_hst (ring : Bool) : (s.lostOn ring).hst = s.hst := rfl
@[simp] theorem lostOn_hif (ring : Bool) : (s.lostOn ring).hif = s.hif := rfl
@[simp] theorem lostOn_io (ring : Bool) : (s.lostOn ring).io = s.io := rfl
@[simp] theorem lostOn_flip (ring : Bool) : (s.lostOn ring).flip = s.flip := rfl
@[simp] theorem lostOn_mate (ring : Bool) : (s.lostOn ring).mate = s.mate := rfl
@[simp] theorem lostOn_tmg (ring : Bool) : (s.lostOn ring).tmg = s.tmg := rfl
@[simp] theorem lostOn_fab (ring : Bool) : (s.lostOn ring).fab = s.fab := rfl
@[simp] theorem lostOn_sram (ring : Bool) : (s.lostOn ring).sram = s.sram := rfl
@[simp] theorem lostOn_pm (ring : Bool) : (s.lostOn ring).pm = s.pm := rfl
@[simp] theorem lostOn_drawn (ring : Bool) : (s.lostOn ring).drawn = s.drawn := rfl

/-! ### mendReg -/

@[simp] theorem mendReg_pending (a : Nat) : (s.mendReg a).pending = s.pending := rfl
@[simp] theorem mendReg_regs (a : Nat) : (s.mendReg a).regs = s.regs := rfl
@[simp] theorem mendReg_mem (a : Nat) : (s.mendReg a).mem = s.mem := rfl
@[simp] theorem mendReg_tone (a : Nat) : (s.mendReg a).tone = s.tone := rfl
@[simp] theorem mendReg_clock (a : Nat) : (s.mendReg a).clock = s.clock := rfl
@[simp] theorem mendReg_power (a : Nat) : (s.mendReg a).power = s.power := rfl
@[simp] theorem mendReg_otp (a : Nat) : (s.mendReg a).otp = s.otp := rfl
@[simp] theorem mendReg_evt (a : Nat) : (s.mendReg a).evt = s.evt := rfl
@[simp] theorem mendReg_hst (a : Nat) : (s.mendReg a).hst = s.hst := rfl
@[simp] theorem mendReg_hif (a : Nat) : (s.mendReg a).hif = s.hif := rfl
@[simp] theorem mendReg_io (a : Nat) : (s.mendReg a).io = s.io := rfl
@[simp] theorem mendReg_flip (a : Nat) : (s.mendReg a).flip = s.flip := rfl
@[simp] theorem mendReg_mate (a : Nat) : (s.mendReg a).mate = s.mate := rfl
@[simp] theorem mendReg_tmg (a : Nat) : (s.mendReg a).tmg = s.tmg := rfl
@[simp] theorem mendReg_fab (a : Nat) : (s.mendReg a).fab = s.fab := rfl
@[simp] theorem mendReg_pm (a : Nat) : (s.mendReg a).pm = s.pm := rfl
@[simp] theorem mendReg_drawn (a : Nat) : (s.mendReg a).drawn = s.drawn := rfl

/-! ### readBack -/

@[simp] theorem readBack_io (v : W32) : (s.readBack v).io = { s.io with readData := v, readError := false } := rfl
@[simp] theorem readBack_pending (v : W32) : (s.readBack v).pending = s.pending := rfl
@[simp] theorem readBack_regs (v : W32) : (s.readBack v).regs = s.regs := rfl
@[simp] theorem readBack_mem (v : W32) : (s.readBack v).mem = s.mem := rfl
@[simp] theorem readBack_tone (v : W32) : (s.readBack v).tone = s.tone := rfl
@[simp] theorem readBack_clock (v : W32) : (s.readBack v).clock = s.clock := rfl
@[simp] theorem readBack_power (v : W32) : (s.readBack v).power = s.power := rfl
@[simp] theorem readBack_otp (v : W32) : (s.readBack v).otp = s.otp := rfl
@[simp] theorem readBack_evt (v : W32) : (s.readBack v).evt = s.evt := rfl
@[simp] theorem readBack_hst (v : W32) : (s.readBack v).hst = s.hst := rfl
@[simp] theorem readBack_hif (v : W32) : (s.readBack v).hif = s.hif := rfl
@[simp] theorem readBack_flip (v : W32) : (s.readBack v).flip = s.flip := rfl
@[simp] theorem readBack_mate (v : W32) : (s.readBack v).mate = s.mate := rfl
@[simp] theorem readBack_tmg (v : W32) : (s.readBack v).tmg = s.tmg := rfl
@[simp] theorem readBack_fab (v : W32) : (s.readBack v).fab = s.fab := rfl
@[simp] theorem readBack_sram (v : W32) : (s.readBack v).sram = s.sram := rfl
@[simp] theorem readBack_pm (v : W32) : (s.readBack v).pm = s.pm := rfl
@[simp] theorem readBack_drawn (v : W32) : (s.readBack v).drawn = s.drawn := rfl

/-! ### awaitOn -/

@[simp] theorem awaitOn_pending (r : Nat) (c : CmdEntry) (w : Waiting) : (s.awaitOn r c w).pending = s.pending := rfl
@[simp] theorem awaitOn_regs (r : Nat) (c : CmdEntry) (w : Waiting) : (s.awaitOn r c w).regs = s.regs := rfl
@[simp] theorem awaitOn_mem (r : Nat) (c : CmdEntry) (w : Waiting) : (s.awaitOn r c w).mem = s.mem := rfl
@[simp] theorem awaitOn_tone (r : Nat) (c : CmdEntry) (w : Waiting) : (s.awaitOn r c w).tone = s.tone := rfl
@[simp] theorem awaitOn_clock (r : Nat) (c : CmdEntry) (w : Waiting) : (s.awaitOn r c w).clock = s.clock := rfl
@[simp] theorem awaitOn_power (r : Nat) (c : CmdEntry) (w : Waiting) : (s.awaitOn r c w).power = s.power := rfl
@[simp] theorem awaitOn_otp (r : Nat) (c : CmdEntry) (w : Waiting) : (s.awaitOn r c w).otp = s.otp := rfl
@[simp] theorem awaitOn_evt (r : Nat) (c : CmdEntry) (w : Waiting) : (s.awaitOn r c w).evt = s.evt := rfl
@[simp] theorem awaitOn_hst (r : Nat) (c : CmdEntry) (w : Waiting) : (s.awaitOn r c w).hst = s.hst := rfl
@[simp] theorem awaitOn_io (r : Nat) (c : CmdEntry) (w : Waiting) : (s.awaitOn r c w).io = s.io := rfl
@[simp] theorem awaitOn_flip (r : Nat) (c : CmdEntry) (w : Waiting) : (s.awaitOn r c w).flip = s.flip := rfl
@[simp] theorem awaitOn_mate (r : Nat) (c : CmdEntry) (w : Waiting) : (s.awaitOn r c w).mate = s.mate := rfl
@[simp] theorem awaitOn_tmg (r : Nat) (c : CmdEntry) (w : Waiting) : (s.awaitOn r c w).tmg = s.tmg := rfl
@[simp] theorem awaitOn_fab (r : Nat) (c : CmdEntry) (w : Waiting) : (s.awaitOn r c w).fab = s.fab := rfl
@[simp] theorem awaitOn_sram (r : Nat) (c : CmdEntry) (w : Waiting) : (s.awaitOn r c w).sram = s.sram := rfl
@[simp] theorem awaitOn_pm (r : Nat) (c : CmdEntry) (w : Waiting) : (s.awaitOn r c w).pm = s.pm := rfl
@[simp] theorem awaitOn_drawn (r : Nat) (c : CmdEntry) (w : Waiting) : (s.awaitOn r c w).drawn = s.drawn := rfl

/-! ### setFetched -/

@[simp] theorem setFetched_pending (r : Nat) (cs : List CmdEntry) : (s.setFetched r cs).pending = s.pending := rfl
@[simp] theorem setFetched_regs (r : Nat) (cs : List CmdEntry) : (s.setFetched r cs).regs = s.regs := rfl
@[simp] theorem setFetched_mem (r : Nat) (cs : List CmdEntry) : (s.setFetched r cs).mem = s.mem := rfl
@[simp] theorem setFetched_tone (r : Nat) (cs : List CmdEntry) : (s.setFetched r cs).tone = s.tone := rfl
@[simp] theorem setFetched_clock (r : Nat) (cs : List CmdEntry) : (s.setFetched r cs).clock = s.clock := rfl
@[simp] theorem setFetched_power (r : Nat) (cs : List CmdEntry) : (s.setFetched r cs).power = s.power := rfl
@[simp] theorem setFetched_otp (r : Nat) (cs : List CmdEntry) : (s.setFetched r cs).otp = s.otp := rfl
@[simp] theorem setFetched_evt (r : Nat) (cs : List CmdEntry) : (s.setFetched r cs).evt = s.evt := rfl
@[simp] theorem setFetched_hst (r : Nat) (cs : List CmdEntry) : (s.setFetched r cs).hst = s.hst := rfl
@[simp] theorem setFetched_io (r : Nat) (cs : List CmdEntry) : (s.setFetched r cs).io = s.io := rfl
@[simp] theorem setFetched_flip (r : Nat) (cs : List CmdEntry) : (s.setFetched r cs).flip = s.flip := rfl
@[simp] theorem setFetched_mate (r : Nat) (cs : List CmdEntry) : (s.setFetched r cs).mate = s.mate := rfl
@[simp] theorem setFetched_tmg (r : Nat) (cs : List CmdEntry) : (s.setFetched r cs).tmg = s.tmg := rfl
@[simp] theorem setFetched_fab (r : Nat) (cs : List CmdEntry) : (s.setFetched r cs).fab = s.fab := rfl
@[simp] theorem setFetched_sram (r : Nat) (cs : List CmdEntry) : (s.setFetched r cs).sram = s.sram := rfl
@[simp] theorem setFetched_pm (r : Nat) (cs : List CmdEntry) : (s.setFetched r cs).pm = s.pm := rfl
@[simp] theorem setFetched_drawn (r : Nat) (cs : List CmdEntry) : (s.setFetched r cs).drawn = s.drawn := rfl

/-! ### setSince -/

@[simp] theorem setSince_pending (e n : Nat) : (s.setSince e n).pending = s.pending := rfl
@[simp] theorem setSince_regs (e n : Nat) : (s.setSince e n).regs = s.regs := rfl
@[simp] theorem setSince_mem (e n : Nat) : (s.setSince e n).mem = s.mem := rfl
@[simp] theorem setSince_tone (e n : Nat) : (s.setSince e n).tone = s.tone := rfl
@[simp] theorem setSince_clock (e n : Nat) : (s.setSince e n).clock = s.clock := rfl
@[simp] theorem setSince_power (e n : Nat) : (s.setSince e n).power = s.power := rfl
@[simp] theorem setSince_otp (e n : Nat) : (s.setSince e n).otp = s.otp := rfl
@[simp] theorem setSince_hst (e n : Nat) : (s.setSince e n).hst = s.hst := rfl
@[simp] theorem setSince_hif (e n : Nat) : (s.setSince e n).hif = s.hif := rfl
@[simp] theorem setSince_io (e n : Nat) : (s.setSince e n).io = s.io := rfl
@[simp] theorem setSince_flip (e n : Nat) : (s.setSince e n).flip = s.flip := rfl
@[simp] theorem setSince_mate (e n : Nat) : (s.setSince e n).mate = s.mate := rfl
@[simp] theorem setSince_tmg (e n : Nat) : (s.setSince e n).tmg = s.tmg := rfl
@[simp] theorem setSince_fab (e n : Nat) : (s.setSince e n).fab = s.fab := rfl
@[simp] theorem setSince_sram (e n : Nat) : (s.setSince e n).sram = s.sram := rfl
@[simp] theorem setSince_pm (e n : Nat) : (s.setSince e n).pm = s.pm := rfl
@[simp] theorem setSince_drawn (e n : Nat) : (s.setSince e n).drawn = s.drawn := rfl

/-! ### setPrbs -/

@[simp] theorem setPrbs_pending (ch : Nat) (x : PrbsSt) : (s.setPrbs ch x).pending = s.pending := rfl
@[simp] theorem setPrbs_regs (ch : Nat) (x : PrbsSt) : (s.setPrbs ch x).regs = s.regs := rfl
@[simp] theorem setPrbs_mem (ch : Nat) (x : PrbsSt) : (s.setPrbs ch x).mem = s.mem := rfl
@[simp] theorem setPrbs_tone (ch : Nat) (x : PrbsSt) : (s.setPrbs ch x).tone = s.tone := rfl
@[simp] theorem setPrbs_clock (ch : Nat) (x : PrbsSt) : (s.setPrbs ch x).clock = s.clock := rfl
@[simp] theorem setPrbs_power (ch : Nat) (x : PrbsSt) : (s.setPrbs ch x).power = s.power := rfl
@[simp] theorem setPrbs_otp (ch : Nat) (x : PrbsSt) : (s.setPrbs ch x).otp = s.otp := rfl
@[simp] theorem setPrbs_evt (ch : Nat) (x : PrbsSt) : (s.setPrbs ch x).evt = s.evt := rfl
@[simp] theorem setPrbs_hst (ch : Nat) (x : PrbsSt) : (s.setPrbs ch x).hst = s.hst := rfl
@[simp] theorem setPrbs_hif (ch : Nat) (x : PrbsSt) : (s.setPrbs ch x).hif = s.hif := rfl
@[simp] theorem setPrbs_io (ch : Nat) (x : PrbsSt) : (s.setPrbs ch x).io = s.io := rfl
@[simp] theorem setPrbs_flip (ch : Nat) (x : PrbsSt) : (s.setPrbs ch x).flip = s.flip := rfl
@[simp] theorem setPrbs_mate (ch : Nat) (x : PrbsSt) : (s.setPrbs ch x).mate = s.mate := rfl
@[simp] theorem setPrbs_tmg (ch : Nat) (x : PrbsSt) : (s.setPrbs ch x).tmg = s.tmg := rfl
@[simp] theorem setPrbs_fab (ch : Nat) (x : PrbsSt) : (s.setPrbs ch x).fab = s.fab := rfl
@[simp] theorem setPrbs_sram (ch : Nat) (x : PrbsSt) : (s.setPrbs ch x).sram = s.sram := rfl
@[simp] theorem setPrbs_pm (ch : Nat) (x : PrbsSt) : (s.setPrbs ch x).pm = s.pm := rfl
@[simp] theorem setPrbs_drawn (ch : Nat) (x : PrbsSt) : (s.setPrbs ch x).drawn = s.drawn := rfl

/-! ### holdRow -/

@[simp] theorem holdRow_pending (src period : Nat) (r : Row) : (s.holdRow src period r).pending = s.pending := rfl
@[simp] theorem holdRow_regs (src period : Nat) (r : Row) : (s.holdRow src period r).regs = s.regs := rfl
@[simp] theorem holdRow_mem (src period : Nat) (r : Row) : (s.holdRow src period r).mem = s.mem := rfl
@[simp] theorem holdRow_tone (src period : Nat) (r : Row) : (s.holdRow src period r).tone = s.tone := rfl
@[simp] theorem holdRow_clock (src period : Nat) (r : Row) : (s.holdRow src period r).clock = s.clock := rfl
@[simp] theorem holdRow_power (src period : Nat) (r : Row) : (s.holdRow src period r).power = s.power := rfl
@[simp] theorem holdRow_otp (src period : Nat) (r : Row) : (s.holdRow src period r).otp = s.otp := rfl
@[simp] theorem holdRow_evt (src period : Nat) (r : Row) : (s.holdRow src period r).evt = s.evt := rfl
@[simp] theorem holdRow_hst (src period : Nat) (r : Row) : (s.holdRow src period r).hst = s.hst := rfl
@[simp] theorem holdRow_hif (src period : Nat) (r : Row) : (s.holdRow src period r).hif = s.hif := rfl
@[simp] theorem holdRow_io (src period : Nat) (r : Row) : (s.holdRow src period r).io = s.io := rfl
@[simp] theorem holdRow_flip (src period : Nat) (r : Row) : (s.holdRow src period r).flip = s.flip := rfl
@[simp] theorem holdRow_mate (src period : Nat) (r : Row) : (s.holdRow src period r).mate = s.mate := rfl
@[simp] theorem holdRow_tmg (src period : Nat) (r : Row) : (s.holdRow src period r).tmg = s.tmg := rfl
@[simp] theorem holdRow_fab (src period : Nat) (r : Row) : (s.holdRow src period r).fab = s.fab := rfl
@[simp] theorem holdRow_pm (src period : Nat) (r : Row) : (s.holdRow src period r).pm = s.pm := rfl
@[simp] theorem holdRow_drawn (src period : Nat) (r : Row) : (s.holdRow src period r).drawn = s.drawn := rfl

/-! ### setFlip -/

@[simp] theorem setFlip_flip (f : FlipSt → FlipSt) : (s.setFlip f).flip = f s.flip := rfl
@[simp] theorem setFlip_pending (f : FlipSt → FlipSt) : (s.setFlip f).pending = s.pending := rfl
@[simp] theorem setFlip_regs (f : FlipSt → FlipSt) : (s.setFlip f).regs = s.regs := rfl
@[simp] theorem setFlip_mem (f : FlipSt → FlipSt) : (s.setFlip f).mem = s.mem := rfl
@[simp] theorem setFlip_tone (f : FlipSt → FlipSt) : (s.setFlip f).tone = s.tone := rfl
@[simp] theorem setFlip_clock (f : FlipSt → FlipSt) : (s.setFlip f).clock = s.clock := rfl
@[simp] theorem setFlip_power (f : FlipSt → FlipSt) : (s.setFlip f).power = s.power := rfl
@[simp] theorem setFlip_otp (f : FlipSt → FlipSt) : (s.setFlip f).otp = s.otp := rfl
@[simp] theorem setFlip_evt (f : FlipSt → FlipSt) : (s.setFlip f).evt = s.evt := rfl
@[simp] theorem setFlip_hst (f : FlipSt → FlipSt) : (s.setFlip f).hst = s.hst := rfl
@[simp] theorem setFlip_hif (f : FlipSt → FlipSt) : (s.setFlip f).hif = s.hif := rfl
@[simp] theorem setFlip_io (f : FlipSt → FlipSt) : (s.setFlip f).io = s.io := rfl
@[simp] theorem setFlip_mate (f : FlipSt → FlipSt) : (s.setFlip f).mate = s.mate := rfl
@[simp] theorem setFlip_tmg (f : FlipSt → FlipSt) : (s.setFlip f).tmg = s.tmg := rfl
@[simp] theorem setFlip_fab (f : FlipSt → FlipSt) : (s.setFlip f).fab = s.fab := rfl
@[simp] theorem setFlip_sram (f : FlipSt → FlipSt) : (s.setFlip f).sram = s.sram := rfl
@[simp] theorem setFlip_pm (f : FlipSt → FlipSt) : (s.setFlip f).pm = s.pm := rfl
@[simp] theorem setFlip_drawn (f : FlipSt → FlipSt) : (s.setFlip f).drawn = s.drawn := rfl

/-! ### setMate -/

@[simp] theorem setMate_mate (f : MateSt → MateSt) : (s.setMate f).mate = f s.mate := rfl
@[simp] theorem setMate_pending (f : MateSt → MateSt) : (s.setMate f).pending = s.pending := rfl
@[simp] theorem setMate_regs (f : MateSt → MateSt) : (s.setMate f).regs = s.regs := rfl
@[simp] theorem setMate_mem (f : MateSt → MateSt) : (s.setMate f).mem = s.mem := rfl
@[simp] theorem setMate_tone (f : MateSt → MateSt) : (s.setMate f).tone = s.tone := rfl
@[simp] theorem setMate_clock (f : MateSt → MateSt) : (s.setMate f).clock = s.clock := rfl
@[simp] theorem setMate_power (f : MateSt → MateSt) : (s.setMate f).power = s.power := rfl
@[simp] theorem setMate_otp (f : MateSt → MateSt) : (s.setMate f).otp = s.otp := rfl
@[simp] theorem setMate_evt (f : MateSt → MateSt) : (s.setMate f).evt = s.evt := rfl
@[simp] theorem setMate_hst (f : MateSt → MateSt) : (s.setMate f).hst = s.hst := rfl
@[simp] theorem setMate_hif (f : MateSt → MateSt) : (s.setMate f).hif = s.hif := rfl
@[simp] theorem setMate_io (f : MateSt → MateSt) : (s.setMate f).io = s.io := rfl
@[simp] theorem setMate_flip (f : MateSt → MateSt) : (s.setMate f).flip = s.flip := rfl
@[simp] theorem setMate_tmg (f : MateSt → MateSt) : (s.setMate f).tmg = s.tmg := rfl
@[simp] theorem setMate_fab (f : MateSt → MateSt) : (s.setMate f).fab = s.fab := rfl
@[simp] theorem setMate_sram (f : MateSt → MateSt) : (s.setMate f).sram = s.sram := rfl
@[simp] theorem setMate_pm (f : MateSt → MateSt) : (s.setMate f).pm = s.pm := rfl
@[simp] theorem setMate_drawn (f : MateSt → MateSt) : (s.setMate f).drawn = s.drawn := rfl

/-! ### setTmg -/

@[simp] theorem setTmg_tmg (f : TmgSt → TmgSt) : (s.setTmg f).tmg = f s.tmg := rfl
@[simp] theorem setTmg_pending (f : TmgSt → TmgSt) : (s.setTmg f).pending = s.pending := rfl
@[simp] theorem setTmg_regs (f : TmgSt → TmgSt) : (s.setTmg f).regs = s.regs := rfl
@[simp] theorem setTmg_mem (f : TmgSt → TmgSt) : (s.setTmg f).mem = s.mem := rfl
@[simp] theorem setTmg_tone (f : TmgSt → TmgSt) : (s.setTmg f).tone = s.tone := rfl
@[simp] theorem setTmg_clock (f : TmgSt → TmgSt) : (s.setTmg f).clock = s.clock := rfl
@[simp] theorem setTmg_power (f : TmgSt → TmgSt) : (s.setTmg f).power = s.power := rfl
@[simp] theorem setTmg_otp (f : TmgSt → TmgSt) : (s.setTmg f).otp = s.otp := rfl
@[simp] theorem setTmg_evt (f : TmgSt → TmgSt) : (s.setTmg f).evt = s.evt := rfl
@[simp] theorem setTmg_hst (f : TmgSt → TmgSt) : (s.setTmg f).hst = s.hst := rfl
@[simp] theorem setTmg_hif (f : TmgSt → TmgSt) : (s.setTmg f).hif = s.hif := rfl
@[simp] theorem setTmg_io (f : TmgSt → TmgSt) : (s.setTmg f).io = s.io := rfl
@[simp] theorem setTmg_flip (f : TmgSt → TmgSt) : (s.setTmg f).flip = s.flip := rfl
@[simp] theorem setTmg_mate (f : TmgSt → TmgSt) : (s.setTmg f).mate = s.mate := rfl
@[simp] theorem setTmg_fab (f : TmgSt → TmgSt) : (s.setTmg f).fab = s.fab := rfl
@[simp] theorem setTmg_sram (f : TmgSt → TmgSt) : (s.setTmg f).sram = s.sram := rfl
@[simp] theorem setTmg_pm (f : TmgSt → TmgSt) : (s.setTmg f).pm = s.pm := rfl
@[simp] theorem setTmg_drawn (f : TmgSt → TmgSt) : (s.setTmg f).drawn = s.drawn := rfl

/-! ### setFab -/

@[simp] theorem setFab_fab (f : FabSt → FabSt) : (s.setFab f).fab = f s.fab := rfl
@[simp] theorem setFab_pending (f : FabSt → FabSt) : (s.setFab f).pending = s.pending := rfl
@[simp] theorem setFab_regs (f : FabSt → FabSt) : (s.setFab f).regs = s.regs := rfl
@[simp] theorem setFab_mem (f : FabSt → FabSt) : (s.setFab f).mem = s.mem := rfl
@[simp] theorem setFab_tone (f : FabSt → FabSt) : (s.setFab f).tone = s.tone := rfl
@[simp] theorem setFab_clock (f : FabSt → FabSt) : (s.setFab f).clock = s.clock := rfl
@[simp] theorem setFab_power (f : FabSt → FabSt) : (s.setFab f).power = s.power := rfl
@[simp] theorem setFab_otp (f : FabSt → FabSt) : (s.setFab f).otp = s.otp := rfl
@[simp] theorem setFab_evt (f : FabSt → FabSt) : (s.setFab f).evt = s.evt := rfl
@[simp] theorem setFab_hst (f : FabSt → FabSt) : (s.setFab f).hst = s.hst := rfl
@[simp] theorem setFab_hif (f : FabSt → FabSt) : (s.setFab f).hif = s.hif := rfl
@[simp] theorem setFab_io (f : FabSt → FabSt) : (s.setFab f).io = s.io := rfl
@[simp] theorem setFab_flip (f : FabSt → FabSt) : (s.setFab f).flip = s.flip := rfl
@[simp] theorem setFab_mate (f : FabSt → FabSt) : (s.setFab f).mate = s.mate := rfl
@[simp] theorem setFab_tmg (f : FabSt → FabSt) : (s.setFab f).tmg = s.tmg := rfl
@[simp] theorem setFab_sram (f : FabSt → FabSt) : (s.setFab f).sram = s.sram := rfl
@[simp] theorem setFab_pm (f : FabSt → FabSt) : (s.setFab f).pm = s.pm := rfl
@[simp] theorem setFab_drawn (f : FabSt → FabSt) : (s.setFab f).drawn = s.drawn := rfl

end Sys2Proof.Machine.State
end

