-- ==== Sys2Proof/Laws/Ops.lean ====
section
/-! SUPPORT. What the operations over registers and memory answer after a write: registers, fields, bytes
and words. -/

namespace Sys2Proof

/-- A field lies within its register. -/
def Fld.Within (f : Fld) : Prop := f.lo ≤ f.hi ∧ f.hi < 32

end Sys2Proof

namespace Sys2Proof.Machine

variable (s : State)

/-! ### Registers -/

/-- A register after a write: the word written, and every other register as it was. -/
theorem rd_wr (a : Nat) (v : W32) (j : Nat) : (s.wr a v).rd j = if a = j then v else s.rd j := by
  unfold State.rd State.wr
  by_cases h : a = j
  · subst h; simp
  · simp only [h, if_false]; exact Sparse.get_put_ne _ _ _ _ h

@[simp] theorem rd_wr_self (a : Nat) (v : W32) : (s.wr a v).rd a = v := by simp [rd_wr]

theorem rd_wr_ne {a j : Nat} (v : W32) (h : a ≠ j) : (s.wr a v).rd j = s.rd j := by simp [rd_wr, h]

theorem rd_fset_ne (f : Fld) (n : Nat) {j : Nat} (h : f.reg ≠ j) : (s.fset f n).rd j = s.rd j :=
  rd_wr_ne s _ h

theorem rd_fbit_ne (f : Fld) (b : Bool) {j : Nat} (h : f.reg ≠ j) : (s.fbit f b).rd j = s.rd j :=
  rd_wr_ne s _ h

/-- A counter after it has grown. -/
@[simp] theorem rd_count_self (a n : Nat) : (s.count a n).rd a = s.rd a + BitVec.ofNat 32 n := by
  simp [State.count]

theorem rd_count_ne {a j : Nat} (n : Nat) (h : a ≠ j) : (s.count a n).rd j = s.rd j := rd_wr_ne s _ h

/-! ### Fields -/

/-- A field reads as the number just set, cut to its width. -/
theorem fget_fset_self {f : Fld} (n : Nat) (h : f.Within) : (s.fset f n).fget f = n % 2 ^ (f.hi + 1 - f.lo) := by
  simp [State.fget, State.fset, bits_setBits_self _ n h.1 h.2]

/-- A field of another register reads as before. -/
theorem fget_fset_reg {f g : Fld} (n : Nat) (h : f.reg ≠ g.reg) : (s.fset f n).fget g = s.fget g := by
  simp [State.fget, rd_fset_ne s f n h]

/-- A field of the same register that lies apart reads as before. -/
theorem fget_fset_apart {f g : Fld} (n : Nat) (h : f.Within) (hd : f.hi < g.lo ∨ g.hi < f.lo) :
    (s.fset f n).fget g = s.fget g := by
  by_cases hr : f.reg = g.reg
  · unfold State.fget State.fset
    rw [hr, rd_wr_self]
    rcases hd with hd | hd
    · exact bits_setBits_above _ n h.1 h.2 hd
    · exact bits_setBits_below _ n h.1 h.2 hd
  · exact fget_fset_reg s n hr

/-- A field after a write of another register. -/
theorem fget_wr_ne {g : Fld} {a : Nat} (v : W32) (h : a ≠ g.reg) : (s.wr a v).fget g = s.fget g := by
  simp [State.fget, rd_wr_ne s v h]

/-- A one-bit field reads as the truth value just set. -/
theorem flag_fbit_self {f : Fld} (b : Bool) (h : f.Within) (h1 : f.hi = f.lo) : (s.fbit f b).flag f = b := by
  have : f.hi + 1 - f.lo = 1 := by omega
  unfold State.flag State.fbit
  rw [fget_fset_self s _ h, this]
  cases b <;> rfl

theorem flag_fbit_reg {f g : Fld} (b : Bool) (h : f.reg ≠ g.reg) : (s.fbit f b).flag g = s.flag g := by
  simp [State.flag, State.fbit, fget_fset_reg s _ h]

theorem flag_fbit_apart {f g : Fld} (b : Bool) (h : f.Within) (hd : f.hi < g.lo ∨ g.hi < f.lo) :
    (s.fbit f b).flag g = s.flag g := by
  simp [State.flag, State.fbit, fget_fset_apart s _ h hd]

/-! ### Memory -/

/-- A byte after a write of a byte. -/
theorem byte_putByte (a : Nat) (v : BitVec 8) (x : Nat) :
    (s.putByte a v).byte x = if a = x then v else s.byte x := by
  unfold State.putByte State.byte
  dsimp only
  rw [Sparse.get_put]
  split_ifs with h
  · subst h
    rw [BitVec.xor_assoc, BitVec.xor_self, BitVec.xor_zero]
  · rfl

theorem rd_putByte (a : Nat) (v : BitVec 8) (j : Nat) : (s.putByte a v).rd j = s.rd j := rfl

/-- A byte after a write of a word: the enabled bytes of the word from its address on, in little-endian
order, and every other byte as it was (R364). -/
theorem byte_putWord (a : Nat) (be : BitVec 4) (v : W32) (x : Nat) :
    (s.putWord a be v).byte x =
      if x = a ∧ be.getLsbD 0 then v.extractLsb' 0 8
      else if x = a + 1 ∧ be.getLsbD 1 then v.extractLsb' 8 8
      else if x = a + 2 ∧ be.getLsbD 2 then v.extractLsb' 16 8
      else if x = a + 3 ∧ be.getLsbD 3 then v.extractLsb' 24 8
      else s.byte x := by
  unfold State.putWord
  cases h0 : be.getLsbD 0 <;> cases h1 : be.getLsbD 1 <;> cases h2 : be.getLsbD 2 <;>
    cases h3 : be.getLsbD 3 <;>
    simp only [Bool.false_eq_true, ite_true, ite_false, and_false, and_true, byte_putByte] <;>
    split_ifs <;> first | rfl | omega

/-- Bytes outside a word are as they were. -/
theorem byte_putWord_out {a x : Nat} (be : BitVec 4) (v : W32) (h : x < a ∨ a + 4 ≤ x) :
    (s.putWord a be v).byte x = s.byte x := by
  rw [byte_putWord]
  split_ifs <;> first | rfl | omega

/-- Four bytes of a word, put together. -/
theorem append_bytes (v : W32) :
    v.extractLsb' 24 8 ++ v.extractLsb' 16 8 ++ v.extractLsb' 8 8 ++ v.extractLsb' 0 8 = v := by
  apply BitVec.eq_of_getLsbD_eq
  intro i hi
  simp only [BitVec.getLsbD_append, BitVec.getLsbD_extractLsb']
  split_ifs <;> rw [decide_eq_true (by omega), Bool.true_and] <;> congr 1 <;> omega

/-- A bit of a word is a bit of one of its bytes. -/
theorem memWord_getLsbD (a : Nat) {k j : Nat} (hk : k < 4) (hj : j < 8) :
    (s.memWord a).getLsbD (8 * k + j) = (s.byte (a + k)).getLsbD j := by
  unfold State.memWord
  interval_cases k <;> simp only [BitVec.getLsbD_append] <;> split_ifs <;>
    first
      | (exfalso; omega)
      | exact congrArg _ (by omega)

/-- A word whose address and the word written do not overlap is as it was. -/
theorem memWord_putWord_out {a b : Nat} (be : BitVec 4) (v : W32) (h : b + 4 ≤ a ∨ a + 4 ≤ b) :
    (s.putWord a be v).memWord b = s.memWord b := by
  unfold State.memWord
  rw [byte_putWord_out, byte_putWord_out, byte_putWord_out, byte_putWord_out] <;> omega

/-- A whole word reads as it was written. -/
@[simp] theorem memWord_setWord_self (a : Nat) (v : W32) : (s.setWord a v).memWord a = v := by
  unfold State.memWord State.setWord
  simp only [byte_putWord]
  simp [append_bytes]

/-- A word reads as the merge of what it held and the enabled bytes written (R364). -/
theorem memWord_putWord_self (a : Nat) (be : BitVec 4) (v : W32) :
    (s.putWord a be v).memWord a = mergeBe (s.memWord a) v be := by
  have hb : ∀ k, k < 4 → (s.putWord a be v).byte (a + k) =
      if be.getLsbD k then v.extractLsb' (8 * k) 8 else s.byte (a + k) := by
    intro k hk
    rw [byte_putWord]
    interval_cases k <;> simp
  apply BitVec.eq_of_getLsbD_eq
  intro i hi
  rw [mergeBe_getLsbD _ _ _ hi]
  have hi' : i = 8 * (i / 8) + i % 8 := by omega
  have hk : i / 8 < 4 := by omega
  have hj : i % 8 < 8 := by omega
  rw [hi', memWord_getLsbD _ _ hk hj, memWord_getLsbD _ _ hk hj, hb _ hk]
  have hd : (8 * (i / 8) + i % 8) / 8 = i / 8 := by omega
  rw [hd]
  split_ifs
  · simp [hj]
  · rfl

/-- Registers do not change with memory. -/
@[simp] theorem rd_putWord (a : Nat) (be : BitVec 4) (v : W32) (j : Nat) :
    (s.putWord a be v).rd j = s.rd j := by
  unfold State.putWord
  cases be.getLsbD 0 <;> cases be.getLsbD 1 <;> cases be.getLsbD 2 <;> cases be.getLsbD 3 <;> rfl

end Sys2Proof.Machine
end

