-- ==== Sys2Proof/Laws/Frames.lean ====
section
/-! SUPPORT. Frames: how they compose, and what the shared operations over registers, memory, events and
history leave as it was. -/

namespace Sys2Proof

open Machine

variable {s t u : State} {regs regs' bytes bytes' : Nat → Bool}

/-! ### Composition -/

theorem Frame.refl (s : State) (regs bytes : Nat → Bool) : Frame s s regs bytes :=
  ⟨fun _ _ _ => rfl, fun _ _ => rfl, rfl, rfl, rfl, rfl⟩

theorem Frame.trans (h : Frame s t regs bytes) (k : Frame t u regs bytes) : Frame s u regs bytes :=
  ⟨fun a h1 h2 => (k.reg a h1 h2).trans (h.reg a h1 h2), fun a h1 => (k.byte a h1).trans (h.byte a h1),
    k.tone.trans h.tone, k.clock.trans h.clock, k.otp.trans h.otp, k.pending.trans h.pending⟩

/-- A frame that lets more change. -/
theorem Frame.mono (h : Frame s t regs bytes) (hr : ∀ a, regs a = true → regs' a = true)
    (hb : ∀ a, bytes a = true → bytes' a = true) : Frame s t regs' bytes' :=
  ⟨fun a h1 h2 => h.reg a (Bool.eq_false_iff.2 fun e => by simp [hr a e] at h1) h2,
    fun a h1 => h.byte a (Bool.eq_false_iff.2 fun e => by simp [hb a e] at h1),
    h.tone, h.clock, h.otp, h.pending⟩

/-- Nothing that a frame speaks of changes. -/
structure Machine.Still (s t : State) : Prop where
  mem     : t.mem = s.mem
  tone    : t.tone = s.tone
  clock   : t.clock = s.clock
  otp     : t.otp = s.otp
  pending : t.pending = s.pending

theorem Machine.Still.refl (s : State) : Still s s := ⟨rfl, rfl, rfl, rfl, rfl⟩

theorem Machine.Still.trans (h : Still s t) (k : Still t u) : Still s u :=
  ⟨k.mem.trans h.mem, k.tone.trans h.tone, k.clock.trans h.clock, k.otp.trans h.otp,
    k.pending.trans h.pending⟩

/-- A fold of operations each of which leaves memory, marks and queue. -/
theorem Machine.Still.foldl {α : Type} {f : State → α → State} (hf : ∀ s x, Still s (f s x)) :
    ∀ (l : List α) (s : State), Still s (l.foldl f s)
  | [], s => .refl s
  | x :: l, s => (hf s x).trans (Still.foldl hf l (f s x))

/-- A frame from its parts. -/
theorem Frame.of_still (h : Still s t)
    (hr : ∀ a, regs a = false → eventReg a = false → t.rd a = s.rd a) : Frame s t regs bytes :=
  ⟨hr, fun a _ => by simp [State.byte, h.mem], h.tone, h.clock, h.otp, h.pending⟩

/-- An operation on state that no register or byte shows. -/
theorem Frame.of_hidden (h : Still s t) (hr : t.regs = s.regs) : Frame s t regs bytes :=
  .of_still h fun a _ _ => by simp [State.rd, hr]

theorem Frame.foldl {α : Type} {f : State → α → State} (hf : ∀ s x, Frame s (f s x) regs bytes) :
    ∀ (l : List α) (s : State), Frame s (l.foldl f s) regs bytes
  | [], s => .refl s _ _
  | x :: l, s => (hf s x).trans (Frame.foldl hf l (f s x))

theorem Frame.ite {c : Prop} [Decidable c] {x y : State} (hx : c → Frame s x regs bytes)
    (hy : ¬ c → Frame s y regs bytes) : Frame s (if c then x else y) regs bytes := by
  split
  · exact hx (by assumption)
  · exact hy (by assumption)

end Sys2Proof

namespace Sys2Proof.Machine

variable (s : State) {regs bytes : Nat → Bool}

/-! ### Registers and memory -/

/-- A register that the frame names, or that keeps account of events, may change. -/
theorem frame_wr (a : Nat) (v : W32) (h : regs a = true ∨ eventReg a = true) :
    Frame s (s.wr a v) regs bytes :=
  .of_still ⟨rfl, rfl, rfl, rfl, rfl⟩ fun j h1 h2 => rd_wr_ne s v (by rintro rfl; simp [h1, h2] at h)

theorem frame_fset (f : Fld) (n : Nat) (h : regs f.reg = true ∨ eventReg f.reg = true) :
    Frame s (s.fset f n) regs bytes := frame_wr s _ _ h

theorem frame_fbit (f : Fld) (b : Bool) (h : regs f.reg = true ∨ eventReg f.reg = true) :
    Frame s (s.fbit f b) regs bytes := frame_wr s _ _ h

theorem frame_count (a n : Nat) (h : regs a = true ∨ eventReg a = true) :
    Frame s (s.count a n) regs bytes := frame_wr s _ _ h

theorem frame_putByte (a : Nat) (v : BitVec 8) (h : bytes a = true) :
    Frame s (s.putByte a v) regs bytes :=
  ⟨fun _ _ _ => rfl, fun x hx => by rw [byte_putByte, if_neg]; rintro rfl; simp [h] at hx, rfl, rfl, rfl, rfl⟩

theorem frame_putWord (a : Nat) (be : BitVec 4) (v : W32) (h : ∀ k, k < 4 → bytes (a + k) = true) :
    Frame s (s.putWord a be v) regs bytes := by
  unfold State.putWord
  have h0 := h 0 (by omega); have h1 := h 1 (by omega); have h2 := h 2 (by omega); have h3 := h 3 (by omega)
  exact (((Frame.ite (fun _ => frame_putByte s _ _ h0) fun _ => .refl _ _ _).trans
    (Frame.ite (fun _ => frame_putByte _ _ _ h1) fun _ => .refl _ _ _)).trans
    (Frame.ite (fun _ => frame_putByte _ _ _ h2) fun _ => .refl _ _ _)).trans
    (Frame.ite (fun _ => frame_putByte _ _ _ h3) fun _ => .refl _ _ _)

theorem frame_setWord (a : Nat) (v : W32) (h : ∀ k, k < 4 → bytes (a + k) = true) :
    Frame s (s.setWord a v) regs bytes := frame_putWord s a _ v h

theorem frame_hkWrite (a : Nat) (be : BitVec 4) (v : W32) (h : ∀ k, k < 4 → bytes (a + k) = true) :
    Frame s (s.hkWrite a be v) regs bytes := by
  unfold State.hkWrite
  refine Frame.trans ?_ (frame_putWord _ a be v h)
  unfold State.mend
  exact Frame.ite (fun _ => .refl _ _ _) fun _ => .of_hidden ⟨rfl, rfl, rfl, rfl, rfl⟩ rfl

theorem frame_mendReg (a : Nat) : Frame s (s.mendReg a) regs bytes :=
  .of_hidden ⟨rfl, rfl, rfl, rfl, rfl⟩ rfl

/-! ### History and events -/

theorem frame_setHstHead (n : Nat) : Frame s (s.setHstHead n) regs bytes := by
  unfold State.setHstHead
  dsimp only
  exact (((frame_wr _ _ _ (.inr rfl)).trans (frame_wr _ _ _ (.inr rfl))).trans
    (frame_wr _ _ _ (.inr rfl))).trans (frame_wr _ _ _ (.inr rfl))

theorem frame_appendRecord (typ sev low : Nat) (ws : List W32) :
    Frame s (s.appendRecord typ sev low ws) regs bytes := by
  have h : Frame s (s.setHstHead (s.hstHead + 1)) regs bytes := frame_setHstHead s _
  exact ⟨h.reg, h.byte, h.tone, h.clock, h.otp, h.pending⟩

theorem frame_evictRecord (sev : Nat) : Frame s (s.evictRecord sev) regs bytes := by
  have h : Frame s (s.setHstHead (s.hstHead - 1)) regs bytes := frame_setHstHead s _
  exact ⟨h.reg, h.byte, h.tone, h.clock, h.otp, h.pending⟩

/-- A record that is formed changes only the account of the history store. -/
theorem frame_stageRecord (typ sev low : Nat) (ws : List W32) :
    Frame s (s.stageRecord typ sev low ws) regs bytes := by
  unfold State.stageRecord
  dsimp only
  refine Frame.ite (fun _ => frame_appendRecord s _ _ _ _) fun _ => ?_
  refine Frame.trans (frame_count s Reg.hstCntDrop 1 (.inr rfl)) ?_
  exact Frame.ite (fun _ => (frame_evictRecord _ _).trans (frame_appendRecord _ _ _ _ _)) fun _ => .refl _ _ _

theorem frame_stageEvent (e : Event) : Frame s (s.stageEvent e) regs bytes := by
  unfold State.stageEvent
  dsimp only
  refine Frame.ite (fun _ => .of_hidden ⟨rfl, rfl, rfl, rfl, rfl⟩ rfl) fun _ => ?_
  refine Frame.trans (frame_count s Reg.evtCntDrop 1 (.inr rfl)) ?_
  exact Frame.ite (fun _ => .of_hidden ⟨rfl, rfl, rfl, rfl, rfl⟩ rfl)
    fun _ => .of_hidden ⟨rfl, rfl, rfl, rfl, rfl⟩ rfl

/-- An event changes only the account of events and of history (R309, R371-R373). -/
theorem frame_raiseAs (deliver ring : Bool) (e : EvName) (ps : List W32) :
    Frame s (s.raiseAs deliver ring e ps) regs bytes := by
  unfold State.raiseAs
  dsimp only
  generalize Event.mk _ _ _ _ _ _ = ev
  have h : Frame s (if deliver = true then s.stageEvent ev else s) regs bytes :=
    Frame.ite (fun _ => frame_stageEvent s ev) fun _ => .refl _ _ _
  exact h.trans (Frame.ite (fun _ => frame_stageRecord _ _ _ _ _) fun _ => .refl _ _ _)

theorem frame_raise (e : EvName) (w1 w2 w3 w4 w5 : Nat) :
    Frame s (s.raise e w1 w2 w3 w4 w5) regs bytes := frame_raiseAs s _ _ _ _

theorem frame_report (e : EvName) (w1 w2 w3 w4 w5 : Nat) :
    Frame s (s.report e w1 w2 w3 w4 w5) regs bytes := by
  unfold State.report
  exact ((frame_raise s e _ _ _ _ _).trans (frame_wr _ _ _ (.inr rfl))).trans (frame_fbit _ _ _ (.inr rfl))

/-- A sticky register that takes bits, with its block's event. -/
theorem frame_sticky (reg en : Nat) (m : W32) (e : EvName) (inst : Nat) (fault : W32)
    (h : regs reg = true ∨ eventReg reg = true) : Frame s (s.sticky reg en m e inst fault) regs bytes := by
  unfold State.sticky
  dsimp only
  refine Frame.trans (frame_wr s reg (s.rd reg ||| m) h) ?_
  exact Frame.ite (fun _ => .refl _ _ _) fun _ =>
    Frame.ite (fun _ => frame_raise _ _ _ _ _ _ _) fun _ => frame_report _ _ _ _ _ _ _

theorem frame_enableWrite (reg en : Nat) (v : W32) (e : EvName) (inst : Nat) (fault : W32)
    (h : regs en = true ∨ eventReg en = true) : Frame s (s.enableWrite reg en v e inst fault) regs bytes := by
  unfold State.enableWrite
  dsimp only
  refine Frame.trans (frame_wr s en v h) ?_
  exact Frame.ite (fun _ => .refl _ _ _) fun _ =>
    Frame.ite (fun _ => frame_raise _ _ _ _ _ _ _) fun _ => frame_report _ _ _ _ _ _ _

/-! ### Speed counters and host writes -/

theorem frame_setSpeed (i n : Nat) (h : regs (Reg.cntLo i) = true) (h' : regs (Reg.cntHi i) = true) :
    Frame s (s.setSpeed i n) regs bytes := by
  unfold State.setSpeed
  dsimp only
  have hh : regs (F.cntHi_hi i).reg = true := h'
  have ho : regs (F.cntHi_ovf i).reg = true := h'
  refine Frame.trans ((frame_wr s _ (BitVec.ofNat 32 n) (.inl h)).trans
    (frame_fset _ _ (n / 2 ^ 32) (.inl hh))) ?_
  exact Frame.ite (fun _ => .refl _ _ _) fun _ => frame_fbit _ _ _ (.inl ho)

/-- A word of the counter memory that is written anew changes only what is known of its damage. -/
theorem frame_rewriteCounter (w : CounterWord) : Frame s (s.rewriteCounter w) regs bytes :=
  .of_hidden ⟨rfl, rfl, rfl, rfl, rfl⟩ rfl

/-- The count of a speed counter grows (R297, R384): its two halves, and what is known of their damage. -/
theorem frame_addSpeed (i n : Nat) (h : regs (Reg.cntLo i) = true) (h' : regs (Reg.cntHi i) = true) :
    Frame s (s.addSpeed i n) regs bytes := by
  unfold State.addSpeed
  dsimp only
  have hh : regs (F.cntHi_hi i).reg = true := h'
  have ho : regs (F.cntHi_ovf i).reg = true := h'
  refine Frame.ite (fun _ => .refl _ _ _) fun _ => Frame.ite (fun _ => ?_) fun _ => Frame.ite (fun _ => ?_) fun _ =>
    frame_setSpeed s i _ h h'
  · exact ((frame_rewriteCounter s _).trans (frame_wr _ _ _ (.inl h))).trans (frame_fbit _ _ _ (.inl ho))
  · exact (((frame_rewriteCounter s _).trans (frame_wr _ _ _ (.inl h))).trans (frame_fset _ _ _ (.inl hh))).trans
      (frame_fbit _ _ _ (.inl ho))

theorem frame_speed (i n : Nat) (h : regs (Reg.cntLo i) = true) (h' : regs (Reg.cntHi i) = true) :
    Frame s (s.speed i n) regs bytes :=
  (frame_addSpeed s i n h h').trans (.of_hidden ⟨rfl, rfl, rfl, rfl, rfl⟩ rfl)

/-- A host write of a register: the words received, and what its effect changes. -/
theorem frame_fromHost (a : Nat) (f : State → State) (h : regs (Reg.cntLo 96) = true)
    (h' : regs (Reg.cntHi 96) = true) (hf : ∀ s, Frame s (f s) regs bytes) :
    Frame s (s.fromHost a f) regs bytes := by
  unfold State.fromHost
  dsimp only
  refine Frame.trans (frame_speed s 96 4 h h') ?_
  exact Frame.ite (fun _ => .refl _ _ _) fun _ => (frame_mendReg _ _).trans (hf _)

/-! ### Commands -/

/-- The completion of a ring command changes its count, its event and the account of events. -/
theorem frame_finish (r : Nat) (c : CmdEntry) (status reason r0 r1 : Nat)
    (h : regs Reg.hifCntCmd = true) (h' : regs Reg.hifCntDmaerr = true) :
    Frame s (s.finish r c status reason r0 r1) regs bytes := by
  unfold State.finish
  dsimp only
  refine Frame.trans ((frame_count s _ 1 (.inl h)).trans ?_) (frame_raiseAs _ _ _ _ _)
  exact Frame.ite (fun _ => frame_count _ _ 1 (.inl h')) fun _ => .refl _ _ _

theorem frame_finishAll (p : Waiting → Bool) (f : Waiting → Nat × Nat × Nat × Nat)
    (h : regs Reg.hifCntCmd = true) (h' : regs Reg.hifCntDmaerr = true) :
    Frame s (s.finishAll p f) regs bytes :=
  Frame.trans (t := { s with hif := { s.hif with busy := s.hif.busy.filter fun q => !p q.2.2 } })
    (.of_hidden ⟨rfl, rfl, rfl, rfl, rfl⟩ rfl) (Frame.foldl (fun s _ => frame_finish s _ _ _ _ _ _ h h') _ _)

/-- A command that is up answers the next state that its effect gives. -/
theorem whenUp_of_up {s : State} (f : State → State) (h : s.up = true) :
    whenUp s f = .next (f s) := by simp [whenUp, h]

/-- A command of a device that is held or halted leaves it as it is (log entry 2). -/
theorem whenUp_of_down {s : State} (f : State → State) (h : s.up = false) :
    whenUp s f = .next s := by simp [whenUp, h]

end Sys2Proof.Machine
end

