-- ==== Sys2Proof/Laws/Memory.lean ====
section
/-! SUPPORT. Every operation that writes memory keeps the canonical form, and the memory after reset has
it. -/

namespace Sys2Proof.Machine

variable {s : State}

/-- Memory that lists nothing is in canonical form. -/
@[simp] theorem wf_empty : Memory.wf [] = true := rfl

theorem reset_memOk : State.reset.memOk := ⟨rfl, rfl⟩

/-- Memory as it was. -/
theorem memOk_of_eq {t : State} (hm : t.mem = s.mem) (ht : t.tone = s.tone) (h : s.memOk) : t.memOk := by
  rw [State.memOk, hm, ht]; exact h

theorem memOk_putByte (a : Nat) (v : BitVec 8) (h : s.memOk) : (s.putByte a v).memOk :=
  ⟨Sparse.wf_put a _ h.1, h.2⟩

theorem memOk_putWord (a : Nat) (be : BitVec 4) (v : W32) (h : s.memOk) : (s.putWord a be v).memOk := by
  unfold State.putWord
  dsimp only
  have step : ∀ (b : Bool) (x : Nat) (w : BitVec 8) (s : State), s.memOk →
      (if b = true then s.putByte x w else s).memOk := by
    intro b x w s hs
    cases b
    · exact hs
    · exact memOk_putByte x w hs
  exact step _ _ _ _ (step _ _ _ _ (step _ _ _ _ (step _ _ _ _ h)))

theorem memOk_setWord (a : Nat) (v : W32) (h : s.memOk) : (s.setWord a v).memOk := memOk_putWord a _ v h

theorem memOk_putBytes (l : List Octet) : ∀ {s : State} (a : Nat), s.memOk → (s.putBytes a l).memOk := by
  induction l with
  | nil => intro s a h; exact h
  | cons v l ih => intro s a h; exact ih (a + 1) (memOk_putByte a v h)

theorem memOk_hkWrite (a : Nat) (be : BitVec 4) (v : W32) (h : s.memOk) : (s.hkWrite a be v).memOk := by
  refine memOk_putWord a be v ?_
  unfold State.mend
  dsimp only
  split
  · exact h
  · exact h

theorem memOk_putSample (a : Nat) (v : Octet) (h : s.memOk) : (s.putSample a v).memOk :=
  ⟨h.1, Sparse.wf_put a v h.2⟩

/-- A region that turns OFF loses its bytes. -/
theorem wf_without (a n : Nat) {m : List Host.Cell} (h : Memory.wf m = true) :
    Memory.wf (m.filter fun c => c.1 < a || a + n ≤ c.1) = true :=
  Sparse.wf_filter _ h

/-- A run of octets written at once. -/
theorem wf_run (a : Nat) (os : List Octet) {m : List Host.Cell} (h : Memory.wf m = true) :
    Memory.wf (Sparse.putRun (0 : BitVec 8) m a os) = true :=
  Sparse.wf_putRun a os h

theorem memOk_putStoreRun (a : Nat) (os : List Octet) (h : s.memOk) : (s.putStoreRun a os).memOk :=
  ⟨wf_run a os h.1, h.2⟩

theorem memOk_setBankState (b st : Nat) (h : s.memOk) : (s.setBankState b st).memOk := h

theorem memOk_foldl {α : Type} {f : State → α → State} (hf : ∀ s x, s.memOk → (f s x).memOk) :
    ∀ (l : List α) (s : State), s.memOk → (l.foldl f s).memOk
  | [], _, h => h
  | x :: l, s, h => memOk_foldl hf l (f s x) (hf s x h)

theorem memOk_setBanks (st : Nat) : ∀ (bs : List Nat) {s : State}, s.memOk → (s.setBanks st bs).memOk
  | [], _, h => h
  | b :: bs, s, h => by
    unfold State.setBanks
    refine memOk_setBanks st bs ?_
    split
    · exact h
    · exact h

/-- A region that turns OFF. -/
theorem memOk_turnOff (r : Nat) (h : s.memOk) : (s.turnOff r).memOk := by
  have hb : ((s.setBanks bankOff (s.regionBanks r)).setRegion r true).memOk := memOk_setBanks _ _ h
  exact ⟨wf_without _ _ hb.1, hb.2⟩

end Sys2Proof.Machine
end

