-- ==== Sys2Proof/Tests/Slice0.lean ====
section
/-! SUPPORT. Tests: words of slot programs written out from the spec, the checks of WellFormed, a witness
for the hypotheses of each statement, and small tests of single commands. -/

namespace Sys2Proof.Tests

open Sys2Proof.Machine

/-! ### Small states -/

/-- A running device with lane `l` of a role at a rate and stage. -/
def lane (l role rate stage : Nat) (s : State := State.reset) : State :=
  (s.onLane l fun x => { x with role := BitVec.ofNat 3 role, rate := BitVec.ofNat 3 rate, framer := .inFrame }).fset
    (F.sdsStat_stage l) stage |>.fset (F.sdsStat_pwr l) 0

/-- The same with word 0-2 of a path entry in force. -/
def withPath (s : State) (p : Nat) (w0 w1 w2 : W32) : State :=
  s.onPath p fun x => { x with applied := some (w0, w1, w2), entry := some (w0, w1, w2) }

/-- The same with a termination in force. -/
def withTerm (s : State) (t : Nat) (cfg : List W32) : State := s.onTerm t fun x => { x with cfg := cfg }

/-- Every register of a list set. -/
def regs (s : State) (l : List (Nat × W32)) : State := l.foldl (fun s q => s.wr q.1 q.2) s

/-! ### Witnesses: SDH lines, paths and terminations -/

/-- Lane 3 an STM-1 lane with a monitored AU-4 path 10 on AU 0 and a VC-12 path 11 in it. -/
def sdh : State :=
  withPath (withPath (((lane 3 4 0 5).onAu 3 0 fun x => { x with cfg := 0x40000018 }).fset (F.ltmAuStat_ptrState 3 0) 0)
    10 0x910C0000 0 0) 11 0xB10C0000 0 0

/-- The same with LOS, OOF or LOF. -/
def sdhWith (d : Nat) : State := sdh.fset ⟨Reg.ltmStat 3, d, d⟩ 1

theorem witness_SdhSectionDefects :
    let bad := sdh.onLane 3 fun x => { x with patBad := 5, kMiss := 12 }
    let found := (sdhWith ltmOof).onLane 3 fun x => { x with cands := [⟨7, 2, 0, 0⟩] }
    (bad.up = true ∧ bad.isSdh 3 = true ∧ bad.ltm 3 ltmOof = false ∧ bad.ltm 3 ltmLos = false ∧
      bad.ltm 3 ltmLof = false ∧ 5 ≤ (bad.lane 3).patBad ∧ bad.ltm 3 ltmKIncons = false ∧ 12 ≤ (bad.lane 3).kMiss) ∧
    (found.up = true ∧ found.isSdh 3 = true ∧ found.ltm 3 ltmOof = true ∧ (found.sdhFound 3).isSome = true) ∧
    (sdh.sdhFound 3 = none ∧ (lane 47 4 3 5).isSdh 47 = true ∧ (lane 47 4 3 5).rate 47 = 3) := by decide

theorem witness_SdhConditionDefects :
    let present := sdh.fbit (F.sdsCfg_modPresent 3) true
    let out := (sdhWith ltmOof).onLane 3 fun x => { x with frameRun := 24 }
    let inside := sdh.onLane 3 fun x => { x with frameRun := 24 }
    (sdh.up = true ∧ sdh.isSdh 3 = true ∧ sdh.ltm 3 ltmOof = false ∧ sdh.ltm 3 ltmLos = false ∧
      sdh.ltm 3 ltmLof = false ∧ sdh.pathsFrom 3 ≠ []) ∧
    (present.up = true ∧ present.isSdh 3 = true ∧ present.flag (F.sdsCfg_modPresent 3) = true) ∧
    (out.up = true ∧ out.isSdh 3 = true ∧ out.ltm 3 ltmOof = true ∧ 24 ≤ (out.lane 3).frameRun) ∧
    (inside.up = true ∧ inside.ltm 3 ltmOof = false ∧ 24 ≤ (inside.lane 3).frameRun) := by decide

theorem witness_SdhOverheadAccepted :
    sdh.up = true ∧ sdh.isSdh 3 = true ∧ sdh.sohHeld 3 = false ∧ (sdhWith ltmLos).sohHeld 3 = true ∧
      sdh.auPaths 3 0 ≠ [] ∧ sdh.auPaths 3 1 = [] := by decide

theorem witness_SdhPathDefects :
    sdh.up = true ∧ sdh.isSdh 3 = true ∧ sdh.auPaths 3 0 ≠ [] ∧ sdh.laneDefect 3 = false ∧
      sdh.ptrState 3 0 = 0 ∧ sdh.loLive 11 = true := by decide

theorem witness_AuPointerStates :
    let counts := fun (p : PtrSt) (st : Nat) =>
      (sdh.onAu 3 0 fun x => { x with ptr := p }).fset (F.ltmAuStat_ptrState 3 0) st
    let norm := counts ⟨522, 3, 0, 0, 0, 3⟩ 2
    let ais := counts ⟨0xFFFF, 0, 0, 0, 3, 3⟩ 0
    let lop := counts ⟨522, 0, 8, 0, 0, 3⟩ 0
    (norm.up = true ∧ norm.auRuns 3 0 = true ∧ norm.ptrState 3 0 = 2 ∧ norm.auPtrFound 3 0 = true) ∧
    (ais.up = true ∧ ais.auRuns 3 0 = true ∧ ais.ptrState 3 0 = 0 ∧ ais.auAllOnes 3 0 = true) ∧
    (lop.up = true ∧ lop.auRuns 3 0 = true ∧ lop.ptrState 3 0 = 0 ∧ lop.auPtrLost 3 0 = true) ∧
    (sdhWith ltmLos).auRuns 3 0 = false := by decide

/-- On an STM-1 lane an AU-4 at AU 0 is lawful, an AU number out of range is not; SDS_CFG takes role 4 at rate 3 and
not at rate 4. -/
theorem witness_LaneAndLineConfiguration :
    sdh.up = true ∧ sdh.flag F.rstStat_busy = false ∧ sdh.retired = false ∧ sdh.takesHost = true ∧
      sdh.isSdh 3 = true ∧ sdh.isSdh 4 = false ∧ auShapeOk (sdh.au3 3) (stmN (sdh.rate 3)) 0x40000018 0 = true ∧
      auShapeOk (sdh.au3 3) (stmN (sdh.rate 3)) 0x40000018 62 = false ∧ auTypeOf 0x00000018 = 0 ∧
      (lane 3 4 3 5).rate 3 = 3 := by decide

/-- Valid entry 10 with an address and a type that do not change; entry 12 not valid. -/
theorem witness_PathTableWrites :
    let s := sdh.setPathWord 10 0 0x910C0000
    s.takesHost = true ∧ bit (s.pathWord 10 0) 31 = true ∧ bit (s.pathWord 12 0) 31 = false ∧
      s.entryBad 262143 = false ∧ s.entryBad 10 = false := by decide

theorem witness_TerminationEntryWrites :
    let on := sdh.setWord (termCfgAddr 8191 0) 0xBC000000
    sdh.takesHost = true ∧ bit (sdh.memWord (termCfgAddr 8191 0)) 31 = false ∧
      on.takesHost = true ∧ bit (on.memWord (termCfgAddr 8191 0)) 31 = true := by decide

/-- Terminations 8191, a byte-synchronous E1 with CRC-4 and signalling; 5, an asynchronous T1 of lane 3. -/
def terms : State := withTerm (withTerm sdh 8191 [0xBC000000, 20, 21, 22, 23]) 5 [0xC8300000, 20, 21, 22, 23]

/-- The framer of termination 8191 changed. -/
def framer (s : State) (f : RxSt → RxSt) : State := s.onTerm 8191 fun x => { x with rx := f x.rx }

/-- Three FAS errors, losses of the CRC-4 and CAS multiframes, AIS and RAI that have lasted, signalling received in
two multiframes. -/
theorem witness_TerminationFraming :
    let s := framer terms fun x => { x with
      fasBad := 3, errored := 915, lossRun := 3200, run := 24, casBad := 2, aisLow := 2, aisOk := 2, raiOn := 3
      raiOff := 3, mraiOn := 3, mraiOff := 3, sigNow := [(31, 21)], sigPrev := [(31, 21)] }
    let loss := s.setTermStat 8191 0 (BitVec.ofNat 32 (2 ^ stMfLoss))
    (s.up = true ∧ s.termOn 8191 = true ∧ s.termShed 8191 = false ∧ s.termT1 8191 = false ∧
      s.termFlag 8191 stOof = false ∧ 3 ≤ (s.term 8191).rx.fasBad ∧ s.termCrc4 8191 = true ∧
      915 ≤ (s.term 8191).rx.errored ∧ s.termSig 8191 = true ∧ s.casLost 8191 = true ∧
      2 ≤ (s.term 8191).rx.aisLow ∧ 2 ≤ (s.term 8191).rx.aisOk ∧ s.raiDue 8191 true = true ∧
      s.raiDue 8191 false = true ∧ 3 ≤ (s.term 8191).rx.mraiOn ∧ 3 ≤ (s.term 8191).rx.mraiOff ∧
      24 ≤ (s.term 8191).rx.run) ∧
    (s.sigChannel 8191 31 = true ∧ s.termFlag 8191 stTermFail = false ∧ s.termFlag 8191 stCasLoss = false ∧
      (s.term 8191).rx.sigNow.get 0 31 = 21 ∧ (s.term 8191).rx.sigPrev.get 0 31 = 21) ∧
    (loss.up = true ∧ loss.termOn 8191 = true ∧ bit (loss.termW 8191 0) 26 = true ∧
      loss.termFlag 8191 stMfLoss = true ∧ 3200 ≤ (loss.term 8191).rx.lossRun) ∧
    (let t := terms.onTerm 5 fun x => { x with tu := { x.tu with ptr := ⟨10, 0, 0, 0, 3, 3⟩ } }
     t.up = true ∧ t.termOn 5 = true ∧ t.termT1 5 = true ∧ bit (t.termW 5 0) 29 = false ∧ t.tuLive 5 = true ∧
      t.tuDue 5 1 = true) := by decide

/-- The bits of three E1 frames with FAS and NFAS in turn: alignment is found, the buffer is not shed, and the sender's
flag says in frame. -/
theorem witness_TerminationFraming_aligned :
    let frame := fun (b : List Bool) => b ++ List.replicate 248 true
    let fas := frame [false, false, false, true, true, false, true, true]
    let nfas := frame [false, true, false, false, false, false, false, false]
    let s := (framer terms fun x => { x with hist := fas ++ nfas ++ fas ++ nfas ++ fas, inFlag := true }).setTermStat
      8191 0 (BitVec.ofNat 32 (2 ^ stOof))
    s.up = true ∧ s.termOn 8191 = true ∧ (s.framesFound 8191).isSome = true ∧ s.termFlag 8191 stOof = true ∧
      s.termShed 8191 = false ∧ (s.term 8191).rx.inFlag = true := by decide +kernel

/-- The feed rows of termination 8191 have come in this frame, the second since the marks started. -/
theorem witness_TerminationFraming_feed :
    let s := { terms with clock := { terms.clock with started := true, frames := 2, row := 8 } }
    s.up = true ∧ s.termOn 8191 = true ∧ s.termShed 8191 = false ∧ s.feedReady 8191 = true := by decide

/-! ### Witnesses: lanes -/

/-- A change of the hidden state of lane 3. -/
def on3 (s : State) (f : LaneSt → LaneSt) : State := s.onLane 3 f

/-- Lane 3 a NATIVE lane in a stage, entered `age` frame marks ago. -/
def nat3 (stage : Nat) (age : Nat := 9000) : State :=
  on3 ((lane 3 1 4 stage).fset (F.sdsStat_pwr 3) 0) fun x => { x with timer := some age }

/-- Stages 1 to 6, each with the time at which its event is due. -/
theorem witness_LaneBringUp :
    ((nat3 1 80).up = true ∧ (nat3 1 80).stage 3 = 1 ∧ (nat3 1 80).awake 3 = true ∧ (nat3 1 80).isSdh 3 = false ∧
      ((nat3 1 80).lane 3).timer.any (· < 80) = false ∧ ((nat3 1 79).lane 3).timer.any (· < 80) = true) ∧
    ((lane 3 4 0 1).up = true ∧ (lane 3 4 0 1).stage 3 = 1 ∧ (lane 3 4 0 1).awake 3 = true ∧
      (lane 3 4 0 1).isSdh 3 = true) ∧
    ((nat3 2 400).stage 3 = 2 ∧ (nat3 2 400).awake 3 = true ∧ (nat3 2 400).isAmenamin 3 = true ∧
      ((nat3 2 400).lane 3).timer.any (400 ≤ ·) = true) ∧
    ((nat3 3).isAmenamin 3 = true ∧ (nat3 3).awake 3 = true ∧ (nat3 3).stage 3 = 3) ∧
    ((nat3 4 8).isAmenamin 3 = true ∧ (nat3 4 8).awake 3 = true ∧ (nat3 4 8).stage 3 = 4 ∧
      ((nat3 4 8).lane 3).bothAgree = false ∧ ((nat3 4 8).lane 3).timer.any (8 ≤ ·) = true) ∧
    ((nat3 6 8000).up = true ∧ (nat3 6 8000).stage 3 = 6 ∧ ((nat3 6 8000).lane 3).deep ≠ .exiting ∧
      (nat3 6).flag F.rstStat_busy = false ∧ ((nat3 6 8000).lane 3).timer.any (8000 ≤ ·) = true) := by decide

/-- A capability block of a NATIVE lane whose CRC is right, and one whose CRC is not. -/
theorem witness_LaneBringUp_caps :
    let c : CapsBlock := ⟨1, 0, 0, 0x2000, 0x8000, 0⟩
    let good := { c with w5 := BitVec.ofNat 18 (crc16 [1, 0, 0, 0x2000, 0x8000]) }
    ((nat3 4).lane 3).caps.merge good = good ∧ good.crcOk = true ∧ { good with w5 := good.w5 + 1 }.crcOk = false := by
  decide +kernel

theorem witness_AmenaminFraming :
    let s := on3 (nat3 5) fun x => { x with patBad := 4, frameRun := 24, idleRun := true, idleAge := 8000, losClean := 250 }
    let oof := on3 (nat3 5) fun x => { x with framer := .oof, frameRun := 24 }
    let hunt := on3 (nat3 3) fun x => { x with framer := .hunt, cands := [⟨7, 3, 5, 0⟩] }
    let low := on3 (nat3 5) fun x => { x with lowRun := 19 }
    (s.up = true ∧ s.framerRuns 3 = true ∧ (s.lane 3).framer = .inFrame ∧ s.isAmenamin 3 = true ∧
      s.cdrRuns 3 = true ∧ (s.lane 3).lowRun < 19 ∧ 4 ≤ (s.lane 3).patBad ∧ 24 ≤ (s.lane 3).frameRun ∧
      250 ≤ (s.lane 3).losClean ∧ (s.lane 3).idleRun = true ∧ 8000 ≤ (s.lane 3).idleAge) ∧
    (oof.framerRuns 3 = true ∧ (oof.lane 3).framer = .oof ∧ 24 ≤ (oof.lane 3).frameRun) ∧
    (hunt.framerRuns 3 = true ∧ (hunt.lane 3).framer ≠ .inFrame ∧ (hunt.qualified 3).isSome = true) ∧
    (low.cdrRuns 3 = true ∧ low.isAmenamin 3 = true ∧ 20 ≤ (low.lane 3).lowRun + 1 ∧
      low.flag (F.sdsStat_los 3) = false ∧ low.stage 3 = 5) := by decide

theorem witness_LanePower :
    let s := nat3 5
    let wake := (s.fset (F.sdsStat_pwr 3) 1).fbit (F.sdsCfg_wakeRx 3) true
    (s.up = true ∧ s.flag F.rstStat_busy = false ∧ s.role 3 ≠ 0 ∧ s.stage 3 ≠ 6 ∧ (s.lane 3).deep = .none) ∧
    (let i := on3 s fun x => { x with deep := .idle }
     i.up = true ∧ (i.lane 3).deep = .idle) ∧
    (let e := on3 s fun x => { x with deep := .exiting }
     e.up = true ∧ (e.lane 3).deep = .exiting) ∧
    (wake.up = true ∧ wake.flag (F.sdsCfg_wakeRx 3) = true ∧ wake.lanePwr 3 = 1 ∧ (wake.lane 3).deep ≠ .exiting) :=
  by decide

theorem witness_LanePrbsTest :
    let s := (lane 3 1 4 7).wr (Reg.sdsPrbs 3) 0xE0000000
    (s.up = true ∧ s.flag (F.sdsPrbs_rxEn 3) = true ∧ s.flag F.rstStat_busy = false ∧ s.stage 3 = 7 ∧
      s.flag (F.sdsPrbs_txEn 3) = true) ∧
    (let t := s.fbit (F.sdsPrbs_inSync 3) true
     t.up = true ∧ t.stage 3 = 7 ∧ t.flag (F.sdsPrbs_rxEn 3) = true ∧ t.flag (F.sdsPrbs_inSync 3) = true) := by decide

/-- Lanes NATIVE and fabric in frame: the offset of a fabric row of 500 ns is within the window, one of -600 ns is not. -/
theorem witness_HeaderAndRowReceived :
    (nat3 5).up = true ∧ (nat3 5).framerRuns 3 = true ∧ ((nat3 5).lane 3).framer = .inFrame ∧
      (nat3 5).role 3 = 1 ∧ (lane 3 2 4 5).role 3 = 2 ∧ (lane 3 2 4 5).isAmenamin 3 = true ∧
      (nat3 5).isAmenamin 3 = true ∧ ((nat3 5).island (laneGroup 3)).parityDue = false ∧
      sigmaOk 500 = true ∧ sigmaOk 2000000 = false ∧ (sdhWith ltmLos).laneFail 3 = true := by decide

/-! ### Witnesses: slot programs -/

/-- In the row period of row `w`. -/
def inRow (w : Nat) (s : State) : State := { s with clock := { s.clock with row := w, started := true } }

/-- Column destination 55 with an open program row of bank A, octet destination 15 with an open frame. -/
def progs : State :=
  ((State.reset.onCol 55 fun x => { x with fetch := some { RowCtx.init with
      idle := false, ended := false, checked := false, period := 7 } }).onOct 15 fun x =>
    { x with run := some { FrameCtx.init with idle := false, ended := false, checked := false } })

theorem witness_ColumnInstructions : progs.up = true ∧ progs.rowOpen 55 = true := by decide

theorem witness_ControlInstructions :
    progs.up = true ∧ progs.rowOpen 55 = true ∧ progs.issues 15 .endI = true ∧ progs.issues 15 .nop = true ∧
      progs.issues 15 (.mark 65535) = true := by decide

/-- The word MOVC of V-lane 0 at word 0 of bank A, and a shed octet path 9 over octet address 64. -/
def progs2 : State :=
  withPath ((progs.setWord 4 0x04300000).setPathWord 9 3 0x00200000) 9 0xC0C00000 64 0

/-- Instruction `i` can be issued in row period `w` and is not suppressed. -/
def issued (w : Nat) (i : OctIns) : Bool := (inRow w progs).issues 15 i && !(inRow w progs).suppressed i

theorem witness_OctetCopies :
    progs.up = true ∧ issued 0 (.movo ⟨false, false, 7, 0, 4⟩) = true ∧ issued 0 (.movos ⟨15, 31, 31, 0, 0⟩) = true ∧
      issued 1 (.filo ⟨0, 15, 36864⟩) = true ∧ issued 8 (.selo ⟨0, 0, 2654207, 0, 0⟩) = true ∧
      issued 7 (.selo ⟨0, 0, 2654207, 0, 0⟩) = false ∧ progs2.up = true ∧
      progs2.issues 15 (.movo ⟨false, false, 0, 0, 64⟩) = true ∧
      progs2.suppressed (.movo ⟨false, false, 0, 0, 64⟩) = true := by decide

theorem witness_OctetArithmetic :
    progs.up = true ∧ issued 0 (.mix ⟨false, 0, [0], 0⟩) = true ∧ issued 8 (.mixp ⟨true, 63, [0x8000], 2654207⟩) = true ∧
      issued 0 (.gain ⟨15, 0x80, true, false, 0, 0⟩) = true := by decide

theorem witness_TonesAndPatterns :
    progs.up = true ∧ issued 0 (.tone ⟨255, 0, 15, 0, 0⟩) = true ∧ issued 0 (.prbs false ⟨2, 1023, 7, 0⟩) = true ∧
      issued 1 (.prbs true ⟨2, 1023, 7, 18432⟩) = true := by decide

/-- Sequence bits taken out of sync while loading, at the last bit of confirmation, and in sync at the end of a block. -/
theorem witness_TonesAndPatterns_bits :
    let s := State.reset
    let c := s.setPrbs 0 { PrbsSt.init with reg := 0x3FFF, loaded := 15, confirm := 63 }
    let b := (s.fbit (F.prbsStat_inSync 0) true).setPrbs 0 { PrbsSt.init with blkBits := 63, blkErr := 16 }
    (s.prbsCh 0).loaded < (prbsTaps 0).1 ∧ s.flag (F.prbsStat_inSync 0) = false ∧
      ¬ (c.prbsCh 0).loaded < (prbsTaps 0).1 ∧ (c.prbsCh 0).confirm + 1 = 64 ∧
      b.flag (F.prbsStat_inSync 0) = true ∧ (b.prbsCh 0).blkBits + 1 = 64 := by decide

theorem witness_SignallingInstructions :
    progs.up = true ∧ issued 0 (.casx ⟨8191, 31, 0⟩) = true ∧ issued 0 (.casi ⟨8191, 0, 0⟩) = true := by decide

theorem witness_ProgramEnds :
    progs2.up = true ∧ (progs2.colEngine 55).fetch.any (fun c => !c.checked) = true ∧
      (inRow 8 progs2).inLastRow = true ∧ ((inRow 8 progs2).octEngine 15).run.any (fun c => !c.checked) = true ∧
      (progs2.colEngine 55).fetch.any (fun c => !c.idle && !c.lost) = true ∧
      (progs2.colEngine 55).ahead = none ∧ progs2.rowOpen 55 = true ∧
      progs2.fetchCol (progs2.rowOf 55).bank (progs2.rowOf 55).pc = .ins (.movc ⟨false, false, false, 48, 0, 0, 0⟩) ∧
      readsV (.movc ⟨false, false, false, 48, 0, 0, 0⟩) = true := by decide

theorem witness_Marks :
    let due := { State.reset with clock := { State.reset.clock with started := true, row := 8, frameDue := true } }
    let step := { due with clock := { due.clock with frameDue := false, step := some (1, .number 77) } }
    State.reset.up = true ∧ State.reset.clock.frameDue = false ∧ State.reset.clock.started = false ∧
      due.up = true ∧ due.clock.started = true ∧ due.clock.frameDue = true ∧
      step.up = true ∧ step.clock.row = 8 ∧ step.clock.step = some (1, .number 77) := by decide

/-! ### Witnesses: flips, protection, fabric -/

/-- A flip of state `st` with a target 100, of both planes to bank B, fabric or not. -/
def flip (s : State) (st : Nat) (req : BitVec 4 := 7) : State :=
  (s.setFlip fun x => { x with req := req, target := 100 }).fset F.flpStat_state st

/-- Device 2 of a fabric of 4, coordinator device 1. -/
def fab : State :=
  regs ((((State.reset.fbit F.fabCfg_en true).fset F.fabCfg_deviceId 2).fset F.flpCoord_coordId 1).fset
    F.flpCoord_lastTxn 9) [(Reg.flpFabCfg, 0x0F), (Reg.flpFabRank, 0xFAC688), (Reg.fabTmRank, 0xFAC688)]

def coordinator : State := ((flip fab 1 0xF).setFlip fun x => { x with coord := true }).fset F.flpStat_txn 7

def member (st : Nat) : State :=
  ((flip fab st 0xF).setFlip fun x => { x with coord := false, answered := some 7 }).fset F.flpStat_txn 7

def atFrame (s : State) (f : BitVec 32) : State := { s with clock := { s.clock with frame := f } }

theorem witness_FlipArmAndCancel :
    (let s := regs State.reset [(Reg.flpReq, 3), (Reg.flpTarget, 3)]
     s.up = true ∧ s.takesHost = true ∧ s.armReason 3 3 = 0 ∧ s.armReason 3 2 ≠ 0) ∧
    ((flip State.reset 3).takesHost = true ∧ (flip State.reset 3).flipStoppable = true) ∧
    ((flip State.reset 4).takesHost = true ∧ (flip State.reset 4).flipState = flpCommitted) ∧
    (let s := inRow 8 (flip State.reset 2)
     s.up = true ∧ s.flipState = flpRehearsing ∧ s.inLastRow = true) ∧
    (let s := flip (atFrame State.reset 100) 4
     s.flipState = flpCommitted ∧ s.flip.unsure = false ∧ s.flip.target = s.clock.frame) ∧
    (let s := fab.fset (F.flpPeer_silent 1) 16
     s.up = true ∧ s.flag F.fabCfg_en = true ∧ s.flag F.flpCoord_self = false ∧
      16 ≤ s.silence (s.fget F.flpCoord_coordId) ∧ s.nextHolder = some s.me) := by decide

/-- A proposal that a member takes, one that it refuses; the open transaction 7 of a coordinator and of a member. -/
theorem witness_FlipMessages :
    let opens := fun (s : State) => s.fabricFlip && s.flipOpen && decide (s.fget F.flpStat_txn = 7)
    (let p : Proposal := ⟨false, 10, 9, true, true, true, 1⟩
     fab.up = true ∧ fab.flag F.fabCfg_en = true ∧ (fab.rd Reg.flpFabCfg).getLsbD (fab.fget F.fabCfg_deviceId) = true ∧
      fab.flipOpen = false ∧ fab.flip.answered ≠ some p.txn ∧ p.con = false ∧ (1 : Fin 8).val ≠ fab.me ∧
      9 ≤ (p.target - fab.clock.frame).toNat ∧ fab.live false ≠ p.bank ∧ fab.live true ≠ p.bank ∧
      p.src.toNat = fab.fget F.flpCoord_coordId) ∧
    (coordinator.up = true ∧ opens coordinator = true ∧ coordinator.flip.coord = true ∧
      2 ≤ (coordinator.flip.target - coordinator.clock.frame).toNat ∧ coordinator.flipStoppable = true) ∧
    (let s := atFrame (member 3) 99
     s.up = true ∧ opens s = true ∧ s.flip.coord = false ∧ s.flipState = flpReady ∧ s.flip.unsure = false ∧
      (s.flip.target - s.clock.frame).toNat = 1 ∧ s.flipStoppable = true) ∧
    opens fab = false := by decide

/-- Path 10 of `sdh` with an enabled selector, which SELC at word 0 of bank A of column destination 0 names. -/
def sel (w5 w6 : W32) (f : SelSt → SelSt := id) : State :=
  let w := (encodeCol (.selc ⟨2, 0, 2, 10, 2, 1, 4⟩)).getD 0 0
  let v := (encodeCol (.selc ⟨2, 0, 2, 10, 2, 1, 4⟩)).getD 1 0
  let s := (sdh.setWord 0 (w.setWidth 32)).setWord 4 ((w >>> 32).setWidth 32)
  let s := (s.setWord 8 (v.setWidth 32)).setWord 12 ((v >>> 32).setWidth 32)
  (((s.wr (engStart false 0 false) 0x80000000).setPathWord 10 5 w5).setPathWord 10 6 w6).onSel 10 f

theorem witness_SelectorEvents :
    (let s := sel 0xC0000240 0x1700000B fun x => { x with
        wHold := ⟨some 5, false⟩, pHold := ⟨some 0, false⟩, wtr := some 9, wFail := true, pFail := true, window := 1 }
     s.up = true ∧ s.selRuns 10 = true ∧ (s.sel 10).wHold.left.isSome = true ∧ (s.sel 10).pHold.left.isSome = true ∧
      (s.sel 10).wtr.isSome = true ∧ (s.sel 10).wFail = true ∧ (s.sel 10).pFail = true ∧ 0 < (s.sel 10).window ∧
      (s.path 10).entry.isSome = true ∧ s.selBad 10 = false ∧ bit (s.pathWord 10 5) 31 = true ∧
      bit (s.pathWord 10 6) 19 = false) ∧
    (∀ thr : Fin 6, 1 ≤ thr.val → (sel (BitVec.ofNat 32 (2 ^ 31 + thr.val * 2 ^ 25)) 11).sdChecked 10 = true ∧
      bits ((sel (BitVec.ofNat 32 (2 ^ 31 + thr.val * 2 ^ 25)) 11).pathWord 10 5) 27 25 = thr.val) := by
  decide +kernel

/-- The last evaluations of both hold-offs and of the wait to restore. -/
theorem witness_SelectorEvents_last :
    let s := sel 0xC0000240 0x1200000B fun x => { x with wHold := ⟨some 1, false⟩, pHold := ⟨some 1, false⟩, wtr := some 1 }
    (s.path 10).entry.isSome = true ∧ s.selBad 10 = false ∧ bit (s.pathWord 10 5) 31 = true ∧
      (s.sel 10).wHold.left = some 1 ∧ (s.sel 10).pHold.left = some 1 ∧ (s.sel 10).wtr = some 1 ∧
      bits (s.pathWord 10 6) 27 24 = reqWtr := by decide +kernel

theorem witness_MspControllers :
    (let s := lane 4 4 0 5 (lane 3 4 0 5 (regs State.reset [(Reg.apsCfg 23, 0xB0660000), (Reg.apsWl 23 0, 4)]))
     let s := (((s.fset (F.ltmOhRx_k2 3) 0x15).fbit (F.ltmOhRx_kValid 3) true).onAps 23 fun x => { x with
        hold := [(0, ⟨some 9, false⟩), (1, ⟨some 4, false⟩)], wtr := some 8, wtrChan := 1, fopRun := 3600 })
     s.up = true ∧ s.takesHost = true ∧ s.flag (F.apsCfg_en 23) = true ∧ (∀ k : Fin 15, s.apsLane 23 k.val < 48) ∧
      ((s.apsSt 23).hold.get .init 1).left.isSome = true ∧ ((s.apsSt 23).hold.get .init 0).left.isSome = true ∧
      (s.apsSt 23).wtr.isSome = true ∧ s.apsBidir 23 = true ∧ s.apsMismatch 23 = true ∧
      3600 ≤ (s.apsSt 23).fopRun) := by decide

/-- Lane 4 a fabric lane to device 3; every run of frames and rows that a fabric command waits for is complete. -/
def fab4 : State :=
  let s := lane 4 2 4 5 (fab.fset (F.fabLane_peer 4) 3)
  { s with fab := { s.fab with
      claimRun := 16, alignRun := 8, badRows := [(3, 9)], goodRows := [(7, 8)], masterNum := some 77 } }

theorem witness_FabricRoles :
    (fab4.up = true ∧ fab4.flag F.rstStat_busy = false ∧ fab4.identityHeld = true ∧ fab.identityHeld = false ∧
      fab4.beyondDetect 4 = true ∧ fab4.beyondDetect 47 = false) ∧
    (fab4.flag F.fabCfg_en = true ∧ fab4.tmRole ≠ tmMaster ∧ fab4.claimant = none ∧ fab4.ranksFirst = true ∧
      fab4.role 4 = roleFabric ∧ fab4.stage 4 = stageActive ∧ 16 ≤ fab4.fab.claimRun) ∧
    (let s := (fab4.fset F.fabStat_tmRole tmMaster).fbit (F.fabPeer_tmClaim 1) true
     let t := { s with fab := { s.fab with dropDue := true } }
     s.up = true ∧ s.tmRole = tmMaster ∧ s.claimant = some 1 ∧ s.tmRank 1 < s.tmRank s.me ∧
      t.fab.dropDue = true ∧ t.tmRole = tmMaster) ∧
    (let s := ((fab4.fset F.fabStat_tmRole tmHolds).fset F.fabStat_tmId 1).fbit (F.fabPeer_failed 1) true
     let t := { s with fab := { s.fab with claimDue := true } }
     s.up = true ∧ s.flag F.fabCfg_en = true ∧ s.tmRole = tmHolds ∧
      s.peerFailed (s.fget F.fabStat_tmId) = true ∧ s.ranksFirst = true ∧ t.fab.dropDue = false ∧
      t.fab.claimDue = true ∧ t.flag F.fabCfg_en = true ∧ t.tmRole = tmHolds ∧ t.claimant = none) ∧
    (let s := (fab4.fset F.fabStat_tmRole 2).fset F.fabStat_tmId 3
     s.up = true ∧ s.followLane.isSome = true ∧ 8 ≤ s.fab.alignRun ∧ s.fab.phased = false ∧
      s.fab.masterNum.isSome = true ∧ s.clock.step.isNone = true) ∧
    ((3 : Fin 8).val ≠ fab4.me ∧ fab4.peerFailed 3 = false ∧ fab4.fabPeers.contains 3 = true ∧
      9 ≤ fab4.fab.badRows.get 0 3) ∧
    (let s := fab4.fbit (F.fabPeer_failed 7) true
     s.up = true ∧ s.peerFailed 7 = true ∧ 8 ≤ s.fab.goodRows.get 0 7) := by decide

/-! ### Witnesses: register and memory access -/

/-- A standby's mate lane and state. -/
def halted : State := { State.reset with power := { State.reset.power with safeHalt := true } }

/-- Offsets 0x7FFF, the last of the first range, and 0x2C000 and 0x3FFFF, the ends of the second. -/
theorem witness_RegisterWriteBits :
    State.reset.up = true ∧ State.reset.flag F.rstStat_busy = false ∧ 0x7FFC / 4 * 4 < 0x8000 ∧
      (regRow? 4).isSome = true ∧ (regRow? 0x2C000).isSome = true ∧ regRow? 0x7FFC = none := by decide

theorem witness_ProgramMemoryWrites :
    State.reset.takesHost = true ∧ State.reset.progLocked .host false true = false ∧
      State.reset.progLocked .host false false = true ∧ State.reset.progLocked .dma true true = false ∧
      State.reset.progLocked .debug true false = true := by decide

theorem witness_ToneAndPatternRegisters :
    (State.reset.fset F.octToneAddr_addr (2 ^ 18 - 1)).takesHost = true ∧
      (State.reset.fset F.octToneAddr_addr (2 ^ 18 - 1)).fget F.octToneAddr_addr = 2 ^ 18 - 1 := by decide

theorem witness_CrossbarLocks :
    (∀ m : Fin 6, State.reset.up = true ∧ State.reset.hk.leaseErr.contains m.val = false ∧
      (∀ k : Fin 5, State.reset.holdsLock m.val k.val = true → k.val < 4) ∧
      State.reset.heldByOther m.val 4 = false ∧ (State.reset.outstanding m.val).isNone = true ∧
      State.reset.hk.waits = []) ∧
    (∀ m : Fin 6, let s := State.reset.fset F.xbrLocks_held (2 ^ (5 * m.val + 4))
      s.up = true ∧ s.hk.leaseErr.contains m.val = false ∧ s.inOrder m.val 3 = false ∧ s.inOrder m.val 0 = false ∧
        (∃ k : Fin 5, s.holdsLock m.val k.val = true)) ∧
    (let s := State.reset.fset F.rstStat_lcState 2
     s.up = true ∧ s.lc = 2 ∧ s.refreshDebug.debugOpen = false ∧ s.flag F.rstStat_busy = false) ∧
    State.reset.debugOpen = true ∧
    (let s := { State.reset with hk := { State.reset.hk with waits := [(2, ⟨.regs, .lock, false⟩)], leaseErr := [1] } }
     s.up = true ∧ (s.outstanding 2).isSome = true ∧ s.hk.leaseErr.contains 1 = true) := by decide

theorem witness_CrossbarAccess :
    (State.reset.up = true ∧ State.reset.flag F.rstStat_busy = false ∧ State.reset.latch = [] ∧
      State.reset.hk.waits = [] ∧ State.reset.hk.leaseErr = [] ∧ State.reset.inOrder 0 1 = true ∧ State.reset.heldByOther 0 1 = false ∧
      State.reset.debugOpen = true ∧ State.reset.inOrder 5 1 = true ∧ (regRow? 4).isSome = true ∧
      4 ≠ Reg.evtStat) ∧
    State.reset.clearWay (portOf 0) 128 = true ∧
    (let s := { State.reset with hk := { State.reset.hk with reqs := [(portOf 0, ⟨128, false, false, false, 0⟩)] } }
     s.clearWay (portOf 0) 128 = false ∧ s.up = true) ∧
    (let s := State.reset.fset F.xbrLocks_held (2 ^ 6)
     s.heldByOther 5 1 = true ∧ s.inOrder 5 1 = true ∧ s.debugOpen = true) ∧
    halted.outOfReset = true ∧ halted.power.safeHalt = true := by decide

theorem witness_ReservedOffsets :
    State.reset.up = true ∧ State.reset.hk.leaseErr.contains 0 = false ∧ State.reset.hk.waits = [] ∧
      State.reset.inOrder 0 (targetNo .regs) = true ∧ State.reset.heldByOther 0 (targetNo .regs) = false ∧
      State.reset.inOrder 0 (targetNo .sram) = true ∧ State.reset.heldByOther 0 (targetNo .sram) = false ∧
      0x12FFFF < (0x130000 : BitVec 26).toNat ∧ 0x2400000 ≤ (0x2400000 : BitVec 26).toNat := by decide

/-! ### Witnesses: rings, events and ring commands -/

/-- A host that reads and writes by DMA. -/
def dma (s : State := State.reset) : State :=
  (({ s with hif := { s.hif with bme := true } }.fset F.hifStat_rate 4).fset F.hifStat_width 3).fbit F.hifStat_bme true

/-- A command of an opcode with words at their places. -/
def entry (op : Nat) (ws : List (Nat × Nat)) : CmdEntry :=
  ⟨5, (List.range 16).map fun i =>
    if i = 0 then BitVec.ofNat 32 (op * 2 ^ 24 + 2 ^ 16 + 7)
    else BitVec.ofNat 32 (((ws.find? (·.1 = i)).map (·.2)).getD 0)⟩

/-- The command at the front of ring 3. -/
def ring (op : Nat) (ws : List (Nat × Nat)) (s : State := State.reset) : State :=
  dma { s with hif := { s.hif with fetched := [(3, [entry op ws])] } }

/-- Ring 3 enabled, 16 entries, 9 of them due. -/
def ringDue (s : State) : State :=
  ((((s.fbit (F.hifCringCfg_en 3) true).fset (F.hifCringCfg_size 3) 4).fset (F.hifCringHead_index 3) 15).fset
    (F.hifCringTail_index 3) 8)

theorem witness_RingRegisters : State.reset.up = true := by decide

theorem witness_CommandFetching :
    ((ringDue (dma State.reset)).up = true ∧ (ringDue (dma State.reset)).mayFetch 3 = true ∧
      (ringDue (dma State.reset)).fget (F.hifCringHead_index 3) < (ringDue (dma State.reset)).cringLen 3 ∧
      (ringDue (dma State.reset)).nextCmd 3 = none) ∧
    (let c := entry opLoadBank [(1, 1), (2, 524286), (3, 2), (4, 8)]
     let s := ring opLoadBank [(1, 1), (2, 524286), (3, 2), (4, 8)]
     s.up = true ∧ s.nextCmd 3 = some c ∧ c.op = opLoadBank ∧ loadOk c = true ∧ s.retired = false ∧
      s.eventRoom = true) := by decide

/-- An event for each event ring. -/
def staged (ring : Bool) : Event :=
  { severity := 2, code := 0x1001, params := [1, 2, 3, 4, 5], tai := 9, frame := 8, ring := ring }

theorem witness_EventDelivery :
    (let s := (dma { State.reset with evt := { State.reset.evt with staged := [staged false, staged true] } })
     let s := ((s.fbit (F.hifEringCfg_en 0) true).fset (F.hifEringCfg_size 0) 4).fset (F.hifEringTail_index 0) 15
     let s := s.fset (F.hifEringHead_index 0) 3
     s.up = true ∧ s.dmaOn = true ∧ s.nextEvent 0 = some (staged false) ∧ (staged false).params.length = 5 ∧
      s.flag (F.hifEringCfg_en 0) = true ∧ s.eringRoom 0 = true) ∧
    (let s := dma (State.reset.setSince 1 1)
     s.up = true ∧ s.dmaOn = true ∧ 0 < s.since 1 ∧
      s.sinceFrom 1 + min 1000 (s.fget (F.hifEringCfg_coalUs 1)) * 9 / 125 ≤ s.clock.period) := by decide

theorem witness_RingCommandRefusals :
    (∀ op ∈ [0, 11, 255], let s := ring op []
      s.up = true ∧ s.eventRoom = true ∧ s.nextCmd 3 = some (entry op []) ∧ (op = 0 ∨ 10 < (entry op []).op)) ∧
    (∀ op ∈ [opLoadBank, opArmFlip, opStoreMark, opProtCommand, opLifecycle],
      let s := ring op [] (State.reset.fset F.rstStat_lcState 3)
      s.up = true ∧ s.eventRoom = true ∧ s.retired = true ∧ s.nextCmd 3 = some (entry op []) ∧ (entry op []).op = op) ∧
    (∀ op ∈ [opArmFlip, opCancelFlip, opSnapshot, opDumpConfig, opStoreRead, opMateResync],
      let s := ring op [(15, 1)]
      s.up = true ∧ s.eventRoom = true ∧ s.retired = false ∧ s.nextCmd 3 = some (entry op [(15, 1)]) ∧
        (entry op [(15, 1)]).w 15 ≠ 0 ∧ (entry op [(15, 1)]).op = op) ∧
    (∀ op ∈ [opSnapshot, opDumpConfig, opMateResync],
      let s := ring op [] (State.reset.fbit F.rstStat_busy true)
      s.up = true ∧ s.flag F.rstStat_busy = true ∧ s.retired = false ∧ s.nextCmd 3 = some (entry op []) ∧
        (entry op []).fits [] = true ∧ (s.loading 3).isNone = true) := by decide

/-- The conditions that every effect of a ring command rests on. -/
def takes (s : State) (op : Nat) (ws : List (Nat × Nat)) : Prop :=
  s.takesHost = true ∧ s.retired = false ∧ s.eventRoom = true ∧ s.nextCmd 3 = some (entry op ws) ∧ (entry op ws).op = op

theorem witness_RingCommandEffects_flips :
    (takes (ring opArmFlip [(1, 0x103), (2, 10)]) opArmFlip [(1, 0x103), (2, 10)] ∧
      (entry opArmFlip [(1, 0x103), (2, 10)]).fits [0x10F, allBits] = true ∧
      (ring opArmFlip [(1, 0x103), (2, 10)]).armReason 3 10 = 0) ∧
    (takes (ring opArmFlip [(1, 2), (2, 10)]) opArmFlip [(1, 2), (2, 10)] ∧
      (entry opArmFlip [(1, 2), (2, 10)]).fits [0x10F, allBits] = true ∧
      (ring opArmFlip [(1, 2), (2, 10)]).armReason 2 10 ≠ 0) ∧
    (takes (ring opCancelFlip [] (flip State.reset 3)) opCancelFlip [] ∧ (entry opCancelFlip []).fits [] = true ∧
      (ring opCancelFlip [] (flip State.reset 3)).flipStoppable = true ∧
      (ring opCancelFlip [] (flip State.reset 3)).hif.busy = []) ∧
    (takes (ring opCancelFlip []) opCancelFlip [] ∧ (ring opCancelFlip []).flipStoppable = false) := by
  unfold takes; decide

theorem witness_RingCommandEffects :
    (takes (ring opSnapshot [(4, 4096)]) opSnapshot [(4, 4096)] ∧
      (entry opSnapshot [(4, 4096)]).fits [0, 0, 0, allBits, allBits] = true ∧
      (entry opSnapshot [(4, 4096)]).aligned 4096 = true) ∧
    (takes (ring opDumpConfig [(1, 0xC0000005), (2, 0xFFFF), (4, 8192)]) opDumpConfig
        [(1, 0xC0000005), (2, 0xFFFF), (4, 8192)] ∧
      (entry opDumpConfig [(1, 0xC0000005), (2, 0xFFFF), (4, 8192)]).fits [0xC00FFFFF, 0xFFFF, 0, allBits, allBits] =
        true ∧
      (entry opDumpConfig [(1, 0xC0000005), (2, 0xFFFF), (4, 8192)]).aligned 4096 = true) ∧
    (takes (ring opProtCommand [(1, 0x80000017), (2, 0)]) opProtCommand [(1, 0x80000017), (2, 0)] ∧
      protOk (entry opProtCommand [(1, 0x80000017), (2, 0)]) = true) ∧
    (takes (ring opProtCommand [(1, 262143), (2, 5)]) opProtCommand [(1, 262143), (2, 5)] ∧
      protOk (entry opProtCommand [(1, 262143), (2, 5)]) = true ∧
      (ring opProtCommand [(1, 262143), (2, 5)]).entryBad 262143 = false) ∧
    (takes (ring opMateResync [] (State.reset.fset F.matStat_state 3)) opMateResync [] ∧
      (entry opMateResync []).fits [] = true ∧
      (ring opMateResync [] (State.reset.fset F.matStat_state 3)).mateState = mateActive) ∧
    (takes (ring opMateResync []) opMateResync [] ∧ (ring opMateResync []).mateState ≠ mateActive) ∧
    (takes (ring opLifecycle [(1, 2), (2, 0x4C430002)]) opLifecycle [(1, 2), (2, 0x4C430002)] ∧
      (entry opLifecycle [(1, 2), (2, 0x4C430002)]).fits [3, allBits] = true ∧
      lcAllowed (ring opLifecycle []).lc ((ring opLifecycle []).fget F.rstStat_lcUsed) 2 = true ∧
      (ring opLifecycle []).power.lcTarget = none ∧
      lcAllowed (ring opLifecycle []).lc ((ring opLifecycle []).fget F.rstStat_lcUsed) 1 = false) := by
  unfold takes; decide

/-- A store whose ring holds 128 records to an LBA, with the numbers from `old` to `head`. -/
def history (head old : Nat) (st : List Record) : State :=
  { ((State.reset.wr Reg.hstRing 1000).setHstHead head).wr Reg.hstOldestLo (BitVec.ofNat 32 old) with
    hst := { State.reset.hst with staging := st } }

/-- A LOAD_BANK in progress, one of its two words stored. -/
theorem witness_RingCommandData_progress :
    let ws := [(1, 1), (2, 524286), (3, 2), (4, 8)]
    let s := dma { State.reset with hif := { State.reset.hif with busy := [(3, entry opLoadBank ws, .load 1 0)] } }
    s.up = true ∧ s.loading 3 = some (entry opLoadBank ws, 1, 0) ∧ s.dmaOn = true ∧
      s.progLocked .dma false true = false ∧ s.standsBy = false := by decide

theorem witness_RingCommandData :
    (let ws := [(1, 1), (2, 524286), (3, 2), (4, 8)]
     takes (ring opLoadBank ws) opLoadBank ws ∧ loadOk (entry opLoadBank ws) = true ∧
      (ring opLoadBank ws).progLocked .dma false true = false ∧ (ring opLoadBank ws).hif.busy = []) ∧
    (let ws := [(1, 0), (2, 0), (3, 2), (4, 8)]
     takes (ring opLoadBank ws) opLoadBank ws ∧ loadOk (entry opLoadBank ws) = true ∧
      (ring opLoadBank ws).progLocked .dma false false = true) ∧
    (let ws := [(1, 1), (2, 0), (4, 32)]
     let c := entry opStoreRead ws
     (c.fits [0x1FFFF, allBits, allBits, allBits, allBits] && c.aligned 32 && 1 ≤ c.readCount &&
        c.readCount ≤ 65536) = true ∧
      (takes (ring opStoreRead ws) opStoreRead ws ∧ (ring opStoreRead ws).hstHead ≤ c.readFirst ∧
        (ring opStoreRead ws).hstOldest ≤ c.readFirst) ∧
      (takes (ring opStoreRead ws (history 5 1 [])) opStoreRead ws ∧
        c.readFirst < (ring opStoreRead ws (history 5 1 [])).hstOldest) ∧
      (let s := ring opStoreRead ws (history 1 0 [⟨0, 1, [1, 2, 3, 4, 5, 6, 7, 8]⟩])
       takes s opStoreRead ws ∧ s.hstFirst ≤ c.readFirst ∧ s.hstOldest ≤ c.readFirst ∧ c.readFirst < s.hstHead ∧
        c.readCount = 1)) ∧
    (let ws := [(1, 0xFFFF), (6, 1), (9, 4)]
     (entry opStoreMark ws).fits [0xFFFF, 0, 0, 0, 0, allBits, allBits, allBits, allBits] = true ∧
      (takes (ring opStoreMark ws) opStoreMark ws ∧ (ring opStoreMark ws).hst.staging.length < stagingMax ∧
        (ring opStoreMark ws).hstHead + 1 < 2 ^ 64 ∧ (ring opStoreMark ws).storeAllowed = false) ∧
      (let s := ring opStoreMark ws (State.reset.fbit F.hstCfg_en true)
       takes s opStoreMark ws ∧ s.storeAllowed = true ∧ s.store ≠ hsFailed ∧ s.hst.erasePend = false)) := by
  unfold takes; decide

theorem witness_HostLink :
    ((dma State.reset).up = true ∧ (dma State.reset).fget F.hifStat_rate ≠ 0) ∧
    (State.reset.up = true ∧ State.reset.fget F.hifStat_rate = 0) ∧
    (State.reset.flag F.rstCfg_flrFull = false) ∧
    (let s := State.reset.fbit F.rstCfg_flrFull true
     s.up = true ∧ s.flag F.rstCfg_flrFull = true ∧ s.flag F.rstStat_busy = false ∧ s.power.lcTarget = none) := by
  decide

/-! ### Witnesses: resets, faults, memory -/

/-- The state with the SRAM's, the OTP's or the arbiter's part changed. -/
def withSram (f : SramSt → SramSt) : State := { State.reset with sram := f State.reset.sram }
def withOtp (f : Otp → Otp) : State := { State.reset with otp := f State.reset.otp }
def withReqs (l : Sparse HkReq) : State := { State.reset with hk := { State.reset.hk with reqs := l } }

theorem witness_Resets :
    State.reset.power.held = false ∧
    (let s := { State.reset with power := { State.reset.power with booted := false } }
     s.power.held = false ∧ s.power.booted = false) ∧
    (State.reset.up = true ∧ State.reset.flag F.rstStat_busy = false ∧ State.reset.power.lcTarget = none) ∧
    (let s := (State.reset.fbit F.rstStat_busy true)
     let t := { s with power := { s.power with wiping := true }, clock := { s.clock with frames := 7 } }
     s.up = true ∧ s.flag F.rstStat_busy = true ∧ t.up = true ∧ t.power.wiping = true ∧
       t.power.wipeFrom + 7 ≤ t.clock.frames ∧ t.power.lcTarget = none) ∧
    (let s := { State.reset with power := { State.reset.power with por := true, safeHalt := true } }
     s.power.held = true ∧ s.power.safeHalt = true) := by decide

theorem witness_IslandResets :
    State.reset.up = true ∧ (State.reset.island 0).down = false ∧ (State.reset.island 82).down = false ∧
      isColIsland 6 = true ∧ isColIsland 61 = true ∧ isOctIsland 62 = true ∧ isOctIsland 77 = true ∧
      (83 : Fin 84).val = 83 ∧ (78 : BitVec 7).toNat = 78 ∧ 82 < (83 : BitVec 7).toNat ∧ State.reset.stage 47 = 0 ∧ (lane 47 1 4 5).stage 47 ≠ 0 ∧
      (let s := { State.reset with islands := [(8, { Island.init with down := true })] }
       s.up = true ∧ (s.island (8 : BitVec 7).toNat).down = true) := by decide

theorem witness_FaultsAndRails :
    (let s := withSram fun x => { x with regBad := [8, 0x20000] }
     s.up = true ∧ s.sram.regBad.getLast? = some 0x20000) ∧
    (State.reset.up = true ∧ State.reset.railLow 0 = false ∧ State.reset.railLow 5 = false) ∧
    ((State.reset.setRail 3 true).up = true ∧ (State.reset.setRail 3 true).railLow 3 = true) ∧
    State.reset.flag F.fltCfg_injEn = false := by decide

/-- Faults to inject at their boundary numbers: bank 387, islands 79 and 82, engine islands 6 and 77, a register. -/
theorem witness_FaultsAndRails_inject :
    let s := State.reset.fbit F.fltCfg_injEn true
    let kind := fun (v : W32) => bits (v &&& beMask 0xF) 31 28
    let bank := fun (v : W32) => bits (v &&& beMask 0xF) 24 16
    let target := fun (v : W32) => bits (v &&& beMask 0xF) 14 0
    s.up = true ∧ s.flag F.rstStat_busy = false ∧ s.flag F.fltCfg_injEn = true ∧
      (kind 0x20050001 = 2 ∧ bank 0x20050001 = 5 ∧ s.bankState 5 ≠ bankBorrowed) ∧
      (kind 0x11830001 = 1 ∧ bank 0x11830001 = 387 ∧ s.bankState 387 ≠ bankBorrowed) ∧
      (kind 0x3000004F = 3 ∧ target 0x3000004F = 79) ∧ (kind 0x40000052 = 4 ∧ target 0x40000052 = 82) ∧
      (kind 0x50000006 = 5 ∧ target 0x50000006 = 6 ∧ target 0x5000004D = 77) ∧
      (kind 0x60000003 = 6 ∧ regWritable (bank 0x60000003 * 131072 + target 0x60000003 * 4) ≠ 0) := by decide

theorem witness_ScrubAndArbiter :
    (∀ d ∈ [Damage.mk true false, Damage.mk false false],
      let s := withSram fun x => { x with damage := [(damageKey 10 5, d)] }
      s.up = true ∧ s.bankState (10 : Fin 388).val ≤ 1 ∧
        s.sram.damage.find? (·.1 = damageKey (s.contentOf 10) (5 : BitVec 15).toNat) =
          some (damageKey (s.contentOf 10) 5, d)) ∧
    (State.reset.bankState (387 : Fin 388).val ≤ 1 ∧
      State.reset.sram.damage.find? (·.1 = damageKey (State.reset.contentOf 387) 0) = none) ∧
    (let s := withSram fun x => { x with writeback := [(10, 5)], damage := [(damageKey 10 5, ⟨false, false⟩)] }
     s.up = true ∧ s.sram.writeback.find? (·.1 = s.contentOf 10) = some (s.contentOf 10, 5)) ∧
    (let s := (withSram fun x => { x with damage := [(damageKey 10 5, ⟨false, false⟩)] }).setBankState 10 1
     let s := { s with clock := { s.clock with frames := 14316 } }
     s.up = true ∧ s.bankState 10 = bankRetain ∧ s.sram.retainAt.get 0 10 + 14316 ≤ s.clock.frames ∧
      s.sram.writeback = [] ∧ s.contentOf (s.contentOf 10) = s.contentOf 10 ∧
      (∀ q ∈ s.sram.damage, q.2.double = false)) := by decide

theorem witness_ScrubAndArbiter_requests :
    State.reset.hk.reqs.find? (fun q => q.1 = portNo Master.host && !q.2.granted) = none ∧
    (let s := (State.reset.fset F.memOff_off 7).setBanks bankOff (List.range' 32 32)
     s.up = true ∧ ∃ r : Fin 8, s.regionOf 40 = some r.val ∧ s.regionOff r.val = true) ∧
    (let s := withReqs [(0, ⟨10, false, false, false, 0⟩)]
     s.up = true ∧ s.bankState 10 ≠ bankRetain ∧ s.bankState 10 ≠ bankOff ∧
      s.hk.reqs.filter (fun q => q.2.bank = 10) = [(0, ⟨10, false, false, false, 0⟩)] ∧
      s.hkAllowed 10 0 = true) ∧
    (let s := withReqs [(5, ⟨10, true, false, false, 0⟩)]
     s.up = true ∧ ∃ m ∈ [Master.host, .dma, .mirror, .recorder, .dump, .cumin, .debug],
       s.hk.reqs.find? (·.1 = portNo m) = some (5, ⟨10, true, false, false, 0⟩)) := by decide +kernel

/-- A repair sweep of bank 20 into spare 2. -/
def sweeping (phase passed : Nat) (copied : Bool := false) : State :=
  withSram fun x => { x with sweep := some ⟨20, 2, phase, copied, passed, 0⟩ }

/-- 800 frames begun. -/
def later (s : State) : State := { s with clock := { s.clock with frames := 800 } }

/-- Burns under way. -/
def burning (b : Burn) (retried : Bool := false) : State :=
  withOtp fun x => { x with burns := [b, .ledger], retried := retried }

theorem witness_SweepAndBurns :
    (let s := State.reset.fbit F.memSweep_en true
     let t := { s with sram := { s.sram with slotBank := 4 } }
     s.up = true ∧ s.flag F.memSweep_en = true ∧ s.sram.sweep.isNone = true ∧ s.sram.slotBank = 0 ∧
      s.sram.slotFrom = none ∧ s.fget F.nrgStat_level = 0 ∧ s.freeSpares.contains 0 = true ∧
      t.sram.slotBank = 4 ∧ t.sweepSkips 4 = false ∧ t.sweepSkips 383 = false ∧ t.freeSpares ≠ []) ∧
    (∀ phase ∈ [1, 3], (sweeping phase 0).up = true ∧ (sweeping phase 0).sram.sweep = some ⟨20, 2, phase, false, 0, 0⟩ ∧
      (sweeping phase 0 true).sram.sweep = some ⟨20, 2, phase, true, 0, 0⟩) ∧
    (∀ phase ∈ [2, 4], ∀ passed ∈ [0, 1, 2], (later (sweeping phase passed)).up = true ∧
      (later (sweeping phase passed)).sram.sweep = some ⟨20, 2, phase, false, passed, 0⟩ ∧
      0 + 800 ≤ (later (sweeping phase passed)).clock.frames) ∧
    (∀ b ∈ [Burn.ledger, .service, .retire 7 2, .lifeCycle 2, .eraseDone], ∀ r ∈ [false, true],
      (burning b r).up = true ∧ (burning b r).otp.burns = b :: [.ledger] ∧ (burning b r).railLow 0 = false ∧
        (burning b r).railLow 1 = false ∧ (burning b r).power.lcStep ≠ 3 ∧
        (burning b r).otp.retried = r ∧ (burning b r).otp.retired.length < 4) := by decide +kernel

/-! ### Witnesses: the store, power, temperature and performance monitoring -/

/-- `n` frames begun. -/
def at' (n : Nat) (s : State) : State := { s with clock := { s.clock with frames := n } }

/-- The store enabled for writing and erasing, in a state since frame 0, 4,800,000 frames (600 s) later. -/
def storeIn (n : Nat) (f : HstSt → HstSt := id) : State :=
  let s := ((State.reset.fbit F.hstCfg_en true).fbit F.hstCfg_eraseEn true).fset F.hstStat_state n
  at' 4800000 { s with hst := f { s.hst with since := 0 } }

/-- Every guard of a store state command holds in some state. -/
theorem witness_StoreStates :
    let off := storeIn hsOff
    let power := storeIn hsPowering
    let out := storeIn hsPowering fun x => { x with perstN := true }
    let init := storeIn hsInit
    let erase := storeIn hsErasing
    let failed := storeIn hsFailed
    let down := storeIn hsShutdown fun x => { x with flushDue := true }
    (off.up = true ∧ off.flag F.hstCfg_en = true ∧ off.flag F.nrgStat_pfail = false ∧ off.retired = false ∧
      off.fget F.nrgStat_level < 3 ∧ off.store = hsOff ∧ off.flag F.rstStat_busy = false) ∧
    (let s := storeIn hsReady fun x => { x with staging := [⟨0, 1, [0x40000000]⟩] }
     s.store = hsReady ∧ (s.hst.staging.drop s.hst.flushing).any (fun r => decide (bits (r.words.getD 0 0) 31 28 = 4))) ∧
    (power.store = hsPowering ∧ power.hst.perstN = false ∧
      power.hst.since + 8 * clamp 1 1000 (power.fget F.hstPwr_onMs) ≤ power.clock.frames) ∧
    (out.store = hsPowering ∧ out.hst.perstN = true ∧ out.hst.since + 8000 ≤ out.clock.frames) ∧
    (init.store = hsInit ∧ init.hst.since + 8 * clamp 100 60000 (init.fget F.hstPwr_readyMs) ≤ init.clock.frames) ∧
    (erase.store = hsErasing ∧ erase.hst.formatted = false ∧ erase.hst.since + 8000 * 600 ≤ erase.clock.frames) ∧
    (failed.store = hsFailed ∧
      failed.hst.since + 8000 * clamp 10 86400 (failed.fget F.hstCfg_retryS) ≤ failed.clock.frames) ∧
    (down.store = hsShutdown ∧ down.hst.flushDue = true ∧ (storeIn hsShutdown).hst.flushDue = false) := by decide +kernel

/-- A valid anchor of a sequence number and head. -/
def anchor (seq : W32) (head : BitVec 64) : Anchor :=
  let a : Anchor := ⟨0x4B570001, seq, head, 999, 2, 0, 0⟩
  { a with crc := a.check }

def drive : DriveInfo := ⟨true, true, 1000, anchor 7 100, anchor 8 300, false, 0, 5⟩

theorem witness_StoreRecords :
    ((storeIn hsInit).up = true ∧ (storeIn hsInit).store = hsInit ∧ drive.usable = true ∧ drive.formatOk = true ∧
      drive.anchorA.format = 0x4B570001 ∧ drive.anchorA.crc = drive.anchorA.check ∧
      drive.anchorB.seq ≠ drive.anchorA.seq ∧ (drive.anchorB.seq - drive.anchorA.seq).toNat < 2 ^ 31 ∧
      (storeIn hsInit).hst.erasePend = false ∧ drive.critWarn = 0 ∧ (storeIn hsInit).hif.busy = []) ∧
    ({ drive with usable := false } : DriveInfo).usable = false ∧
    ((storeIn hsFlushing).store = hsFlushing ∧ (storeIn hsFlushing).hst.erasePend = false) ∧
    ((storeIn hsReady).store = hsReady ∧ (storeIn hsReady).flag F.hstCfg_eraseEn = true ∧
      (storeIn hsReady).flag F.rstStat_busy = false ∧ (storeIn hsReady).flag F.hstCfg_en = true) ∧
    (storeIn hsErasing).store = hsErasing := by decide +kernel

theorem witness_PowerAndShedding :
    (State.reset.up = true ∧ State.reset.flag F.nrgStat_pfail = false ∧ State.reset.store ≠ hsFailed ∧
      State.reset.flag F.nrgFloor_finishFlush = false) ∧
    (State.reset.fbit F.nrgStat_pfail true).flag F.nrgStat_pfail = true ∧
    (let s := at' 28800000 { State.reset with nrg := { State.reset.nrg with holding := true, holdFrom := 0 } }
     s.up = true ∧ s.nrg.holding = true ∧
      s.nrg.holdFrom + 8000 * min 3600 (s.fget F.nrgFloor_holdS) ≤ s.clock.frames) ∧
    (let s := ((State.reset.fset F.nrgBudget_budget 1000).fset F.nrgStat_budgetLvl 3).fbit F.nrgCfg_en true
     let s := { s with nrg := { s.nrg with lowRun := 3600000 } }
     s.up = true ∧ s.flag F.nrgCfg_en = true ∧ s.fget F.nrgBudget_budget ≠ 0 ∧ 1 ≤ s.fget F.nrgStat_budgetLvl ∧
      1000 * clamp 1 3600 (s.fget F.nrgCfg_restoreS) ≤ s.nrg.lowRun) ∧
    (let s := State.reset.fbit F.nrgCfg_en true
     s.up = true ∧ s.flag F.nrgCfg_en = true ∧ s.bankState (387 : Fin 388).val = bankActive ∧
      2000 + clamp 100 2000 (s.fget F.nrgCfg_margin) < 40001 ∧ s.mayGate (.col 55) = true ∧
      s.bankState (0 : Fin 388).val ≤ bankRetain ∧ s.trbActive = 0) := by decide

theorem witness_TemperatureAndLedger :
    (State.reset.up = true ∧
      (∀ x ∈ [some (-1000), some 500, none, some 3000], ∀ y ∈ [(-1000 : Int), 500, 3000],
        x = some y → -1000 ≤ y ∧ y ≤ 3000)) ∧
    (let s := (State.reset.fbit F.nrgCfg_en true).fset F.nrgCfg_maxLevel 6
     let s := { s with nrg := { s.nrg with hotRun := 100 } }
     s.up = true ∧ s.flag F.nrgCfg_en = true ∧ 100 ≤ s.nrg.hotRun ∧
      s.fget F.nrgStat_thermLvl < min 6 (s.fget F.nrgCfg_maxLevel)) ∧
    (let s := State.reset.fset F.nrgStat_thermLvl 2
     let s := { s with nrg := { s.nrg with coolRun := 360000 } }
     s.up = true ∧ 100 * clamp 1 3600 (s.fget F.nrgCfg_restoreS) ≤ s.nrg.coolRun ∧ 1 ≤ s.fget F.nrgStat_thermLvl) ∧
    (let s := State.reset.wr Reg.nrgSvcHours 1024000
     (s.rd Reg.nrgSvcHours).toNat / 1024 ≠ s.nrg.hourSaid) := by decide

/-- Three good sensors and, as only two are good, none. -/
theorem witness_TemperatureAndLedger_sensors :
    let good := fun (temps : List (Option Int)) =>
      match exec (.sensorRead temps 900) State.reset with
      | .next t => t.goodSensors.length
      | _ => 9
    good [some 500, none, some 600, some (-300)] = 3 ∧ good [some 500, some 600] = 2 := by decide +kernel

theorem witness_SpeedCounters :
    (State.reset.up = true ∧ State.reset.flag F.rstStat_busy = false ∧
      (8 : BitVec 4) ≠ 0 ∧ (8 : BitVec 4).getLsbD 3 = true ∧ (3 : BitVec 4).getLsbD 0 = true ∧
      bit 0x80000006 31 = true) ∧
    (let s := { State.reset with latch := [(Reg.cntLo 5, 0x1234)] }
     s.latch.find? (·.1 = Reg.cntLo (5 : Fin 195).val) = some (Reg.cntLo 5, 0x1234) ∧
      s.latch.find? (·.1 = Reg.cntLo (194 : Fin 195).val) = none) ∧
    (let s := at' 9000 State.reset
     s.pm.winFrom + s.pm.winLen ≤ s.clock.frames) ∧
    (let s := at' 9000 (State.reset.fbit F.pfcDumpCtl_en true)
     let s := { s with clock := { s.clock with frameDue := true } }
     s.up = true ∧ s.flag F.pfcDumpCtl_en = true ∧ s.clock.frameDue = true ∧
      s.pm.dumpFrom + s.fget F.pfcDumpCtl_every + 1 ≤ s.clock.frames ∧ s.pm.dump.isSome = false ∧
      s.fget F.nrgStat_level < 2 ∧ 2 ≤ (s.fset F.nrgStat_level 2).fget F.nrgStat_level) ∧
    (let s := { dma State.reset with pm := { State.reset.pm with dump := some (0x5000, [1, 2]) } }
     s.up = true ∧ s.pm.dump = some (0x5000, [1, 2]) ∧ s.hif.bme = true ∧ s.hif.d3hot = false ∧
      s.fget F.hifStat_rate ≠ 0) := by decide

theorem witness_PmHostAccess :
    State.reset.up = true ∧ State.reset.flag F.rstStat_busy = false ∧ State.reset.standsBy = false ∧
      (8 : BitVec 4) ≠ 0 ∧ (State.reset.fset F.matStat_state 2).standsBy = true ∧
      (let x := State.reset.pmPath (State.reset.fget F.pmnBinSel_path)
       x.cur15.ne.length = 4 ∧ x.prev24.fe.length = 4) ∧
      State.reset.fget F.pmnBinSel_path ≠ 1 ∧
      (let s := { State.reset with pm := { State.reset.pm with walk := [3, 10, 70] } }
       s.up = true ∧ s.hst.staging.length + s.pm.walk.length < stagingMax ∧
        s.hstHead + s.pm.walk.length < 2 ^ 64) := by decide

/-! ### Witnesses: the mate and the timing function -/

/-- A mate state, and the part of the mate behind the registers. -/
def mateIn (n : Nat) (f : MateSt → MateSt := id) (s : State := State.reset) : State :=
  let s := s.fset F.matStat_state n
  { s with mate := f s.mate }

/-- A mirror record of a kind in sequence after reset, its CRC right. -/
def record (kind : BitVec 4) (region offset : Nat) : MirrorRec :=
  let r : MirrorRec := ⟨BitVec.ofNat 4 region, 1, BitVec.ofNat 32 offset, 7, 3, 0⟩
  { r with crc := recordCrc kind r }

/-- At a frame mark. -/
def atMark (s : State) : State := { s with clock := { s.clock with frameDue := true } }

theorem witness_MateStates :
    let silent := fun (pin lane : Nat) (s : State) => { s with mate := { s.mate with pinAge := pin, laneAge := lane } }
    (State.reset.up = true ∧ State.reset.hif.busy = [] ∧ State.reset.flag F.rstStat_busy = false) ∧
    (let s := silent 72 71 (State.reset.fbit F.matStat_hbPin true)
     s.up = true ∧ s.flag F.matStat_hbPin = true ∧ 72 ≤ s.mate.pinAge ∧ ¬ 72 ≤ s.mate.laneAge) ∧
    (∀ n ∈ [0, 1, 2, 3, 4], (silent 72 72 (mateIn n)).up = true ∧ (silent 72 72 (mateIn n)).mateState = n ∧
      72 ≤ (silent 72 72 (mateIn n)).mate.pinAge ∧ 72 ≤ (silent 72 72 (mateIn n)).mate.laneAge) ∧
    (let s := mateIn 0 (fun x => { x with peerState := 1, beatRun := 8 }) (State.reset.fbit F.matCtl_en true)
     s.up = true ∧ s.flag F.matCtl_en = true ∧ s.mate.peerState.toNat = 1 ∧ s.sideB = false ∧
      8 ≤ s.mate.beatRun ∧ s.flag F.matStat_mateOk = false) ∧
    (8 : BitVec 4).getLsbD 3 = true := by decide

theorem witness_MirrorRecords_in :
    (State.reset.up = true ∧ State.reset.standsBy = false) ∧
    (∀ k ∈ [1, 2, 3, 4, 5], ∀ r ∈ [record k 1 0x1900000, record k 0 Reg.flpTarget, record k 2 0, record k 1 0x1000024],
      r.crc = recordCrc k r ∧ r.seq = BitVec.ofNat 16 ((mateIn 1).fget F.matMir_appliedSeq) + 1) ∧
    ((mateIn 1).up = true ∧ (mateIn 1).standsBy = true ∧ (mateIn 2).standsBy = true ∧ (mateIn 2).mateState = 2 ∧
      (mateIn 1).mateState = mateSyncing ∧ (mateIn 1).flag F.rstStat_busy = false) ∧
    (traceWritable 0x1900000 = true ∧ (mateIn 2).ueAt 0x1900000 = false ∧
      (mirroredReg Reg.flpTarget || rehearsalReg Reg.flpTarget) = true) ∧
    (let s := atMark (mateIn 2 fun x => { x with heard := some 5, staged := [record 2 0 0] })
     s.up = true ∧ s.mateState = 2 ∧ s.mate.heard = some 5 ∧ s.clock.frameDue = true ∧
      (BitVec.ofNat 16 (s.fget F.matMir_appliedSeq) - s.mate.heardSeq).toNat < 2 ^ 15) ∧
    (let s := atMark (mateIn 1 fun x => { x with imageEnd := some (true, false), laneAge := 0 })
     s.up = true ∧ s.mateState = 1 ∧ s.mate.imageEnd = some (true, false) ∧ s.clock.frameDue = true ∧
      s.mate.laneAge < 72) := by decide +kernel

/-- A staged record carries the first word of controller 3, of the timing function, or of any other item. -/
theorem witness_MirrorRecords_epoch (i : EpochItem) :
    carriedWords [⟨2, 0, Config.epochOffset i 0, 5, 0xF, 0⟩] i ≠ [] := by
  simp [carriedWords, carried]

/-- An active device with a mate lane. -/
def activeMate (f : MateSt → MateSt) : State := mateIn 3 f (lane 7 3 0 5)

def waitingRec : QueuedRec := ⟨1, record 1 1 0x1000024⟩

theorem witness_MirrorRecords_out :
    (let s := activeMate fun x => { x with startDue := true }
     s.up = true ∧ s.mateState = 3 ∧ s.mateLane?.isSome = true ∧ s.mate.startDue = true) ∧
    (let s := activeMate fun x => { x with
        queue := [waitingRec], unacked := [waitingRec], epochOut := true, epochCut := false, stall := 2 }
     s.up = true ∧ s.mate.startDue = false ∧ s.mate.image = none ∧ s.mate.queue = [waitingRec] ∧
      s.mate.unacked ≠ [] ∧ 2 ≤ s.mate.stall ∧ s.mate.epochOut = true ∧ s.mate.epochCut = false ∧
      (∀ q ∈ s.mate.queue, q.kind ≠ 2)) ∧
    (let s := activeMate fun x => { x with image := some 4194303 }
     s.mateLane?.isSome = true ∧ s.mate.startDue = false ∧ s.mate.image = some 4194303 ∧
      (s.imageWord 4194303).isSome = true) := by
  decide +kernel

/-- The timing function in a state, on a slot, at a bandwidth, its OSCIN detected. -/
def timing (n sel bw : Nat) (s : State := State.reset) (f : TmgSt → TmgSt := id) : State :=
  let s := ((s.fset F.tmgStat_state n).fset F.tmgStat_sel sel).fset F.tmgStat_bw bw
  { s with tmg := f { s.tmg with oscSeen := true } }

/-- Slots 0 and 1 name REFIN 0 at 1 PPS, with signal, within the limits, and qualified or not. -/
def slots (q : Bool) : State :=
  let cfg : W32 := BitVec.ofNat 32 (48 * 2 ^ 26 + 2 * 2 ^ 22 + 2 ^ 21 + 2 * 2 ^ 17)
  let s := (((State.reset.wr Reg.tmgRefin 5).fbit (F.tmgRefStat_inLimit 0) true).fbit
    (F.tmgRefStat_qualified 0) q).fbit (F.tmgRefStat_qualified 1) q
  { s with tmg := { s.tmg with
    noSignal := [], oscSeen := true, pairs := [(1, (10, 10))]
    refNow := (s.tmg.refNow.put (regReset (Reg.tmgRefCfg 0)) 0 cfg).put (regReset (Reg.tmgRefCfg 1)) 1 cfg } }

theorem witness_TimingReferences :
    State.reset.up = true ∧ State.reset.slotSrc 11 ≠ 48 ∧ (slots false).slotSrc 0 = 48 ∧
    ((slots false).up = true ∧ ((slots false).slotAllowed 0 && (slots false).slotSignal 0) = true ∧
      (slots false).flag (F.tmgRefStat_inLimit 0) = true ∧ (slots false).flag F.tmgStat_oscFail = false ∧
      ((slots false).flag F.tmgCfg_qlEn = false ∨ badRank ((slots false).flag F.tmgCfg_opt2) ((slots false).slotRank 0) = false) ∧
      (slots false).slotQualified 0 = false) ∧
    (State.reset.slotAllowed 0 && State.reset.slotSignal 0) = false ∧
    ((slots true).slotQualified 0 = true ∧ (slots true).slotQualified 1 = true ∧ (0 : Fin 12) ≠ 1 ∧
      10 ≤ ((slots true).tmg.pairs.get (0, 0) 1).1 ∧ 10 ≤ ((slots true).tmg.pairs.get (0, 0) 1).2 ∧
      (slots true).tmg.odd = []) ∧
    (let s := timing tmLocked 0 2 (slots true) fun x => { x with minutes := [⟨5, 2500, 0, true⟩] }
     s.fget F.tmgStat_sel = 0 ∧ s.flag F.tmgStat_drift = false ∧ s.tmg.frozen = false ∧
      0 < ((s.tmg.minutes.filter (·.eligible)).take 30).length) ∧
    ((timing tmAcquiring 1 0).tmState = tmAcquiring ∧ (timing tmLocked 1 0).tmState = tmLocked ∧
      (timing tmLocked 1 0).fget F.tmgStat_bw < 2) ∧
    (State.reset.tmg.oscSeen = false ∧ (timing 0 15 0).tmg.oscSeen = true ∧
      (timing 0 15 0).flag F.tmgStat_oscFail = false) ∧
    (let s := timing tmLost 15 0 (State.reset.fbit F.tmgStat_oscFail true)
     s.up = true ∧ s.flag F.tmgStat_oscFail = true ∧ (0 : Fin 5).val = s.fget F.tmgStat_oscFreq) := by decide +kernel

theorem witness_TimingModels :
    (State.reset.up = true ∧ State.reset.flag F.rstStat_busy = false) ∧
    (let s := timing tmLocked 0 2 ((slots true).fbit F.tmgCfg_ppsPhase true) fun x => { x with ppsAsk := true }
     s.up = true ∧ s.flag F.tmgCfg_ppsPhase = true ∧ s.fget F.fabStat_tmRole ≤ 1 ∧ s.tmState = tmLocked ∧
      s.ppsSlot (s.fget F.tmgStat_sel) = true ∧ s.tmg.ppsAsk = true ∧
      1000 < ((1001 : Int) - s.sreg Reg.tmgPpsOfs).natAbs ∧ s.clock.step.isNone = true) ∧
    (∀ n ∈ [tmHoldover, tmLost],
      let s := timing n 15 2 State.reset fun x => { x with base := some ⟨5, 2500, 30, 100⟩ }
      s.up = true ∧ s.tmg.base = some ⟨5, 2500, 30, 100⟩ ∧ s.tmState = n ∧ s.tmg.oscSeen = true ∧
        s.flag F.tmgStat_oscFail = false) ∧
    State.reset.tmg.base = none ∧ State.reset.tmState = 0 ∧
    (let s := { State.reset.fbit F.tmgStat_drift true with tmg := { State.reset.tmg with calm := 1800 } }
     s.up = true ∧ s.flag F.tmgStat_drift = true ∧ 1800 ≤ s.tmg.calm) ∧
    (let s := { State.reset.fbit F.tmgCfg_learnEn true with
        tmg := { State.reset.tmg with
          bins := [(60, 1), (65, 2), (70, 3), (75, 4)], days := List.replicate 7 (24, 1) } }
     s.up = true ∧ s.flag F.tmgCfg_learnEn = true ∧ 4 ≤ s.tmg.bins.length ∧ (10 : Int) ≤ (75 - 75) - (60 - 75) ∧
      ¬ s.tmg.days.length < 7) ∧
    (State.reset.fbit F.tmgCfg_learnEn false).flag F.tmgCfg_learnEn = false := by decide +kernel

/-! ### Witnesses: the whole machine -/

theorem witness_StepRunsTheFront :
    ({ State.reset with pending := [.regScrub, .softReset] } : State).pending = .regScrub :: [.softReset] ∧
      State.reset.pending = [] := by decide

theorem witness_StepKeepsInvariants : State.reset.memOk ∧ State.reset.rowOk := by
  unfold Machine.State.memOk Machine.State.rowOk; decide

/-! ### Words of slot programs, written out from the encodings of chapter 06 -/

/-- The program of CE17 in the worked encoding of chapter 06, and the words of FILC, NOP and MARK. -/
theorem test_column_words :
    decodeCol 0x042800000000267F 0 = some (.movc ⟨false, false, false, 40, 0, 0, 9855⟩) ∧
    decodeCol 0x0903044226800DF1 0 = some (.movcs ⟨false, true, 3, 1090, 9856, 3, 62, 0, true⟩) ∧
    decodeCol 0x101400009A101B5D 0x007400000000104F = some (.selc ⟨5, 0, 9860, 7005, 29, 0, 4175⟩) ∧
    decodeCol 0x0430000036D40C1B 0 = some (.movc ⟨false, false, false, 48, 0, 14036, 3099⟩) ∧
    decodeCol 0xC000000000000000 0 = some .endI ∧
    decodeCol 0x0C0500008FFF0001 0 = some (.filc ⟨5, 0x8FFF, 1⟩) ∧
    decodeCol 0xC400000000000000 0 = some .nop ∧
    decodeCol 0xC80000000000FFFE 0 = some (.mark 0xFFFE) := by decide

/-- The three-party conference of chapter 06, and a word of each other octet instruction. -/
theorem test_octet_words :
    decodeOct 0x50800100000BD0C8 0x0206000000000000 0 = some (.mix ⟨false, 0, [0x0100, 0x0206], 774344⟩) ∧
    decodeOct 0x50807F00000BD0C9 0x0100000000000000 0 = some (.mix ⟨false, 0, [0x7F00, 0x0100], 774345⟩) ∧
    decodeOct 0x50807E00000BD0CA 0x7F00000000000000 0 = some (.mix ⟨false, 0, [0x7E00, 0x7F00], 774346⟩) ∧
    decodeOct 0x427FF00000400005 0 0 = some (.movo ⟨true, false, 2047, 1, 5⟩) := by decide

/-- Reserved opcodes, reserved bits, smode 3 and a second word that is not 0 where it must be. -/
theorem test_bad_words :
    decodeCol 0 0 = none ∧ decodeCol 0x044000000000267F 0 = none ∧ decodeCol 0x0903044226800DF7 0 = none ∧
    decodeCol 0x101400009A101B5D 0x017400000000104F = none ∧ decodeCol 0xC000000000000001 0 = none ∧
    decodeOct 0x042800000000267F 0 0 = none ∧ decodeOct 0x50800100000BD0C8 0x0286000000000000 0 = none := by decide

theorem witness_ProgramRoundTrip :
    (∀ f, ColIns.movcs ⟨true, true, 63, 65535, 65535, 63, 127, 2, true⟩ = .movcs f → f.smode ≠ 3) ∧
    (∀ f, OctIns.mix ⟨true, 0, [0x0080, 0x8180], 4194303⟩ = .mix f → f.sc = 0 ∧ mixOk f = true) ∧
    (∀ f, OctIns.mixp ⟨true, 63, List.replicate 8 0x7F80, 0⟩ = .mixp f → mixOk f = true) ∧
    (∀ f, OctIns.gain ⟨15, 0x80, true, true, 0, 4194303⟩ = .gain f → gainOk f.gain.toNat = true) := by
  refine ⟨?_, ?_, ?_, ?_⟩ <;> intro f h <;> cases h <;> decide

/-! ### Addresses and arithmetic of the worked examples -/

/-- "Finding an address" of chapter 21. -/
theorem test_addresses :
    Reg.ltmAuCfg 3 2 = 0x43108 ∧ Reg.sdsCfg 30 = 0x27800 ∧ engStart false 17 true = 0xA1444 ∧
    pathAddr 7005 5 = 0x1036BB4 ∧ termStatAddr 100 0 = 0x1880C80 := by decide

/-- The worked sum of chapter 07: party 1 sends 0xA3 at 0 dB, party 2 sends 0x2C at -3 dB. -/
theorem test_conference :
    expand false 0xA3 = 46080 ∧ expand false 0x2C = -52224 ∧ applyGain 6 (-52224) = -36972 ∧
    compress false 9108 = 0x84 := by decide +kernel

/-- R163: A-law 0xAA converted to mu-law at 0 dB is above the largest magnitude. -/
theorem test_clip : expand false 0xAA = 64512 ∧ compress true 64512 = 0x80 := by decide +kernel

/-! ### Single commands -/

/-- What holds after a command. -/
def after (c : Instr) (s : State) (p : State → Bool) : Bool :=
  match exec c s with
  | .next t => p t
  | .fault _ => false
  | .refused _ => false

/-- R403: a soft reset request sets busy. -/
theorem test_soft_reset : after .softReset .reset (fun t => t.flag F.rstStat_busy) = true := by decide

/-- R399: a line of the pin group takes the device out of operation. -/
theorem test_reset_pin : after (.resetNChange true) .reset (fun t => t.up) = false := by decide

/-- R321: PFAIL sets the floor and counts. -/
theorem test_pfail :
    after .pfailFall .reset (fun t => t.flag F.nrgStat_floor && t.rd Reg.nrgCntPfail == 1) = true := by decide

/-- R388: a droop of rail 3 is counted and shown. -/
theorem test_droop :
    after (.railDroop 3 700) .reset (fun t => t.rd Reg.fltCntDroop == 1 && t.flag F.fltStat_droopNow) = true := by
  decide

/-- R352: a master holds a lock after it asked for a free target. -/
theorem test_lock : after (.xbrLock 1 .sram) .reset (fun t => t.holdsLock 1 (targetNo .sram)) = true := by decide

/-- R7, R56: the reserved bits of word 1 read 0, of a run and of an AU-4 entry of an SDH lane. -/
theorem test_path_reserved :
    after (.pathEntryWrite 12 1 0xF 0xFFFFFFFF) .reset (fun t => t.shownWord (pathAddr 12 1) == 0x003FFFFF) = true ∧
    after (.pathEntryWrite 12 1 0xF 0xFFFFFFFF) (sdh.setPathWord 12 0 0x080C0000)
      (fun t => t.shownWord (pathAddr 12 1) == 0xFFF80000) = true := by decide

/-- R54: the fourth failed pattern in a row puts a lane in frame out of frame. -/
theorem test_out_of_frame :
    after (.amenaminOof 3) ((lane 3 1 4 5).onLane 3 fun x => { x with patBad := 4 })
      (fun t => decide ((t.lane 3).framer = .oof)) = true := by decide

/-- The step takes the command at the front of the queue. -/
theorem test_queue :
    (match Machine.step { State.reset with pending := [.softReset, .regScrub] } with
      | .next t => decide (t.pending = [.regScrub]) && t.flag F.rstStat_busy
      | .fault _ => false
      | .refused _ => false) = true := by decide

/-! ### Ill-formed commands, one for each check -/

def cell : Cell := ⟨0, false, false⟩

def row : IngressRow := ⟨⟨cell, []⟩, [], [], none, none, 0, 0, none, 0, 0, [], [], [], 0, 0⟩

theorem test_wf_rows :
    (Instr.ingressRow 0 row).wf = true ∧
    (Instr.frameMark [(72, 0)] []).wf = false ∧ (Instr.frameMark [] [(80, 0)]).wf = false ∧
    (Instr.rowMark [(72, 0)] [] []).wf = false ∧ (Instr.rowMark [] [(48, 1)] []).wf = false ∧
    (Instr.rowMark [] [] [(80, 0)]).wf = false ∧ (Instr.islandHang 8 42841).wf = false ∧
    (Instr.ingressRow 0 { row with content := ⟨cell, [(1, cell)]⟩ }).wf = false ∧
    (Instr.ingressRow 0 { row with content := ⟨cell, [(42840, { cell with con := true })]⟩ }).wf = false ∧
    (Instr.ingressRow 0 { row with content := ⟨cell, [(42839, { cell with con := true })]⟩ }).wf = true ∧
    (Instr.ingressRow 0 { row with parityBad := [42840] }).wf = false ∧
    (Instr.ingressRow 0 { row with framing := some [⟨0, 0, 0⟩, ⟨0, 1, 0⟩] }).wf = false ∧
    (Instr.ingressRow 0 { row with framing := some [⟨0, 217, 0⟩] }).wf = false ∧
    (Instr.ingressRow 0 { row with sdh := [⟨0, 46080, ⟨cell, []⟩, ⟨cell, []⟩, []⟩] }).wf = false ∧
    (Instr.ingressRow 0 { row with sdh := [⟨0, 0, ⟨cell, [(1, cell)]⟩, ⟨cell, []⟩, []⟩] }).wf = false ∧
    (Instr.ingressRow 0 { row with sdh := [⟨0, 0, ⟨cell, []⟩, ⟨cell, [(1, cell)]⟩, []⟩] }).wf = false := by decide

theorem test_wf_overhead :
    (Instr.j0Accept 0 [1, 2]).wf = false ∧ (Instr.j1Accept 0 0 []).wf = false ∧
    (Instr.j2Accept 0 (List.replicate 64 0)).wf = false := by decide

theorem test_wf_programs :
    (Instr.movc 0 ⟨false, false, false, 56, 0, 0, 0⟩).wf = false ∧
    (Instr.movcs 0 ⟨false, false, 56, 0, 0, 0, 0, 0, false⟩).wf = false ∧
    (Instr.movcs 0 ⟨false, false, 0, 0, 0, 0, 0, 3, false⟩).wf = false ∧
    (Instr.selc 0 ⟨56, 0, 0, 0, 0, 0, 0⟩).wf = false ∧ (Instr.selc 0 ⟨0, 0, 0, 0, 56, 0, 0⟩).wf = false ∧
    (Instr.mix 0 ⟨false, 1, [0x0100], 0⟩).wf = false ∧ (Instr.mix 0 ⟨false, 0, [], 0⟩).wf = false ∧
    (Instr.mixp 0 ⟨false, 0, List.replicate 9 0x0100, 0⟩).wf = false ∧
    (Instr.mixp 0 ⟨false, 0, [0xC000], 0⟩).wf = false ∧ (Instr.mixp 0 ⟨false, 0, [0x0081], 0⟩).wf = false ∧
    (Instr.gain 0 ⟨0, 0x81, false, false, 0, 0⟩).wf = false := by decide

theorem test_wf_host :
    (Instr.refSuspect 3 3 true).wf = false ∧ (Instr.lanePowerRequest 0 3).wf = false ∧
    (Instr.storeLinkUp 0).wf = false ∧ (Instr.storeLinkUp 5).wf = false ∧ (Instr.sensorRead [] 0).wf = false ∧
    (Instr.xbrTransaction 0 .regs 2 none false).wf = false ∧ (Instr.commandFetch 0 [[]] true).wf = false ∧
    (Instr.loadBank 0 [] (List.replicate 57 0) true).wf = false ∧ (Instr.hostLinkUp 5 1).wf = false ∧
    (Instr.hostLinkUp 1 3).wf = false ∧ (Instr.islandReset 83).wf = false ∧
    (Instr.debugTransaction .regs 1 none).wf = false ∧ (Instr.registerWrite 2 0xF 0).wf = false := by decide

theorem test_wf_multiframes : ∀ t, (Instr.tuPtrChange t 3).wf = false := fun _ => rfl

end Sys2Proof.Tests
end

section
/-! SUPPORT. Host accesses: the count of words that each adds to, when an access reaches its effect, and the
effect of a write of a plain register, of a reserved offset, and of a transaction that is served. -/

namespace Sys2Proof.Machine

variable (s : State)

/-! ### Speed counters (R297) -/

/-- What neither a write of its two registers nor one of a damaged word changes, a speed counter that is set or
grows leaves as it was. `g` stays a variable: a projection would have the kernel evaluate the test for overflow. -/
theorem setSpeed_keeps {α : Type} (g : State → α) {i : Nat} (hl : ∀ s v, g (s.wr (Reg.cntLo i) v) = g s)
    (hh : ∀ s v, g (s.wr (Reg.cntHi i) v) = g s) (n : Nat) : g (s.setSpeed i n) = g s := by
  have h : g ((s.wr (Reg.cntLo i) (BitVec.ofNat 32 n)).fset (F.cntHi_hi i) (n / 2 ^ 32)) = g s :=
    (hh _ _).trans (hl _ _)
  unfold State.setSpeed
  dsimp only
  split
  · exact h
  · exact (hh _ _).trans h

theorem addSpeed_keeps {α : Type} (g : State → α) {i : Nat} (hl : ∀ s v, g (s.wr (Reg.cntLo i) v) = g s)
    (hh : ∀ s v, g (s.wr (Reg.cntHi i) v) = g s) (hr : ∀ s w, g (s.rewriteCounter w) = g s) (n : Nat) :
    g (s.addSpeed i n) = g s := by
  unfold State.addSpeed
  dsimp only
  split_ifs
  · rfl
  · exact (hh _ _).trans ((hl _ _).trans (hr _ _))
  · exact (hh _ _).trans ((hh _ _).trans ((hl _ _).trans (hr _ _)))
  · exact setSpeed_keeps s g hl hh _

@[simp] theorem speed_io (i n : Nat) : (s.speed i n).io = s.io :=
  addSpeed_keeps s State.io (fun _ _ => rfl) (fun _ _ => rfl) (fun _ _ => rfl) n

@[simp] theorem speed_hk (i n : Nat) : (s.speed i n).hk = s.hk :=
  addSpeed_keeps s State.hk (fun _ _ => rfl) (fun _ _ => rfl) (fun _ _ => rfl) n

/-- A speed counter that grows leaves every register but its own two. -/
theorem rd_speed_ne (i n : Nat) {a : Nat} (hl : Reg.cntLo i ≠ a) (hh : Reg.cntHi i ≠ a) :
    (s.speed i n).rd a = s.rd a :=
  addSpeed_keeps s (·.rd a) (fun s v => rd_wr_ne s v hl) (fun s v => rd_wr_ne s v hh) (fun _ _ => rfl) n

theorem flag_speed_ne (i n : Nat) {f : Fld} (hl : Reg.cntLo i ≠ f.reg) (hh : Reg.cntHi i ≠ f.reg) :
    (s.speed i n).flag f = s.flag f := by
  have h : (s.speed i n).fget f = s.fget f := by unfold State.fget; rw [rd_speed_ne s i n hl hh]
  unfold State.flag
  rw [h]

/-! ### Plain registers (R6, R364) -/

theorem plainWrite_reserved {a : Nat} (h : regRow? a = none) (be : BitVec 4) (v : W32) :
    s.plainWrite a be v = s := by
  simp [State.plainWrite, h]

/-- One bit of a register after a write: by its access code in the enabled bytes, and as it was elsewhere. -/
theorem rd_plainWrite_getLsbD {a : Nat} {r : RegRow} (h : regRow? a = some r) (be : BitVec 4) (v : W32) {i : Nat}
    (hi : i < 32) :
    ((s.plainWrite a be v).rd a).getLsbD i =
      if be.getLsbD (i / 8) then
        if (s.writable r).getLsbD i then v.getLsbD i && !(v.getLsbD i && r.w1c.getLsbD i)
        else (s.rd a).getLsbD i && !(v.getLsbD i && r.w1c.getLsbD i)
      else (s.rd a).getLsbD i := by
  simp only [State.plainWrite, h, State.written, rd_wr_self, BitVec.getLsbD_and, BitVec.getLsbD_or,
    BitVec.getLsbD_not, mergeBe_getLsbD _ _ _ hi, beMask_getLsbD, hi, decide_true, Bool.true_and]
  cases be.getLsbD (i / 8) <;> cases (s.writable r).getLsbD i <;> simp

theorem frame_plainWrite {regs bytes : Nat → Bool} (a : Nat) (be : BitVec 4) (v : W32) (h : regs a = true) :
    Frame s (s.plainWrite a be v) regs bytes := by
  unfold State.plainWrite
  split
  · exact .refl _ _ _
  · exact frame_wr s a _ (.inl h)

/-- Which bits of a register can be written depends on the life-cycle state alone. -/
theorem writable_congr {t : State} (h : t.rd Reg.rstStat = s.rd Reg.rstStat) (r : RegRow) :
    t.writable r = s.writable r := by
  have hl : t.lc = s.lc := by simp only [State.lc, State.fget, h]
  unfold State.writable
  rw [hl]

/-- The registers of the GLB and EVT blocks and of the lane profiles (R411). -/
def PlainBlock (a : Nat) : Prop := a < 0x8000 ∨ 0x2C000 ≤ a ∧ a < 0x40000

/-- No register of these blocks has a write with effects of its own. -/
theorem regEffect_plain (m : Master) {a : Nat} (h : PlainBlock a) (be : BitVec 4) (v : W32) :
    s.regEffect m a be v = s.plainWrite a be v := by
  unfold State.regEffect
  rcases h with h | ⟨h, h'⟩
  · exact if_pos h
  · rw [if_neg (by omega), if_neg (by omega), if_neg (by omega), if_pos h']
    exact if_pos h

theorem mirroredReg_plain {a : Nat} (h : PlainBlock a) : mirroredReg a = false := by
  unfold PlainBlock at h
  grind [mirroredReg]

/-! ### Places without a register or a word (R8) -/

/-- The map ends at 0x12_FFFF (R411). -/
theorem regRow?_reserved {a : Nat} (h : 0x130000 ≤ a) : regRow? a = none := by
  have hb : blockRows a = [] := by grind [blockRows]
  simp [regRow?, hb]

theorem regEffect_reserved (m : Master) {a : Nat} (h : 0x130000 ≤ a) (be : BitVec 4) (v : W32) :
    s.regEffect m a be v = s := by
  have hp : s.plainWrite a be v = s := plainWrite_reserved s (regRow?_reserved h) be v
  grind [State.regEffect]

theorem memEffect_reserved (m : Master) {a : Nat} (h : 0x2400000 ≤ a) (be : BitVec 4) (v : W32) :
    s.memEffect m a be v = s := by
  grind [State.memEffect, traceWritable]

theorem mirroredReg_reserved {a : Nat} (h : 0x130000 ≤ a) : mirroredReg a = false := by
  grind [mirroredReg]

theorem mirroredMem_reserved {a : Nat} (h : 0x2400000 ≤ a) : mirroredMem a = false := by
  grind [mirroredMem]

theorem regView_reserved {a : Nat} (h : 0x130000 ≤ a) : s.regView a = 0 := if_pos h

/-- No read of a reserved offset latches or takes a latched half. -/
theorem latchHi_reserved {a : Nat} (h : 0x12FFFC ≤ a) : latchHi a = none := by
  grind [latchHi]

theorem regRead_reserved {a : Nat} (h : 0x130000 ≤ a) : s.regRead a = (0, s) := by
  have hl : isLatchHi a = false := by simp [isLatchHi, latchHi_reserved (a := a - 4) (by omega)]
  unfold State.regRead
  rw [if_neg (by simp only [Reg.octToneData]; omega), if_neg (by simp [hl]), latchHi_reserved (by omega)]
  simp [regView_reserved s h]

theorem memRead_reserved {a : Nat} (h : 0x2400000 ≤ a) : s.memRead a = (0, s) := if_pos (by omega)

/-! ### Host writes (R297, R364, R402) -/

theorem asHost_unmirrored {bar2 : Bool} {a : Nat} (h : mirrored bar2 a = false) (be : BitVec 4) (v : W32)
    (f : State → State) : s.asHost bar2 a be v f = f s := by
  simp [State.asHost, h]

/-- A host write that no reset holds off is counted, sets new parity and has its effect. -/
theorem fromHost_idle (h : s.flag F.rstStat_busy = false) (a : Nat) (f : State → State) :
    s.fromHost a f = f ((s.speed 96 4).mendReg a) := by
  have hb : (s.speed 96 4).flag F.rstStat_busy = false := (flag_speed_ne s 96 4 (by decide) (by decide)).trans h
  simp [State.fromHost, hb]

/-- A host write to a register that is not mirrored has the effect of its block (R6, R234, R411). -/
theorem writeAs_host_reg {a : Nat} (h : mirroredReg a = false) (be : BitVec 4) (v : W32) :
    s.writeAs .host false a be v = s.fromHost a fun s => s.regEffect .host a be v := by
  simp [State.writeAs, State.byMaster, State.hostReg, asHost_unmirrored, mirrored, h]

/-- A host write to a word of BAR2 that is not mirrored wakes its bank (R234, R344). -/
theorem writeAs_host_mem {a : Nat} (h : mirroredMem a = false) (be : BitVec 4) (v : W32) :
    s.writeAs .host true a be v = ((s.speed 96 4).wakeAt a).memEffect .host a be v := by
  simp [State.writeAs, State.byMaster, State.hostMem, asHost_unmirrored, mirrored, h]

/-- What a host write of a plain register does while no reset is in progress. -/
theorem writeAs_host_plain {a : Nat} (h : PlainBlock a) (hb : s.flag F.rstStat_busy = false) (be : BitVec 4)
    (v : W32) : s.writeAs .host false a be v = ((s.speed 96 4).mendReg a).plainWrite a be v := by
  rw [writeAs_host_reg s (mirroredReg_plain h), fromHost_idle s hb, regEffect_plain _ _ h]

/-- The data of a read stands in no register and no byte. -/
theorem frame_readBack {regs bytes : Nat → Bool} (v : W32) : Frame s (s.readBack v) regs bytes :=
  .of_hidden ⟨rfl, rfl, rfl, rfl, rfl⟩ rfl

/-! ### Accesses to places without a register or a word (R8) -/

/-- A place of BAR0 above the register map, or of BAR2 behind the last bank. -/
def NoPlace (bar2 : Bool) (a : Nat) : Prop := if bar2 then 0x2400000 ≤ a else 0x130000 ≤ a

section

variable {bar2 : Bool} {a : Nat} (h : NoPlace bar2 a)
include h

theorem placeRead_noPlace : s.placeRead bar2 a = s.readBack 0 := by
  cases bar2
  · simp [State.placeRead, regRead_reserved s h]
  · simp [State.placeRead, memRead_reserved s h]

/-- A write of such a place is only counted; one of BAR0 may set new parity. -/
theorem writeAs_noPlace (be : BitVec 4) (v : W32) :
    s.writeAs .host bar2 a be v = s.speed 96 4 ∨ s.writeAs .host bar2 a be v = (s.speed 96 4).mendReg a := by
  cases bar2
  · rw [writeAs_host_reg s (mirroredReg_reserved h)]
    simp only [State.fromHost, regEffect_reserved _ _ h]
    split
    · exact .inl rfl
    · exact .inr rfl
  · rw [writeAs_host_mem s (mirroredMem_reserved h), memEffect_reserved _ _ h]
    exact .inl (if_neg (Nat.not_lt.2 h))

theorem writeAs_noPlace_io (be : BitVec 4) (v : W32) : (s.writeAs .host bar2 a be v).io = s.io := by
  rcases writeAs_noPlace s h be v with e | e <;> simp [e]

theorem writeAs_noPlace_hk (be : BitVec 4) (v : W32) : (s.writeAs .host bar2 a be v).hk = s.hk := by
  rcases writeAs_noPlace s h be v with e | e
  · rw [e, speed_hk]
  · rw [e]; exact speed_hk s 96 4

theorem frame_writeAs_noPlace {regs bytes : Nat → Bool} (hl : regs (Reg.cntLo 96) = true)
    (hh : regs (Reg.cntHi 96) = true) (be : BitVec 4) (v : W32) :
    Frame s (s.writeAs .host bar2 a be v) regs bytes := by
  rcases writeAs_noPlace s h be v with e | e
  · rw [e]; exact frame_speed s 96 4 hl hh
  · rw [e]; exact (frame_speed s 96 4 hl hh).trans (frame_mendReg _ a)

end

/-! ### Transactions of the host (R351-R353) -/

/-- Nothing waits, so nothing follows what was served. -/
theorem serveAll_of_no_waits (h : s.hk.waits = []) : s.serveAll = s := by
  simp [State.serveAll, State.serveWaits, State.servable, State.firstOf, h]

/-- The crossbar serves at once a transaction of the host that is in order, to a target that no other master holds,
without a beat in a bank. -/
theorem xbrTransaction_host_served {t : Target} {addr : BitVec 26} (write : Option (BitVec 4 × W32))
    (hw : s.hk.waits = []) (hl : s.hk.leaseErr.contains 0 = false) (ho : s.inOrder 0 (targetNo t) = true)
    (hh : s.heldByOther 0 (targetNo t) = false) (hb : beatBank t addr.toNat = none) :
    s.xbrTransaction 0 t addr write false = (s.xbrServe 0 t addr.toNat write false).serveAll := by
  have hout : s.outstanding 0 = none := by simp [State.outstanding, hw]
  have hcheck : s.xbrCheck 0 (targetNo t) false = none := by
    unfold State.xbrCheck
    rw [hl, ho]
    rfl
  simp [State.xbrTransaction, mDebug, hout, hcheck, hh, State.xbrRun, hb]

/-- An offset of a target of the crossbar behind which the map has no register and no bank (R8). -/
def NoTarget (t : Target) (addr : Nat) : Prop := t = .regs ∧ 0x12FFFF < addr ∨ t = .sram ∧ 0x2400000 ≤ addr

theorem noPlace_of_noTarget {t : Target} {addr : Nat} (h : NoTarget t addr) :
    NoPlace (t = .sram) (addr / 4 * 4) := by
  unfold NoPlace
  rcases h with ⟨rfl, h⟩ | ⟨rfl, h⟩
  · rw [if_neg (by decide)]; omega
  · rw [if_pos (by decide)]; omega

theorem beatBank_of_noTarget {t : Target} {addr : Nat} (h : NoTarget t addr) : beatBank t addr = none := by
  rcases h with ⟨rfl, h⟩ | ⟨rfl, h⟩ <;> simp [beatBank, h]

theorem xbrServe_noTarget_read {t : Target} {addr : Nat} (h : NoTarget t addr) :
    s.xbrServe 0 t addr none false = (s.readBack 0).speed 97 4 := by
  rw [← placeRead_noPlace s (noPlace_of_noTarget h)]
  rcases h with ⟨rfl, -⟩ | ⟨rfl, -⟩ <;> rfl

theorem xbrServe_noTarget_write {t : Target} {addr : Nat} (h : NoTarget t addr) (be : BitVec 4) (v : W32) :
    s.xbrServe 0 t addr (some (be, v)) false = s.writeAs .host (t = .sram) (addr / 4 * 4) be v := by
  rcases h with ⟨rfl, -⟩ | ⟨rfl, -⟩ <;> rfl

/-- No access to such an offset makes another one wait. -/
theorem xbrServe_noTarget_hk {t : Target} {addr : Nat} (h : NoTarget t addr) (write : Option (BitVec 4 × W32)) :
    (s.xbrServe 0 t addr write false).hk = s.hk := by
  cases write with
  | none => rw [xbrServe_noTarget_read s h, speed_hk]; rfl
  | some w => rw [xbrServe_noTarget_write s h, writeAs_noPlace_hk s (noPlace_of_noTarget h)]

theorem exec_xbrTransaction_of_up (h : s.up = true) (m : Fin 6) (t : Target) (addr : BitVec 26)
    (write : Option (BitVec 4 × W32)) (release : Bool) :
    exec (.xbrTransaction m t addr write release) s = .next (s.xbrTransaction m.val t addr write release) := by
  obtain ⟨-, hs⟩ : s.outOfReset = true ∧ s.power.safeHalt = false := by simpa [State.up] using h
  have he : exec (.xbrTransaction m t addr write release) s = execXbrTransaction m t addr write release s := rfl
  rw [he]
  unfold execXbrTransaction
  rw [hs, Bool.and_false, if_neg (by simp), whenUp_of_up _ h]

theorem exec_registerWrite_of_up (h : s.up = true) (addr : BitVec 22) (be : BitVec 4) (v : W32) :
    exec (.registerWrite addr be v) s = .next (s.writeAs .host false (addr.toNat / 4 * 4) be v) :=
  whenUp_of_up (fun s => s.writeAs .host false (addr.toNat / 4 * 4) be v) h

end Sys2Proof.Machine
end

section
/-! SUPPORT. The statements about plain registers and about places where nothing is. -/

namespace Sys2Proof

open Machine

/-- Settles O28: the register takes the write bit by bit over the state in which the words received are counted, and
that count touches neither the register nor the life-cycle state. -/
theorem registerWriteBits : Obligations.RegisterWriteBits := by
  unfold Obligations.RegisterWriteBits
  intro addr be v s hup hbusy a hblock
  have hplain : PlainBlock a := hblock
  have hrd : ∀ x, x < 0x40000 → ((s.speed 96 4).mendReg a).rd x = s.rd x := fun x hx =>
    rd_speed_ne s 96 4 (by simp only [Reg.cntLo]; omega) (by simp only [Reg.cntHi]; omega)
  have ha : a < 0x40000 := by omega
  refine ⟨_, (exec_registerWrite_of_up s hup addr be v).trans
    (congrArg _ (writeAs_host_plain s hplain hbusy be v)), ?bits, ?reserved, ?frame⟩
  case bits =>
    intro r hr i
    rw [rd_plainWrite_getLsbD _ hr be v i.isLt, hrd a ha, writable_congr s (hrd Reg.rstStat (by decide))]
  case reserved =>
    intro hr
    rw [plainWrite_reserved _ hr, hrd a ha]
  case frame =>
    have hcount : Frame s (s.speed 96 4) (orAt (theseRegs [a]) hostAccount) noBytes :=
      frame_speed s 96 4 (by simp [orAt, hostAccount, theseRegs]) (by simp [orAt, hostAccount, theseRegs])
    exact (hcount.trans (frame_mendReg _ a)).trans (frame_plainWrite _ a be v (by simp [orAt, theseRegs]))

/-- Settles O56: behind such a place the crossbar serves the transaction at once, a read answers 0, a write meets
nothing, and no other transaction follows. -/
theorem reservedOffsets : Obligations.ReservedOffsets := by
  unfold Obligations.ReservedOffsets
  intro s hup counts
  have hl96 : counts (Reg.cntLo 96) = true := by decide
  have hh96 : counts (Reg.cntHi 96) = true := by decide
  have hl97 : counts (Reg.cntLo 97) = true := by decide
  have hh97 : counts (Reg.cntHi 97) = true := by decide
  refine ⟨fun addr tgt hlease hwaits hplace horder hfree => ?_, fun addr be v haddr => ?_⟩
  · have hno : NoTarget tgt addr.toNat := hplace
    have hexec : ∀ write, exec (.xbrTransaction 0 tgt addr write false) s =
        .next (s.xbrServe 0 tgt addr.toNat write false) := fun write => by
      have hlast := serveAll_of_no_waits (s.xbrServe 0 tgt addr.toNat write false)
        (by rw [xbrServe_noTarget_hk s hno]; exact hwaits)
      rw [exec_xbrTransaction_of_up s hup, ← hlast]
      exact congrArg _ (xbrTransaction_host_served s write hwaits hlease horder hfree (beatBank_of_noTarget hno))
    constructor
    · refine ⟨_, (hexec none).trans (congrArg _ (xbrServe_noTarget_read s hno)), ?_, ?_, ?_⟩
      · rw [speed_io, State.readBack_io]
      · rw [speed_io, State.readBack_io]
      · exact (frame_readBack s 0).trans (frame_speed _ 97 4 hl97 hh97)
    · intro be v
      have hp := noPlace_of_noTarget hno
      exact ⟨_, (hexec (some (be, v))).trans (congrArg _ (xbrServe_noTarget_write s hno be v)),
        writeAs_noPlace_io s hp be v, frame_writeAs_noPlace s hp hl96 hh96 be v⟩
  · have hp : NoPlace false (addr.toNat / 4 * 4) := show 0x130000 ≤ addr.toNat / 4 * 4 by omega
    exact ⟨_, exec_registerWrite_of_up s hup addr be v, writeAs_noPlace_io s hp be v,
      frame_writeAs_noPlace s hp hl96 hh96 be v⟩

end Sys2Proof
end

section
/-! SUPPORT. The core of the state: the memories, the marks, OTP, the number of the master's frame and the queue.
Most operations leave it as it is; those that write memory keep its canonical form. -/

namespace Sys2Proof.Machine

/-- What the marks, the resets and the writes of memory change, and hardly anything else. -/
structure Core where
  mem       : List Host.Cell
  tone      : List Host.Cell
  clock     : Clock
  otp       : Otp
  masterNum : Option (BitVec 32)
  pending   : List Instr

/-- The core of a state. -/
def State.core (s : State) : Core := ⟨s.mem, s.tone, s.clock, s.otp, s.fab.masterNum, s.pending⟩

/-- The memories are in canonical form. -/
def Core.Ok (c : Core) : Prop := Memory.wf c.mem = true ∧ Memory.wf c.tone = true

/-- From one core to the next the memories keep their canonical form, and the marks, the number of the master's frame
and the queue stay. -/
structure Core.KeptIn (b c : Core) : Prop where
  ok        : b.Ok → c.Ok
  clock     : c.clock = b.clock
  masterNum : c.masterNum = b.masterNum
  pending   : c.pending = b.pending

/-! ### The core of an updated state -/

@[simp] theorem core_fields (s : State) :
    (⟨s.mem, s.tone, s.clock, s.otp, s.fab.masterNum, s.pending⟩ : Core) = s.core := (rfl)

@[simp] theorem core_mk (pending regs mem tone latch clock power otp islands lanes aus paths terms rows captures
    colEng octEng out heldCol heldOct prbs latched flip discards aps fab mate tmg pm hst nrg sram hk evt hif io drawn) :
    (State.mk pending regs mem tone latch clock power otp islands lanes aus paths terms rows captures colEng octEng out
      heldCol heldOct prbs latched flip discards aps fab mate tmg pm hst nrg sram hk evt hif io drawn).core =
      ⟨mem, tone, clock, otp, fab.masterNum, pending⟩ := (rfl)

@[simp] theorem core_ite (p : Prop) [Decidable p] (s t : State) :
    (if p then s else t).core = if p then s.core else t.core := apply_ite ..

/-! ### Folds -/

@[simp] theorem core_foldl {α : Type} {f : State → α → State} (hf : ∀ s x, (f s x).core = s.core) :
    ∀ (l : List α) (s : State), (l.foldl f s).core = s.core
  | [], _ => rfl
  | x :: l, s => (core_foldl hf l (f s x)).trans (hf s x)

/-- A fold that carries something else along with the state. -/
@[simp] theorem core_foldl_fst {α β : Type} {f : State × β → α → State × β}
    (hf : ∀ q x, (f q x).1.core = q.1.core) : ∀ (l : List α) (q : State × β), (l.foldl f q).1.core = q.1.core
  | [], _ => rfl
  | x :: l, q => (core_foldl_fst hf l (f q x)).trans (hf q x)

/-! ### Composition -/

@[simp] theorem Core.KeptIn.refl (b : Core) : b.KeptIn b := ⟨id, rfl, rfl, rfl⟩

theorem Core.KeptIn.trans {b c d : Core} (h : b.KeptIn c) (k : c.KeptIn d) : b.KeptIn d :=
  ⟨k.ok ∘ h.ok, k.clock.trans h.clock, k.masterNum.trans h.masterNum, k.pending.trans h.pending⟩

@[simp] theorem keptIn_ite {b c d : Core} {p : Prop} [Decidable p] :
    b.KeptIn (if p then c else d) ↔ if p then b.KeptIn c else b.KeptIn d := by split <;> rfl

@[simp] theorem kept_foldl {α : Type} {b : Core} {f : State → α → State}
    (hf : ∀ (s : State) x, s.core.KeptIn (f s x).core) :
    ∀ (l : List α) (s : State), b.KeptIn s.core → b.KeptIn (l.foldl f s).core
  | [], _, h => h
  | x :: l, s, h => kept_foldl hf l (f s x) (h.trans (hf s x))

/-- What is to be burnt into OTP is not among what is kept. -/
@[simp] theorem kept_otp {b : Core} {s : State} (otp : Otp) (h : b.KeptIn s.core) :
    b.KeptIn ⟨s.mem, s.tone, s.clock, otp, s.fab.masterNum, s.pending⟩ :=
  ⟨h.ok, h.clock, h.masterNum, h.pending⟩

/-- A state whose core is that of one kept so far. -/
theorem kept_of_core {b : Core} {s t : State} (e : t.core = s.core) (h : b.KeptIn s.core) : b.KeptIn t.core := e ▸ h

/-- A step that is taken or not. -/
theorem kept_if {b : Core} {s t : State} {p : Prop} [Decidable p] (ht : b.KeptIn s.core → b.KeptIn t.core)
    (h : b.KeptIn s.core) : b.KeptIn (if p then t else s).core := by
  split
  · exact ht h
  · exact h

/-- An operation that keeps the core, after others that kept it. -/
theorem kept_then {b : Core} {f : State → State} (hf : ∀ s : State, s.core.KeptIn (f s).core) {s : State}
    (h : b.KeptIn s.core) : b.KeptIn (f s).core := h.trans (hf s)

end Sys2Proof.Machine
end

section
/-! SUPPORT. Operations that leave the core of the state as it is, one lemma each, in the order of the model. -/

namespace Sys2Proof.Machine

variable (s : State)

/-! ### Ops -/

@[simp] theorem core_wr (a v) : (s.wr a v).core = s.core := by unfold State.wr; simp
@[simp] theorem core_fset (f n) : (s.fset f n).core = s.core := by unfold State.fset; simp
@[simp] theorem core_fbit (f b) : (s.fbit f b).core = s.core := by unfold State.fbit; simp
@[simp] theorem core_count (a n) : (s.count a n).core = s.core := by unfold State.count; simp
@[simp] theorem core_countSat (f cap n) : (s.countSat f cap n).core = s.core := by unfold State.countSat; simp
@[simp] theorem core_setLane (l x) : (s.setLane l x).core = s.core := by unfold State.setLane; simp
@[simp] theorem core_onLane (l f) : (s.onLane l f).core = s.core := by unfold State.onLane; simp
@[simp] theorem core_onAu (l n f) : (s.onAu l n f).core = s.core := by unfold State.onAu; simp
@[simp] theorem core_onPath (p f) : (s.onPath p f).core = s.core := by unfold State.onPath; simp
@[simp] theorem core_onTerm (t f) : (s.onTerm t f).core = s.core := by unfold State.onTerm; simp
@[simp] theorem core_onIsland (i f) : (s.onIsland i f).core = s.core := by unfold State.onIsland; simp
@[simp] theorem core_onAps (g f) : (s.onAps g f).core = s.core := by unfold State.onAps; simp
@[simp] theorem core_onPm (p f) : (s.onPm p f).core = s.core := by unfold State.onPm; simp
@[simp] theorem core_onCol (d f) : (s.onCol d f).core = s.core := by unfold State.onCol; simp
@[simp] theorem core_onOct (d f) : (s.onOct d f).core = s.core := by unfold State.onOct; simp
@[simp] theorem core_draw : s.draw.2.core = s.core := by unfold State.draw; simp
@[simp] theorem core_mend (a be) : (s.mend a be).core = s.core := by unfold State.mend; simp
@[simp] theorem core_setHstHead (n) : (s.setHstHead n).core = s.core := by unfold State.setHstHead; simp
@[simp] theorem core_evictRecord (sev) : (s.evictRecord sev).core = s.core := by unfold State.evictRecord; simp
@[simp] theorem core_appendRecord (typ sev low ws) : (s.appendRecord typ sev low ws).core = s.core := by
  unfold State.appendRecord
  simp
@[simp] theorem core_stageRecord (typ sev low ws) : (s.stageRecord typ sev low ws).core = s.core := by
  unfold State.stageRecord
  simp
@[simp] theorem core_lostOn (ring) : (s.lostOn ring).core = s.core := by unfold State.lostOn; simp
@[simp] theorem core_stageEvent (e) : (s.stageEvent e).core = s.core := by unfold State.stageEvent; simp
@[simp] theorem core_raiseAs (deliver ring e ps) : (s.raiseAs deliver ring e ps).core = s.core := by
  unfold State.raiseAs
  simp
@[simp] theorem core_raise (e w1 w2 w3 w4 w5) : (s.raise e w1 w2 w3 w4 w5).core = s.core := by
  unfold State.raise
  simp
@[simp] theorem core_report (e w1 w2 w3 w4 w5) : (s.report e w1 w2 w3 w4 w5).core = s.core := by
  unfold State.report
  simp
@[simp] theorem core_sticky (reg en m e inst fault) : (s.sticky reg en m e inst fault).core = s.core := by
  unfold State.sticky
  simp
@[simp] theorem core_enableWrite (reg en v e inst fault) : (s.enableWrite reg en v e inst fault).core = s.core := by
  unfold State.enableWrite
  simp
@[simp] theorem core_sayUe (bank word) : (s.sayUe bank word).core = s.core := by unfold State.sayUe; simp
@[simp] theorem core_foundUe (bank word) : (s.foundUe bank word).core = s.core := by
  unfold State.foundUe
  split <;> simp
@[simp] theorem core_foundUeAt (a) : (s.foundUeAt a).core = s.core := by unfold State.foundUeAt; simp
@[simp] theorem core_hkRead (a) : (s.hkRead a).2.core = s.core := by unfold State.hkRead; split <;> simp
@[simp] theorem core_mendReg (a) : (s.mendReg a).core = s.core := by unfold State.mendReg; simp
@[simp] theorem core_readBack (v) : (s.readBack v).core = s.core := by unfold State.readBack; simp
@[simp] theorem core_setSpeed (i n) : (s.setSpeed i n).core = s.core := by unfold State.setSpeed; simp
@[simp] theorem core_rewriteCounter (w) : (s.rewriteCounter w).core = s.core := by unfold State.rewriteCounter; simp
@[simp] theorem core_addSpeed (i n) : (s.addSpeed i n).core = s.core := by unfold State.addSpeed; simp
@[simp] theorem core_speed (i n) : (s.speed i n).core = s.core := by unfold State.speed; simp
@[simp] theorem core_speedCost (i n) : (s.speedCost i n).core = s.core := by unfold State.speedCost; simp

/-! ### Complete -/

@[simp] theorem core_finish (r c status reason r0 r1) : (s.finish r c status reason r0 r1).core = s.core := by
  unfold State.finish
  simp
@[simp] theorem core_awaitOn (r c w) : (s.awaitOn r c w).core = s.core := by unfold State.awaitOn; simp
@[simp] theorem core_finishAll (p f) : (s.finishAll p f).core = s.core := by unfold State.finishAll; simp

/-! ### Canvas -/

@[simp] theorem core_startPathTail (p w0 w1 old) : (s.startPathTail p w0 w1 old).core = s.core := by
  unfold State.startPathTail
  simp
@[simp] theorem core_startTails (l x) : (s.startTails l x).core = s.core := by
  fun_induction State.startTails <;> simp [*]
@[simp] theorem core_spendAus (l rowNo x) : (s.spendAus l rowNo x).core = s.core := by
  fun_induction State.spendAus <;> simp [*]
@[simp] theorem core_beginNine (l rowNo x) : (s.beginNine l rowNo x).core = s.core := by
  induction x generalizing s with
  | nil => rfl
  | cons x xs ih => simp [State.beginNine, ih]
@[simp] theorem core_spendPaths (x) : (s.spendPaths x).core = s.core := by fun_induction State.spendPaths <;> simp [*]

/-! ### Aligner -/

@[simp] theorem core_setA (l n x) : (s.setA l n x).core = s.core := by unfold State.setA; simp
@[simp] theorem core_moveA (l n x) : (s.moveA l n x).core = s.core := by unfold State.moveA; simp
@[simp] theorem core_justify (l n j) : (s.justify l n j).core = s.core := by unfold State.justify; simp
@[simp] theorem core_newPointer (l n p) : (s.newPointer l n p).core = s.core := by unfold State.newPointer; simp
@[simp] theorem core_auPointer (l n h) : (s.auPointer l n h).core = s.core := by
  unfold State.auPointer
  dsimp only
  split <;> simp
@[simp] theorem core_memberPointer (l n h) : (s.memberPointer l n h).core = s.core := by
  unfold State.memberPointer
  simp
@[simp] theorem core_auPointers (l x) : (s.auPointers l x).core = s.core := by
  induction x generalizing s with
  | nil => rfl
  | cons x xs ih => simp [State.auPointers, ih]
@[simp] theorem core_storeOffset (l n r block i) : (s.storeOffset l n r block i).core = s.core := by
  unfold State.storeOffset
  simp
@[simp] theorem core_storeAuRow (l r n) : (s.storeAuRow l r n).core = s.core := by unfold State.storeAuRow; simp
@[simp] theorem core_followPhase (l r) : (s.followPhase l r).core = s.core := by
  unfold State.followPhase
  dsimp only
  (repeat' split)
  · rfl
  · simp
  · simp
  · rw [core_foldl fun s n => core_moveA s l n _, core_onLane]
@[simp] theorem core_receiveRow (l r) : (s.receiveRow l r).core = s.core := by unfold State.receiveRow; simp
@[simp] theorem core_receiveRows (l rs) : (s.receiveRows l rs).core = s.core := by unfold State.receiveRows; simp
@[simp] theorem core_beginRead (l) : (s.beginRead l).core = s.core := by unfold State.beginRead; simp

/-! ### Ingress -/

@[simp] theorem core_parityError (island) : (s.parityError island).core = s.core := by unfold State.parityError; simp
@[simp] theorem core_parityRow (l r x) : (s.parityRow l r x).1.core = s.core := by
  fun_induction State.parityRow <;> simp [*]
@[simp] theorem core_spendParity (island n) : (s.spendParity island n).1.core = s.core := by
  unfold State.spendParity
  split <;> simp
@[simp] theorem core_badArrival (l) : (s.badArrival l).core = s.core := by unfold State.badArrival; simp
@[simp] theorem core_judgePhase (l sigma r) : (s.judgePhase l sigma r).1.core = s.core := by
  unfold State.judgePhase
  (repeat' split) <;> simp
@[simp] theorem core_examineFrame (l f) : (s.examineFrame l f).core = s.core := by
  unfold State.examineFrame
  split <;> simp
@[simp] theorem core_sohCounts (l r) : (s.sohCounts l r).core = s.core := by unfold State.sohCounts; simp
@[simp] theorem core_kBytes (l k) : (s.kBytes l k).core = s.core := by unfold State.kBytes; simp
@[simp] theorem core_auErrors (l x) : (s.auErrors l x).core = s.core := by
  induction x generalizing s with
  | nil => rfl
  | cons x xs ih => simp [State.auErrors, ih]
@[simp] theorem core_turnErrors (l) : (s.turnErrors l).core = s.core := by unfold State.turnErrors; simp
@[simp] theorem core_auPhases (l x) : (s.auPhases l x).core = s.core := by
  induction x generalizing s with
  | nil => rfl
  | cons q qs ih => rw [State.auPhases, ih, core_ite, core_fset, ite_self]
@[simp] theorem core_pmBlocks (p ne fe) : (s.pmBlocks p ne fe).core = s.core := by unfold State.pmBlocks; simp
@[simp] theorem core_rowBlocks (x) : (s.rowBlocks x).core = s.core := by fun_induction State.rowBlocks <;> simp [*]
@[simp] theorem core_runBlocks (bad x) : (s.runBlocks bad x).core = s.core := by
  fun_induction State.runBlocks <;> simp [*]
@[simp] theorem core_holdRow (src period r) : (s.holdRow src period r).core = s.core := by unfold State.holdRow; simp
@[simp] theorem core_sdhRow (l r) : (s.sdhRow l r).core = s.core := by unfold State.sdhRow; (repeat' split) <;> simp
@[simp] theorem core_assignRow (l period row) : (s.assignRow l period row).core = s.core := by
  unfold State.assignRow
  simp

/-! ### Sdh -/

@[simp] theorem core_ltmSet (l b on) : (s.ltmSet l b on).core = s.core := by unfold State.ltmSet; simp
@[simp] theorem core_judgeAuAny (l) : (s.judgeAuAny l).core = s.core := by unfold State.judgeAuAny; simp
@[simp] theorem core_acquireA (l n p) : (s.acquireA l n p).core = s.core := by unfold State.acquireA; simp
@[simp] theorem core_judgeAus (l always) : (s.judgeAus l always).core = s.core := by
  unfold State.judgeAus
  dsimp only
  split <;> simp

/-! ### Paths -/

@[simp] theorem core_clearHp (l n) : (s.clearHp l n).core = s.core := by unfold State.clearHp; simp

/-! ### Mirror -/

@[simp] theorem core_startResync : s.startResync.core = s.core := by
  unfold State.startResync
  split
  · rfl
  · rw [core_mk, core_fields, core_wr, core_fbit]
@[simp] theorem core_mendMirror : s.mendMirror.core = s.core := by unfold State.mendMirror; simp
@[simp] theorem core_queueRecord (kind r) : (s.queueRecord kind r).core = s.core := by unfold State.queueRecord; simp
@[simp] theorem core_refuseWrite : s.refuseWrite.core = s.core := by unfold State.refuseWrite; simp
@[simp] theorem core_enterMate (st) : (s.enterMate st).core = s.core := by
  unfold State.enterMate
  extract_lets was follows u _ t
  have ht : t.core = s.core := by
    simp only [t]
    rw [core_ite, core_mk]
    exact ite_eq_right_iff.2 fun _ => core_fbit ..
  rw [core_mk, core_fields, core_wr, core_fset, ht]
@[simp] theorem core_syncMate (entered anew) : (s.syncMate entered anew).core = s.core := by
  unfold State.syncMate
  simp
@[simp] theorem core_mateStep (fresh anew) : (s.mateStep fresh anew).core = s.core := by
  unfold State.mateStep
  split <;> simp

/-! ### Operands -/

@[simp] theorem core_setStat (octet d b on) : (s.setStat octet d b on).core = s.core := by unfold State.setStat; simp
@[simp] theorem core_foundOct (x) : (s.foundOct x).core = s.core := by fun_induction State.foundOct <;> simp [*]

/-! ### Column -/

@[simp] theorem core_compareDigest (octet d bankB differ v) :
    (s.compareDigest octet d bankB differ v).1.core = s.core := by
  unfold State.compareDigest
  simp
@[simp] theorem core_noteUnwritten (octet d n said) : (s.noteUnwritten octet d n said).core = s.core := by
  unfold State.noteUnwritten
  simp
@[simp] theorem core_noteEcc (octet d bankB w said) : (s.noteEcc octet d bankB w said).core = s.core := by
  unfold State.noteEcc
  simp
@[simp] theorem core_closeRow (d c) : (s.closeRow d c).1.core = s.core := by
  unfold State.closeRow
  dsimp only
  (repeat' split) <;> simp
@[simp] theorem core_sayFound (ks) : (s.sayFound ks).core = s.core := by unfold State.sayFound; simp
@[simp] theorem core_programRowEnd (d) : (s.programRowEnd d).core = s.core := by
  unfold State.programRowEnd
  split <;> simp
@[simp] theorem core_endRows : s.endRows.core = s.core := by unfold State.endRows; simp
@[simp] theorem core_issueOpen (d i) : (s.issueOpen d i).core = s.core := by unfold State.issueOpen; split <;> simp
@[simp] theorem core_runAhead (d) : (s.runAhead d).core = s.core := by unfold State.runAhead; split <;> simp
@[simp] theorem core_beginRow (d) : (s.beginRow d).core = s.core := by
  unfold State.beginRow
  dsimp only
  (repeat' split) <;> simp
@[simp] theorem core_runAheadVRead (d) : (s.runAheadVRead d).core = s.core := by
  unfold State.runAheadVRead
  dsimp only
  (repeat' split) <;> simp

/-! ### Octet -/

@[simp] theorem core_doMovo (d f c) : (s.doMovo d f c).1.core = s.core := by unfold State.doMovo; simp
@[simp] theorem core_doMovos (d f c) : (s.doMovos d f c).1.core = s.core := by unfold State.doMovos; simp
@[simp] theorem core_notePathBad (octet p) : (s.notePathBad octet p).core = s.core := by
  unfold State.notePathBad
  simp
@[simp] theorem core_noteWindow (p con) : (s.noteWindow p con).core = s.core := by unfold State.noteWindow; simp
@[simp] theorem core_doSelo (d f c) : (s.doSelo d f c).1.core = s.core := by unfold State.doSelo; simp
@[simp] theorem core_noteClip (d clip) : (s.noteClip d clip).core = s.core := by unfold State.noteClip; simp
@[simp] theorem core_doMix (d f c) : (s.doMix d f c).1.core = s.core := by unfold State.doMix; simp
@[simp] theorem core_doMixp (d f c) : (s.doMixp d f c).1.core = s.core := by unfold State.doMixp; simp
@[simp] theorem core_doGain (d f c) : (s.doGain d f c).1.core = s.core := by unfold State.doGain; simp
@[simp] theorem core_doTone (d f c) : (s.doTone d f c).1.core = s.core := by
  unfold State.doTone
  dsimp only
  split <;> simp
@[simp] theorem core_setPrbs (ch x) : (s.setPrbs ch x).core = s.core := by unfold State.setPrbs; simp
@[simp] theorem core_prbsInit (ch) : (s.prbsInit ch).core = s.core := by unfold State.prbsInit; simp
@[simp] theorem core_prbsBit (ch err) : (s.prbsBit ch err).core = s.core := by unfold State.prbsBit; simp
@[simp] theorem core_prbsCheckBit (ch poly b) : (s.prbsCheckBit ch poly b).core = s.core := by
  unfold State.prbsCheckBit
  simp
@[simp] theorem core_prbsCheckOctets (ch poly x) : (s.prbsCheckOctets ch poly x).core = s.core := by
  fun_induction State.prbsCheckOctets <;> simp [*]
@[simp] theorem core_doPrbs (d check f c) : (s.doPrbs d check f c).1.core = s.core := by
  unfold State.doPrbs
  split <;> simp
@[simp] theorem core_doCasi (d f c) : (s.doCasi d f c).1.core = s.core := by unfold State.doCasi; simp
@[simp] theorem core_doOct (d i c) : (s.doOct d i c).1.core = s.core := by unfold State.doOct; split <;> simp
@[simp] theorem core_issueOct (d i c) : (s.issueOct d i c).1.core = s.core := by unfold State.issueOct; split <;> simp
@[simp] theorem core_runOct (d w lim n x) : (s.runOct d w lim n x).1.core = s.core := by
  induction n generalizing s x with
  | zero => rfl
  | succ n ih =>
    unfold State.runOct
    (repeat' split) <;> simp [ih]
@[simp] theorem core_beginFrame (d) : (s.beginFrame d).core = s.core := by unfold State.beginFrame; simp
@[simp] theorem core_execRow (w) : (s.execRow w).core = s.core := by
  refine core_foldl (fun s d => ?_) _ _
  split <;> simp
@[simp] theorem core_closeFrame (d differ c) : (s.closeFrame d differ c).1.core = s.core := by
  unfold State.closeFrame
  dsimp only
  (repeat' split) <;> simp
@[simp] theorem core_endProgram (d differ) : (s.endProgram d differ).core = s.core := by
  unfold State.endProgram
  split <;> simp
@[simp] theorem core_octetDigestCheck (d differ) : (s.octetDigestCheck d differ).core = s.core := by
  unfold State.octetDigestCheck
  simp
@[simp] theorem core_issueFrame (d i) : (s.issueFrame d i).core = s.core := by unfold State.issueFrame; split <;> simp
@[simp] theorem core_issueControl (e i j) : (s.issueControl e i j).core = s.core := by
  unfold State.issueControl
  split <;> simp

/-! ### Protect -/

@[simp] theorem core_onSel (p f) : (s.onSel p f).core = s.core := by unfold State.onSel; simp
@[simp] theorem core_protDone (w refused) : (s.protDone w refused).core = s.core := by unfold State.protDone; simp
@[simp] theorem core_selDone (p) : (s.selDone p).core = s.core := by unfold State.selDone; simp
@[simp] theorem core_expireHold (p protect) : (s.expireHold p protect).core = s.core := by
  unfold State.expireHold
  simp
@[simp] theorem core_expireWtr (p) : (s.expireWtr p).core = s.core := by unfold State.expireWtr; simp
@[simp] theorem core_leaveConFail (p protect) : (s.leaveConFail p protect).core = s.core := by
  unfold State.leaveConFail
  simp

/-! ### Aps -/

@[simp] theorem core_apsJudge (g) : (s.apsJudge g).core = s.core := by unfold State.apsJudge; simp
@[simp] theorem core_apsMode (g) : (s.apsMode g).core = s.core := by unfold State.apsMode; simp
@[simp] theorem core_apsSetFop (g cause) : (s.apsSetFop g cause).core = s.core := by unfold State.apsSetFop; simp
@[simp] theorem core_reflagLane (l) : (s.reflagLane l).core = s.core := by unfold State.reflagLane; split <;> simp
@[simp] theorem core_apsBridge (g bridged sel req) : (s.apsBridge g bridged sel req).core = s.core := by
  unfold State.apsBridge
  simp
@[simp] theorem core_apsSend (g own gov far bridged) : (s.apsSend g own gov far bridged).core = s.core := by
  unfold State.apsSend
  simp
@[simp] theorem core_apsTick (g) : (s.apsTick g).core = s.core := by unfold State.apsTick; simp
@[simp] theorem core_apsCommand (g be v) : (s.apsCommand g be v).core = s.core := by unfold State.apsCommand; simp
@[simp] theorem core_apsExpire (g c) : (s.apsExpire g c).core = s.core := by unfold State.apsExpire; simp

/-! ### Terminations -/

@[simp] theorem core_stickTerm (t) : (s.stickTerm t).core = s.core := by unfold State.stickTerm; simp
@[simp] theorem core_casAccept (t c) : (s.casAccept t c).core = s.core := by unfold State.casAccept; simp
@[simp] theorem core_flagBlocks (fr x) : (s.flagBlocks fr x).core = s.core := by
  fun_induction State.flagBlocks <;> simp [*]
@[simp] theorem core_buildEgress (t) : (s.buildEgress t).core = s.core := by unfold State.buildEgress; simp
@[simp] theorem core_buildEgressAll : s.buildEgressAll.core = s.core := by unfold State.buildEgressAll; simp
@[simp] theorem core_latchCas : s.latchCas.core = s.core := by unfold State.latchCas; simp

/-! ### Egress -/

@[simp] theorem core_emitSlot (d pos x) : (s.emitSlot d pos x).1.core = s.core := by
  unfold State.emitSlot
  split <;> simp
@[simp] theorem core_emitSlots (d x y) : (s.emitSlots d x y).1.core = s.core := by
  induction x generalizing s y with
  | nil => rfl
  | cons x xs ih => simp [State.emitSlots, ih]
@[simp] theorem core_rawRow (d c) : (s.rawRow d c).1.core = s.core := by unfold State.rawRow; (repeat' split) <;> simp
@[simp] theorem core_builtRow (d c) : (s.builtRow d c).1.core = s.core := by unfold State.builtRow; simp
@[simp] theorem core_noteHeld (d c r) : (s.noteHeld d c r).core = s.core := by unfold State.noteHeld; simp
@[simp] theorem core_sendPointer (l n r) : (s.sendPointer l n r).core = s.core := by unfold State.sendPointer; simp
@[simp] theorem core_sendPointers (l r x) : (s.sendPointers l r x).core = s.core := by
  fun_induction State.sendPointers <;> simp [*]
@[simp] theorem core_beginVc (l n) : (s.beginVc l n).core = s.core := by unfold State.beginVc; simp
@[simp] theorem core_sendPoh (l n r) : (s.sendPoh l n r).1.core = s.core := by
  unfold State.sendPoh
  dsimp only
  (repeat' split) <;> simp
@[simp] theorem core_sendPohs (l x y) : (s.sendPohs l x y).1.core = s.core := by
  induction x generalizing s y with
  | nil => rfl
  | cons n ns ih => simp [State.sendPohs, ih]
@[simp] theorem core_gatherSdh (l w head r) : (s.gatherSdh l w head r).core = s.core := by
  unfold State.gatherSdh
  simp
@[simp] theorem core_gatherSent (l) : (s.gatherSent l).core = s.core := by
  unfold State.gatherSent
  dsimp only
  split <;> simp
@[simp] theorem core_beginSdh (l) : (s.beginSdh l).core = s.core := by unfold State.beginSdh; simp
@[simp] theorem core_sdhLine (l r) : (s.sdhLine l r).1.core = s.core := by unfold State.sdhLine; simp
@[simp] theorem core_mateRow (l) : (s.mateRow l).1.core = s.core := by unfold State.mateRow; simp
@[simp] theorem core_sendPattern (l) : (s.sendPattern l).core = s.core := by unfold State.sendPattern; split <;> simp
@[simp] theorem core_sendLine (l) : (s.sendLine l).core = s.core := by unfold State.sendLine; (repeat' split) <;> simp
@[simp] theorem core_badOut (d c) : (s.badOut d c).core = s.core := by unfold State.badOut; split <;> simp
@[simp] theorem core_leaveIsland (d n r) : (s.leaveIsland d n r).1.core = s.core := by unfold State.leaveIsland; simp
@[simp] theorem core_dueParity : s.dueParity.1.core = s.core := by
  unfold State.dueParity
  dsimp only
  split <;> simp
@[simp] theorem core_rowParity (q) : (s.rowParity q).core = s.core := by unfold State.rowParity; simp
@[simp] theorem core_emitDest (d) : (s.emitDest d).core = s.core := by unfold State.emitDest; split <;> simp
@[simp] theorem core_emitAll : s.emitAll.core = s.core := by unfold State.emitAll; simp
@[simp] theorem core_cutRow (d n) : (s.cutRow d n).core = s.core := by unfold State.cutRow; split <;> simp
@[simp] theorem core_maskOut : s.maskOut.core = s.core := by unfold State.maskOut; simp
@[simp] theorem core_doubleWrite (octet d t) : (s.doubleWrite octet d t).core = s.core := by
  unfold State.doubleWrite
  simp
@[simp] theorem core_doubleWrites (octet d x) : (s.doubleWrites octet d x).core = s.core := by
  fun_induction State.doubleWrites <;> simp [*]
@[simp] theorem core_vBad (parity v) : (s.vBad parity v).1.core = s.core := by unfold State.vBad; simp
@[simp] theorem core_noteLeft (d w con bad) : (s.noteLeft d w con bad).core = s.core := by unfold State.noteLeft; simp
@[simp] theorem core_noteHeldOct (d w r) : (s.noteHeldOct d w r).core = s.core := by
  unfold State.noteHeldOct
  split <;> simp
@[simp] theorem core_dropHeldOct (d) : (s.dropHeldOct d).core = s.core := by unfold State.dropHeldOct; split <;> simp

/-! ### Banks -/

@[simp] theorem core_setBankState (b v) : (s.setBankState b v).core = s.core := by unfold State.setBankState; simp
@[simp] theorem core_setBanks (v x) : (s.setBanks v x).core = s.core := by fun_induction State.setBanks <;> simp [*]
@[simp] theorem core_setRegion (r on) : (s.setRegion r on).core = s.core := by unfold State.setRegion; simp
@[simp] theorem core_wakeRegion (r) : (s.wakeRegion r).core = s.core := by unfold State.wakeRegion; simp
@[simp] theorem core_wakeBank (b) : (s.wakeBank b).core = s.core := by unfold State.wakeBank; split <;> simp
@[simp] theorem core_wakeAt (a) : (s.wakeAt a).core = s.core := by unfold State.wakeAt; simp
@[simp] theorem core_wakeEnded : s.wakeEnded.core = s.core := by unfold State.wakeEnded; simp

/-! ### Rehearsal -/

@[simp] theorem core_judgeDest (octet w sels chans d) : (s.judgeDest octet w sels chans d).1.core = s.core := by
  unfold State.judgeDest
  dsimp only
  (repeat' split) <;> simp
@[simp] theorem core_judgePlane (octet w) : (s.judgePlane octet w).core = s.core := by unfold State.judgePlane; simp
@[simp] theorem core_judgeRow : s.judgeRow.core = s.core := by unfold State.judgeRow; simp
@[simp] theorem core_recordDest (e r) : (s.recordDest e r).core = s.core := by unfold State.recordDest; split <;> simp
@[simp] theorem core_recordFails : s.recordFails.core = s.core := by
  unfold State.recordFails
  dsimp only
  (repeat' split) <;> simp
@[simp] theorem core_recordFactors : s.recordFactors.core = s.core := by unfold State.recordFactors; simp
@[simp] theorem core_recordKinds : s.recordKinds.core = s.core := by unfold State.recordKinds; simp
@[simp] theorem core_endRehearsal : s.endRehearsal.1.core = s.core := by unfold State.endRehearsal; simp

/-! ### Flip -/

@[simp] theorem core_setFlip (f) : (s.setFlip f).core = s.core := by unfold State.setFlip; simp
@[simp] theorem core_shadowWr (on) : (s.shadowWr on).core = s.core := by unfold State.shadowWr; simp
@[simp] theorem core_enterFlip (st) : (s.enterFlip st).core = s.core := by unfold State.enterFlip; simp
@[simp] theorem core_sendFlip (m) : (s.sendFlip m).core = s.core := by unfold State.sendFlip; simp
@[simp] theorem core_answerFlip (m) : (s.answerFlip m).core = s.core := by unfold State.answerFlip; simp
@[simp] theorem core_endAnswer (txn) : (s.endAnswer txn).core = s.core := by unfold State.endAnswer; simp
@[simp] theorem core_flipEvent (e reason) : (s.flipEvent e reason).core = s.core := by unfold State.flipEvent; simp
@[simp] theorem core_flipReject (reason req target) : (s.flipReject reason req target).core = s.core := by
  unfold State.flipReject
  simp
@[simp] theorem core_flipEnded (status) : (s.flipEnded status).core = s.core := by unfold State.flipEnded; simp
@[simp] theorem core_flipAbort (reason n) : (s.flipAbort reason n).core = s.core := by unfold State.flipAbort; simp
@[simp] theorem core_arm (req target coord) : (s.arm req target coord).core = s.core := by unfold State.arm; simp
@[simp] theorem core_clearAnswers : s.clearAnswers.core = s.core := by unfold State.clearAnswers; simp
@[simp] theorem core_flipArm : s.flipArm.core = s.core := by unfold State.flipArm; simp
@[simp] theorem core_flipCancel : s.flipCancel.core = s.core := by unfold State.flipCancel; simp
@[simp] theorem core_rehearsalStart : s.rehearsalStart.core = s.core := by unfold State.rehearsalStart; simp
@[simp] theorem core_rehearsalDone : s.rehearsalDone.core = s.core := by unfold State.rehearsalDone; simp
@[simp] theorem core_rehearsalEnd : s.rehearsalEnd.core = s.core := by unfold State.rehearsalEnd; simp
@[simp] theorem core_setSteps (octet) : (s.setSteps octet).core = s.core := by unfold State.setSteps; simp
@[simp] theorem core_flipPrbs (x) : (s.flipPrbs x).core = s.core := by
  induction x generalizing s with
  | nil => rfl
  | cons i is ih => cases i <;> simp [State.flipPrbs, ih]
@[simp] theorem core_flipLoops (l) : (s.flipLoops l).core = s.core := by unfold State.flipLoops; simp
@[simp] theorem core_setLive (octet b) : (s.setLive octet b).core = s.core := by unfold State.setLive; simp
@[simp] theorem core_makeLive (octet) : (s.makeLive octet).core = s.core := by unfold State.makeLive; simp
@[simp] theorem core_clearBadSaid : s.clearBadSaid.core = s.core := by unfold State.clearBadSaid; simp
@[simp] theorem core_bankFlip : s.bankFlip.core = s.core := by unfold State.bankFlip; simp
@[simp] theorem core_catchUpFlip : s.catchUpFlip.core = s.core := by
  unfold State.catchUpFlip
  dsimp only
  split <;> simp
@[simp] theorem core_becomeUnsure : s.becomeUnsure.core = s.core := by unfold State.becomeUnsure; simp
@[simp] theorem core_flipFrameMark : s.flipFrameMark.core = s.core := by unfold State.flipFrameMark; simp
@[simp] theorem core_flipMsgMark : s.flipMsgMark.core = s.core := by unfold State.flipMsgMark; simp
@[simp] theorem core_flipRowMark : s.flipRowMark.core = s.core := by unfold State.flipRowMark; simp
@[simp] theorem core_proposeReceived (peer p) : (s.proposeReceived peer p).core = s.core := by
  unfold State.proposeReceived
  simp
@[simp] theorem core_readyReceived (peer txn) : (s.readyReceived peer txn).core = s.core := by
  unfold State.readyReceived
  simp
@[simp] theorem core_nackReceived (peer txn reason) : (s.nackReceived peer txn reason).core = s.core := by
  unfold State.nackReceived
  simp
@[simp] theorem core_resolveCommit : s.resolveCommit.core = s.core := by unfold State.resolveCommit; simp
@[simp] theorem core_commitReceived (txn) : (s.commitReceived txn).core = s.core := by
  unfold State.commitReceived
  simp
@[simp] theorem core_abortReceived (txn) : (s.abortReceived txn).core = s.core := by unfold State.abortReceived; simp
@[simp] theorem core_banksReceived (peer col oct) : (s.banksReceived peer col oct).core = s.core := by
  unfold State.banksReceived
  dsimp only
  (repeat' split) <;> simp
@[simp] theorem core_coordLease : s.coordLease.core = s.core := by unfold State.coordLease; simp
@[simp] theorem core_claimReceived (peer coordId was) : (s.claimReceived peer coordId was).core = s.core := by
  unfold State.claimReceived
  simp
@[simp] theorem core_leaseMark : s.leaseMark.core = s.core := by unfold State.leaseMark; simp
@[simp] theorem core_silenceMark : s.silenceMark.core = s.core := by unfold State.silenceMark; simp
@[simp] theorem core_leaseReset : s.leaseReset.core = s.core := by unfold State.leaseReset; simp
@[simp] theorem core_flpFabWrite (rank be v) : (s.flpFabWrite rank be v).core = s.core := by
  unfold State.flpFabWrite
  simp
@[simp] theorem core_noteDiscard (octet w1 w2 committed) : (s.noteDiscard octet w1 w2 committed).core = s.core := by
  unfold State.noteDiscard
  simp
@[simp] theorem core_rejectMark : s.rejectMark.core = s.core := by unfold State.rejectMark; simp
@[simp] theorem core_shadowWritten (octet bankB) : (s.shadowWritten octet bankB).core = s.core := by
  unfold State.shadowWritten
  simp
@[simp] theorem core_clearReh (octet bankB d) : (s.clearReh octet bankB d).core = s.core := by
  unfold State.clearReh
  simp
@[simp] theorem core_startWrite (m octet d bankB be v) : (s.startWrite m octet d bankB be v).core = s.core := by
  unfold State.startWrite
  simp

/-! ### Timing -/

@[simp] theorem core_tmSticky (b) : (s.tmSticky b).core = s.core := by unfold State.tmSticky; simp
@[simp] theorem core_setTmg (f) : (s.setTmg f).core = s.core := by unfold State.setTmg; simp
@[simp] theorem core_enterTm (st) : (s.enterTm st).core = s.core := by unfold State.enterTm; simp
@[simp] theorem core_setSreg (a i) : (s.setSreg a i).core = s.core := by unfold State.setSreg; simp
@[simp] theorem core_disqualify (i) : (s.disqualify i).core = s.core := by unfold State.disqualify; simp
@[simp] theorem core_refreshSlot (i) : (s.refreshSlot i).core = s.core := by unfold State.refreshSlot; simp
@[simp] theorem core_signalFails (i) : (s.signalFails i).core = s.core := by unfold State.signalFails; simp
@[simp] theorem core_judgeSlot (i) : (s.judgeSlot i).core = s.core := by unfold State.judgeSlot; simp
@[simp] theorem core_showSuspect (i) : (s.showSuspect i).core = s.core := by unfold State.showSuspect; simp
@[simp] theorem core_applySlot (i) : (s.applySlot i).core = s.core := by unfold State.applySlot; simp
@[simp] theorem core_acquire : s.acquire.core = s.core := by unfold State.acquire; simp
@[simp] theorem core_freeOut : s.freeOut.core = s.core := by unfold State.freeOut; simp
@[simp] theorem core_loseRef : s.loseRef.core = s.core := by unfold State.loseRef; split <;> simp
@[simp] theorem core_pullIn : s.pullIn.core = s.core := by unfold State.pullIn; simp
@[simp] theorem core_setChoice (new) : (s.setChoice new).core = s.core := by unfold State.setChoice; simp
@[simp] theorem core_refSelection : s.refSelection.core = s.core := by
  unfold State.refSelection
  dsimp only
  (repeat' split) <;> simp
@[simp] theorem core_refreshQl : s.refreshQl.core = s.core := by unfold State.refreshQl; simp
@[simp] theorem core_refreshRefLane : s.refreshRefLane.core = s.core := by unfold State.refreshRefLane; split <;> simp
@[simp] theorem core_movePhase : s.movePhase.core = s.core := by unfold State.movePhase; simp
@[simp] theorem core_phaseStep (v) : (s.phaseStep v).core = s.core := by unfold State.phaseStep; simp
@[simp] theorem core_refinLoss (j) : (s.refinLoss j).core = s.core := by unfold State.refinLoss; simp
@[simp] theorem core_refinReturn (j) : (s.refinReturn j).core = s.core := by unfold State.refinReturn; simp
@[simp] theorem core_driftDeclare (i) : (s.driftDeclare i).core = s.core := by unfold State.driftDeclare; simp
@[simp] theorem core_driftCheck (i ofs10) : (s.driftCheck i ofs10).core = s.core := by unfold State.driftCheck; simp
@[simp] theorem core_pairSecond (i j) : (s.pairSecond i j).core = s.core := by unfold State.pairSecond; simp
@[simp] theorem core_refOffset (i ofs1 ofs10) : (s.refOffset i ofs1 ofs10).core = s.core := by
  unfold State.refOffset
  simp
@[simp] theorem core_refQualify (i) : (s.refQualify i).core = s.core := by unfold State.refQualify; simp
@[simp] theorem core_refSuspect (i j disagree) : (s.refSuspect i j disagree).core = s.core := by
  unfold State.refSuspect
  simp
@[simp] theorem core_dpllLock : s.dpllLock.core = s.core := by unfold State.dpllLock; simp
@[simp] theorem core_dpllLockLoss : s.dpllLockLoss.core = s.core := by unfold State.dpllLockLoss; simp
@[simp] theorem core_dpllBwStep : s.dpllBwStep.core = s.core := by unfold State.dpllBwStep; simp
@[simp] theorem core_judgeTemp : s.judgeTemp.core = s.core := by unfold State.judgeTemp; simp
@[simp] theorem core_showHold : s.showHold.core = s.core := by unfold State.showHold; split <;> simp
@[simp] theorem core_holdSecond (b) : (s.holdSecond b).core = s.core := by unfold State.holdSecond; simp
@[simp] theorem core_holdoverUpdate : s.holdoverUpdate.core = s.core := by unfold State.holdoverUpdate; split <;> simp
@[simp] theorem core_learn (offset theta) : (s.learn offset theta).core = s.core := by unfold State.learn; simp
@[simp] theorem core_minuteRecord (offset theta whole) : (s.minuteRecord offset theta whole).core = s.core := by
  unfold State.minuteRecord
  simp
@[simp] theorem core_driftClear : s.driftClear.core = s.core := by unfold State.driftClear; simp
@[simp] theorem core_refitHourly : s.refitHourly.core = s.core := by
  unfold State.refitHourly
  dsimp only
  split <;> simp
@[simp] theorem core_closeDay : s.closeDay.core = s.core := by unfold State.closeDay; simp
@[simp] theorem core_refitDaily : s.refitDaily.core = s.core := by unfold State.refitDaily; simp
@[simp] theorem core_clearLearn : s.clearLearn.core = s.core := by unfold State.clearLearn; simp
@[simp] theorem core_oscTemp (ohms) : (s.oscTemp ohms).core = s.core := by unfold State.oscTemp; split <;> simp

/-! ### Fabric -/

@[simp] theorem core_fabCfgWrite (be v) : (s.fabCfgWrite be v).core = s.core := by unfold State.fabCfgWrite; simp
@[simp] theorem core_fabLaneWrite (l be v) : (s.fabLaneWrite l be v).core = s.core := by
  unfold State.fabLaneWrite
  simp
@[simp] theorem core_setFab (f) (hf : ∀ x, (f x).masterNum = x.masterNum) : (s.setFab f).core = s.core := by
  unfold State.setFab
  simp [hf]
@[simp] theorem core_setMaster (role id) : (s.setMaster role id).core = s.core := by unfold State.setMaster; simp
@[simp] theorem core_followMaster : s.followMaster.core = s.core := by
  unfold State.followMaster
  (repeat' split) <;> simp
@[simp] theorem core_becomeMaster : s.becomeMaster.core = s.core := by unfold State.becomeMaster; simp
@[simp] theorem core_tmClaim : s.tmClaim.core = s.core := by unfold State.tmClaim; simp
@[simp] theorem core_tmWithdraw : s.tmWithdraw.core = s.core := by unfold State.tmWithdraw; split <;> simp
@[simp] theorem core_tmTakeover : s.tmTakeover.core = s.core := by unfold State.tmTakeover; simp
@[simp] theorem core_masterMark : s.masterMark.core = s.core := by
  unfold State.masterMark
  dsimp only
  (repeat' split) <;> simp
@[simp] theorem core_fabAligned : s.fabAligned.core = s.core := by simp [State.fabAligned]
@[simp] theorem core_rowsMark : s.rowsMark.core = s.core := by unfold State.rowsMark; simp
@[simp] theorem core_fabPeerFail (i) : (s.fabPeerFail i).core = s.core := by unfold State.fabPeerFail; simp
@[simp] theorem core_fabPeerOk (i) : (s.fabPeerOk i).core = s.core := by unfold State.fabPeerOk; simp
@[simp] theorem core_rollLane (l) : (s.rollLane l).core = s.core := by unfold State.rollLane; simp
@[simp] theorem core_fabricMark : s.fabricMark.core = s.core := by simp [State.fabricMark]
@[simp] theorem core_peerHeader (l h) : (s.peerHeader l h).core = s.core := by simp [State.peerHeader]

/-! ### MateLink -/

@[simp] theorem core_setMate (f) : (s.setMate f).core = s.core := by unfold State.setMate; simp
@[simp] theorem core_refreshMateLane : s.refreshMateLane.core = s.core := by unfold State.refreshMateLane; simp
@[simp] theorem core_everyPm (f) : (s.everyPm f).core = s.core := by unfold State.everyPm; simp
@[simp] theorem core_resyncEnded (status) : (s.resyncEnded status).core = s.core := by unfold State.resyncEnded; simp
@[simp] theorem core_laneBeat : s.laneBeat.core = s.core := by unfold State.laneBeat; simp
@[simp] theorem core_pinBeat : s.pinBeat.core = s.core := by unfold State.pinBeat; simp
@[simp] theorem core_ageBeats : s.ageBeats.core = s.core := by unfold State.ageBeats; simp
@[simp] theorem core_mateFrame : s.mateFrame.core = s.core := by unfold State.mateFrame; simp
@[simp] theorem core_loseMate : s.loseMate.core = s.core := by unfold State.loseMate; simp
@[simp] theorem core_mateReachable : s.mateReachable.core = s.core := by unfold State.mateReachable; simp
@[simp] theorem core_mateHbChannel (pin) : (s.mateHbChannel pin).core = s.core := by unfold State.mateHbChannel; simp
@[simp] theorem core_matCtlWrite (be v) : (s.matCtlWrite be v).core = s.core := by unfold State.matCtlWrite; simp
@[simp] theorem core_mateAnswers (h) : (s.mateAnswers h).core = s.core := by unfold State.mateAnswers; simp
@[simp] theorem core_mateSynced : s.mateSynced.core = s.core := by unfold State.mateSynced; simp
@[simp] theorem core_mateDiverge (col oct) : (s.mateDiverge col oct).core = s.core := by
  unfold State.mateDiverge
  simp
@[simp] theorem core_mateHeader (h) : (s.mateHeader h).core = s.core := by unfold State.mateHeader; simp
@[simp] theorem core_sendRecord (kind r) : (s.sendRecord kind r).core = s.core := by
  rw [State.sendRecord, core_speed, core_mk, core_fields]
  simp
@[simp] theorem core_sendImageRec (k r) : (s.sendImageRec k r).core = s.core := by unfold State.sendImageRec; simp
@[simp] theorem core_sendImageEnd : s.sendImageEnd.core = s.core := by unfold State.sendImageEnd; simp
@[simp] theorem core_sendTail (k x) : (s.sendTail k x).core = s.core := by unfold State.sendTail; split <;> simp
@[simp] theorem core_sendImage (k) : (s.sendImage k).core = s.core := by unfold State.sendImage; split <;> simp
@[simp] theorem core_mirrorSend : s.mirrorSend.core = s.core := by unfold State.mirrorSend; (repeat' split) <;> simp
@[simp] theorem core_mirrorResend : s.mirrorResend.core = s.core := by unfold State.mirrorResend; simp
@[simp] theorem core_activeBoundary : s.activeBoundary.core = s.core := by unfold State.activeBoundary; simp
@[simp] theorem core_epochMark : s.epochMark.core = s.core := by unfold State.epochMark; simp
@[simp] theorem core_epochCommitSend : s.epochCommitSend.core = s.core := by unfold State.epochCommitSend; simp
@[simp] theorem core_imageMark : s.imageMark.core = s.core := by unfold State.imageMark; split <;> simp

/-! ### Lanes -/

@[simp] theorem core_laneSticky (l b) : (s.laneSticky l b).core = s.core := by unfold State.laneSticky; simp
@[simp] theorem core_refreshCdr (l) : (s.refreshCdr l).core = s.core := by unfold State.refreshCdr; simp
@[simp] theorem core_enterActive (l) : (s.enterActive l).core = s.core := by unfold State.enterActive; simp
@[simp] theorem core_leaveActive (l fault) : (s.leaveActive l fault).core = s.core := by
  unfold State.leaveActive
  simp
@[simp] theorem core_leaveDeep (l) : (s.leaveDeep l).core = s.core := by unfold State.leaveDeep; simp
@[simp] theorem core_judgeSide (l c) : (s.judgeSide l c).core = s.core := by unfold State.judgeSide; simp
@[simp] theorem core_capsBlock (l received) : (s.capsBlock l received).core = s.core := by
  unfold State.capsBlock
  simp
@[simp] theorem core_startExit (l) : (s.startExit l).core = s.core := by unfold State.startExit; simp
@[simp] theorem core_askPower (l) : (s.askPower l).core = s.core := by unfold State.askPower; simp
@[simp] theorem core_laneWake (l) : (s.laneWake l).core = s.core := by unfold State.laneWake; simp
@[simp] theorem core_laneTest (l on) : (s.laneTest l on).core = s.core := by unfold State.laneTest; simp
@[simp] theorem core_prbsInject (l) : (s.prbsInject l).core = s.core := by unfold State.prbsInject; simp
@[simp] theorem core_prbsCount (l n errors) : (s.prbsCount l n errors).core = s.core := by
  unfold State.prbsCount
  simp
@[simp] theorem core_prbsRow (errs l) : (s.prbsRow errs l).core = s.core := by unfold State.prbsRow; simp
@[simp] theorem core_prbsInSync (l) : (s.prbsInSync l).core = s.core := by unfold State.prbsInSync; simp
@[simp] theorem core_prbsSyncLost (l errors) : (s.prbsSyncLost l errors).core = s.core := by
  unfold State.prbsSyncLost
  simp
@[simp] theorem core_prbsLoRead (l) : (s.prbsLoRead l).core = s.core := by unfold State.prbsLoRead; simp
@[simp] theorem core_freshLtm (l) : (s.freshLtm l).core = s.core := by unfold State.freshLtm; simp
@[simp] theorem core_frameCount (l) : (s.frameCount l).core = s.core := by unfold State.frameCount; simp
@[simp] theorem core_profileMark (l) : (s.profileMark l).core = s.core := by unfold State.profileMark; simp

/-! ### Monitor -/

@[simp] theorem core_pmRowMark : s.pmRowMark.core = s.core := by unfold State.pmRowMark; simp
@[simp] theorem core_judgeTca (p old new) : (s.judgeTca p old new).core = s.core := by
  refine core_foldl (fun s i => ?_) _ _
  split <;> simp
@[simp] theorem core_loseBins (p old new) : (s.loseBins p old new).1.core = s.core := by unfold State.loseBins; simp
@[simp] theorem core_commitPath (p) : (s.commitPath p).core = s.core := by unfold State.commitPath; simp
@[simp] theorem core_dueRecords : s.dueRecords.core = s.core := by unfold State.dueRecords; simp
@[simp] theorem core_commitSecond (next) : (s.commitSecond next).core = s.core := by unfold State.commitSecond; simp
@[simp] theorem core_endSecond : s.endSecond.core = s.core := by unfold State.endSecond; simp
@[simp] theorem core_startSecond : s.startSecond.core = s.core := by unfold State.startSecond; simp
@[simp] theorem core_pmMark : s.pmMark.core = s.core := by
  unfold State.pmMark
  dsimp only
  (repeat' split) <;> simp
@[simp] theorem core_taiWrite (be v) : (s.taiWrite be v).core = s.core := by
  unfold State.taiWrite
  split
  · rfl
  · rw [core_mk, core_fields, core_fbit]
@[simp] theorem core_binSelWrite (be v) : (s.binSelWrite be v).core = s.core := by unfold State.binSelWrite; simp
@[simp] theorem core_binClear : s.binClear.core = s.core := by unfold State.binClear; simp

/-! ### Store -/

@[simp] theorem core_toStore (st) : (s.toStore st).core = s.core := by
  rw [State.toStore, core_mk, core_fields, core_fset]
@[simp] theorem core_storeMoves : s.storeMoves.core = s.core := by unfold State.storeMoves; simp
@[simp] theorem core_cutPower : s.cutPower.core = s.core := by rw [State.cutPower, core_mk, core_fields, core_fset]
@[simp] theorem core_noStore : s.noStore.core = s.core := by unfold State.noStore; simp
@[simp] theorem core_storeFails (why) : (s.storeFails why).core = s.core := by unfold State.storeFails; simp
@[simp] theorem core_storeOff : s.storeOff.core = s.core := by unfold State.storeOff; simp
@[simp] theorem core_beginFlush : s.beginFlush.core = s.core := by unfold State.beginFlush; simp
@[simp] theorem core_beginErase : s.beginErase.core = s.core := by unfold State.beginErase; simp
@[simp] theorem core_beginPower : s.beginPower.core = s.core := by unfold State.beginPower; simp
@[simp] theorem core_storeKick : s.storeKick.core = s.core := by unfold State.storeKick; simp
@[simp] theorem core_storeRests : s.storeRests.core = s.core := by unfold State.storeRests; simp
@[simp] theorem core_drawWords (n) : (State.drawWords n s).2.core = s.core := by
  induction n generalizing s with
  | zero => rfl
  | succ n ih => simp [State.drawWords, ih]
@[simp] theorem core_fetchRecord (n) : (s.fetchRecord n).2.core = s.core := by
  unfold State.fetchRecord
  split <;> simp
@[simp] theorem core_postWords (a ws) : (s.postWords a ws).core = s.core := by unfold State.postWords; simp
@[simp] theorem core_deliverRecords (n m k j) : (State.deliverRecords n m k j s).2.2.core = s.core := by
  induction n generalizing s m k j with
  | zero => rfl
  | succ k ih =>
    unfold State.deliverRecords
    split <;> simp [ih]
@[simp] theorem core_serveRead (r c) : (s.serveRead r c).core = s.core := by unfold State.serveRead; simp
@[simp] theorem core_storeReadCmd (r c) : (s.storeReadCmd r c).core = s.core := by unfold State.storeReadCmd; simp
@[simp] theorem core_serveReads : s.serveReads.core = s.core := by unfold State.serveReads; simp
@[simp] theorem core_storeMarkCmd (r c) : (s.storeMarkCmd r c).core = s.core := by unfold State.storeMarkCmd; simp
@[simp] theorem core_writeAnchor (head erases) : (s.writeAnchor head erases).core = s.core := by
  unfold State.writeAnchor
  simp
@[simp] theorem core_adopt (x) : (s.adopt x).core = s.core := by
  rw [State.adopt, core_mk, core_fields, core_fbit, core_setHstHead]
@[simp] theorem core_knowDrive (d) : (s.knowDrive d).core = s.core := by unfold State.knowDrive; simp
@[simp] theorem core_initDone (d) : (s.initDone d).core = s.core := by unfold State.initDone; (repeat' split) <;> simp
@[simp] theorem core_flushed : s.flushed.core = s.core := by unfold State.flushed; simp
@[simp] theorem core_erased : s.erased.core = s.core := by unfold State.erased; simp
@[simp] theorem core_storeRetries : s.storeRetries.core = s.core := by
  unfold State.storeRetries
  split
  · rfl
  · rw [core_storeKick, core_mk, core_fields, core_fset, core_toStore]
@[simp] theorem core_requestErase : s.requestErase.core = s.core := by unfold State.requestErase; simp
@[simp] theorem core_askFlush : s.askFlush.core = s.core := by unfold State.askFlush; simp
@[simp] theorem core_askErase : s.askErase.core = s.core := by unfold State.askErase; simp
@[simp] theorem core_storePfail : s.storePfail.core = s.core := by unfold State.storePfail; simp

/-! ### Energy -/

@[simp] theorem core_relevel : s.relevel.core = s.core := by unfold State.relevel; simp
@[simp] theorem core_estimate (n) : (State.estimate n s).2.core = s.core := by
  induction n generalizing s with
  | zero => rfl
  | succ n ih => simp [State.estimate, ih]
@[simp] theorem core_measure : s.measure.core = s.core := by unfold State.measure; simp
@[simp] theorem core_evalBudget : s.evalBudget.core = s.core := by
  unfold State.evalBudget
  extract_lets cap
  split
  · rw [core_mk, core_fields, core_fbit, core_fset]
  · simp only [↓core_ite, ↓core_raise, ↓core_fset, ↓core_mk, ↓core_fbit, ↓core_fields, ite_self]
    exact core_fset ..
@[simp] theorem core_energyMark : s.energyMark.core = s.core := by unfold State.energyMark; simp
@[simp] theorem core_budgetRestore : s.budgetRestore.core = s.core := by unfold State.budgetRestore; simp
@[simp] theorem core_pfailFall : s.pfailFall.core = s.core := by unfold State.pfailFall; simp
@[simp] theorem core_pfailRise : s.pfailRise.core = s.core := by
  unfold State.pfailRise
  split
  · rfl
  · rw [core_storeKick, core_mk, core_fields, core_fbit]
@[simp] theorem core_floorHoldExpiry : s.floorHoldExpiry.core = s.core := by
  unfold State.floorHoldExpiry
  dsimp only
  split
  · rfl
  · rw [core_relevel, core_mk, core_fields, core_fbit]
@[simp] theorem core_restoreLanes : s.restoreLanes.core = s.core := by unfold State.restoreLanes; simp
@[simp] theorem core_deepMark : s.deepMark.core = s.core := by unfold State.deepMark; simp
@[simp] theorem core_setSleep (i st) : (s.setSleep i st).core = s.core := by unfold State.setSleep; simp
@[simp] theorem core_sleepTo (r st) : (s.sleepTo r st).core = s.core := by unfold State.sleepTo; split <;> simp
@[simp] theorem core_plannerSleep (r st gap) : (s.plannerSleep r st gap).core = s.core := by
  unfold State.plannerSleep
  simp
@[simp] theorem core_storeReading (i r) : (s.storeReading i r).core = s.core := by
  unfold State.storeReading
  (repeat' split) <;> simp
@[simp] theorem core_judgeSensor (med2 i) : (s.judgeSensor med2 i).core = s.core := by
  unfold State.judgeSensor
  split <;> simp
@[simp] theorem core_refreshCap : s.refreshCap.core = s.core := by unfold State.refreshCap; simp
@[simp] theorem core_judgeTrip : s.judgeTrip.core = s.core := by unfold State.judgeTrip; simp
@[simp] theorem core_countHeat (tj) : (s.countHeat tj).core = s.core := by unfold State.countHeat; simp
@[simp] theorem core_thermalRise : s.thermalRise.core = s.core := by unfold State.thermalRise; simp
@[simp] theorem core_thermalFall : s.thermalFall.core = s.core := by unfold State.thermalFall; simp
@[simp] theorem core_serviceHour : s.serviceHour.core = s.core := by unfold State.serviceHour; simp
@[simp] theorem core_ledgerWrite (a v) : (s.ledgerWrite a v).core = s.core := by unfold State.ledgerWrite; simp
@[simp] theorem core_setPfail (low) : (s.setPfail low).core = s.core := by unfold State.setPfail; simp

/-! ### Counters -/

@[simp] theorem core_latchWindow : s.latchWindow.core = s.core := by unfold State.latchWindow; simp
@[simp] theorem core_windowEnd : s.windowEnd.core = s.core := by unfold State.windowEnd; simp
@[simp] theorem core_windowMark : s.windowMark.core = s.core := by unfold State.windowMark; simp
@[simp] theorem core_snapRecord (i) : (s.snapRecord i).core = s.core := by unfold State.snapRecord; simp
@[simp] theorem core_sendSnapshot (q) : (s.sendSnapshot q).core = s.core := by
  unfold State.sendSnapshot
  split <;> simp
@[simp] theorem core_deliverSnapshots : s.deliverSnapshots.core = s.core := by unfold State.deliverSnapshots; simp
@[simp] theorem core_serveSnapshots : s.serveSnapshots.core = s.core := by unfold State.serveSnapshots; simp
@[simp] theorem core_snapMark : s.snapMark.core = s.core := by unfold State.snapMark; simp
@[simp] theorem core_cntLoRead (i) : (s.cntLoRead i).core = s.core := by unfold State.cntLoRead; simp
@[simp] theorem core_cntHiWrite (i be v) : (s.cntHiWrite i be v).core = s.core := by unfold State.cntHiWrite; simp
@[simp] theorem core_cntLoWrite (i be v) : (s.cntLoWrite i be v).core = s.core := by unfold State.cntLoWrite; simp
@[simp] theorem core_pfcWinWrite (v) : (s.pfcWinWrite v).core = s.core := by unfold State.pfcWinWrite; simp
@[simp] theorem core_askSnapshot : s.askSnapshot.core = s.core := by unfold State.askSnapshot; simp
@[simp] theorem core_takeDump : s.takeDump.core = s.core := by unfold State.takeDump; simp
@[simp] theorem core_dumpDue : s.dumpDue.core = s.core := by unfold State.dumpDue; simp
@[simp] theorem core_dumpDone : s.dumpDone.core = s.core := by unfold State.dumpDone; split <;> simp
@[simp] theorem core_dumpRestart : s.dumpRestart.core = s.core := by unfold State.dumpRestart; simp
@[simp] theorem core_dumpCtl (was be) : (s.dumpCtl was be).core = s.core := by unfold State.dumpCtl; simp
@[simp] theorem core_pmRecord (p) : (s.pmRecord p).core = s.core := by unfold State.pmRecord; simp
@[simp] theorem core_walkRecords (x) : (State.walkRecords x s).core = s.core := by
  fun_induction State.walkRecords <;> simp [*]

/-! ### Housekeeping -/

@[simp] theorem core_refreshSpares : s.refreshSpares.core = s.core := by unfold State.refreshSpares; simp
@[simp] theorem core_sayCe : s.sayCe.core = s.core := by unfold State.sayCe; simp
@[simp] theorem core_correct (bank word) : (s.correct bank word).core = s.core := by unfold State.correct; simp
@[simp] theorem core_ceSecond : s.ceSecond.core = s.core := by unfold State.ceSecond; simp
@[simp] theorem core_scrubWord (bank word) : (s.scrubWord bank word).core = s.core := by
  unfold State.scrubWord
  split <;> simp
@[simp] theorem core_handReports : s.handReports.core = s.core := by unfold State.handReports; simp
@[simp] theorem core_scrubSlot (bank word) : (s.scrubSlot bank word).core = s.core := by unfold State.scrubSlot; simp
@[simp] theorem core_writeCorrected (b) : (s.writeCorrected b).core = s.core := by
  unfold State.writeCorrected
  split <;> simp
@[simp] theorem core_scrubWriteback (bank) : (s.scrubWriteback bank).core = s.core := by
  unfold State.scrubWriteback
  simp
@[simp] theorem core_scrubBurst (bank) : (s.scrubBurst bank).core = s.core := by unfold State.scrubBurst; simp
@[simp] theorem core_xbrError (m t cause) : (s.xbrError m t cause).core = s.core := by unfold State.xbrError; simp
@[simp] theorem core_xbrRefuse (m t cause) : (s.xbrRefuse m t cause).core = s.core := by unfold State.xbrRefuse; simp
@[simp] theorem core_releaseLocks (m) : (s.releaseLocks m).core = s.core := by unfold State.releaseLocks; simp
@[simp] theorem core_xbrFail (m t cause) : (s.xbrFail m t cause).core = s.core := by unfold State.xbrFail; simp
@[simp] theorem core_takeLock (m t) : (s.takeLock m t).core = s.core := by unfold State.takeLock; simp
@[simp] theorem core_keepWaiting (m w) : (s.keepWaiting m w).core = s.core := by unfold State.keepWaiting; simp
@[simp] theorem core_dropWait (m) : (s.dropWait m).core = s.core := by unfold State.dropWait; simp
@[simp] theorem core_xbrLock (m t) : (s.xbrLock m t).core = s.core := by
  unfold State.xbrLock
  (repeat' split) <;> simp
@[simp] theorem core_abandon (m t) : (s.abandon m t).core = s.core := by unfold State.abandon; simp
@[simp] theorem core_endLease (m) : (s.endLease m).core = s.core := by
  unfold State.endLease
  dsimp only
  (repeat' split) <;> simp
@[simp] theorem core_hkRequest (p bank locked) : (s.hkRequest p bank locked).core = s.core := by
  unfold State.hkRequest
  (repeat' split) <;> simp
@[simp] theorem core_waited (p least) : (s.waited p least).core = s.core := by unfold State.waited; simp
@[simp] theorem core_hkLose (bank byRank stall charge losers p) :
    (s.hkLose bank byRank stall charge losers p).core = s.core := by
  unfold State.hkLose
  simp
@[simp] theorem core_hkWin (bank p) : (s.hkWin bank p).core = s.core := by unfold State.hkWin; simp
@[simp] theorem core_hkGrant (bank) : (s.hkGrant bank).core = s.core := by
  unfold State.hkGrant
  dsimp only
  (repeat' split) <;> simp
@[simp] theorem core_hkWithdraw (p) : (s.hkWithdraw p).core = s.core := by unfold State.hkWithdraw; split <;> simp
@[simp] theorem core_refreshSweep : s.refreshSweep.core = s.core := by unfold State.refreshSweep; split <;> simp
@[simp] theorem core_setSweep (w) : (s.setSweep w).core = s.core := by unfold State.setSweep; simp
@[simp] theorem core_sweepBank (b) : (s.sweepBank b).core = s.core := by unfold State.sweepBank; simp
@[simp] theorem core_sweepStart (b) : (s.sweepStart b).core = s.core := by unfold State.sweepStart; simp
@[simp] theorem core_sweepSlot (b) : (s.sweepSlot b).core = s.core := by unfold State.sweepSlot; simp
@[simp] theorem core_sweepCopied : s.sweepCopied.core = s.core := by unfold State.sweepCopied; split <;> simp
@[simp] theorem core_copyClean (b) : (s.copyClean b).core = s.core := by unfold State.copyClean; simp
@[simp] theorem core_sweepMark : s.sweepMark.core = s.core := by unfold State.sweepMark; split <;> simp
@[simp] theorem core_sweepPasses (w) : (s.sweepPasses w).core = s.core := by unfold State.sweepPasses; simp

/-! ### Faults -/

@[simp] theorem core_noteLate (octet d) : (s.noteLate octet d).core = s.core := by unfold State.noteLate; simp
@[simp] theorem core_lateCol (d n) : (s.lateCol d n).core = s.core := by unfold State.lateCol; split <;> simp
@[simp] theorem core_lateFrame (d) : (s.lateFrame d).core = s.core := by unfold State.lateFrame; split <;> simp
@[simp] theorem core_lateOct (d n) : (s.lateOct d n).core = s.core := by unfold State.lateOct; split <;> simp
@[simp] theorem core_settleLate : s.settleLate.core = s.core := by
  unfold State.settleLate
  dsimp only
  have hcol : ∀ l : List Nat, State.core (l.foldl (fun s d => match (s.colEngine d).emit with
      | some c => s.setStat false d statLate c.late
      | none => s) s) = s.core := fun l => core_foldl (fun s d => by split <;> simp) l s
  split
  · exact hcol _
  · exact (core_foldl (fun s d => by split <;> simp) _ _).trans (hcol _)
@[simp] theorem core_colIslandDown (d n) : (s.colIslandDown d n).core = s.core := by unfold State.colIslandDown; simp
@[simp] theorem core_octIslandDown (d n) : (s.octIslandDown d n).core = s.core := by
  unfold State.octIslandDown
  dsimp only
  (repeat' split) <;> simp
@[simp] theorem core_rejoin (p) : (s.rejoin p).core = s.core := by unfold State.rejoin; simp
@[simp] theorem core_sayRegBad (a) : (s.sayRegBad a).core = s.core := by unfold State.sayRegBad; simp
@[simp] theorem core_regScrub : s.regScrub.core = s.core := by unfold State.regScrub; simp
@[simp] theorem core_setRail (rail on) : (s.setRail rail on).core = s.core := by unfold State.setRail; simp
@[simp] theorem core_railDroop (rail mv) : (s.railDroop rail mv).core = s.core := by unfold State.railDroop; simp
@[simp] theorem core_railDroopClear (rail) : (s.railDroopClear rail).core = s.core := by
  unfold State.railDroopClear
  simp

/-! ### Rings -/

@[simp] theorem core_setFetched (r cs) : (s.setFetched r cs).core = s.core := by unfold State.setFetched; simp
@[simp] theorem core_sayBoot : s.sayBoot.core = s.core := by unfold State.sayBoot; simp
@[simp] theorem core_ringWrite (a be v rw keep) : (s.ringWrite a be v rw keep).core = s.core := by
  unfold State.ringWrite
  simp
@[simp] theorem core_cringCfgWrite (r be v) : (s.cringCfgWrite r be v).core = s.core := by
  unfold State.cringCfgWrite
  simp
@[simp] theorem core_ringFault (r) : (s.ringFault r).core = s.core := by unfold State.ringFault; simp
@[simp] theorem core_cringTailWrite (r be v) : (s.cringTailWrite r be v).core = s.core := by
  unfold State.cringTailWrite
  simp
@[simp] theorem core_eringCfgWrite (e be v) : (s.eringCfgWrite e be v).core = s.core := by
  unfold State.eringCfgWrite
  simp
@[simp] theorem core_eringHeadWrite (e be v) : (s.eringHeadWrite e be v).core = s.core := by
  unfold State.eringHeadWrite
  simp
@[simp] theorem core_ringBaseWrite (a en be v) : (s.ringBaseWrite a en be v).core = s.core := by
  unfold State.ringBaseWrite
  simp
@[simp] theorem core_takeEntry (r ws) : (s.takeEntry r ws).core = s.core := by unfold State.takeEntry; simp
@[simp] theorem core_commandFetch (r es ok) : (s.commandFetch r es ok).core = s.core := by
  unfold State.commandFetch
  simp
@[simp] theorem core_msix (v) : (s.msix v).core = s.core := by unfold State.msix; simp
@[simp] theorem core_sendPending (n) : (s.sendPending n).core = s.core := by unfold State.sendPending; simp
@[simp] theorem core_msixWrite (a be v) : (s.msixWrite a be v).core = s.core := by unfold State.msixWrite; simp
@[simp] theorem core_setSince (e n) : (s.setSince e n).core = s.core := by unfold State.setSince; simp
@[simp] theorem core_startSince (e) : (s.startSince e).core = s.core := by unfold State.startSince; simp
@[simp] theorem core_signalRing (e) : (s.signalRing e).core = s.core := by unfold State.signalRing; simp
@[simp] theorem core_writeEntry (e x) : (s.writeEntry e x).core = s.core := by unfold State.writeEntry; simp
@[simp] theorem core_eventWrite (e) : (s.eventWrite e).core = s.core := by
  unfold State.eventWrite
  (repeat' split) <;> simp
@[simp] theorem core_coalesceExpiry (e) : (s.coalesceExpiry e).core = s.core := by unfold State.coalesceExpiry; simp
@[simp] theorem core_stopCommands : s.stopCommands.core = s.core := by unfold State.stopCommands; simp
@[simp] theorem core_linkDown : s.linkDown.core = s.core := by unfold State.linkDown; simp
@[simp] theorem core_linkUp (rate width) : (s.linkUp rate width).core = s.core := by unfold State.linkUp; simp
@[simp] theorem core_resumeDma : s.resumeDma.core = s.core := by unfold State.resumeDma; simp
@[simp] theorem core_busMaster (bme d3hot) : (s.busMaster bme d3hot).core = s.core := by
  rw [State.busMaster, core_resumeDma, core_mk, core_fields, core_fbit]
@[simp] theorem core_resetRegs (p) : (s.resetRegs p).core = s.core := by unfold State.resetRegs; simp
@[simp] theorem core_resetEndpoint : s.resetEndpoint.core = s.core := by
  rw [State.resetEndpoint, core_mk, core_fields, core_stopCommands, core_fset, core_fset, core_resetRegs]

/-! ### Lifecycle -/

@[simp] theorem core_refreshDebug : s.refreshDebug.core = s.core := by unfold State.refreshDebug; simp
@[simp] theorem core_showRecords : s.showRecords.core = s.core := by
  rw [State.showRecords, core_refreshDebug, core_ite, core_fbit, ite_self, core_fset, core_fbit, core_fset]
@[simp] theorem core_showRetired (k q) : (s.showRetired k q).core = s.core := by unfold State.showRetired; simp
@[simp] theorem core_showRetirements : s.showRetirements.core = s.core := by unfold State.showRetirements; simp
@[simp] theorem core_showLedgerBits : s.showLedgerBits.core = s.core := by unfold State.showLedgerBits; simp
@[simp] theorem core_loadOtp : s.loadOtp.core = s.core := by
  rw [State.loadOtp, core_refreshCap, core_showRetirements, core_showRecords, core_showLedgerBits, core_mk, core_fields,
    core_wr, core_wr, core_ite, core_fset, core_fset, ite_self, core_fset, core_wr, core_wr]
@[simp] theorem core_askSoft (flr) : (s.askSoft flr).core = s.core := by
  unfold State.askSoft
  split
  · simp
  · split
    · rfl
    · rw [core_mk, core_fields, core_fbit]
@[simp] theorem core_softRegs : s.softRegs.core = s.core := by unfold State.softRegs; simp
@[simp] theorem core_softNumbers : s.softNumbers.core = s.core := by unfold State.softNumbers; simp
@[simp] theorem core_beginLc (r c target) : (s.beginLc r c target).core = s.core := by unfold State.beginLc; simp
@[simp] theorem core_endLc (status r0) : (s.endLc status r0).core = s.core := by unfold State.endLc; simp
@[simp] theorem core_lcReset : s.lcReset.core = s.core := by rw [State.lcReset, core_mk, core_fields, core_fbit]
@[simp] theorem core_lcErase : s.lcErase.core = s.core := by unfold State.lcErase; simp
@[simp] theorem core_burnLost (b) : (s.burnLost b).core = s.core := by unfold State.burnLost; split <;> simp
@[simp] theorem core_softDone : s.softDone.core = s.core := by
  unfold State.softDone
  split
  · rfl
  · obtain ⟨t, hX, ht⟩ : ∃ t, (s.fbit F.rstStat_busy false).raise Ev.rstDone = t ∧ t.core = s.core :=
      ⟨_, rfl, by simp⟩
    rw [hX]
    dsimp only
    split <;> simp [ht]
@[simp] theorem core_unlockWrite (on) : (s.unlockWrite on).core = s.core := by unfold State.unlockWrite; simp
@[simp] theorem core_pcieFlr : s.pcieFlr.core = s.core := by unfold State.pcieFlr; simp

/-! ### Access -/

@[simp] theorem core_plainWrite (a be v) : (s.plainWrite a be v).core = s.core := by
  unfold State.plainWrite
  split <;> simp
@[simp] theorem core_enableReg (reg en be v e inst fault) : (s.enableReg reg en be v e inst fault).core = s.core := by
  unfold State.enableReg
  split <;> simp
@[simp] theorem core_toneNext : s.toneNext.core = s.core := by unfold State.toneNext; simp
@[simp] theorem core_toneRead : s.toneRead.2.core = s.core := by
  unfold State.toneRead
  dsimp only
  split <;> simp
@[simp] theorem core_toneLenWrite (e be v) : (s.toneLenWrite e be v).core = s.core := by
  unfold State.toneLenWrite
  simp
@[simp] theorem core_tmgWrite (a be v) : (s.tmgWrite a be v).core = s.core := by unfold State.tmgWrite; simp
@[simp] theorem core_flpCmdWrite (be v) : (s.flpCmdWrite be v).core = s.core := by unfold State.flpCmdWrite; simp
@[simp] theorem core_flpWrite (a be v) : (s.flpWrite a be v).core = s.core := by unfold State.flpWrite; simp
@[simp] theorem core_fabWrite (a be v) : (s.fabWrite a be v).core = s.core := by unfold State.fabWrite; simp
@[simp] theorem core_pmnWrite (a be v) : (s.pmnWrite a be v).core = s.core := by unfold State.pmnWrite; simp
@[simp] theorem core_thermalOff : s.thermalOff.core = s.core := by unfold State.thermalOff; simp
@[simp] theorem core_hifWrite (a be v) : (s.hifWrite a be v).core = s.core := by unfold State.hifWrite; simp
@[simp] theorem core_regRead (a) : (s.regRead a).2.core = s.core := by unfold State.regRead; (repeat' split) <;> simp
@[simp] theorem core_memRead (a) : (s.memRead a).2.core = s.core := by
  unfold State.memRead
  dsimp only
  (repeat' split) <;> simp
@[simp] theorem core_placeRead (bar2 a) : (s.placeRead bar2 a).core = s.core := by
  unfold State.placeRead
  split <;> simp

/-! ### Crossbar -/

@[simp] theorem core_innerBeat (m write) : (s.innerBeat m write).core = s.core := by unfold State.innerBeat; simp
@[simp] theorem core_grantAlone (p bank) : (s.grantAlone p bank).core = s.core := by unfold State.grantAlone; simp
@[simp] theorem core_denyDebug : s.denyDebug.core = s.core := by
  unfold State.denyDebug
  dsimp only
  split <;> simp
@[simp] theorem core_haltedAccess (m t addr write) : (s.haltedAccess m t addr write).core = s.core := by
  unfold State.haltedAccess
  simp
@[simp] theorem core_withdrawBeat (p) : (s.withdrawBeat p).core = s.core := by
  unfold State.withdrawBeat
  (repeat' split) <;> simp

/-! ### Commands -/

@[simp] theorem core_popCmd (r) : (s.popCmd r).core = s.core := by unfold State.popCmd; simp
@[simp] theorem core_endBusy (r) : (s.endBusy r).core = s.core := by unfold State.endBusy; simp
@[simp] theorem core_snapshotCmd (r c) : (s.snapshotCmd r c).core = s.core := by unfold State.snapshotCmd; simp
@[simp] theorem core_mateResyncCmd (r c) : (s.mateResyncCmd r c).core = s.core := by unfold State.mateResyncCmd; simp
@[simp] theorem core_lifecycleCmd (r c) : (s.lifecycleCmd r c).core = s.core := by unfold State.lifecycleCmd; simp
@[simp] theorem core_badOpcode (r) : (s.badOpcode r).core = s.core := by unfold State.badOpcode; split <;> simp
@[simp] theorem core_dmaTimeout (r) : (s.dmaTimeout r).core = s.core := by unfold State.dmaTimeout; split <;> simp

/-! ### Mate -/

@[simp] theorem core_recordDone (r) : (s.recordDone r).core = s.core := by unfold State.recordDone; simp
@[simp] theorem core_imageCount : s.imageCount.core = s.core := by unfold State.imageCount; simp
@[simp] theorem core_resyncStart (r) : (s.resyncStart r).core = s.core := by unfold State.resyncStart; simp
@[simp] theorem core_resyncDone (activeFlipIdle) : (s.resyncDone activeFlipIdle).core = s.core := by
  unfold State.resyncDone
  split <;> simp

/-! ### Marks -/

@[simp] theorem core_missed (q) : (s.missed q).core = s.core := by unfold State.missed; simp
@[simp] theorem core_secondMark : s.secondMark.core = s.core := by unfold State.secondMark; simp
@[simp] theorem core_beginFrames : s.beginFrames.core = s.core := by unfold State.beginFrames; simp
@[simp] theorem core_latchFrame : s.latchFrame.core = s.core := by unfold State.latchFrame; simp
@[simp] theorem core_latchRow : s.latchRow.core = s.core := by unfold State.latchRow; simp
@[simp] theorem core_beginRows : s.beginRows.core = s.core := by unfold State.beginRows; simp

end Sys2Proof.Machine
end

section
/-! SUPPORT. Operations that keep the core of the state: those that write the memory behind BAR2, the tone memory or
OTP, and those that apply a given operation. -/

namespace Sys2Proof.Machine

variable (s : State) {c₀ : Core}

/-! ### Ops -/

@[simp] theorem kept_putByte (a v) (h : c₀.KeptIn s.core) : c₀.KeptIn (s.putByte a v).core := by
  exact h.trans ⟨fun hok => memOk_putByte a v hok, rfl, rfl, rfl⟩
@[simp] theorem kept_putWord (a be v) (h : c₀.KeptIn s.core) : c₀.KeptIn (s.putWord a be v).core := by
  unfold State.putWord
  have byte : ∀ (p : Bool) x w {t : State}, c₀.KeptIn t.core → c₀.KeptIn (if p then t.putByte x w else t).core := by
    intro p x w t ht
    cases p
    · exact ht
    · exact kept_putByte t x w ht
  exact byte _ _ _ (byte _ _ _ (byte _ _ _ (byte _ _ _ h)))
@[simp] theorem kept_setWord (a v) (h : c₀.KeptIn s.core) : c₀.KeptIn (s.setWord a v).core := by
  unfold State.setWord
  simp [h]
@[simp] theorem kept_putBytes (n x) (h : c₀.KeptIn s.core) : c₀.KeptIn (s.putBytes n x).core := by
  fun_induction State.putBytes <;> simp [*]
@[simp] theorem kept_setFields (a v) (h : c₀.KeptIn s.core) : c₀.KeptIn (s.setFields a v).core := by
  unfold State.setFields
  simp [h]
@[simp] theorem kept_setPathWord (p w v) (h : c₀.KeptIn s.core) : c₀.KeptIn (s.setPathWord p w v).core := by
  unfold State.setPathWord
  simp [h]
@[simp] theorem kept_setTermStat (t w v) (h : c₀.KeptIn s.core) : c₀.KeptIn (s.setTermStat t w v).core := by
  unfold State.setTermStat
  simp [h]
@[simp] theorem kept_hkWrite (a be v) (h : c₀.KeptIn s.core) : c₀.KeptIn (s.hkWrite a be v).core := by
  unfold State.hkWrite
  simp [h]
@[simp] theorem kept_fromHost (a) {f : State → State} (hf : ∀ s : State, s.core.KeptIn (f s).core)
    (h : c₀.KeptIn s.core) :
    c₀.KeptIn (s.fromHost a f).core := by
  simp [State.fromHost, h, kept_then hf]
@[simp] theorem kept_toHost {f : State → State} (hf : ∀ s : State, s.core.KeptIn (f s).core) (h : c₀.KeptIn s.core) :
    c₀.KeptIn (s.toHost f).core := by
  simp [State.toHost, h, kept_then hf]

/-! ### Canvas -/

@[simp] theorem kept_refreshPath (p) (h : c₀.KeptIn s.core) : c₀.KeptIn (s.refreshPath p).core := by
  unfold State.refreshPath
  split <;> simp [h]
@[simp] theorem kept_refreshAll (x) (h : c₀.KeptIn s.core) : c₀.KeptIn (s.refreshAll x).core := by
  fun_induction State.refreshAll <;> simp [*]
@[simp] theorem kept_setDefect (p bitNo on) (h : c₀.KeptIn s.core) : c₀.KeptIn (s.setDefect p bitNo on).core := by
  unfold State.setDefect
  split <;> simp [h]
@[simp] theorem kept_setDefects (bitNo on x) (h : c₀.KeptIn s.core) : c₀.KeptIn (s.setDefects bitNo on x).core := by
  fun_induction State.setDefects <;> simp [*]
@[simp] theorem kept_onCondition (l) {f : State → State} (hf : ∀ s : State, s.core.KeptIn (f s).core)
    (h : c₀.KeptIn s.core) :
    c₀.KeptIn (s.onCondition l f).core := by
  simp [State.onCondition, h, kept_then hf]
@[simp] theorem kept_shiftCondRows (x) (h : c₀.KeptIn s.core) : c₀.KeptIn (s.shiftCondRows x).core := by
  fun_induction State.shiftCondRows <;> simp [*]

/-! ### Ingress -/

@[simp] theorem kept_receivedSf (r x) (h : c₀.KeptIn s.core) : c₀.KeptIn (s.receivedSf r x).core := by
  fun_induction State.receivedSf <;> simp [*]
@[simp] theorem kept_amenaminRow (l r row) (h : c₀.KeptIn s.core) : c₀.KeptIn (s.amenaminRow l r row).core := by
  unfold State.amenaminRow
  simp [h]
@[simp] theorem kept_ingressRow (l r) (h : c₀.KeptIn s.core) : c₀.KeptIn (s.ingressRow l r).core := by
  unfold State.ingressRow
  simp [h]

/-! ### Sdh -/

@[simp] theorem kept_ltmCondition (l b on) (h : c₀.KeptIn s.core) : c₀.KeptIn (s.ltmCondition l b on).core := by
  unfold State.ltmCondition
  simp [h]
@[simp] theorem kept_whenSdh (l) {f : State → State} (hf : ∀ s : State, s.core.KeptIn (f s).core)
    (h : c₀.KeptIn s.core) :
    c₀.KeptIn (s.whenSdh l f).core := by
  simp [State.whenSdh, h, kept_then hf]
@[simp] theorem kept_sdhOof (l) (h : c₀.KeptIn s.core) : c₀.KeptIn (s.sdhOof l).core := by
  unfold State.sdhOof
  simp [h]
@[simp] theorem kept_sdhInFrame (l) (h : c₀.KeptIn s.core) : c₀.KeptIn (s.sdhInFrame l).core := by
  refine kept_whenSdh s l (fun s => ?_) h
  split <;> simp
@[simp] theorem kept_sdhLofDeclare (l) (h : c₀.KeptIn s.core) : c₀.KeptIn (s.sdhLofDeclare l).core := by
  unfold State.sdhLofDeclare
  simp [h]
@[simp] theorem kept_sdhLofClear (l) (h : c₀.KeptIn s.core) : c₀.KeptIn (s.sdhLofClear l).core := by
  unfold State.sdhLofClear
  simp [h]
@[simp] theorem kept_msAisChange (l on) (h : c₀.KeptIn s.core) : c₀.KeptIn (s.msAisChange l on).core := by
  unfold State.msAisChange
  simp [h]
@[simp] theorem kept_msRdiChange (l on) (h : c₀.KeptIn s.core) : c₀.KeptIn (s.msRdiChange l on).core := by
  unfold State.msRdiChange
  simp [h]
@[simp] theorem kept_b2WindowEnd (l degrade errors) (h : c₀.KeptIn s.core) :
    c₀.KeptIn (s.b2WindowEnd l degrade errors).core := by
  unfold State.b2WindowEnd
  simp [h]
@[simp] theorem kept_acceptTrace (addr t w1 w2) (h : c₀.KeptIn s.core) :
    c₀.KeptIn (s.acceptTrace addr t w1 w2).core := by
  unfold State.acceptTrace
  simp [h]
@[simp] theorem kept_j0Accept (l t) (h : c₀.KeptIn s.core) : c₀.KeptIn (s.j0Accept l t).core := by
  unfold State.j0Accept
  simp [h]
@[simp] theorem kept_kInconsistent (l) (h : c₀.KeptIn s.core) : c₀.KeptIn (s.kInconsistent l).core := by
  unfold State.kInconsistent
  simp [h]
@[simp] theorem kept_s1Accept (l v) (h : c₀.KeptIn s.core) : c₀.KeptIn (s.s1Accept l v).core := by
  unfold State.s1Accept
  simp [h]
@[simp] theorem kept_auDefects (l n) (h : c₀.KeptIn s.core) : c₀.KeptIn (s.auDefects l n).core := by
  unfold State.auDefects
  simp [h]
@[simp] theorem kept_auPtrNorm (l n) (h : c₀.KeptIn s.core) : c₀.KeptIn (s.auPtrNorm l n).core := by
  unfold State.auPtrNorm
  simp [h]
@[simp] theorem kept_auLost (l n st) (h : c₀.KeptIn s.core) : c₀.KeptIn (s.auLost l n st).core := by
  unfold State.auLost
  simp [h]
@[simp] theorem kept_whenHp (l n) {f : State → State} (hf : ∀ s : State, s.core.KeptIn (f s).core)
    (h : c₀.KeptIn s.core) :
    c₀.KeptIn (s.whenHp l n f).core := by
  simp [State.whenHp, h, kept_then hf]
@[simp] theorem kept_hpDefect (l n f b on) (h : c₀.KeptIn s.core) : c₀.KeptIn (s.hpDefect l n f b on).core := by
  unfold State.hpDefect
  simp [h]
@[simp] theorem kept_c2Accept (l n c2) (h : c₀.KeptIn s.core) : c₀.KeptIn (s.c2Accept l n c2).core := by
  unfold State.c2Accept
  simp [h]
@[simp] theorem kept_j1Accept (l n t) (h : c₀.KeptIn s.core) : c₀.KeptIn (s.j1Accept l n t).core := by
  refine kept_whenHp s l n (fun s => ?_) h
  exact kept_hpDefect _ _ _ _ _ _ (kept_acceptTrace _ _ _ _ _ (.refl _))
@[simp] theorem kept_hpUneqChange (l n on) (h : c₀.KeptIn s.core) : c₀.KeptIn (s.hpUneqChange l n on).core := by
  unfold State.hpUneqChange
  simp [h]
@[simp] theorem kept_hpRdiChange (l n on) (h : c₀.KeptIn s.core) : c₀.KeptIn (s.hpRdiChange l n on).core := by
  unfold State.hpRdiChange
  simp [h]
@[simp] theorem kept_tuPath (p st) (h : c₀.KeptIn s.core) : c₀.KeptIn (s.tuPath p st).core := by
  unfold State.tuPath
  simp [h]
@[simp] theorem kept_lomPaths (x) (h : c₀.KeptIn s.core) : c₀.KeptIn (s.lomPaths x).core := by
  induction x generalizing s with
  | nil => exact h
  | cons p ps ih => exact ih _ (by simp [h])
@[simp] theorem kept_lomChange (l n on) (h : c₀.KeptIn s.core) : c₀.KeptIn (s.lomChange l n on).core := by
  unfold State.lomChange
  simp [h]
@[simp] theorem kept_lpLabelAccept (p label) (h : c₀.KeptIn s.core) : c₀.KeptIn (s.lpLabelAccept p label).core := by
  unfold State.lpLabelAccept
  dsimp only
  have hu := kept_setDefect s p 27 (decide (label = 0)) h
  split_ifs
  · exact kept_setDefect _ _ _ _ (kept_putByte _ _ _ hu)
  · exact hu
  · exact h
@[simp] theorem kept_j2Accept (p t) (h : c₀.KeptIn s.core) : c₀.KeptIn (s.j2Accept p t).core := by
  unfold State.j2Accept
  simp [h]
@[simp] theorem kept_lpRdiChange (p on) (h : c₀.KeptIn s.core) : c₀.KeptIn (s.lpRdiChange p on).core := by
  unfold State.lpRdiChange
  simp [h]
@[simp] theorem kept_restartAus (l x) (h : c₀.KeptIn s.core) : c₀.KeptIn (s.restartAus l x).core := by
  induction x generalizing s with
  | nil => exact h
  | cons n ns ih => exact ih _ (by simp [h])
@[simp] theorem kept_mendAus (l) (h : c₀.KeptIn s.core) : c₀.KeptIn (s.mendAus l).core := by
  unfold State.mendAus
  simp [h]
@[simp] theorem kept_applyAuCfg (l) (h : c₀.KeptIn s.core) : c₀.KeptIn (s.applyAuCfg l).core := by
  unfold State.applyAuCfg
  simp [h]
@[simp] theorem kept_ltmAuCfgWrite (l n be v) (h : c₀.KeptIn s.core) : c₀.KeptIn (s.ltmAuCfgWrite l n be v).core := by
  unfold State.ltmAuCfgWrite
  simp [h]

/-! ### Paths -/

@[simp] theorem kept_judgeEntry (p again) (h : c₀.KeptIn s.core) : c₀.KeptIn (s.judgeEntry p again).core := by
  unfold State.judgeEntry
  split <;> simp [h]
@[simp] theorem kept_applyEntry (p) (h : c₀.KeptIn s.core) : c₀.KeptIn (s.applyEntry p).core := by
  unfold State.applyEntry
  dsimp only
  split <;> simp [h]
@[simp] theorem kept_applyEntries (h : c₀.KeptIn s.core) : c₀.KeptIn s.applyEntries.core := by
  unfold State.applyEntries
  simp [h]
@[simp] theorem kept_rejudgeLane (l) (h : c₀.KeptIn s.core) : c₀.KeptIn (s.rejudgeLane l).core := by
  unfold State.rejudgeLane
  simp [h]
@[simp] theorem kept_pathWordWrite (p w be v) (h : c₀.KeptIn s.core) : c₀.KeptIn (s.pathWordWrite p w be v).core := by
  unfold State.pathWordWrite
  simp [h]
@[simp] theorem kept_selWrite (p be v) (h : c₀.KeptIn s.core) : c₀.KeptIn (s.selWrite p be v).core := by
  unfold State.selWrite
  simp [h]
@[simp] theorem kept_pathEntryWrite (p w be v) (h : c₀.KeptIn s.core) :
    c₀.KeptIn (s.pathEntryWrite p w be v).core := by
  unfold State.pathEntryWrite
  simp [h]
@[simp] theorem kept_setShed (p on) (h : c₀.KeptIn s.core) : c₀.KeptIn (s.setShed p on).core := by
  unfold State.setShed
  simp [h]
@[simp] theorem kept_ltmCfgWrite (l be v) (h : c₀.KeptIn s.core) : c₀.KeptIn (s.ltmCfgWrite l be v).core := by
  refine kept_whenSdh s l (fun s => ?_) h
  dsimp only
  (repeat' split) <;> simp

/-! ### Mirror -/

@[simp] theorem kept_mirrorWrite (bar2 a be v) {f : State → State} (hf : ∀ s : State, s.core.KeptIn (f s).core)
    (h : c₀.KeptIn s.core) :
    c₀.KeptIn (s.mirrorWrite bar2 a be v f).core := by
  simp [State.mirrorWrite, h, kept_then hf]
@[simp] theorem kept_asHost (bar2 a be v) {f : State → State} (hf : ∀ s : State, s.core.KeptIn (f s).core)
    (h : c₀.KeptIn s.core) :
    c₀.KeptIn (s.asHost bar2 a be v f).core := by
  simp [State.asHost, h, kept_then hf]
@[simp] theorem kept_hostReg (a be v) {f : State → State} (hf : ∀ s : State, s.core.KeptIn (f s).core)
    (h : c₀.KeptIn s.core) :
    c₀.KeptIn (s.hostReg a be v f).core := by
  unfold State.hostReg
  simp [h, hf]

/-! ### Protect -/

@[simp] theorem kept_setW6 (p hi lo n) (h : c₀.KeptIn s.core) : c₀.KeptIn (s.setW6 p hi lo n).core := by
  unfold State.setW6
  simp [h]
@[simp] theorem kept_judgeManual (p high) (h : c₀.KeptIn s.core) : c₀.KeptIn (s.judgeManual p high).core := by
  unfold State.judgeManual
  simp [h]
@[simp] theorem kept_switchSide (octet p req) (h : c₀.KeptIn s.core) : c₀.KeptIn (s.switchSide octet p req).core := by
  unfold State.switchSide
  simp [h]
@[simp] theorem kept_actSel (octet p) (h : c₀.KeptIn s.core) : c₀.KeptIn (s.actSel octet p).core := by
  unfold State.actSel
  simp only [core_selDone]
  refine kept_if (kept_switchSide _ _ _ _) (kept_setW6 _ _ _ _ _ (kept_setW6 _ _ _ _ _ (kept_setW6 _ _ _ _ _ ?_)))
  simp [h]
@[simp] theorem kept_clearSel (p) (h : c₀.KeptIn s.core) : c₀.KeptIn (s.clearSel p).core := by
  unfold State.clearSel
  simp [h]
@[simp] theorem kept_evalSel (octet p wCon all pCon) (h : c₀.KeptIn s.core) :
    c₀.KeptIn (s.evalSel octet p wCon all pCon).core := by
  unfold State.evalSel
  simp [h]
@[simp] theorem kept_evalSels (octet cs x) (h : c₀.KeptIn s.core) : c₀.KeptIn (s.evalSels octet cs x).core := by
  fun_induction State.evalSels <;> simp [*]
@[simp] theorem kept_closeWindow (p) (h : c₀.KeptIn s.core) : c₀.KeptIn (s.closeWindow p).core := by
  unfold State.closeWindow
  simp [h]
@[simp] theorem kept_passWindows (octet) (h : c₀.KeptIn s.core) : c₀.KeptIn (s.passWindows octet).core := by
  unfold State.passWindows
  simp [h]
@[simp] theorem kept_evalColumn (h : c₀.KeptIn s.core) : c₀.KeptIn s.evalColumn.core := by
  unfold State.evalColumn
  simp [h]
@[simp] theorem kept_evalOctet (h : c₀.KeptIn s.core) : c₀.KeptIn s.evalOctet.core := by
  unfold State.evalOctet
  simp [h]
@[simp] theorem kept_pathSdWindow (p errors n) (h : c₀.KeptIn s.core) :
    c₀.KeptIn (s.pathSdWindow p errors n).core := by
  unfold State.pathSdWindow
  simp [h]

/-! ### Aps -/

@[simp] theorem kept_retarget (l) (h : c₀.KeptIn s.core) : c₀.KeptIn (s.retarget l).core := by
  refine kept_foldl (fun s p => ?_) _ _ h
  dsimp only
  (repeat' split) <;> simp
@[simp] theorem kept_apsSelect (g sel req) (h : c₀.KeptIn s.core) : c₀.KeptIn (s.apsSelect g sel req).core := by
  unfold State.apsSelect
  simp [h]
@[simp] theorem kept_apsAct (g) (h : c₀.KeptIn s.core) : c₀.KeptIn (s.apsAct g).core := by
  unfold State.apsAct
  simp [h]
@[simp] theorem kept_evalAps (h : c₀.KeptIn s.core) : c₀.KeptIn s.evalAps.core := by unfold State.evalAps; simp [h]
@[simp] theorem kept_apsCfgWrite (g be v) (h : c₀.KeptIn s.core) : c₀.KeptIn (s.apsCfgWrite g be v).core := by
  unfold State.apsCfgWrite
  simp [h]

/-! ### Terminations -/

@[simp] theorem kept_setTermFlag (t b on) (h : c₀.KeptIn s.core) : c₀.KeptIn (s.setTermFlag t b on).core := by
  unfold State.setTermFlag
  simp [h]
@[simp] theorem kept_judgeTerm (t) (h : c₀.KeptIn s.core) : c₀.KeptIn (s.judgeTerm t).core := by
  unfold State.judgeTerm
  simp [h]
@[simp] theorem kept_refreshTerm (t) (h : c₀.KeptIn s.core) : c₀.KeptIn (s.refreshTerm t).core := by
  unfold State.refreshTerm
  split
  · exact h
  · have hf := kept_setTermFlag s t stTuFail (s.tuFailNow t) h
    exact kept_judgeTerm _ _ (by simp [hf])
@[simp] theorem kept_refreshTerms (l) (h : c₀.KeptIn s.core) : c₀.KeptIn (s.refreshTerms l).core := by
  unfold State.refreshTerms
  simp [h]
@[simp] theorem kept_termWrite (t i be v) (h : c₀.KeptIn s.core) : c₀.KeptIn (s.termWrite t i be v).core := by
  unfold State.termWrite
  simp [h]
@[simp] theorem kept_applyTerm (t) (h : c₀.KeptIn s.core) : c₀.KeptIn (s.applyTerm t).core := by
  unfold State.applyTerm
  dsimp only
  split
  · simp [h]
  · split
    · refine kept_refreshTerm _ _ (kept_foldl (fun s q => by simp) _ _ (kept_setTermFlag _ _ _ _ ?_))
      simp [h]
    · simp [h]
@[simp] theorem kept_applyTerms (h : c₀.KeptIn s.core) : c₀.KeptIn s.applyTerms.core := by
  unfold State.applyTerms
  simp [h]
@[simp] theorem kept_slipCount (t hi) (h : c₀.KeptIn s.core) : c₀.KeptIn (s.slipCount t hi).core := by
  unfold State.slipCount
  simp [h]
@[simp] theorem kept_termCount (t w n) (h : c₀.KeptIn s.core) : c₀.KeptIn (s.termCount t w n).core := by
  unfold State.termCount
  simp [h]
@[simp] theorem kept_showFill (t n) (h : c₀.KeptIn s.core) : c₀.KeptIn (s.showFill t n).core := by
  unfold State.showFill
  simp [h]
@[simp] theorem kept_slip (t delete) (h : c₀.KeptIn s.core) : c₀.KeptIn (s.slip t delete).core := by
  unfold State.slip
  simp [h]
@[simp] theorem kept_frameNews (t f) (h : c₀.KeptIn s.core) : c₀.KeptIn (s.frameNews t f).core := by
  unfold State.frameNews
  refine kept_if (kept_setTermFlag _ _ _ _)
    (kept_if (fun h => kept_setTermFlag _ _ _ _ (kept_setTermFlag _ _ _ _ h))
      (kept_if (fun h => ?_) (kept_if (fun h => ?_) (kept_if (kept_termCount _ _ _ _) h))))
  · exact kept_of_core (core_pmBlocks ..) (kept_termCount _ _ _ _ h)
  · exact kept_of_core ((core_onTerm ..).trans (core_pmBlocks ..)) (kept_termCount _ _ _ _ h)
@[simp] theorem kept_takeFrame (t) (h : c₀.KeptIn s.core) : c₀.KeptIn (s.takeFrame t).core := by
  unfold State.takeFrame
  simp [h]
@[simp] theorem kept_takeFrames (t a) (h : c₀.KeptIn s.core) : c₀.KeptIn (s.takeFrames t a).core := by
  fun_induction State.takeFrames <;> simp [*]
@[simp] theorem kept_deleteFrame (t) (h : c₀.KeptIn s.core) : c₀.KeptIn (s.deleteFrame t).core := by
  unfold State.deleteFrame
  simp [h]
@[simp] theorem kept_feedBits (t l) (h : c₀.KeptIn s.core) : c₀.KeptIn (s.feedBits t l).core := by
  unfold State.feedBits
  simp [h]
@[simp] theorem kept_termOof (t) (h : c₀.KeptIn s.core) : c₀.KeptIn (s.termOof t).core := by
  unfold State.termOof
  simp [h]
@[simp] theorem kept_feedSync (t os) (h : c₀.KeptIn s.core) : c₀.KeptIn (s.feedSync t os).core := by
  unfold State.feedSync
  simp [h]
@[simp] theorem kept_feedAsync (t os) (h : c₀.KeptIn s.core) : c₀.KeptIn (s.feedAsync t os).core := by
  unfold State.feedAsync
  simp [h]
@[simp] theorem kept_feedFrame (t) (h : c₀.KeptIn s.core) : c₀.KeptIn (s.feedFrame t).core := by
  unfold State.feedFrame
  split
  · exact h
  · refine kept_judgeTerm _ _ ?_
    have hc := fun b =>
      kept_setTermFlag (s.onTerm t fun x => { x with fedAt := s.clock.frames }) t stFeedCon b (c₀ := c₀) (by simp [h])
    split
    · exact kept_feedSync _ _ _ (hc _)
    · exact kept_feedAsync _ _ _ (hc _)
@[simp] theorem kept_termInFrame (t) (h : c₀.KeptIn s.core) : c₀.KeptIn (s.termInFrame t).core := by
  unfold State.termInFrame
  split <;> simp [h]
@[simp] theorem kept_termSet (t b ok on) (h : c₀.KeptIn s.core) : c₀.KeptIn (s.termSet t b ok on).core := by
  unfold State.termSet
  simp [h]
@[simp] theorem kept_mfLoss (t) (h : c₀.KeptIn s.core) : c₀.KeptIn (s.mfLoss t).core := by
  unfold State.mfLoss
  simp [h]
@[simp] theorem kept_casLoss (t) (h : c₀.KeptIn s.core) : c₀.KeptIn (s.casLoss t).core := by
  unfold State.casLoss
  simp [h]
@[simp] theorem kept_putStore (fr x) (h : c₀.KeptIn s.core) : c₀.KeptIn (s.putStore fr x).core := by
  induction x generalizing s with
  | nil => exact h
  | cons x xs ih =>
    unfold State.putStore
    split
    · exact ih _ (by simp [h])
    · exact ih _ h
@[simp] theorem kept_readSlip (t) (h : c₀.KeptIn s.core) : c₀.KeptIn (s.readSlip t).core := by
  unfold State.readSlip
  simp [h]
@[simp] theorem kept_deliver (t) (h : c₀.KeptIn s.core) : c₀.KeptIn (s.deliver t).core := by
  unfold State.deliver
  simp [h]
@[simp] theorem kept_deliverAll (h : c₀.KeptIn s.core) : c₀.KeptIn s.deliverAll.core := by
  unfold State.deliverAll
  simp [h]

/-! ### Egress -/

@[simp] theorem kept_putStoreRun (a os) (h : c₀.KeptIn s.core) : c₀.KeptIn (s.putStoreRun a os).core := by
  exact h.trans ⟨fun hok => memOk_putStoreRun a os hok, rfl, rfl, rfl⟩
@[simp] theorem kept_captureRow (v r) (h : c₀.KeptIn s.core) : c₀.KeptIn (s.captureRow v r).core := by
  unfold State.captureRow
  simp [h]
@[simp] theorem kept_holdV (v period r) (h : c₀.KeptIn s.core) : c₀.KeptIn (s.holdV v period r).core := by
  unfold State.holdV
  simp [h]
@[simp] theorem kept_storeRow (v) (h : c₀.KeptIn s.core) : c₀.KeptIn (s.storeRow v).core := by
  unfold State.storeRow
  split <;> simp [h]
@[simp] theorem kept_endEmission (h : c₀.KeptIn s.core) : c₀.KeptIn s.endEmission.core := by
  refine kept_foldl (fun s l => kept_storeRow s l (.refl _)) _ _ ?_
  refine kept_of_core ((core_foldl (fun s l => ?_) _ _).trans (core_foldl (fun s d => ?_) _ s)) h
  · simp
  · split <;> simp
@[simp] theorem kept_endVRow (parity v) (h : c₀.KeptIn s.core) : c₀.KeptIn (s.endVRow parity v).core := by
  unfold State.endVRow
  simp [h]
@[simp] theorem kept_endVRows (parity) (h : c₀.KeptIn s.core) : c₀.KeptIn (s.endVRows parity).core := by
  unfold State.endVRows
  simp [h]

/-! ### Epoch -/

@[simp] theorem kept_setItem (i ws) (h : c₀.KeptIn s.core) : c₀.KeptIn (s.setItem i ws).core := by
  unfold State.setItem
  split <;> simp [h]
@[simp] theorem kept_fillItem (l i) (h : c₀.KeptIn s.core) : c₀.KeptIn (State.fillItem l s i).core := by
  unfold State.fillItem
  split <;> simp [h]
@[simp] theorem kept_fillMonitor (l p) (h : c₀.KeptIn s.core) : c₀.KeptIn (State.fillMonitor l s p).core := by
  unfold State.fillMonitor
  split <;> simp [h]
@[simp] theorem kept_fillEpoch (l) (h : c₀.KeptIn s.core) : c₀.KeptIn (s.fillEpoch l).core := by
  unfold State.fillEpoch
  have hsel := kept_foldl (fun s p => kept_fillItem s l (.selector p) (.refl _)) s.selectors s h
  have haps := kept_foldl (fun s g => kept_fillItem s l (.aps g) (.refl _)) (List.range 24) _ hsel
  have hitems := kept_fillItem _ l .seconds (kept_fillItem _ l .idleMonitor (kept_fillItem _ l .timing haps))
  dsimp only
  split
  · exact hitems
  · exact kept_foldl (fun s p => kept_fillMonitor s l p (.refl _)) _ _ hitems

/-! ### Banks -/

@[simp] theorem kept_turnOff (r) (h : c₀.KeptIn s.core) : c₀.KeptIn (s.turnOff r).core := by
  have hoff : ((s.setBanks bankOff (s.regionBanks r)).setRegion r true).core = s.core := by simp
  simp only [State.core, Core.mk.injEq] at hoff
  obtain ⟨-, -, hclock, -, hmaster, hpending⟩ := hoff
  exact h.trans ⟨fun hok => memOk_turnOff r hok, hclock, hmaster, hpending⟩
@[simp] theorem kept_hostMem (a be v) {f : State → State} (hf : ∀ s : State, s.core.KeptIn (f s).core)
    (h : c₀.KeptIn s.core) :
    c₀.KeptIn (s.hostMem a be v f).core := by
  simp [State.hostMem, h, kept_then hf]
@[simp] theorem kept_memOffApply (h : c₀.KeptIn s.core) : c₀.KeptIn s.memOffApply.core := by
  unfold State.memOffApply
  simp [h]

/-! ### Flip -/

@[simp] theorem kept_progWrite (m octet bankB word high be v) (h : c₀.KeptIn s.core) :
    c₀.KeptIn (s.progWrite m octet bankB word high be v).core := by
  unfold State.progWrite
  simp [h]
@[simp] theorem kept_reach (bar2 a) {f : State → State} (hf : ∀ s : State, s.core.KeptIn (f s).core)
    (h : c₀.KeptIn s.core) :
    c₀.KeptIn (s.reach bar2 a f).core := by
  simp [State.reach, h, kept_then hf]
@[simp] theorem kept_byMaster (m bar2 a be v) {f : State → State} (hf : ∀ s : State, s.core.KeptIn (f s).core)
    (h : c₀.KeptIn s.core) :
    c₀.KeptIn (s.byMaster m bar2 a be v f).core := by
  unfold State.byMaster
  simp [h, hf]

/-! ### Fabric -/

@[simp] theorem kept_loopMark (h : c₀.KeptIn s.core) : c₀.KeptIn s.loopMark.core := by unfold State.loopMark; simp [h]

/-! ### MateLink -/

@[simp] theorem kept_epochApply (h : c₀.KeptIn s.core) : c₀.KeptIn s.epochApply.core := by
  unfold State.epochApply
  split <;> simp [h]
@[simp] theorem kept_mateFail (h : c₀.KeptIn s.core) : c₀.KeptIn s.mateFail.core := by unfold State.mateFail; simp [h]

/-! ### SdhCommands -/

@[simp] theorem kept_onSdhLane (l) {f : State → State} (hf : ∀ s : State, s.core.KeptIn (f s).core)
    (h : c₀.KeptIn s.core) :
    c₀.KeptIn (s.onSdhLane l f).core := by
  simp [State.onSdhLane, h, kept_then hf]
@[simp] theorem kept_losDeclare (l) (h : c₀.KeptIn s.core) : c₀.KeptIn (s.losDeclare l).core := by
  exact kept_whenSdh s l (fun s => kept_onSdhLane s l (fun s => by simp) (.refl _)) h
@[simp] theorem kept_losClear (l) (h : c₀.KeptIn s.core) : c₀.KeptIn (s.losClear l).core := by
  refine kept_whenSdh s l (fun s => ?_) h
  split
  · exact kept_onSdhLane s l (fun s => by simp) (.refl _)
  · exact .refl _
@[simp] theorem kept_tuTerm (t st) (h : c₀.KeptIn s.core) : c₀.KeptIn (s.tuTerm t st).core := by
  unfold State.tuTerm
  simp [h]
@[simp] theorem kept_tuPtrChange (tu st) (h : c₀.KeptIn s.core) : c₀.KeptIn (s.tuPtrChange tu st).core := by
  unfold State.tuPtrChange
  split <;> simp [h]

/-! ### Lanes -/

@[simp] theorem kept_enterLock (l) (h : c₀.KeptIn s.core) : c₀.KeptIn (s.enterLock l).core := by
  unfold State.enterLock
  simp [h]
@[simp] theorem kept_goStage (l st fault) (h : c₀.KeptIn s.core) : c₀.KeptIn (s.goStage l st fault).core := by
  unfold State.goStage
  simp only [core_refreshMateLane]
  refine kept_refreshTerms _ l ?_
  simp [h]
@[simp] theorem kept_enterBackoff (l) (h : c₀.KeptIn s.core) : c₀.KeptIn (s.enterBackoff l).core := by
  unfold State.enterBackoff
  simp [h]
@[simp] theorem kept_laneFailure (l) (h : c₀.KeptIn s.core) : c₀.KeptIn (s.laneFailure l).core := by
  unfold State.laneFailure
  simp [h]
@[simp] theorem kept_endBackoff (l) (h : c₀.KeptIn s.core) : c₀.KeptIn (s.endBackoff l).core := by
  unfold State.endBackoff
  simp [h]
@[simp] theorem kept_rxDetect (l found) (h : c₀.KeptIn s.core) : c₀.KeptIn (s.rxDetect l found).core := by
  unfold State.rxDetect
  simp [h]
@[simp] theorem kept_backoffRetry (l found) (h : c₀.KeptIn s.core) : c₀.KeptIn (s.backoffRetry l found).core := by
  unfold State.backoffRetry
  simp [h]
@[simp] theorem kept_laneRetry (l) (h : c₀.KeptIn s.core) : c₀.KeptIn (s.laneRetry l).core := by
  unfold State.laneRetry
  simp [h]
@[simp] theorem kept_laneTrained (l) (h : c₀.KeptIn s.core) : c₀.KeptIn (s.laneTrained l).core := by
  unfold State.laneTrained
  simp [h]
@[simp] theorem kept_laneRetrain (l) (h : c₀.KeptIn s.core) : c₀.KeptIn (s.laneRetrain l).core := by
  unfold State.laneRetrain
  simp [h]
@[simp] theorem kept_trainTimeout (l) (h : c₀.KeptIn s.core) : c₀.KeptIn (s.trainTimeout l).core := by
  unfold State.trainTimeout
  simp [h]
@[simp] theorem kept_capsTimeout (l) (h : c₀.KeptIn s.core) : c₀.KeptIn (s.capsTimeout l).core := by
  unfold State.capsTimeout
  simp [h]
@[simp] theorem kept_amenaminInFrame (l) (h : c₀.KeptIn s.core) : c₀.KeptIn (s.amenaminInFrame l).core := by
  unfold State.amenaminInFrame
  (repeat' split) <;> simp [h]
@[simp] theorem kept_framerLost (l) (h : c₀.KeptIn s.core) : c₀.KeptIn (s.framerLost l).core := by
  unfold State.framerLost
  simp [h]
@[simp] theorem kept_amenaminOof (l) (h : c₀.KeptIn s.core) : c₀.KeptIn (s.amenaminOof l).core := by
  unfold State.amenaminOof
  simp [h]
@[simp] theorem kept_amenaminLof (l) (h : c₀.KeptIn s.core) : c₀.KeptIn (s.amenaminLof l).core := by
  unfold State.amenaminLof
  split
  · exact h
  · have ht := kept_refreshTerms _ l
      (kept_onCondition s l (f := fun s => s.onLane l fun x => { x with lof := true }) (fun s => by simp) h)
    simp [ht]
@[simp] theorem kept_amenaminLofClear (l) (h : c₀.KeptIn s.core) : c₀.KeptIn (s.amenaminLofClear l).core := by
  unfold State.amenaminLofClear
  simp [h]
@[simp] theorem kept_amenaminLos (l) (h : c₀.KeptIn s.core) : c₀.KeptIn (s.amenaminLos l).core := by
  unfold State.amenaminLos
  split
  · exact h
  · have ht := kept_refreshTerms _ l
      (kept_onCondition s l (f := fun s => s.fbit (F.sdsStat_los l) true) (fun s => by simp) h)
    simp [ht]
@[simp] theorem kept_freezeLane (l) (h : c₀.KeptIn s.core) : c₀.KeptIn (s.freezeLane l).core := by
  unfold State.freezeLane
  simp [h]
@[simp] theorem kept_sdhLocked (l) (h : c₀.KeptIn s.core) : c₀.KeptIn (s.sdhLocked l).core := by
  unfold State.sdhLocked
  simp [h]
@[simp] theorem kept_densityWindow (l low) (h : c₀.KeptIn s.core) : c₀.KeptIn (s.densityWindow l low).core := by
  unfold State.densityWindow
  simp [h]
@[simp] theorem kept_laneLosClear (l) (h : c₀.KeptIn s.core) : c₀.KeptIn (s.laneLosClear l).core := by
  unfold State.laneLosClear
  simp [h]
@[simp] theorem kept_idleOkExpiry (l) (h : c₀.KeptIn s.core) : c₀.KeptIn (s.idleOkExpiry l).core := by
  unfold State.idleOkExpiry
  simp [h]
@[simp] theorem kept_deepComplete (l) (h : c₀.KeptIn s.core) : c₀.KeptIn (s.deepComplete l).core := by
  unfold State.deepComplete
  simp [h]
@[simp] theorem kept_powerMark (l) (h : c₀.KeptIn s.core) : c₀.KeptIn (s.powerMark l).core := by
  unfold State.powerMark
  simp [h]
@[simp] theorem kept_deepStop (l) (h : c₀.KeptIn s.core) : c₀.KeptIn (s.deepStop l).core := by
  unfold State.deepStop
  simp [h]
@[simp] theorem kept_deepExitDone (l) (h : c₀.KeptIn s.core) : c₀.KeptIn (s.deepExitDone l).core := by
  unfold State.deepExitDone
  simp [h]
@[simp] theorem kept_laneCfgWrite (l be v) (h : c₀.KeptIn s.core) : c₀.KeptIn (s.laneCfgWrite l be v).core := by
  unfold State.laneCfgWrite
  simp [h]
@[simp] theorem kept_laneCfgApply (l) (h : c₀.KeptIn s.core) : c₀.KeptIn (s.laneCfgApply l).core := by
  unfold State.laneCfgApply
  dsimp only
  split
  · exact h
  · simp only [core_askPower]
    refine kept_goStage _ _ _ _ (kept_rejudgeLane _ _ (kept_if (fun hu => ?_) ?_))
    · exact kept_of_core (core_judgeAuAny ..) (kept_restartAus _ _ _ (kept_of_core (core_judgeAus ..) hu))
    · have hg := kept_goStage s l stOff false h
      simp [hg]
@[simp] theorem kept_testMark (l) (h : c₀.KeptIn s.core) : c₀.KeptIn (s.testMark l).core := by
  unfold State.testMark
  dsimp only
  (repeat' split) <;> simp [h]
@[simp] theorem kept_stageMark (l) (h : c₀.KeptIn s.core) : c₀.KeptIn (s.stageMark l).core := by
  unfold State.stageMark
  simp [h]
@[simp] theorem kept_laneMark (l) (h : c₀.KeptIn s.core) : c₀.KeptIn (s.laneMark l).core := by
  exact kept_stageMark _ _ (kept_testMark _ _ (by simp [h]))

/-! ### Energy -/

@[simp] theorem kept_shedTerms (ps) (h : c₀.KeptIn s.core) : c₀.KeptIn (s.shedTerms ps).core := by
  unfold State.shedTerms
  simp [h]
@[simp] theorem kept_shedMark (h : c₀.KeptIn s.core) : c₀.KeptIn s.shedMark.core := by
  unfold State.shedMark
  dsimp only
  split
  · simp [h]
  · have hshed : ∀ (ps : List Nat) on, c₀.KeptIn (ps.foldl (fun (s : State) p => s.setShed p on)
        { s with nrg := { s.nrg with applied := s.fget F.nrgStat_level } }).core :=
      fun ps on => kept_foldl (fun (s : State) p => kept_setShed s p on (.refl _)) _ _ (by simp [h])
    simp [hshed]
@[simp] theorem kept_age (tj mv) (h : c₀.KeptIn s.core) : c₀.KeptIn (s.age tj mv).core := by
  unfold State.age
  obtain ⟨t, hX, ht⟩ : ∃ t, (s.wr Reg.nrgLedger (s.rd Reg.nrgLedger + BitVec.ofNat 32
      ((s.nrg.ledgerAcc + ledgerRate tj mv) / ledgerUnit))).wr Reg.nrgSvcHours (s.rd Reg.nrgSvcHours +
      BitVec.ofNat 32 ((s.nrg.svcAcc + 1000000) / serviceUnit)) = t ∧ t.core = s.core := ⟨_, rfl, by simp⟩
  have hk : c₀.KeptIn t.core := kept_of_core ht h
  dsimp only
  rw [hX]
  split <;> simp [hk]
@[simp] theorem kept_sensorRead (temps mv) (h : c₀.KeptIn s.core) : c₀.KeptIn (s.sensorRead temps mv).core := by
  unfold State.sensorRead
  simp [h]

/-! ### Housekeeping -/

@[simp] theorem kept_sweepRetires (w) (h : c₀.KeptIn s.core) : c₀.KeptIn (s.sweepRetires w).core := by
  unfold State.sweepRetires
  dsimp only
  split <;> simp [h]
@[simp] theorem kept_sweepResult (march pass) (h : c₀.KeptIn s.core) : c₀.KeptIn (s.sweepResult march pass).core := by
  unfold State.sweepResult
  split <;> simp [h]

/-! ### Faults -/

@[simp] theorem kept_groupDown (g) (h : c₀.KeptIn s.core) : c₀.KeptIn (s.groupDown g).core := by
  unfold State.groupDown
  simp [h]
@[simp] theorem kept_islandDown (i n) (h : c₀.KeptIn s.core) : c₀.KeptIn (s.islandDown i n).core := by
  unfold State.islandDown
  simp [h]
@[simp] theorem kept_islandHang (i n) (h : c₀.KeptIn s.core) : c₀.KeptIn (s.islandHang i n).core := by
  unfold State.islandHang
  simp [h]
@[simp] theorem kept_watchdogs (h : c₀.KeptIn s.core) : c₀.KeptIn s.watchdogs.core := by
  unfold State.watchdogs
  simp [h]
@[simp] theorem kept_hostIslandReset (i) (h : c₀.KeptIn s.core) : c₀.KeptIn (s.hostIslandReset i).core := by
  unfold State.hostIslandReset
  simp [h]
@[simp] theorem kept_damageWord (array word double) (h : c₀.KeptIn s.core) :
    c₀.KeptIn (s.damageWord array word double).core := by
  unfold State.damageWord
  simp [h]
@[simp] theorem kept_inject (v) (h : c₀.KeptIn s.core) : c₀.KeptIn (s.inject v).core := by
  unfold State.inject
  split <;> simp [h]
@[simp] theorem kept_faultInject (be v) (h : c₀.KeptIn s.core) : c₀.KeptIn (s.faultInject be v).core := by
  unfold State.faultInject
  simp [h]

/-! ### Lifecycle -/

@[simp] theorem kept_burnt (x) (h : c₀.KeptIn s.core) : c₀.KeptIn (s.burnt x).core := by
  cases x <;> unfold State.burnt
  · simp [h]
  · simp [h]
  · dsimp only
    split <;> simp [h]
  · simp [h]
  · dsimp only
    split <;> simp [h]
@[simp] theorem kept_burnCheck (ok) (h : c₀.KeptIn s.core) : c₀.KeptIn (s.burnCheck ok).core := by
  unfold State.burnCheck
  split
  · exact h
  · simp [h]
@[simp] theorem kept_eraseDone (h : c₀.KeptIn s.core) : c₀.KeptIn s.eraseDone.core := by
  unfold State.eraseDone
  split
  · exact h
  · have he : c₀.KeptIn s.erased.core := kept_of_core (core_erased s) h
    exact kept_if (fun hu => ⟨hu.ok, hu.clock, hu.masterNum, hu.pending⟩)
      (kept_if (fun hu => ⟨hu.ok, hu.clock, hu.masterNum, hu.pending⟩) he)

/-! ### Access -/

@[simp] theorem kept_plainThen (a be v) {f : State → State} (hf : ∀ s : State, s.core.KeptIn (f s).core)
    (h : c₀.KeptIn s.core) :
    c₀.KeptIn (s.plainThen a be v f).core := by
  simp [State.plainThen, h, kept_then hf]
@[simp] theorem kept_putSample (a v) (h : c₀.KeptIn s.core) : c₀.KeptIn (s.putSample a v).core := by
  exact h.trans ⟨fun hok => memOk_putSample a v hok, rfl, rfl, rfl⟩
@[simp] theorem kept_toneWrite (be v) (h : c₀.KeptIn s.core) : c₀.KeptIn (s.toneWrite be v).core := by
  unfold State.toneWrite
  have sample : ∀ (p : Bool) x w {t : State}, c₀.KeptIn t.core →
      c₀.KeptIn (if p then t.putSample x w else t).core := by
    intro p x w t ht
    cases p
    · exact ht
    · exact kept_putSample t x w ht
  simp only [core_toneNext]
  exact sample _ _ _ (sample _ _ _ (sample _ _ _ (sample _ _ _ (by simp [h]))))
@[simp] theorem kept_rstWrite (a be v) (h : c₀.KeptIn s.core) : c₀.KeptIn (s.rstWrite a be v).core := by
  unfold State.rstWrite
  simp [h]
@[simp] theorem kept_sdsCtlWrite (l be v) (h : c₀.KeptIn s.core) : c₀.KeptIn (s.sdsCtlWrite l be v).core := by
  unfold State.sdsCtlWrite
  simp [h]
@[simp] theorem kept_sdsWrite (a be v) (h : c₀.KeptIn s.core) : c₀.KeptIn (s.sdsWrite a be v).core := by
  unfold State.sdsWrite
  simp [h]
@[simp] theorem kept_ltmWrite (a be v) (h : c₀.KeptIn s.core) : c₀.KeptIn (s.ltmWrite a be v).core := by
  unfold State.ltmWrite
  simp [h]
@[simp] theorem kept_engineWrite (m a be v) (h : c₀.KeptIn s.core) : c₀.KeptIn (s.engineWrite m a be v).core := by
  unfold State.engineWrite
  simp [h]
@[simp] theorem kept_prtWrite (a be v) (h : c₀.KeptIn s.core) : c₀.KeptIn (s.prtWrite a be v).core := by
  unfold State.prtWrite
  simp [h]
@[simp] theorem kept_pfcWrite (a be v) (h : c₀.KeptIn s.core) : c₀.KeptIn (s.pfcWrite a be v).core := by
  unfold State.pfcWrite
  simp [h]
@[simp] theorem kept_hstWrite (a be v) (h : c₀.KeptIn s.core) : c₀.KeptIn (s.hstWrite a be v).core := by
  unfold State.hstWrite
  simp [h]
@[simp] theorem kept_nrgWrite (a be v) (h : c₀.KeptIn s.core) : c₀.KeptIn (s.nrgWrite a be v).core := by
  unfold State.nrgWrite
  simp [h]
@[simp] theorem kept_regEffect (m a be v) (h : c₀.KeptIn s.core) : c₀.KeptIn (s.regEffect m a be v).core := by
  unfold State.regEffect
  simp [h]
@[simp] theorem kept_memEffect (m a be v) (h : c₀.KeptIn s.core) : c₀.KeptIn (s.memEffect m a be v).core := by
  unfold State.memEffect
  simp [h]
@[simp] theorem kept_writeAs (m bar2 a be v) (h : c₀.KeptIn s.core) : c₀.KeptIn (s.writeAs m bar2 a be v).core := by
  unfold State.writeAs
  simp [h]

/-! ### Crossbar -/

@[simp] theorem kept_xbrServe (m t addr write release) (h : c₀.KeptIn s.core) :
    c₀.KeptIn (s.xbrServe m t addr write release).core := by
  unfold State.xbrServe
  (repeat' split) <;> simp [h]
@[simp] theorem kept_xbrRun (m t addr write release) (h : c₀.KeptIn s.core) :
    c₀.KeptIn (s.xbrRun m t addr write release).core := by
  unfold State.xbrRun
  split <;> simp [h]
@[simp] theorem kept_serveOne (m w) (h : c₀.KeptIn s.core) : c₀.KeptIn (s.serveOne m w).core := by
  unfold State.serveOne
  split <;> simp [h]
@[simp] theorem kept_serveWaits (n) (h : c₀.KeptIn s.core) : c₀.KeptIn (State.serveWaits n s).core := by
  fun_induction State.serveWaits <;> simp [*]
@[simp] theorem kept_serveAll (h : c₀.KeptIn s.core) : c₀.KeptIn s.serveAll.core := by unfold State.serveAll; simp [h]
@[simp] theorem kept_xbrTransaction (m t addr write release) (h : c₀.KeptIn s.core) :
    c₀.KeptIn (s.xbrTransaction m t addr write release).core := by
  unfold State.xbrTransaction
  (repeat' split) <;> simp [h]
@[simp] theorem kept_performBeat (p) (h : c₀.KeptIn s.core) : c₀.KeptIn (s.performBeat p).core := by
  unfold State.performBeat
  (repeat' split) <;> simp [h]
@[simp] theorem kept_grantBeat (bank) (h : c₀.KeptIn s.core) : c₀.KeptIn (s.grantBeat bank).core := by
  unfold State.grantBeat
  dsimp only
  split <;> simp [h]

/-! ### Commands -/

@[simp] theorem kept_ringCommand (r op ok) {f : State → CmdEntry → State}
    (hf : ∀ (s : State) c, s.core.KeptIn (f s c).core) (h : c₀.KeptIn s.core) :
    c₀.KeptIn (s.ringCommand r op ok f).core := by
  unfold State.ringCommand
  split
  · exact h
  · rename_i c _
    simp [h, kept_then (hf · c)]
@[simp] theorem kept_cmdReg (a v) (h : c₀.KeptIn s.core) : c₀.KeptIn (s.cmdReg a v).core := by
  unfold State.cmdReg
  simp [h]
@[simp] theorem kept_unlessStandby (r c) {f : State → State} (hf : ∀ s : State, s.core.KeptIn (f s).core)
    (h : c₀.KeptIn s.core) :
    c₀.KeptIn (s.unlessStandby r c f).core := by
  simp [State.unlessStandby, h, kept_then hf]
@[simp] theorem kept_unlessBusy (r c) {f : State → State} (hf : ∀ s : State, s.core.KeptIn (f s).core)
    (h : c₀.KeptIn s.core) :
    c₀.KeptIn (s.unlessBusy r c f).core := by
  simp [State.unlessBusy, h, kept_then hf]
@[simp] theorem kept_loadWords (octet bankB n x) (h : c₀.KeptIn s.core) :
    c₀.KeptIn (State.loadWords octet bankB n x s).core := by
  induction x generalizing s n with
  | nil => exact h
  | cons w ws ih => exact ih _ _ (by simp [h])
@[simp] theorem kept_loadStarts (octet bankB n x) (h : c₀.KeptIn s.core) :
    c₀.KeptIn (State.loadStarts octet bankB n x s).core := by
  fun_induction State.loadStarts <;> simp [*]
@[simp] theorem kept_loadBank (r c nw nv words starts ok) (h : c₀.KeptIn s.core) :
    c₀.KeptIn (s.loadBank r c nw nv words starts ok).core := by
  unfold State.loadBank
  simp [h]
@[simp] theorem kept_armFlipCmd (r c) (h : c₀.KeptIn s.core) : c₀.KeptIn (s.armFlipCmd r c).core := by
  unfold State.armFlipCmd
  have hr := kept_cmdReg (s.cmdReg Reg.flpReq (((c.w 1).extractLsb' 0 4).setWidth 32)) Reg.flpTarget (c.w 2)
    (c₀ := c₀) (by simp [h])
  simp [hr]
@[simp] theorem kept_cancelFlipCmd (r c) (h : c₀.KeptIn s.core) : c₀.KeptIn (s.cancelFlipCmd r c).core := by
  unfold State.cancelFlipCmd
  simp [h]
@[simp] theorem kept_dumpConfigCmd (r c) (h : c₀.KeptIn s.core) : c₀.KeptIn (s.dumpConfigCmd r c).core := by
  unfold State.dumpConfigCmd
  have hr := kept_cmdReg (s.cmdReg Reg.pfcDumpCtl (c.w 1)) Reg.pfcWin (c.w 2) (c₀ := c₀) (by simp [h])
  simp [hr]
@[simp] theorem kept_protCmd (r c) (h : c₀.KeptIn s.core) : c₀.KeptIn (s.protCmd r c).core := by
  unfold State.protCmd
  simp [h]

/-! ### Mate -/

@[simp] theorem kept_takeRecord (kind r) {f : State → State} (hf : ∀ s : State, s.core.KeptIn (f s).core)
    (h : c₀.KeptIn s.core) :
    c₀.KeptIn (s.takeRecord kind r f).core := by
  simp [State.takeRecord, h, kept_then hf]
@[simp] theorem kept_recordWrite (r) (h : c₀.KeptIn s.core) : c₀.KeptIn (s.recordWrite r).core := by
  unfold State.recordWrite
  simp [h]
@[simp] theorem kept_imageTable (a be v) (h : c₀.KeptIn s.core) : c₀.KeptIn (s.imageTable a be v).core := by
  unfold State.imageTable
  simp [h]
@[simp] theorem kept_imageMem (a be v) (h : c₀.KeptIn s.core) : c₀.KeptIn (s.imageMem a be v).core := by
  unfold State.imageMem
  simp [h]
@[simp] theorem kept_imageReg (a be v) (h : c₀.KeptIn s.core) : c₀.KeptIn (s.imageReg a be v).core := by
  unfold State.imageReg
  simp [h]
@[simp] theorem kept_recordImage (r) (h : c₀.KeptIn s.core) : c₀.KeptIn (s.recordImage r).core := by
  unfold State.recordImage
  simp [h]
@[simp] theorem kept_imageEnds (r) (h : c₀.KeptIn s.core) : c₀.KeptIn (s.imageEnds r).core := by
  unfold State.imageEnds
  simp [h]

/-! ### Marks -/

@[simp] theorem kept_endFrame (h : c₀.KeptIn s.core) : c₀.KeptIn s.endFrame.core := by unfold State.endFrame; simp [h]
@[simp] theorem kept_endEngines (late parity) (h : c₀.KeptIn s.core) : c₀.KeptIn (s.endEngines late parity).core := by
  unfold State.endEngines
  refine kept_if (kept_endFrame _) (kept_endVRows _ _ (kept_endEmission _ ?_))
  simp [h]
@[simp] theorem kept_applyTables (h : c₀.KeptIn s.core) : c₀.KeptIn s.applyTables.core := by
  unfold State.applyTables
  simp only [core_latchCas]
  refine kept_if (kept_of_core (core_buildEgressAll _)) (kept_applyTerms _ (kept_applyEntries _ ?_))
  refine kept_foldl (fun s l => ?_) _ _ h
  exact kept_refreshTerms _ _ (kept_rejudgeLane _ _ (kept_applyAuCfg _ _ (kept_mendAus _ _ (.refl _))))
@[simp] theorem kept_applyFlips (h : c₀.KeptIn s.core) : c₀.KeptIn s.applyFlips.core := by
  unfold State.applyFlips
  simp [h]
@[simp] theorem kept_applyLinks (h : c₀.KeptIn s.core) : c₀.KeptIn s.applyLinks.core := by
  unfold State.applyLinks
  simp [h]
@[simp] theorem kept_applyRest (h : c₀.KeptIn s.core) : c₀.KeptIn s.applyRest.core := by
  unfold State.applyRest
  have hl := kept_foldl (fun s l => kept_laneMark s l (.refl _)) (List.range 48) s h
  have he := kept_shedMark ((List.range 48).foldl State.laneMark s).pmMark.windowMark.snapMark.energyMark
    (c₀ := c₀) (by simp [hl])
  simp [he]

end Sys2Proof.Machine
end

section
/-! SUPPORT. The marks: what FRAME_MARK and ROW_MARK make of the core of the state. -/

namespace Sys2Proof.Machine

variable {s : State} {c₀ : Core}

/-- The clock behind a frame mark that is due. -/
def State.markedClock (s : State) : Clock :=
  { s.clock with
    frame := s.frameAfter, frames := s.clock.frames + 1, started := true, frameDue := true, ended := true
    step := s.clock.step.bind fun q => if q.1 ≤ 1 then none else some (q.1 - 1, q.2)
    stepCon := if s.stepNext.isSome then 9 else s.clock.stepCon }

/-- The clock of a row that has begun. -/
def Clock.begun (c : Clock) : Clock :=
  { c with row := if c.frameDue then 0 else c.row + 1, period := c.period + 1, frameDue := false, ended := false }

/-- The clock behind a row mark that is due. -/
def Clock.opened (c : Clock) : Clock := { c.begun with stepCon := c.stepCon - 1 }

/-! ### The parts of a frame mark -/

/-- The end of a row period says of the clock at most that it has ended. -/
theorem kept_endPeriod (late parity) (h : c₀.KeptIn s.core) :
    ∃ e, { c₀ with clock := { c₀.clock with ended := e } }.KeptIn (s.endPeriod late parity).core := by
  have hr : c₀.KeptIn (if s.enginesRun then s.endEngines late parity else s).core := by
    split
    · exact kept_endEngines _ _ _ h
    · exact h
  unfold State.endPeriod
  split
  · exact ⟨c₀.clock.ended, h⟩
  · exact ⟨true, hr.ok, congrArg (fun c : Clock => { c with ended := true }) hr.clock, hr.masterNum, hr.pending⟩

theorem core_stepMark (k) : (s.stepMark k).core = { s.core with clock := { s.clock with stepCon := 9 } } := by
  have he : ((s.count Reg.fabCntStep).raise Ev.fabAlignStep).core = s.core := by simp
  unfold State.stepMark
  generalize (s.count Reg.fabCntStep).raise Ev.fabAlignStep = t at he ⊢
  have hu : (if t.flipStoppable then t.flipAbort frCancelled else t).core = s.core := by simp [he]
  exact congrArg (fun c : Core => { c with clock := { c.clock with stepCon := 9 } }) hu

theorem core_nextFrame :
    s.nextFrame.core = { s.core with clock := s.markedClock, masterNum := s.fab.masterNum.map (· + 1) } := by
  unfold State.nextFrame State.markedClock
  cases h : s.stepNext with
  | none => rfl
  | some k => exact core_stepMark k

/-- Whether the row period has ended does not matter to the clock behind the mark. -/
theorem markedClock_of_kept {t : State} {e} (h : { s.core with clock := { s.clock with ended := e } }.KeptIn t.core) :
    t.markedClock = s.markedClock := by
  have hc : t.clock = { s.clock with ended := e } := h.clock
  have hm : t.fab.masterNum = s.fab.masterNum := h.masterNum
  have hn : t.stepNext = s.stepNext := by simp only [State.stepNext, hc]
  simp only [State.markedClock, State.frameAfter, hn, hc, hm]

/-! ### The resets at a frame mark -/

theorem core_softState : s.softState.core = ⟨[], [], s.clock, s.otp, none, s.pending⟩ := rfl

theorem core_softApply : s.softApply.core = ⟨[], [], s.clock, s.otp, none, s.pending⟩ := by
  have hs : s.softRegs.softState.softNumbers.showRetirements.core = ⟨[], [], s.clock, s.otp, none, s.pending⟩ := by
    have he : s.softRegs.core = s.core := core_softRegs s
    simp only [State.core, Core.mk.injEq] at he
    simp [core_softState, he]
  rw [← hs]
  unfold State.softApply
  simp

theorem kept_lcWipe (target) (h : c₀.KeptIn s.core) : c₀.KeptIn (s.lcWipe target).core := by
  have he : (((s.enterFlip flpIdle).flipEnded csAborted).noStore).core = s.core := by simp
  unfold State.lcWipe
  generalize ((s.enterFlip flpIdle).flipEnded csAborted).noStore = t at he ⊢
  have hu : (t.setHstHead t.hstFirst).core = s.core := (core_setHstHead ..).trans he
  extract_lets u
  replace hu : u.core = s.core := hu
  clear_value u
  rw [← hu] at h
  exact ⟨fun _ => ⟨rfl, rfl⟩, h.clock, h.masterNum, h.pending⟩

theorem kept_lcMark (h : c₀.KeptIn s.core) : c₀.KeptIn s.lcMark.core := by
  unfold State.lcMark
  split
  · exact h
  · split
    · exact kept_lcWipe _ h
    · simp [h]

theorem kept_applyResets (h : c₀.KeptIn s.core) : ∃ m, { c₀ with masterNum := m }.KeptIn s.applyResets.core := by
  unfold State.applyResets
  split
  · exact ⟨none, kept_lcMark (c₀ := { c₀ with masterNum := none })
      (core_softApply ▸ ⟨fun _ => ⟨rfl, rfl⟩, h.clock, rfl, h.pending⟩)⟩
  · exact ⟨_, kept_lcMark h⟩

/-! ### The whole marks -/

theorem frameMark_notDue (late parity) (h : (s.clock.frameDue || (s.clock.started && s.clock.row ≠ 8)) = true) :
    s.frameMark late parity = s := if_pos h

theorem kept_frameMark (late parity) (h : ¬(s.clock.frameDue || (s.clock.started && s.clock.row ≠ 8)) = true) :
    ∃ m, { s.core with clock := s.markedClock, masterNum := m }.KeptIn (s.frameMark late parity).core := by
  obtain ⟨e, he⟩ := kept_endPeriod late parity (kept_watchdogs s (.refl _))
  have hn : { s.core with clock := s.markedClock, masterNum := s.fab.masterNum.map (· + 1) }.KeptIn
      (s.watchdogs.endPeriod late parity).rehearsalDone.nextFrame.core := by
    have hr := kept_of_core (core_rehearsalDone _) he
    rw [core_nextFrame, markedClock_of_kept hr]
    exact ⟨hr.ok, rfl, congrArg (Option.map (· + 1)) hr.masterNum, hr.pending⟩
  obtain ⟨m, hm⟩ := kept_applyResets (kept_applyRest _ (kept_applyLinks _ (kept_applyFlips _ (kept_applyTables _
    (kept_of_core (core_handReports _) hn)))))
  unfold State.frameMark
  rw [if_neg h]
  exact ⟨m, kept_of_core ((core_beginFrames _).trans (core_latchFrame _)) hm⟩

theorem rowMark_notDue (late bits parity) (h : (!s.clock.started || (s.clock.row = 8 && !s.clock.frameDue)) = true) :
    s.rowMark late bits parity = s := if_pos h

theorem kept_openPeriod {e} (h : { c₀ with clock := { c₀.clock with ended := e } }.KeptIn s.core) :
    { c₀ with clock := c₀.clock.begun }.KeptIn s.openPeriod.core :=
  have hc : s.clock.begun = Clock.begun { c₀.clock with ended := e } := congrArg Clock.begun h.clock
  ⟨h.ok, hc, h.masterNum, h.pending⟩

theorem kept_stepRow {c : Clock} (h : { c₀ with clock := c }.KeptIn s.core) :
    { c₀ with clock := { c with stepCon := c.stepCon - 1 } }.KeptIn s.stepRow.core :=
  ⟨h.ok, congrArg (fun c : Clock => { c with stepCon := c.stepCon - 1 }) h.clock, h.masterNum, h.pending⟩

theorem kept_rowMark (late bits parity) (h : ¬(!s.clock.started || (s.clock.row = 8 && !s.clock.frameDue)) = true) :
    { s.core with clock := s.clock.opened }.KeptIn (s.rowMark late bits parity).core := by
  have hb : ((List.range 48).foldl (State.prbsRow · bits) s).core = s.core :=
    core_foldl (fun s l => core_prbsRow ..) _ _
  unfold State.rowMark
  rw [if_neg h]
  generalize (List.range 48).foldl (State.prbsRow · bits) s = t at hb ⊢
  have ha : (if t.clock.frameDue then t else t.ageBeats).core = s.core := by simp [hb]
  obtain ⟨e, he⟩ := kept_endPeriod late parity (kept_watchdogs _ (kept_of_core ha (.refl _)))
  have ho := kept_of_core (core_rowsMark _) (kept_of_core (core_flipRowMark _) (kept_openPeriod he))
  have hd := kept_of_core (core_deepMark _) (kept_evalAps _ (kept_evalColumn _ ho))
  have hp := kept_foldl (f := State.powerMark) (fun s l => kept_powerMark s l (.refl _)) (List.range 48) _ hd
  exact kept_stepRow (kept_of_core ((core_pmRowMark _).trans ((core_sweepMark _).trans ((core_beginRows _).trans
    ((core_emitAll _).trans (core_latchRow _))))) hp)

/-- A frame mark that is due begins the frame that the alignment step on it gives, or the next. -/
theorem markedClock_frame (s : State) :
    (s.clock.step.all (fun q => q.1 ≠ 1) = true →
      s.markedClock.frame = if s.clock.started then s.clock.frame + 1 else s.clock.frame) ∧
    (∀ n, s.clock.step = some (1, .number n) → s.markedClock.frame = n) ∧
    (s.clock.step = some (1, .master) → s.markedClock.frame = s.fab.masterNum.getD s.clock.frame + 1) := by
  simp only [State.markedClock, State.frameAfter, State.stepNext]
  refine ⟨fun h => ?_, fun n h => by rw [h]; rfl, fun h => by rw [h]; rfl⟩
  match hs : s.clock.step with
  | none => rfl
  | some (0, k) => rfl
  | some (1, k) => simp [hs] at h
  | some (n + 2, k) => rfl

end Sys2Proof.Machine
end

section
/-! SUPPORT. The statement about the marks. -/

namespace Sys2Proof

open Machine

/-- Settles O22: the clock behind each mark, through what the work of the mark keeps of the state's core. -/
theorem marks : Obligations.Marks := by
  intro late parity s hup
  refine ⟨⟨s.frameMark late parity, whenUp_of_up (fun s => s.frameMark late parity) hup, ?frame⟩,
    fun bits => ⟨s.rowMark late bits parity, whenUp_of_up (fun s => s.rowMark late bits parity) hup, ?row⟩⟩
  case frame =>
    split
    next h => exact frameMark_notDue late parity h
    next h =>
      obtain ⟨m, hm⟩ := kept_frameMark late parity h
      have hc : (s.frameMark late parity).clock = s.markedClock := hm.clock
      obtain ⟨hnext, hnumber, hmaster⟩ := markedClock_frame s
      rw [hc]
      exact ⟨hnext, hnumber, hmaster, rfl, rfl, rfl, rfl, rfl⟩
  case row =>
    split
    next h => exact rowMark_notDue late bits parity h
    next h =>
      have hc : (s.rowMark late bits parity).clock = s.clock.opened := (kept_rowMark late bits parity h).clock
      rw [hc]
      exact ⟨rfl, rfl, rfl, rfl, rfl⟩

end Sys2Proof
end

section
/-! SUPPORT. What every operation keeps, the marks and the resets among them: the canonical form of the memories, the
range of the row number, and the queue. -/

namespace Sys2Proof.Machine

/-- From one core to the next the memories keep their canonical form, the row number its range, and the queue
stays. -/
structure Core.SafeIn (b c : Core) : Prop where
  ok      : b.Ok → c.Ok
  row     : b.clock.row ≤ 8 → c.clock.row ≤ 8
  pending : c.pending = b.pending

theorem Core.KeptIn.safe {b c : Core} (h : b.KeptIn c) : b.SafeIn c :=
  ⟨h.ok, fun hr => h.clock ▸ hr, h.pending⟩

theorem Core.SafeIn.trans {b c d : Core} (h : b.SafeIn c) (k : c.SafeIn d) : b.SafeIn d :=
  ⟨k.ok ∘ h.ok, k.row ∘ h.row, k.pending.trans h.pending⟩

variable {s : State} {c₀ : Core}

/-- A state whose core is that of a safe one. -/
theorem safe_of_core {t : State} (e : t.core = s.core) (h : c₀.SafeIn s.core) : c₀.SafeIn t.core := e ▸ h

theorem safe_refl : s.core.SafeIn s.core := (Core.KeptIn.refl _).safe

/-! ### The alignment step and the oscillator -/

theorem safe_decideStep (k) (h : c₀.SafeIn s.core) : c₀.SafeIn (s.decideStep k).core := ⟨h.ok, h.row, h.pending⟩

theorem safe_ppsAlignStep (away) (h : c₀.SafeIn s.core) : c₀.SafeIn (s.ppsAlignStep away).core := by
  have hset : ∀ f, c₀.SafeIn (s.setTmg f).core := fun f => safe_of_core (core_setTmg ..) h
  unfold State.ppsAlignStep
  split
  · dsimp only
    split
    · exact safe_decideStep _ (safe_of_core (core_draw _) (hset _))
    · exact safe_decideStep _ (hset _)
  · exact h

theorem safe_fabAlignStep (h : c₀.SafeIn s.core) : c₀.SafeIn s.fabAlignStep.core := by
  unfold State.fabAlignStep
  split
  · exact safe_decideStep _ h
  · exact h

/-- A clock whose row is in range may take the place of that of a safe state. -/
theorem safe_withClock {k : Clock} (h : c₀.SafeIn s.core) (hk : c₀.clock.row ≤ 8 → k.row ≤ 8) :
    c₀.SafeIn { s with clock := k }.core := ⟨h.ok, hk, h.pending⟩

theorem safe_oscinStop (h : c₀.SafeIn s.core) : c₀.SafeIn s.oscinStop.core := by
  have ht : c₀.SafeIn ((s.fbit F.tmgStat_oscFail true).tmSticky 6).core := safe_of_core (by simp) h
  unfold State.oscinStop
  split
  · exact h
  · extract_lets _ _ u
    have hu : c₀.SafeIn u.core := safe_withClock ht h.row
    split
    · exact hu
    · exact safe_of_core (core_enterTm ..) hu

theorem safe_oscinReturn (freq) (h : c₀.SafeIn s.core) : c₀.SafeIn (s.oscinReturn freq).core := by
  have ht : c₀.SafeIn (s.fbit F.tmgStat_oscFail false).core := safe_of_core (by simp) h
  unfold State.oscinReturn
  split
  · have hf : ((s.fset F.tmgStat_oscFreq freq).setTmg fun x => { x with oscSeen := true }).core = s.core :=
      (core_setTmg ..).trans (core_fset ..)
    have hr := safe_of_core hf h
    exact safe_withClock hr hr.row
  · split
    · exact h
    · extract_lets _ _ u
      have hu : c₀.SafeIn u.core := safe_withClock ht h.row
      split
      · exact hu
      · split
        · exact safe_of_core ((core_enterTm ..).trans (core_freeOut ..)) hu
        · exact safe_of_core (core_acquire ..) hu

/-! ### A header -/

/-- The number of the master's frame is taken from a header. -/
theorem safe_setFab (f) (h : c₀.SafeIn s.core) : c₀.SafeIn (s.setFab f).core := ⟨h.ok, h.row, h.pending⟩

theorem safe_headerReceived (l received) (h : c₀.SafeIn s.core) : c₀.SafeIn (s.headerReceived l received).core := by
  unfold State.headerReceived
  split
  · exact h
  · extract_lets x lost good t u v w
    have ht : c₀.SafeIn t.core := safe_of_core (core_onLane ..) h
    have hu : c₀.SafeIn u.core := by
      simp only [u]; split
      · exact ht
      · exact safe_of_core (core_badArrival ..) ht
    have hv : c₀.SafeIn v.core := by
      simp only [v]; split
      · exact safe_setFab _ hu
      · exact hu
    have hw : c₀.SafeIn w.core := by
      simp only [w]; split
      · exact safe_of_core (core_laneBeat _) hv
      · exact hv
    split_ifs
    · exact hw
    · exact safe_of_core (core_peerHeader ..) hw
    · exact safe_of_core (core_mateHeader ..) hw
    · exact hw

/-! ### Resets and pins -/

theorem safe_blank (h : c₀.SafeIn s.core) : c₀.SafeIn s.blank.core :=
  ⟨fun _ => ⟨rfl, rfl⟩, fun _ => Nat.zero_le _, h.pending⟩

theorem safe_power (x) (h : c₀.SafeIn s.core) : c₀.SafeIn { s with power := x }.core := ⟨h.ok, h.row, h.pending⟩

theorem safe_beginReset (cause) (h : c₀.SafeIn s.core) : c₀.SafeIn (s.beginReset cause).core :=
  safe_power _ (safe_blank h)

theorem safe_powerOn (entered) (h : c₀.SafeIn s.core) : c₀.SafeIn (s.powerOn entered).core := by
  unfold State.powerOn
  split
  · exact safe_power _ (safe_beginReset _ h)
  · exact safe_power _ h

theorem safe_resetPin (low) (h : c₀.SafeIn s.core) : c₀.SafeIn (s.resetPin low).core := by
  unfold State.resetPin
  split
  · exact safe_power _ (safe_beginReset _ h)
  · exact safe_power _ h

theorem safe_perstPin (low) (h : c₀.SafeIn s.core) : c₀.SafeIn (s.perstPin low).core := by
  unfold State.perstPin
  split
  · exact safe_power _ (safe_beginReset _ h)
  · exact safe_power _ h

theorem safe_boot (otpOk sideB testMode) (h : c₀.SafeIn s.core) : c₀.SafeIn (s.boot otpOk sideB testMode).core := by
  unfold State.boot
  split
  · exact h
  · extract_lets t u _ v w _ x y
    have hu : c₀.SafeIn u.core :=
      safe_of_core ((core_fbit ..).trans ((core_fset ..).trans (core_loadOtp _))) (safe_blank h)
    have hv : c₀.SafeIn v.core := safe_power _ hu
    have hw : w.core = v.core := (core_leaseReset _).trans (core_fbit ..)
    have hx : x.core = v.core := (core_mk ..).trans hw
    have hy : y.core = v.core := by
      simp only [y]
      rw [core_ite, core_raise, ite_self, hx]
    split
    · exact safe_of_core (core_fbit ..) hv
    · split
      · exact safe_of_core ((core_pfailFall _).trans hy) hv
      · exact safe_of_core hy hv

/-! ### The marks -/

theorem safe_frameMark (late parity) (h : c₀.SafeIn s.core) : c₀.SafeIn (s.frameMark late parity).core := by
  refine h.trans ?_
  by_cases hd : (s.clock.frameDue || (s.clock.started && s.clock.row ≠ 8)) = true
  · rw [frameMark_notDue late parity hd]
    exact safe_refl
  · obtain ⟨m, hm⟩ := kept_frameMark late parity hd
    have hk := hm.safe
    exact ⟨hk.ok, hk.row, hk.pending⟩

/-- A row mark that is due comes before row 8 or behind a frame mark. -/
theorem safe_rowMark (late bits parity) (h : c₀.SafeIn s.core) : c₀.SafeIn (s.rowMark late bits parity).core := by
  refine h.trans ?_
  by_cases hd : (!s.clock.started || (s.clock.row = 8 && !s.clock.frameDue)) = true
  · rw [rowMark_notDue late bits parity hd]
    exact safe_refl
  · have hk := (kept_rowMark late bits parity hd).safe
    have hrow : s.clock.row ≤ 8 → s.clock.opened.row ≤ 8 := by
      simp only [Clock.opened, Clock.begun]
      split
      · simp
      · simp_all
        omega
    exact ⟨hk.ok, hk.row ∘ hrow, hk.pending⟩

end Sys2Proof.Machine
end

section
/-! SUPPORT. Every command answers a next state and keeps the core safe. -/

namespace Sys2Proof.Machine

/-- The outcome is a next state, and what every operation keeps is kept. -/
def Answers (c : Core) (o : Host.Outcome State Fault Refusal) : Prop := ∃ t, o = .next t ∧ c.SafeIn t.core

variable {s : State} {f : State → State}

theorem answers_next {c : Core} {t : State} (h : c.SafeIn t.core) : Answers c (.next t) := ⟨t, rfl, h⟩

theorem answers_safe (hf : ∀ s : State, s.core.SafeIn (f s).core) : Answers s.core (whenUp s f) := by
  unfold whenUp
  split
  · exact answers_next (hf s)
  · exact answers_next safe_refl

theorem answers_kept (hf : ∀ s : State, s.core.KeptIn (f s).core) : Answers s.core (whenUp s f) :=
  answers_safe fun s => (hf s).safe

theorem answers_setPfail (b) (hf : ∀ s : State, (f s).core = s.core) : Answers s.core (whenUp (s.setPfail b) f) := by
  have hs : s.core.SafeIn (s.setPfail b).core := safe_of_core (core_setPfail ..) safe_refl
  unfold whenUp
  split
  · exact answers_next (safe_of_core (hf _) hs)
  · exact answers_next hs

/-! ### Commands that take an entry of a command ring -/

theorem kept_unlessBusyCommand (s : State) (r op ok) {f : State → CmdEntry → State}
    (hf : ∀ (s : State) c, s.core.KeptIn (f s c).core) :
    s.core.KeptIn (s.ringCommand r op ok fun s c => s.unlessBusy r c fun s => f s c).core :=
  kept_ringCommand s r op ok (fun s c => kept_unlessBusy s r c (fun s => hf s c) (.refl _)) (.refl _)

theorem kept_unlessStandbyCommand (s : State) (r op ok) {f : State → CmdEntry → State}
    (hf : ∀ (s : State) c, s.core.KeptIn (f s c).core) :
    s.core.KeptIn
      (s.ringCommand r op ok fun s c => s.unlessStandby r c fun s => s.unlessBusy r c fun s => f s c).core :=
  kept_ringCommand s r op ok (fun s c =>
    kept_unlessStandby s r c (fun s => kept_unlessBusy s r c (fun s => hf s c) (.refl _)) (.refl _)) (.refl _)

theorem answers_loadBank (r words starts ok) : Answers s.core (execLoadBank r words starts ok s) := by
  refine answers_kept fun s => ?_
  split
  · split <;> simp
  · exact kept_ringCommand s _ _ _ (fun s c => by simp) (.refl _)

theorem answers_toneDataAccess (write) : Answers s.core (execToneDataAccess write s) := by
  refine answers_kept fun s => ?_
  split <;> simp

theorem answers_xbrTransaction (m t addr write release) :
    Answers s.core (execXbrTransaction m t addr write release s) := by
  unfold execXbrTransaction
  split
  · exact answers_next (safe_of_core (core_haltedAccess ..) safe_refl)
  · exact answers_kept fun s => by simp

/-! ### Every command -/

theorem exec_answers (i : Instr) : Answers s.core (exec i s) := by
  unfold exec
  cases i with
  | frameMark late parity => exact answers_safe fun s => safe_frameMark _ _ safe_refl
  | rowMark late bits parity => exact answers_safe fun s => safe_rowMark _ _ _ safe_refl
  | headerRow0Received lane h => exact answers_safe fun s => safe_headerReceived _ _ safe_refl
  | oscinStop => exact answers_safe fun s => safe_oscinStop safe_refl
  | oscinReturn freq => exact answers_safe fun s => safe_oscinReturn _ safe_refl
  | ppsAlignStep away => exact answers_safe fun s => safe_ppsAlignStep _ safe_refl
  | fabAlignStep => exact answers_safe fun s => safe_fabAlignStep safe_refl
  | powerOnReset entered => exact answers_next (safe_powerOn _ safe_refl)
  | resetNChange low => exact answers_next (safe_resetPin _ safe_refl)
  | perstNChange low => exact answers_next (safe_perstPin _ safe_refl)
  | boot otpOk sideB testMode => exact answers_next (safe_boot _ _ _ safe_refl)
  | pfailFall => exact answers_setPfail _ core_pfailFall
  | pfailRise => exact answers_setPfail _ core_pfailRise
  | xbrTransaction m t addr write release => exact answers_xbrTransaction ..
  | toneDataAccess write => exact answers_toneDataAccess ..
  | loadBank r words starts ok => exact answers_loadBank ..
  | ltmCfgWrite lane be v =>
    exact answers_kept fun s =>
      kept_hostReg s _ _ _ (fun s => kept_onSdhLane s _ (fun s => by simp) (.refl _)) (.refl _)
  | protCommand r => exact answers_kept fun s => kept_unlessStandbyCommand s _ _ _ fun s c => by simp
  | armFlip r => exact answers_kept fun s => kept_unlessStandbyCommand s _ _ _ fun s c => by simp
  | cancelFlip r => exact answers_kept fun s => kept_unlessStandbyCommand s _ _ _ fun s c => by simp
  | dumpConfig r => exact answers_kept fun s => kept_unlessBusyCommand s _ _ _ fun s c => by simp
  | _ => exact answers_kept fun s => by simp

end Sys2Proof.Machine
end

section
/-! SUPPORT. The statement about every step. -/

namespace Sys2Proof

open Machine

/-- Settles O59: a step of an empty queue stays, and each command answers a state whose core is safe. -/
theorem stepKeepsInvariants : Obligations.StepKeepsInvariants := by
  intro s
  match hs : s.pending with
  | [] => exact ⟨s, by rw [Machine.step, hs], id, id, by rw [hs]; rfl⟩
  | c :: cs =>
    obtain ⟨t, ht, hok, hrow, hpending⟩ := exec_answers (s := { s with pending := cs }) c
    exact ⟨t, by rw [Machine.step, hs]; exact ht, hok, hrow, hpending⟩

end Sys2Proof
end

section
/-! SUPPORT. The statement about islands that hang or are reset. -/

namespace Sys2Proof

open Machine

/-- Octet engine 0 is in the middle of its frame, and the first word of its program cannot be corrected, which nothing
has read yet. -/
def unreadableOctet : State :=
  { State.reset with
    octEng := [(0, { OctEng.init with
      run := some { FrameCtx.init with idle := false, ended := false, checked := false } })]
    sram := { State.reset.sram with damage := [(damageKey 64 0, ⟨true, false⟩)] } }

/-- The reset of its island has engine 0 fetch that word once more: MEM_UE of bank 64 comes behind ISLAND_HANG. -/
theorem islandHang_unreadableOctet_fltLast :
    bits ((unreadableOctet.islandHang 62 0).rd Reg.fltLast) 15 0 = 64 := by decide

theorem exec_islandHang_of_up {s : State} (h : s.up = true) (i : Fin 84) (n : Nat) :
    exec (.islandHang i n) s = .next (s.islandHang i.val n) := whenUp_of_up (fun s => s.islandHang i.val n) h

/-- Refutes O41: in FLT_LAST the hang of an octet engine's island gives way to the fault that the engine then finds.
Before the island goes into reset, its engine executes what ends within the cycles it has had; a program word that
cannot be corrected is reported there, and FLT_LAST names its bank, not island 62. -/
theorem not_islandResets : ¬ Obligations.IslandResets := by
  intro h
  have hup : unreadableOctet.up = true := by decide
  have hdown : ¬(unreadableOctet.island 62).down = true := by decide
  obtain ⟨hang, -⟩ := h unreadableOctet hup
  obtain ⟨t, hexec, ht⟩ := hang 62 0
  rw [exec_islandHang_of_up hup, Host.Outcome.next.injEq] at hexec
  subst hexec
  obtain ⟨-, hlast, -⟩ := (if_neg hdown).mp ht
  exact absurd (islandHang_unreadableOctet_fltLast.symm.trans hlast) (by decide)

end Sys2Proof
end

section
/-! SUPPORT. Operations beside the lanes and the flip: a frame that also keeps their state. -/

namespace Sys2Proof

open Machine

variable {s t u : State} {regs regs' bytes bytes' : Nat → Bool}

/-- A field of a register that the frame keeps. -/
theorem Frame.fget (h : Frame s t regs bytes) {f : Fld} (hr : regs f.reg = false) (he : eventReg f.reg = false) :
    t.fget f = s.fget f := by rw [State.fget, State.fget, h.reg _ hr he]

theorem Frame.flag (h : Frame s t regs bytes) {f : Fld} (hr : regs f.reg = false) (he : eventReg f.reg = false) :
    t.flag f = s.flag f := by rw [State.flag, State.flag, h.fget hr he]

/-- A command that acts while the device is up completes with its effect. -/
theorem completes_of_up {c : Instr} {f : State → State} {P : State → Prop} (hup : s.up = true)
    (hexec : exec c s = whenUp s f) (h : P (f s)) : Completes c s P := ⟨f s, hexec.trans (whenUp_of_up f hup), h⟩

/-- A frame in which no lane and nothing of the flip changes. -/
structure Aside (s t : State) (regs bytes : Nat → Bool) : Prop where
  frame : Frame s t regs bytes
  lanes : t.lanes = s.lanes
  flip  : t.flip = s.flip

theorem Aside.refl (s : State) (regs bytes : Nat → Bool) : Aside s s regs bytes := ⟨.refl _ _ _, rfl, rfl⟩

theorem Aside.trans (h : Aside s t regs bytes) (k : Aside t u regs bytes) : Aside s u regs bytes :=
  ⟨h.frame.trans k.frame, k.lanes.trans h.lanes, k.flip.trans h.flip⟩

theorem Aside.mono (h : Aside s t regs bytes) (hr : ∀ a, regs a = true → regs' a = true)
    (hb : ∀ a, bytes a = true → bytes' a = true) : Aside s t regs' bytes' := ⟨h.frame.mono hr hb, h.lanes, h.flip⟩

theorem Aside.ite {c : Prop} [Decidable c] {x y : State} (hx : c → Aside s x regs bytes)
    (hy : ¬ c → Aside s y regs bytes) : Aside s (if c then x else y) regs bytes := by
  split
  · exact hx (by assumption)
  · exact hy (by assumption)

theorem Aside.foldl {α : Type} {f : State → α → State} (hf : ∀ s x, Aside s (f s x) regs bytes) :
    ∀ (l : List α) (s : State), Aside s (l.foldl f s) regs bytes
  | [], s => .refl s _ _
  | x :: l, s => (hf s x).trans (Aside.foldl hf l (f s x))

end Sys2Proof

namespace Sys2Proof.Machine

variable (s : State) {regs bytes : Nat → Bool}

/-! ### Registers -/

theorem aside_wr (a : Nat) (v : W32) (h : regs a = true ∨ eventReg a = true) : Aside s (s.wr a v) regs bytes :=
  ⟨frame_wr s a v h, rfl, rfl⟩

theorem aside_fset (f : Fld) (n : Nat) (h : regs f.reg = true ∨ eventReg f.reg = true) :
    Aside s (s.fset f n) regs bytes := aside_wr s _ _ h

theorem aside_fbit (f : Fld) (b : Bool) (h : regs f.reg = true ∨ eventReg f.reg = true) :
    Aside s (s.fbit f b) regs bytes := aside_wr s _ _ h

theorem aside_count (a n : Nat) (h : regs a = true ∨ eventReg a = true) : Aside s (s.count a n) regs bytes :=
  aside_wr s _ _ h

/-! ### Events and history -/

/-- What neither an event nor a record of the history reaches: the lanes, the flip, the paths, and the memory with what
is known of its damage. -/
structure Works where
  lanes : Sparse LaneSt
  flip  : FlipSt
  paths : Sparse PathSt
  mem   : List Host.Cell
  sram  : SramSt

/-- The works of a state. -/
def State.works (s : State) : Works := ⟨s.lanes, s.flip, s.paths, s.mem, s.sram⟩

@[simp] theorem works_count (a n : Nat) : (s.count a n).works = s.works := rfl

@[simp] theorem works_ite (p : Prop) [Decidable p] (s t : State) :
    (if p then s else t).works = if p then s.works else t.works := apply_ite ..

@[simp] theorem works_stageEvent (e : Event) : (s.stageEvent e).works = s.works := by
  unfold State.stageEvent
  dsimp only
  split_ifs <;> rfl

@[simp] theorem works_appendRecord (typ sev low : Nat) (ws : List W32) :
    (s.appendRecord typ sev low ws).works = s.works := rfl
@[simp] theorem works_evictRecord (sev : Nat) : (s.evictRecord sev).works = s.works := rfl

@[simp] theorem works_stageRecord (typ sev low : Nat) (ws : List W32) :
    (s.stageRecord typ sev low ws).works = s.works := by
  simp [State.stageRecord]

@[simp] theorem works_raiseAs (deliver ring : Bool) (e : EvName) (ps : List W32) :
    (s.raiseAs deliver ring e ps).works = s.works := by
  simp [State.raiseAs]

@[simp] theorem works_raise (e : EvName) (w1 w2 w3 w4 w5 : Nat) : (s.raise e w1 w2 w3 w4 w5).works = s.works :=
  works_raiseAs s _ _ _ _

theorem aside_raiseAs (deliver ring : Bool) (e : EvName) (ps : List W32) :
    Aside s (s.raiseAs deliver ring e ps) regs bytes :=
  have h := works_raiseAs s deliver ring e ps
  ⟨frame_raiseAs s deliver ring e ps, congrArg Works.lanes h, congrArg Works.flip h⟩

theorem aside_raise (e : EvName) (w1 w2 w3 w4 w5 : Nat) : Aside s (s.raise e w1 w2 w3 w4 w5) regs bytes :=
  aside_raiseAs s _ _ _ _

theorem aside_report (e : EvName) (w1 w2 w3 w4 w5 : Nat) : Aside s (s.report e w1 w2 w3 w4 w5) regs bytes := by
  unfold State.report
  exact ((aside_raise s e _ _ _ _ _).trans (aside_wr _ _ _ (.inr rfl))).trans (aside_fbit _ _ _ (.inr rfl))

theorem aside_sticky (reg en : Nat) (m : W32) (e : EvName) (inst : Nat) (fault : W32)
    (h : regs reg = true ∨ eventReg reg = true) : Aside s (s.sticky reg en m e inst fault) regs bytes := by
  unfold State.sticky
  dsimp only
  refine Aside.trans (aside_wr s reg (s.rd reg ||| m) h) ?_
  exact Aside.ite (fun _ => .refl _ _ _) fun _ =>
    Aside.ite (fun _ => aside_raise _ _ _ _ _ _ _) fun _ => aside_report _ _ _ _ _ _ _

/-! ### Ring commands that end -/

/-- A completion that is no DMA error counts in HIF_CNT_CMD alone. -/
theorem aside_finish (r : Nat) (c : CmdEntry) (status reason r0 r1 : Nat) (h : regs Reg.hifCntCmd = true)
    (hs : status ≠ csDmaError) : Aside s (s.finish r c status reason r0 r1) regs bytes := by
  unfold State.finish
  dsimp only
  rw [if_neg hs]
  exact (aside_count s _ 1 (.inl h)).trans (aside_raiseAs _ _ _ _ _)

theorem aside_finishAll (p : Waiting → Bool) (f : Waiting → Nat × Nat × Nat × Nat) (h : regs Reg.hifCntCmd = true)
    (hs : ∀ w, (f w).1 ≠ csDmaError) : Aside s (s.finishAll p f) regs bytes := by
  unfold State.finishAll
  dsimp only
  have hwait : Aside s { s with hif := { s.hif with busy := s.hif.busy.filter fun q => !p q.2.2 } } regs bytes :=
    ⟨.of_hidden ⟨rfl, rfl, rfl, rfl, rfl⟩ rfl, rfl, rfl⟩
  refine hwait.trans (Aside.foldl (fun s q => ?_) _ _)
  exact aside_finish s _ _ _ _ _ _ h (hs q.2.2)

end Sys2Proof.Machine
end

section
/-! SUPPORT. What the operations of a bank flip change: banks that wake, the flip state, an arm, an abort. -/

namespace Sys2Proof

open Machine

/-- Registers of the memory block. -/
def memRegs : Nat → Bool := regsOf 0x110000 0x118000

/-- Registers that the flip state and what it locks reach (R105, R174). -/
def flipStateRegs : Nat → Bool := theseRegs [Reg.flpStat, Reg.colBank, Reg.octBank]

/-- Registers that an abort reaches: it ends ring commands that wait for the flip. -/
def flipAbortRegs : Nat → Bool := theseRegs [Reg.flpStat, Reg.colBank, Reg.octBank, Reg.flpCntAbort, Reg.hifCntCmd]

/-- Registers that an arm reaches: those of the flip under way, and of banks that wake (R173, R189, R344). -/
def flipArmRegs : Nat → Bool := orAt (regsOf 0xC000C 0xC0030) (orAt memRegs (theseRegs [Reg.colBank, Reg.octBank]))

/-- Registers of flips: the block, those of banks that wake, the banks in force, and the count of ring commands. -/
def flipRegs : Nat → Bool :=
  orAt (regsOf 0xC0000 0xD0000) (orAt (regsOf 0x110000 0x118000)
    (theseRegs [Reg.colBank, Reg.octBank, Reg.hifCntCmd]))

theorem orAt_true {p q : Nat → Bool} {a : Nat} : orAt p q a = true ↔ p a = true ∨ q a = true := by simp [orAt]

theorem theseRegs_true {l : List Nat} {a : Nat} : theseRegs l a = true ↔ a ∈ l := by simp [theseRegs]

theorem regsOf_true {lo hi a : Nat} : regsOf lo hi a = true ↔ lo ≤ a ∧ a < hi := by simp [regsOf]

theorem flipRegs_of_abort {a : Nat} (h : flipAbortRegs a = true) : flipRegs a = true := by
  simp only [flipAbortRegs, theseRegs_true, List.mem_cons, List.not_mem_nil, or_false] at h
  rcases h with rfl | rfl | rfl | rfl | rfl <;> decide

theorem flipAbortRegs_of_state {a : Nat} (h : flipStateRegs a = true) : flipAbortRegs a = true := by
  simp only [flipStateRegs, theseRegs_true, List.mem_cons, List.not_mem_nil, or_false] at h
  rcases h with rfl | rfl | rfl <;> decide

theorem flipArmRegs_of_state {a : Nat} (h : flipStateRegs a = true) : flipArmRegs a = true := by
  simp only [flipStateRegs, theseRegs_true, List.mem_cons, List.not_mem_nil, or_false] at h
  rcases h with rfl | rfl | rfl <;> decide

theorem flipRegs_of_arm {a : Nat} (h : flipArmRegs a = true) : flipRegs a = true := by
  simp only [flipArmRegs, flipRegs, memRegs, orAt_true, regsOf_true, theseRegs_true, List.mem_cons,
    List.not_mem_nil, or_false] at h ⊢
  omega

end Sys2Proof

namespace Sys2Proof.Machine

variable (s : State) {regs bytes : Nat → Bool}

/-! ### Banks that wake (R344) -/

theorem aside_setBankState {b : Nat} (hb : b < 1024) (v : Nat) : Aside s (s.setBankState b v) memRegs bytes := by
  have hreg : memRegs (Reg.memBstate (b / 16)) = true := by
    simp only [memRegs, regsOf_true, Reg.memBstate]
    omega
  exact Aside.trans (t := { s with sram := { s.sram with
      retainAt := if v = bankRetain then s.sram.retainAt.insert b s.clock.frames else s.sram.retainAt.erase b } })
    ⟨.of_hidden ⟨rfl, rfl, rfl, rfl, rfl⟩ rfl, rfl, rfl⟩ (aside_wr _ _ _ (.inl hreg))

theorem aside_setBanks (v : Nat) : ∀ (bs : List Nat) (s : State), (∀ b ∈ bs, b < 1024) →
    Aside s (s.setBanks v bs) memRegs bytes
  | [], s, _ => .refl s _ _
  | b :: bs, s, h =>
    (Aside.ite (fun _ => .refl _ _ _) fun _ => aside_setBankState s (h b (by simp)) v).trans
      (aside_setBanks v bs _ fun c hc => h c (by simp [hc]))

theorem regionBanks_lt (r : Nat) : ∀ b ∈ s.regionBanks r, b < 1024 := by
  intro b hb
  unfold State.regionBanks at hb
  split at hb <;> rw [List.mem_range'_1] at hb
  · split at hb <;> omega
  · split at hb <;> omega
  · omega

theorem aside_wakeRegion (r : Nat) : Aside s (s.wakeRegion r) memRegs bytes := by
  unfold State.wakeRegion
  exact Aside.ite (fun _ => (aside_setBanks _ _ s (regionBanks_lt s r)).trans (aside_fset _ _ _ (.inl rfl)))
    fun _ => .refl _ _ _

theorem aside_wakeEnded : Aside s s.wakeEnded memRegs bytes := by
  unfold State.wakeEnded
  exact Aside.foldl (fun s r => Aside.ite (fun _ => .refl _ _ _) fun _ => aside_wakeRegion s r) _ _

/-! ### The flip state (R174) -/

theorem aside_shadowWr (on : Bool) : Aside s (s.shadowWr on) (theseRegs [Reg.colBank, Reg.octBank]) bytes := by
  unfold State.shadowWr
  dsimp only
  exact (Aside.ite (fun _ => aside_fbit s _ _ (.inl rfl)) fun _ => .refl _ _ _).trans
    (Aside.ite (fun _ => aside_fbit _ _ _ (.inl rfl)) fun _ => .refl _ _ _)

theorem aside_enterFlip (st : Nat) : Aside s (s.enterFlip st) flipStateRegs bytes :=
  (aside_fset s F.flpStat_state st (.inl rfl)).trans ((aside_shadowWr _ _).mono (by
    intro a h
    simp only [flipStateRegs, theseRegs_true, List.mem_cons, List.not_mem_nil, or_false] at h ⊢
    exact .inr h) fun _ => id)

@[simp] theorem enterFlip_flip (st : Nat) : (s.enterFlip st).flip = s.flip :=
  (aside_enterFlip s (bytes := noBytes) st).flip

/-- The shadow bits stand in the bank registers. -/
theorem fget_enterFlip (st : Nat) (f : Fld) (h : f.reg = Reg.flpStat) :
    (s.enterFlip st).fget f = (s.fset F.flpStat_state st).fget f := by
  have hf : Frame _ _ _ noBytes := (aside_shadowWr (s.fset F.flpStat_state st) (decide (st ≠ flpCommitted))).frame
  exact hf.fget (by rw [h]; decide) (by rw [h]; decide)

theorem flipState_enterFlip {st : Nat} (h : st < 8) : (s.enterFlip st).flipState = st := by
  unfold State.flipState
  rw [fget_enterFlip s st _ rfl, fget_fset_self s st ⟨by decide, by decide⟩]
  exact Nat.mod_eq_of_lt h

theorem fget_enterFlip_apart (st : Nat) {f : Fld} (h : f.reg = Reg.flpStat) (hd : f.hi < 29) :
    (s.enterFlip st).fget f = s.fget f := by
  rw [fget_enterFlip s st f h]
  exact fget_fset_apart s st ⟨by decide, by decide⟩ (.inr hd)

/-! ### An abort (R176) -/

theorem aside_flipEvent (e : EvName) (reason : Nat) : Aside s (s.flipEvent e reason) regs bytes :=
  aside_raise s e _ _ _ _ _

theorem aside_flipEnded {status : Nat} (h : regs Reg.hifCntCmd = true) (hs : status ≠ csDmaError) :
    Aside s (s.flipEnded status) regs bytes := by
  unfold State.flipEnded
  exact aside_finishAll s _ _ h fun _ => hs

/-- What a flip keeps of itself when it aborts. -/
def FlipSt.aborted (x : FlipSt) : FlipSt := { x with results := [], judged := false, catchUp := false }

/-- An abort, up to what the other devices and the ring commands are told. -/
def State.abortEntered (s : State) (reason : Nat) : State :=
  ((((s.fset F.flpStat_reason reason).enterFlip flpAborted).count Reg.flpCntAbort).flipEvent Ev.flipAbort
    reason).setFlip FlipSt.aborted

/-- What the other devices of a fabric flip are told of an abort (R183, R185). -/
def State.abortTold (s : State) (reason n : Nat) : State :=
  if !s.fabricFlip then s
  else if s.flip.coord then s.sendFlip (s.flipMsg fmAbort (some n))
  else if reason = frRehearsal || reason = frCancelled then s.answerFlip (s.flipMsg fmNack none reason)
  else s

theorem flipAbort_eq (reason n : Nat) :
    s.flipAbort reason n = ((s.abortEntered reason).abortTold reason n).flipEnded csAborted := (rfl)

@[simp] theorem abortTold_regs (reason n : Nat) : (s.abortTold reason n).regs = s.regs := by
  unfold State.abortTold
  split_ifs <;> rfl

theorem still_abortTold (reason n : Nat) : Still s (s.abortTold reason n) := by
  unfold State.abortTold
  split_ifs <;> exact ⟨rfl, rfl, rfl, rfl, rfl⟩

/-- The frame of an abort up to its messages, and the flip behind it. -/
theorem aside_abortEntered (reason : Nat) : ∃ u, Aside s u flipAbortRegs noBytes ∧
    s.abortEntered reason = u.setFlip FlipSt.aborted := by
  refine ⟨_, ?_, rfl⟩
  exact (((aside_fset s F.flpStat_reason reason (.inl rfl)).trans
    ((aside_enterFlip _ _).mono (fun _ => flipAbortRegs_of_state) fun _ => id)).trans
    (aside_count _ _ 1 (.inl rfl))).trans (aside_flipEvent _ _ _)

theorem abortEntered_flip (reason : Nat) : (s.abortEntered reason).flip = s.flip.aborted := by
  obtain ⟨u, hu, h⟩ := aside_abortEntered s reason
  rw [h, State.setFlip_flip, hu.flip]

theorem frame_flipAbort (reason n : Nat) : Frame s (s.flipAbort reason n) flipAbortRegs noBytes := by
  obtain ⟨u, hu, h⟩ := aside_abortEntered s reason
  have hset : Frame u (u.setFlip FlipSt.aborted) flipAbortRegs noBytes := .of_hidden ⟨rfl, rfl, rfl, rfl, rfl⟩ rfl
  have htold : Frame _ _ flipAbortRegs noBytes :=
    .of_hidden (still_abortTold (u.setFlip FlipSt.aborted) reason n) (abortTold_regs _ reason n)
  have hended : Frame _ _ flipAbortRegs noBytes :=
    (aside_flipEnded ((u.setFlip FlipSt.aborted).abortTold reason n) (status := csAborted) rfl (by decide)).frame
  rw [flipAbort_eq, h]
  exact ((hu.frame.trans hset).trans htold).trans hended

/-- What the completion of ring commands and the messages leave of an abort. -/
theorem rd_flipAbort (reason n : Nat) {a : Nat} (ha : a ≠ Reg.hifCntCmd) (he : eventReg a = false) :
    (s.flipAbort reason n).rd a =
      (((s.fset F.flpStat_reason reason).enterFlip flpAborted).count Reg.flpCntAbort).rd a := by
  have hended : Frame _ _ (theseRegs [Reg.hifCntCmd]) noBytes :=
    (aside_flipEnded ((s.abortEntered reason).abortTold reason n) (status := csAborted) rfl (by decide)).frame
  have hevent : Frame _ _ (theseRegs []) noBytes := (aside_flipEvent
    (((s.fset F.flpStat_reason reason).enterFlip flpAborted).count Reg.flpCntAbort) Ev.flipAbort reason).frame
  rw [flipAbort_eq, hended.reg a (by simpa [theseRegs] using ha) he, State.rd, abortTold_regs]
  exact hevent.reg a rfl he

theorem fget_flipAbort (reason n : Nat) {f : Fld} (h : f.reg = Reg.flpStat) :
    (s.flipAbort reason n).fget f = ((s.fset F.flpStat_reason reason).enterFlip flpAborted).fget f := by
  rw [State.fget, State.fget, rd_flipAbort s reason n (by rw [h]; decide) (by rw [h]; decide), rd_count_ne]
  rw [h]; decide

theorem flipState_flipAbort (reason n : Nat) : (s.flipAbort reason n).flipState = flpAborted :=
  (fget_flipAbort s reason n rfl).trans (flipState_enterFlip _ (by decide))

theorem reason_flipAbort {reason : Nat} (h : reason < 256) (n : Nat) :
    (s.flipAbort reason n).fget F.flpStat_reason = reason := by
  rw [fget_flipAbort s reason n rfl, fget_enterFlip_apart _ _ rfl (by decide),
    fget_fset_self s reason ⟨by decide, by decide⟩]
  exact Nat.mod_eq_of_lt h

theorem count_flipAbort (reason n : Nat) :
    (s.flipAbort reason n).rd Reg.flpCntAbort = s.rd Reg.flpCntAbort + 1 := by
  have hstate : Frame _ _ flipStateRegs noBytes := (aside_enterFlip (s.fset F.flpStat_reason reason) flpAborted).frame
  rw [rd_flipAbort s reason n (by decide) (by decide), rd_count_self, hstate.reg _ (by decide) (by decide),
    rd_fset_ne s _ _ (by decide)]
  rfl

theorem flipAbort_flip (reason n : Nat) :
    (s.flipAbort reason n).flip = ((s.abortEntered reason).abortTold reason n).flip :=
  (aside_flipEnded _ (regs := theseRegs [Reg.hifCntCmd]) (bytes := noBytes) rfl (by decide)).flip

end Sys2Proof.Machine
end

section
/-! SUPPORT. The messages of a fabric flip: what each does to the flip of the device that receives it (R183-R186). -/

namespace Sys2Proof.Machine

variable (s : State)

/-! ### An arm (R173) -/

/-- The flip behind the registers as an arm sets it. -/
def FlipSt.armed (x : FlipSt) (req : BitVec 4) (target : BitVec 32) (coord : Bool) : FlipSt :=
  { x with
    req := req, target := target, coord := coord, results := [], judged := false, unsure := false, catchUp := false
    splitSaid := false }

/-- An arm up to its state. -/
theorem armed_shape (req : BitVec 4) (target : BitVec 32) (coord : Bool) : ∃ u : State,
    Aside (s.setFlip fun x => x.armed req target coord) u flipArmRegs noBytes ∧
      s.arm req target coord = (u.enterFlip flpArmed).wakeEnded := by
  refine ⟨_, ?_, rfl⟩
  exact ((((((aside_wr (s.setFlip fun x => x.armed req target coord) Reg.flpArmedAt s.clock.frame
    (.inl (by decide))).trans (aside_fbit _ _ _ (.inl (by decide)))).trans (aside_fbit _ _ _ (.inl (by decide)))).trans
    (aside_wr _ _ _ (.inl (by decide)))).trans (aside_wr _ _ _ (.inl (by decide)))).trans
    (aside_wr _ _ _ (.inl (by decide)))).trans (aside_wr _ _ _ (.inl (by decide)))

theorem aside_arm (req : BitVec 4) (target : BitVec 32) (coord : Bool) :
    Aside (s.setFlip fun x => x.armed req target coord) (s.arm req target coord) flipArmRegs noBytes := by
  obtain ⟨u, hu, h⟩ := armed_shape s req target coord
  rw [h]
  exact (hu.trans ((aside_enterFlip u _).mono (fun _ => flipArmRegs_of_state) fun _ => id)).trans
    ((aside_wakeEnded _).mono (fun a h => orAt_true.2 (.inr (orAt_true.2 (.inl h)))) fun _ => id)

theorem flipState_arm (req : BitVec 4) (target : BitVec 32) (coord : Bool) :
    (s.arm req target coord).flipState = flpArmed := by
  obtain ⟨u, -, h⟩ := armed_shape s req target coord
  have hwake : Frame _ _ memRegs noBytes := (aside_wakeEnded (u.enterFlip flpArmed)).frame
  rw [h, State.flipState, hwake.fget (by decide) (by decide)]
  exact flipState_enterFlip u (by decide)

/-! ### PROPOSE (R184) -/

theorem memberOf_eq (txn : BitVec 16) : s.memberOf txn =
    (!s.flip.coord && (s.fabricFlip && s.flipOpen && decide (s.fget F.flpStat_txn = txn.toNat))) := by
  simp only [State.memberOf, Bool.and_assoc]

theorem coordinates_eq (txn : BitVec 16) : s.coordinates txn =
    (s.flip.coord && (s.fabricFlip && s.flipOpen && decide (s.fget F.flpStat_txn = txn.toNat))) := by
  simp only [State.coordinates, Bool.and_assoc]

/-- The proposal is one that this device answers. -/
def State.answers (s : State) (peer : Nat) (p : Proposal) : Prop :=
  (!s.isMember || s.flip.answered = some p.txn || s.memberOf p.txn || peer = s.fget F.fabCfg_deviceId) = false

/-- The transaction of a proposal as this device notes it. -/
def State.notedTxn (s : State) (txn : BitVec 16) : State :=
  (s.setFlip fun x => { x with answered := some txn }).fset F.flpCoord_lastTxn txn.toNat

/-- The answer to a proposal that this device cannot follow. -/
def refusal (p : Proposal) (reason : Nat) : FlipMsg :=
  { kind := BitVec.ofNat 3 fmNack, txn := p.txn, target := p.target, req := proposalReq p
    reason := BitVec.ofNat 8 reason, left := none }

theorem nackReason_lt (p : Proposal) : s.nackReason p < 256 := by
  unfold State.nackReason
  dsimp only
  split_ifs <;> decide

theorem proposeReceived_joins {peer : Nat} {p : Proposal} (h : s.answers peer p) (hr : s.nackReason p = 0) :
    s.proposeReceived peer p = (((s.notedTxn p.txn).arm (proposalReq p) p.target false).fset F.flpStat_txn
      p.txn.toNat).setFlip fun x => { x with answer := none } := by
  unfold State.proposeReceived
  rw [if_neg (by simp only [State.answers] at h; simp [h])]
  simp only [hr, if_true]
  rfl

theorem proposeReceived_refuses {peer : Nat} {p : Proposal} (h : s.answers peer p) (hr : s.nackReason p ≠ 0) :
    s.proposeReceived peer p =
      ((s.notedTxn p.txn).fset F.flpStat_reason (s.nackReason p)).answerFlip (refusal p (s.nackReason p)) := by
  unfold State.proposeReceived
  rw [if_neg (by simp only [State.answers] at h; simp [h])]
  simp only [hr, if_false]
  rfl

theorem lastTxn_notedTxn (txn : BitVec 16) : (s.notedTxn txn).fget F.flpCoord_lastTxn = txn.toNat := by
  rw [State.notedTxn, fget_fset_self _ _ ⟨by decide, by decide⟩]
  exact Nat.mod_eq_of_lt txn.isLt

@[simp] theorem setFlip_fget (f : FlipSt → FlipSt) (g : Fld) : (s.setFlip f).fget g = s.fget g := rfl
@[simp] theorem setFlip_flipState (f : FlipSt → FlipSt) : (s.setFlip f).flipState = s.flipState := rfl

theorem frame_setFlip {regs bytes : Nat → Bool} (f : FlipSt → FlipSt) : Frame s (s.setFlip f) regs bytes :=
  .of_hidden ⟨rfl, rfl, rfl, rfl, rfl⟩ rfl

theorem frame_notedTxn (txn : BitVec 16) : Frame s (s.notedTxn txn) (theseRegs [Reg.flpCoord]) noBytes :=
  (frame_setFlip s _).trans (frame_fset _ _ _ (.inl (by decide)))

/-- A device that follows a proposal is ARMED with its target and request. -/
structure Joins (s t : State) (p : Proposal) : Prop where
  noted  : t.fget F.flpCoord_lastTxn = p.txn.toNat
  frame  : Frame s t flipRegs noBytes
  state  : t.flipState = flpArmed
  txn    : t.fget F.flpStat_txn = p.txn.toNat
  flip   : t.flip = { ({ s.flip with answered := some p.txn } : FlipSt).armed (proposalReq p) p.target false with
    answer := none }

/-- The armed state keeps the transaction noted. -/
theorem frame_arm (req : BitVec 4) (target : BitVec 32) (coord : Bool) :
    Frame s (s.arm req target coord) flipArmRegs noBytes :=
  (frame_setFlip s _).trans (aside_arm s req target coord).frame

theorem flipRegs_of_singleton {r : Nat} (hr : flipRegs r = true) : ∀ a, theseRegs [r] a = true → flipRegs a = true := by
  intro a h
  rwa [List.mem_singleton.1 (theseRegs_true.1 h)]

theorem joins_proposeReceived {peer : Nat} {p : Proposal} (h : s.answers peer p) (hr : s.nackReason p = 0) :
    Joins s (s.proposeReceived peer p) p := by
  have hnoted := frame_notedTxn s p.txn
  have hlast := lastTxn_notedTxn s p.txn
  have harm := frame_arm (s.notedTxn p.txn) (proposalReq p) p.target false
  have hstate := flipState_arm (s.notedTxn p.txn) (proposalReq p) p.target false
  have hflip := (aside_arm (s.notedTxn p.txn) (proposalReq p) p.target false).flip
  rw [proposeReceived_joins s h hr]
  generalize (s.notedTxn p.txn).arm (proposalReq p) p.target false = u at harm hstate hflip ⊢
  have htxn : Frame u (u.fset F.flpStat_txn p.txn.toNat) (theseRegs [Reg.flpStat]) noBytes :=
    frame_fset u _ _ (.inl (by decide))
  constructor
  case noted =>
    rw [setFlip_fget, htxn.fget (by decide) (by decide), harm.fget (by decide) (by decide), hlast]
  case frame =>
    exact (((hnoted.mono (flipRegs_of_singleton (by decide)) fun _ => id).trans
      (harm.mono (fun _ => flipRegs_of_arm) fun _ => id)).trans
      (htxn.mono (flipRegs_of_singleton (by decide)) fun _ => id)).trans (frame_setFlip _ _)
  case state =>
    rw [setFlip_flipState, State.flipState, fget_fset_apart _ _ ⟨by decide, by decide⟩ (.inl (by decide))]
    exact hstate
  case txn =>
    rw [setFlip_fget, fget_fset_self _ _ ⟨by decide, by decide⟩]
    exact Nat.mod_eq_of_lt p.txn.isLt
  case flip =>
    rw [State.setFlip_flip, State.fset_flip, hflip]
    rfl

/-- A device that cannot follow a proposal keeps its flip and answers NACK with the reason. -/
structure Refuses (s t : State) (p : Proposal) (why : Nat) : Prop where
  noted  : t.fget F.flpCoord_lastTxn = p.txn.toNat
  frame  : Frame s t flipRegs noBytes
  state  : t.flipState = s.flipState
  txn    : t.fget F.flpStat_txn = s.fget F.flpStat_txn
  reason : t.fget F.flpStat_reason = why
  flip   : t.flip = { s.flip with answered := some p.txn, answerOn := false, answer := some (refusal p why) }

theorem refuses_proposeReceived {peer : Nat} {p : Proposal} (h : s.answers peer p) (hr : s.nackReason p ≠ 0) :
    Refuses s (s.proposeReceived peer p) p (s.nackReason p) := by
  have hnoted := frame_notedTxn s p.txn
  have hlast := lastTxn_notedTxn s p.txn
  have hflip : (s.notedTxn p.txn).flip = { s.flip with answered := some p.txn } := rfl
  have hlt := nackReason_lt s p
  rw [proposeReceived_refuses s h hr]
  generalize s.nackReason p = why at hlt ⊢
  generalize s.notedTxn p.txn = u at hnoted hlast hflip ⊢
  have hreason : Frame u (u.fset F.flpStat_reason why) (theseRegs [Reg.flpStat]) noBytes :=
    frame_fset u _ _ (.inl (by decide))
  unfold State.answerFlip
  constructor
  case noted => rw [setFlip_fget, hreason.fget (by decide) (by decide), hlast]
  case frame =>
    exact ((hnoted.mono (flipRegs_of_singleton (by decide)) fun _ => id).trans
      (hreason.mono (flipRegs_of_singleton (by decide)) fun _ => id)).trans (frame_setFlip _ _)
  case state =>
    rw [setFlip_flipState, State.flipState, fget_fset_apart _ _ ⟨by decide, by decide⟩ (.inl (by decide))]
    exact hnoted.fget (by decide) (by decide)
  case txn =>
    rw [setFlip_fget, fget_fset_apart _ _ ⟨by decide, by decide⟩ (.inr (by decide))]
    exact hnoted.fget (by decide) (by decide)
  case reason =>
    rw [setFlip_fget, fget_fset_self _ _ ⟨by decide, by decide⟩]
    exact Nat.mod_eq_of_lt hlt
  case flip =>
    rw [State.setFlip_flip, State.fset_flip, hflip]

end Sys2Proof.Machine
end

section
/-! SUPPORT. READY, NACK, COMMIT and ABORT as they are received (R183-R186). -/

namespace Sys2Proof.Machine

variable (s : State)

/-! ### READY (R183) -/

theorem frame_ready (peer : Nat) :
    Frame s (s.fbit (F.flpPeer_ready peer) true) (theseRegs [Reg.flpPeer peer]) noBytes :=
  frame_fbit s _ _ (.inl (by simp [theseRegs]))

/-! ### NACK (R185) -/

/-- A NACK of a peer with its reason stands in its register. -/
def State.notedNack (s : State) (peer reason : Nat) : State :=
  ((s.fbit (F.flpPeer_nack peer) true).fset (F.flpPeer_nackReason peer) reason).fbit (F.flpPeer_ready peer) false

theorem aside_notedNack (peer reason : Nat) :
    Aside s (s.notedNack peer reason) (theseRegs [Reg.flpPeer peer]) noBytes := by
  have h : theseRegs [Reg.flpPeer peer] (Reg.flpPeer peer) = true := by simp [theseRegs]
  exact ((aside_fbit s _ _ (.inl h)).trans (aside_fset _ _ _ (.inl h))).trans (aside_fbit _ _ _ (.inl h))

theorem nack_notedNack (peer reason : Nat) : (s.notedNack peer reason).flag (F.flpPeer_nack peer) = true := by
  unfold State.notedNack State.flag
  rw [State.fbit, fget_fset_apart _ _ ⟨by simp, by simp⟩ (.inr (by simp)),
    fget_fset_apart _ _ ⟨by simp, by simp⟩ (.inl (by simp))]
  exact flag_fbit_self s true ⟨by simp, by simp⟩ rfl

theorem ready_notedNack (peer reason : Nat) : (s.notedNack peer reason).flag (F.flpPeer_ready peer) = false :=
  flag_fbit_self _ false ⟨by simp, by simp⟩ rfl

theorem nackReason_notedNack (peer : Nat) {reason : Nat} (h : reason < 256) :
    (s.notedNack peer reason).fget (F.flpPeer_nackReason peer) = reason := by
  unfold State.notedNack
  rw [State.fbit, fget_fset_apart _ _ ⟨by simp, by simp⟩ (.inr (by simp)),
    fget_fset_self _ _ ⟨by simp, by simp⟩]
  exact Nat.mod_eq_of_lt h

theorem flipRegs_of_peer {peer : Nat} (h : peer < 8) : ∀ a, theseRegs [Reg.flpPeer peer] a = true → flipRegs a = true :=
  flipRegs_of_singleton (orAt_true.2 (.inl (regsOf_true.2 (by unfold Reg.flpPeer; omega))))

/-- No abort reaches the register of a peer. -/
theorem rd_flipAbort_peer {peer : Nat} (h : peer < 8) (reason n : Nat) :
    (s.flipAbort reason n).rd (Reg.flpPeer peer) = s.rd (Reg.flpPeer peer) := by
  refine (frame_flipAbort s reason n).reg _ ?_ ?_
  · interval_cases peer <;> decide
  · interval_cases peer <;> decide

/-- The NACK of a peer, after which the transaction goes on or is aborted. -/
structure NackNoted (t : State) (peer reason : Nat) : Prop where
  nack   : t.flag (F.flpPeer_nack peer) = true
  ready  : t.flag (F.flpPeer_ready peer) = false
  reason : t.fget (F.flpPeer_nackReason peer) = reason

theorem nackNoted_notedNack (peer : Nat) {reason : Nat} (h : reason < 256) :
    NackNoted (s.notedNack peer reason) peer reason :=
  ⟨nack_notedNack s peer reason, ready_notedNack s peer reason, nackReason_notedNack s peer h⟩

theorem NackNoted.flipAbort {peer reason : Nat} (h : NackNoted s peer reason) (hp : peer < 8) (why n : Nat) :
    NackNoted (s.flipAbort why n) peer reason := by
  have hrd := rd_flipAbort_peer s hp why n
  have hf : ∀ f : Fld, f.reg = Reg.flpPeer peer → (s.flipAbort why n).fget f = s.fget f := fun f hf => by
    rw [State.fget, State.fget, hf, hrd]
  exact ⟨by rw [State.flag, hf _ rfl]; exact h.nack, by rw [State.flag, hf _ rfl]; exact h.ready,
    by rw [hf _ rfl]; exact h.reason⟩

theorem txn_abortEntered (reason : Nat) : (s.abortEntered reason).fget F.flpStat_txn = s.fget F.flpStat_txn := by
  have hevent : Frame _ _ (theseRegs []) noBytes := (aside_flipEvent
    (((s.fset F.flpStat_reason reason).enterFlip flpAborted).count Reg.flpCntAbort) Ev.flipAbort reason).frame
  have hcount : Frame _ _ (theseRegs [Reg.flpCntAbort]) noBytes :=
    frame_count ((s.fset F.flpStat_reason reason).enterFlip flpAborted) Reg.flpCntAbort 1 (.inl rfl)
  rw [State.abortEntered, setFlip_fget, hevent.fget rfl (by decide), hcount.fget (by decide) (by decide),
    fget_enterFlip_apart _ _ rfl (by decide), fget_fset_apart _ _ ⟨by decide, by decide⟩ (.inr (by decide))]

/-- The coordinator of the fabric flip that it aborts sends ABORT last of its messages (R183). -/
theorem flipAbort_sends {txn : BitVec 16} (h : s.coordinates txn = true) (reason n : Nat) :
    (s.flipAbort reason n).flip.out.getLast? = some ⟨5, txn, s.flip.target, s.flip.req, 0, some n⟩ := by
  have hflip := abortEntered_flip s reason
  have htxn := txn_abortEntered s reason
  simp only [State.coordinates, Bool.and_eq_true, decide_eq_true_eq] at h
  obtain ⟨⟨⟨hcoord, hfabric⟩, -⟩, hs⟩ := h
  rw [flipAbort_flip]
  generalize s.abortEntered reason = u at hflip htxn ⊢
  have hucoord : u.flip.coord = true := by rw [hflip]; exact hcoord
  have hufabric : u.fabricFlip = true := by rw [State.fabricFlip, hflip]; exact hfabric
  have hmsg : u.flipMsg fmAbort (some n) = ⟨5, txn, s.flip.target, s.flip.req, 0, some n⟩ := by
    rw [State.flipMsg, htxn, hs, hflip, BitVec.ofNat_toNat, BitVec.setWidth_eq]
    rfl
  unfold State.abortTold
  rw [if_neg (by simp [hufabric]), if_pos hucoord, hmsg]
  exact List.getLast?_concat ..

/-! ### COMMIT (R186) -/

/-- A READY member of the transaction commits: in the frame before the target, or as an uncertain one that holds valid
rehearsals. -/
def State.commits (s : State) (txn : BitVec 16) : Bool :=
  s.memberOf txn && s.flipState = flpReady && if s.flip.unsure then s.rehValid else s.dist s.flip.target = 1

theorem commitReceived_of_not {txn : BitVec 16} (h : s.commits txn = false) :
    s.commitReceived txn = s.endAnswer txn := by
  have hsame : (s.endAnswer txn).commits txn = false := h
  unfold State.commitReceived
  generalize s.endAnswer txn = u at hsame ⊢
  simp only [State.commits] at hsame
  unfold State.resolveCommit
  dsimp only
  split_ifs <;> simp_all

theorem commitReceived_of_commits {txn : BitVec 16} (h : s.commits txn = true) :
    s.commitReceived txn = if s.flip.unsure then
      ((s.endAnswer txn).enterFlip flpCommitted).setFlip fun x => { x with catchUp := true }
    else (s.endAnswer txn).enterFlip flpCommitted := by
  have hu : (s.endAnswer txn).flip.unsure = s.flip.unsure := rfl
  have hsame : (s.endAnswer txn).commits txn = true := h
  unfold State.commitReceived
  rw [← hu]
  generalize s.endAnswer txn = u at hsame ⊢
  simp only [State.commits, Bool.and_eq_true, decide_eq_true_eq] at hsame
  obtain ⟨⟨hmember, hready⟩, hwhen⟩ := hsame
  dsimp only
  rw [if_pos (by simp [hmember, hready])]
  by_cases hunsure : u.flip.unsure = true
  · rw [if_pos hunsure] at hwhen ⊢
    rw [State.resolveCommit, if_pos hwhen, if_pos hunsure]
  · rw [if_neg hunsure] at hwhen ⊢
    rw [if_pos (of_decide_eq_true hwhen), if_neg hunsure]

/-! ### ABORT (R185) -/

/-- A member of the transaction that has not committed aborts. -/
def State.aborts (s : State) (txn : BitVec 16) : Bool := s.memberOf txn && s.flipStoppable

theorem abortReceived_of_not {txn : BitVec 16} (h : s.aborts txn = false) :
    s.abortReceived txn = s.endAnswer txn := if_neg (Bool.eq_false_iff.1 h)

theorem abortReceived_of_aborts {txn : BitVec 16} (h : s.aborts txn = true) :
    s.abortReceived txn = (s.endAnswer txn).flipAbort frLate := if_pos h

/-- A member whose coordinator aborts sends no answer of its own. -/
theorem answer_flipAbort_late {txn : BitVec 16} (h : s.memberOf txn = true) :
    (s.flipAbort frLate).flip.answer = s.flip.answer := by
  have hflip := abortEntered_flip s frLate
  simp only [State.memberOf, Bool.and_eq_true, Bool.not_eq_true'] at h
  obtain ⟨⟨⟨hcoord, -⟩, -⟩, -⟩ := h
  rw [flipAbort_flip]
  generalize s.abortEntered frLate = u at hflip ⊢
  have hucoord : ¬u.flip.coord = true := by rw [hflip]; simp [FlipSt.aborted, hcoord]
  unfold State.abortTold
  rw [if_neg hucoord, if_neg (show ¬(decide (frLate = frRehearsal) || decide (frLate = frCancelled)) = true by decide),
    ite_self, hflip]
  rfl

end Sys2Proof.Machine
end

section
/-! SUPPORT. The statement about the messages of a flip. -/

namespace Sys2Proof

open Machine

variable {s : State} {peer : Peer} {txn : BitVec 16}

theorem frame_endAnswer (s : State) (txn : BitVec 16) {regs bytes : Nat → Bool} :
    Frame s (s.endAnswer txn) regs bytes :=
  .of_hidden ⟨rfl, rfl, rfl, rfl, rfl⟩ rfl

theorem peerReg_apart {peer a : Nat} (hp : peer < 8) (h : a < 0xC0040 ∨ 0xC0060 ≤ a) :
    theseRegs [Reg.flpPeer peer] a = false := by
  simp only [theseRegs, List.contains_cons, List.contains_nil, Bool.or_false, beq_eq_false_iff_ne, Reg.flpPeer]
  omega

/-- A NACK for the coordinator's transaction is noted, and aborts it while that can still be done. -/
theorem nackReceived_noted (h : s.coordinates txn = true) (reason : BitVec 8) :
    let t := s.nackReceived peer.val txn reason.toNat
    NackNoted t peer.val reason.toNat ∧ Frame s t flipRegs noBytes ∧
      if s.flipStoppable then
        t.flipState = flpAborted ∧ t.fget F.flpStat_reason = frNack ∧
        t.rd Reg.flpCntAbort = s.rd Reg.flpCntAbort + 1 ∧
        t.flip.out.getLast? = some ⟨5, txn, s.flip.target, s.flip.req, 0, some 3⟩
      else t.flipState = s.flipState ∧ t.flip = s.flip := by
  have haside := aside_notedNack s peer.val reason.toNat
  have hpeer := flipRegs_of_peer peer.isLt
  have hnoted := nackNoted_notedNack s peer.val reason.isLt
  have hstat : ∀ f : Fld, f.reg = Reg.flpStat → (s.notedNack peer.val reason.toNat).fget f = s.fget f := fun f hf =>
    haside.frame.fget (hf ▸ peerReg_apart peer.isLt (.inl (by decide))) (hf ▸ (by decide))
  have hcnt : (s.notedNack peer.val reason.toNat).rd Reg.flpCntAbort = s.rd Reg.flpCntAbort :=
    haside.frame.reg _ (peerReg_apart peer.isLt (.inr (by decide))) (by decide)
  have ht : s.nackReceived peer.val txn reason.toNat =
      if (s.notedNack peer.val reason.toNat).flipStoppable then
        (s.notedNack peer.val reason.toNat).flipAbort frNack
      else s.notedNack peer.val reason.toNat := if_neg (by simp [h])
  intro t
  simp only [t, ht]
  generalize s.notedNack peer.val reason.toNat = u at haside hnoted hstat hcnt ⊢
  have hstate : u.flipState = s.flipState := hstat _ rfl
  have hstop : u.flipStoppable = s.flipStoppable := by rw [State.flipStoppable, hstate, State.flipStoppable]
  have hcoord : u.coordinates txn = true := by
    rw [State.coordinates, State.fabricFlip, State.flipOpen, hstate, hstat _ rfl, haside.flip]
    exact h
  rw [hstop]
  split
  · refine ⟨hnoted.flipAbort _ peer.isLt _ _, ?_, flipState_flipAbort u _ _, reason_flipAbort u (by decide) _, ?_, ?_⟩
    · exact (haside.frame.mono hpeer fun _ => id).trans
        ((frame_flipAbort u _ _).mono (fun _ => flipRegs_of_abort) fun _ => id)
    · rw [count_flipAbort, hcnt]
    · rw [flipAbort_sends u hcoord, haside.flip]
  · exact ⟨hnoted, haside.frame.mono hpeer fun _ => id, hstate, haside.flip⟩

/-- COMMIT ends the answer to its transaction and commits the member that waits for it. -/
theorem commitReceived_commits (s : State) (txn : BitVec 16) :
    let t := s.commitReceived txn
    t.flip.answer = s.flip.answer.filter (fun m => m.txn ≠ txn) ∧
      t.flipState = (if s.commits txn then flpCommitted else s.flipState) ∧
      t.flip.catchUp = (s.commits txn && s.flip.unsure || s.flip.catchUp) ∧
      Frame s t (if s.commits txn then flipRegs else theseRegs []) noBytes := by
  intro t
  cases hc : s.commits txn with
  | false =>
    simp only [t, commitReceived_of_not s hc]
    exact ⟨rfl, rfl, rfl, frame_endAnswer s txn⟩
  | true =>
    have henter : Frame s ((s.endAnswer txn).enterFlip flpCommitted) flipRegs noBytes :=
      (frame_endAnswer s txn).trans ((aside_enterFlip _ _).frame.mono
        (fun _ h => flipRegs_of_abort (flipAbortRegs_of_state h)) fun _ => id)
    have hstate := flipState_enterFlip (s.endAnswer txn) (st := flpCommitted) (by decide)
    have hflip : ((s.endAnswer txn).enterFlip flpCommitted).flip = (s.endAnswer txn).flip := enterFlip_flip _ _
    simp only [t, commitReceived_of_commits s hc]
    generalize (s.endAnswer txn).enterFlip flpCommitted = u at henter hstate hflip ⊢
    split
    case isTrue hunsure =>
      refine ⟨?_, hstate, ?_, henter.trans (frame_setFlip _ _)⟩
      · rw [State.setFlip_flip, hflip]; rfl
      · rw [State.setFlip_flip, hunsure]; rfl
    case isFalse hunsure =>
      refine ⟨?_, hstate, ?_, henter⟩
      · rw [hflip]; rfl
      · rw [hflip, Bool.eq_false_iff.2 hunsure]; rfl

/-- ABORT ends the answer to its transaction and aborts the member that has not committed. -/
theorem abortReceived_aborts (s : State) (txn : BitVec 16) :
    let t := s.abortReceived txn
    t.flip.answer = s.flip.answer.filter (fun m => m.txn ≠ txn) ∧
      t.flipState = (if s.aborts txn then flpAborted else s.flipState) ∧
      t.fget F.flpStat_reason = (if s.aborts txn then frLate else s.fget F.flpStat_reason) ∧
      t.rd Reg.flpCntAbort = s.rd Reg.flpCntAbort + (if s.aborts txn then 1 else 0) ∧
      Frame s t (if s.aborts txn then flipRegs else theseRegs []) noBytes := by
  intro t
  cases ha : s.aborts txn with
  | false =>
    simp only [t, abortReceived_of_not s ha]
    exact ⟨rfl, rfl, rfl, (BitVec.add_zero _).symm, frame_endAnswer s txn⟩
  | true =>
    have hmember : (s.endAnswer txn).memberOf txn = true := (Bool.and_eq_true_iff.1 ha).1
    simp only [t, abortReceived_of_aborts s ha]
    refine ⟨?_, flipState_flipAbort _ _ _, reason_flipAbort _ (by decide) _, count_flipAbort _ _ _, ?_⟩
    · rw [answer_flipAbort_late _ hmember]; rfl
    · exact (frame_endAnswer s txn).trans
        ((frame_flipAbort _ _ _).mono (fun _ => flipRegs_of_abort) fun _ => id)

/-- READY is noted for the coordinator's transaction up to two frames before its target. -/
theorem readyReceived_noted (s : State) (peer : Nat) (txn : BitVec 16) :
    let t := s.readyReceived peer txn
    let d := s.dist s.flip.target
    if s.coordinates txn && decide (2 ≤ d) && decide (d ≤ 2 ^ 30) then
      t.flag (F.flpPeer_ready peer) = true ∧ t.flip = s.flip ∧ Frame s t (theseRegs [Reg.flpPeer peer]) noBytes
    else t = s := by
  by_cases h : (s.coordinates txn && decide (2 ≤ s.dist s.flip.target) && decide (s.dist s.flip.target ≤ 2 ^ 30)) = true
  · have ht : s.readyReceived peer txn = s.fbit (F.flpPeer_ready peer) true := if_pos h
    intro t d
    rw [if_pos h]
    simp only [t, ht]
    exact ⟨flag_fbit_self s true ⟨by simp, by simp⟩ rfl, State.fbit_flip _ _ _, frame_ready s peer⟩
  · intro t d
    rw [if_neg h]
    exact if_neg h

/-- Settles O24: each message acts on the flip through one operation, which the lemmas above say; what it does not
concern it leaves as it is. -/
theorem flipMessages : Obligations.FlipMessages := by
  intro peer con txn s hup flips me openTxn member coord d ended
  have hmember : s.memberOf txn = member := memberOf_eq s txn
  have hcoord : s.coordinates txn = coord := coordinates_eq s txn
  refine ⟨?propose, ?ready, ?nack, ?commit, ?abort⟩
  case propose =>
    rintro p rfl
    refine completes_of_up (f := fun s => if p.con then s else s.proposeReceived peer.val p) hup rfl ?_
    intro joins
    rw [← hmember]
    by_cases hanswers : s.answers peer.val p ∧ p.con = false
    · obtain ⟨hanswers, hcon⟩ := hanswers
      have hnot : ¬(p.con || !joins || decide (s.flip.answered = some p.txn) || s.memberOf p.txn ||
          decide (peer.val = me)) = true := by
        rw [hcon, Bool.false_or]
        exact Bool.eq_false_iff.1 hanswers
      rw [if_neg hnot, if_neg (Bool.eq_false_iff.1 hcon)]
      intro ahead same reason
      have hreason : s.nackReason p = reason := rfl
      clear_value reason
      subst hreason
      by_cases hr : s.nackReason p = 0
      · have h := joins_proposeReceived s hanswers hr
        rw [if_pos hr, h.flip]
        exact ⟨h.noted, rfl, h.frame, h.state, rfl, rfl, rfl, h.txn⟩
      · have h := refuses_proposeReceived s hanswers hr
        rw [if_neg hr, h.flip]
        exact ⟨h.noted, rfl, h.frame, h.state, h.txn, h.reason, rfl⟩
    · cases hcon : p.con with
      | true => exact if_pos rfl
      | false =>
        have hignored : (!joins || decide (s.flip.answered = some p.txn) || s.memberOf p.txn ||
            decide (peer.val = me)) = true := by
          by_contra h
          exact hanswers ⟨Bool.eq_false_iff.2 h, hcon⟩
        rw [Bool.false_or, if_pos hignored]
        exact if_pos hignored
  case ready =>
    refine completes_of_up (f := fun s => if con then s else s.readyReceived peer.val txn) hup rfl ?_
    rw [← hcoord]
    cases con with
    | true => rw [if_pos rfl, if_neg (by simp)]
    | false =>
      rw [if_neg Bool.false_ne_true]
      exact readyReceived_noted s peer.val txn
  case nack =>
    intro reason
    refine completes_of_up (f := fun s => if con then s else s.nackReceived peer.val txn reason.toNat) hup rfl ?_
    rw [← hcoord]
    cases con with
    | true => rw [if_pos rfl, if_pos (by simp)]
    | false =>
      rw [if_neg Bool.false_ne_true]
      cases hc : s.coordinates txn with
      | false =>
        rw [if_pos (by simp)]
        exact if_pos (by simp [hc])
      | true =>
        rw [if_neg (by simp)]
        obtain ⟨hnoted, hframe, hflip⟩ := nackReceived_noted (peer := peer) hc reason
        exact ⟨hnoted.nack, hnoted.ready, hnoted.reason, hframe, hflip⟩
  case commit =>
    refine completes_of_up (f := fun s => if con then s else s.commitReceived txn) hup rfl ?_
    cases con with
    | true => rw [if_pos rfl, if_pos rfl]
    | false =>
      rw [if_neg Bool.false_ne_true]
      intro commits
      have hcommits : s.commits txn = commits := by
        rw [State.commits, hmember]
        rfl
      rw [← hcommits]
      exact commitReceived_commits s txn
  case abort =>
    refine completes_of_up (f := fun s => if con then s else s.abortReceived txn) hup rfl ?_
    cases con with
    | true => rw [if_pos rfl, if_pos rfl]
    | false =>
      rw [if_neg Bool.false_ne_true]
      intro aborts
      have haborts : s.aborts txn = aborts := by rw [State.aborts, hmember]
      rw [← haborts]
      exact abortReceived_aborts s txn

end Sys2Proof
end

section
/-! SUPPORT. The way of a host write to a word behind BAR2, and what its wake and its mirror record leave as it was. -/

namespace Sys2Proof

open Machine

variable {s t u : State} {regs regs' bytes : Nat → Bool}

/-- A frame in which the memory, the paths, the lanes and the events stay, and so does which words of the path table
are uncorrectable. -/
structure Unmoved (s t : State) (regs : Nat → Bool) : Prop where
  frame : Frame s t regs noBytes
  mem   : t.mem = s.mem
  paths : t.paths = s.paths
  lanes : t.lanes = s.lanes
  evt   : t.evt = s.evt
  ue    : ∀ a, a < 0x1800000 → t.ueAt a = s.ueAt a

theorem Unmoved.refl (s : State) (regs : Nat → Bool) : Unmoved s s regs :=
  ⟨.refl _ _ _, rfl, rfl, rfl, rfl, fun _ _ => rfl⟩

theorem Unmoved.trans (h : Unmoved s t regs) (k : Unmoved t u regs) : Unmoved s u regs :=
  ⟨h.frame.trans k.frame, k.mem.trans h.mem, k.paths.trans h.paths, k.lanes.trans h.lanes, k.evt.trans h.evt,
    fun a ha => (k.ue a ha).trans (h.ue a ha)⟩

theorem Unmoved.mono (h : Unmoved s t regs) (hr : ∀ a, regs a = true → regs' a = true) : Unmoved s t regs' :=
  ⟨h.frame.mono hr fun _ => id, h.mem, h.paths, h.lanes, h.evt, h.ue⟩

/-- Registers that a host write behind BAR2 reaches beside its effect. -/
def hostMemRegs : Nat → Bool := orAt memRegs hostAccount

end Sys2Proof

namespace Sys2Proof.Machine

variable (s : State) {regs : Nat → Bool}

theorem unmoved_wr (a : Nat) (v : W32) (h : regs a = true) : Unmoved s (s.wr a v) regs :=
  ⟨frame_wr s a v (.inl h), rfl, rfl, rfl, rfl, fun _ _ => rfl⟩

/-! ### The words received (R297) -/

/-- What is found at a key after another has been unlisted. -/
theorem find?_erase_ne {α : Type} {k j : Nat} (h : j ≠ k) (m : Sparse α) :
    (Sparse.erase k m).find? (fun q => decide (q.1 = j)) = m.find? fun q => decide (q.1 = j) := by
  rw [Sparse.erase_eq_filter, List.find?_filter]
  congr 1
  funext q
  by_cases hq : q.1 = j
  · simp [hq, h]
  · simp [hq]

/-- The counter memory holds no word of the path table. -/
theorem ueAt_rewriteCounter (w : CounterWord) {a : Nat} (h : a < 0x1800000) :
    (s.rewriteCounter w).ueAt a = s.ueAt a := by
  have hkey : a / 4 ≠ counterKey w := by
    simp only [counterKey, damageKey]
    omega
  unfold State.ueAt State.ueKey State.rewriteCounter
  dsimp only
  rw [find?_erase_ne hkey]

theorem unmoved_speed (i n : Nat) (hl : regs (Reg.cntLo i) = true) (hh : regs (Reg.cntHi i) = true) :
    Unmoved s (s.speed i n) regs where
  frame := frame_speed s i n hl hh
  mem   := addSpeed_keeps s State.mem (fun _ _ => rfl) (fun _ _ => rfl) (fun _ _ => rfl) n
  paths := addSpeed_keeps s State.paths (fun _ _ => rfl) (fun _ _ => rfl) (fun _ _ => rfl) n
  lanes := addSpeed_keeps s State.lanes (fun _ _ => rfl) (fun _ _ => rfl) (fun _ _ => rfl) n
  evt   := addSpeed_keeps s State.evt (fun _ _ => rfl) (fun _ _ => rfl) (fun _ _ => rfl) n
  ue    := fun a ha => addSpeed_keeps s (·.ueAt a) (fun _ _ => rfl) (fun _ _ => rfl)
    (fun s w => ueAt_rewriteCounter s w ha) n

/-! ### The bank that wakes (R344) -/

/-- The banks of the path table lie in no region that can be OFF (R337, R344). -/
theorem regionOf_pathBank {b : Nat} (h : 128 ≤ b) (h' : b < 192) : s.regionOf b = none := by
  have hbanks : ∀ r, b ∉ s.regionBanks r := by
    intro r
    unfold State.regionBanks
    split <;> rw [List.mem_range'_1]
    · split <;> omega
    · split <;> omega
    · omega
  unfold State.regionOf
  rw [List.find?_eq_none]
  intro r _
  simpa using hbanks r

theorem unmoved_setBankState {b : Nat} (hb : b < 1024) (v : Nat) : Unmoved s (s.setBankState b v) memRegs :=
  ⟨(aside_setBankState s hb v).frame, rfl, rfl, rfl, rfl, fun _ _ => rfl⟩

theorem unmoved_wakeAt {a : Nat} (h : 0x1000000 ≤ a) (h' : a < 0x1800000) : Unmoved s (s.wakeAt a) memRegs := by
  unfold State.wakeAt State.wakeBank
  rw [if_pos (by omega), regionOf_pathBank s (by omega) (by omega)]
  dsimp only
  split
  · exact unmoved_setBankState s (by omega) _
  · exact .refl _ _

/-! ### The mirror (R236, R241) -/

theorem unmoved_setMate (f : MateSt → MateSt) : Unmoved s (s.setMate f) regs :=
  ⟨.of_hidden ⟨rfl, rfl, rfl, rfl, rfl⟩ rfl, rfl, rfl, rfl, rfl, fun _ _ => rfl⟩

theorem unmoved_startResync (h : regs Reg.matStat = true) (h' : regs Reg.matResync = true) :
    Unmoved s s.startResync regs := by
  have hregs : Unmoved s ((s.fbit F.matStat_mirrorBroken false).wr Reg.matResync 0x80000000) regs :=
    (unmoved_wr s _ _ h).trans (unmoved_wr _ _ _ h')
  unfold State.startResync
  split
  · exact .refl _ _
  · exact hregs.trans (unmoved_setMate _ fun x =>
      { x with startDue := true, image := some 0, endBanks := none, tail := none })

theorem unmoved_mendMirror (h : regs Reg.matStat = true) (h' : regs Reg.matResync = true) :
    Unmoved s s.mendMirror regs := by
  unfold State.mendMirror
  split
  · exact unmoved_startResync s h h'
  · exact .refl _ _

theorem unmoved_queueRecord (kind : BitVec 4) (r : MirrorRec) : Unmoved s (s.queueRecord kind r) hostMemRegs := by
  unfold State.queueRecord
  split
  · exact (unmoved_wr s _ _ (by decide)).trans (unmoved_mendMirror _ (by decide) (by decide))
  · exact ⟨.of_hidden ⟨rfl, rfl, rfl, rfl, rfl⟩ rfl, rfl, rfl, rfl, rfl, fun _ _ => rfl⟩

/-! ### The write -/

/-- Mirrored state that a standby holds takes no write; all other state takes it, and an ACTIVE device may queue a
record of it. -/
theorem asHost_taken {bar2 : Bool} (h : s.standsBy = false) (a : Nat) (be : BitVec 4) (v : W32) (f : State → State) :
    Unmoved (f s) (s.asHost bar2 a be v f) hostMemRegs := by
  unfold State.asHost
  rw [h]
  split
  · exact .refl _ _
  · rw [if_neg Bool.false_ne_true]
    split
    · unfold State.mirrorWrite
      dsimp only
      split
      · exact .refl _ _
      · exact unmoved_queueRecord _ _ _
    · exact .refl _ _

/-- The effect of a host write to the path table acts on a state that shows what the state before it shows. -/
theorem hostMem_taken (h : s.standsBy = false) {a : Nat} (ha : 0x1000000 ≤ a) (ha' : a < 0x1800000) (be : BitVec 4)
    (v : W32) (f : State → State) :
    ∃ u, Unmoved s u hostMemRegs ∧ Unmoved (f u) (s.hostMem a be v f) hostMemRegs := by
  have hspeed : Unmoved s (s.speed 96 4) hostMemRegs := unmoved_speed s 96 4 (by decide) (by decide)
  have hstands : (s.speed 96 4).standsBy = false := by
    rw [State.standsBy, State.mateState, State.fget, rd_speed_ne s 96 4 (by decide) (by decide)]
    exact h
  refine ⟨(s.speed 96 4).wakeAt a, hspeed.trans ((unmoved_wakeAt _ ha ha').mono fun _ h => orAt_true.2 (.inl h)), ?_⟩
  exact asHost_taken (s.speed 96 4) hstands a be v fun s => f (s.wakeAt a)

end Sys2Proof.Machine
end

section
/-! SUPPORT. A word of the path table: what a device write, the refresh of words 3 and 4, and a host write make of
it. -/

namespace Sys2Proof

open Machine

/-- The bytes of the entry of path `p`. -/
def entryBytes (p : Nat) : Nat → Bool := bytesAt (pathAddr p 0) 32

theorem entryBytes_of_word {p w : Nat} (hw : w < 8) {k : Nat} (hk : k < 4) :
    entryBytes p (pathAddr p w + k) = true := by
  simp [entryBytes, bytesAt, pathAddr]
  omega

/-- Bit 31 apart, a word is as it was before bit 31 was set. -/
theorem setBits_bit31_and (v : W32) (n : Nat) : setBits v 31 31 n &&& 0x7FFFFFFF = v &&& 0x7FFFFFFF := by
  have hmask : ∀ x : W32, (x &&& 0x7FFFFFFF).toNat = x.toNat % 2 ^ 31 := fun x => by
    rw [BitVec.toNat_and]
    exact Nat.and_two_pow_sub_one_eq_mod x.toNat 31
  apply BitVec.eq_of_toNat_eq
  rw [hmask, hmask, setBits_toNat v n (by decide) (by decide)]
  omega

/-- From `s` to `t` only the entry of path `p` changes, with what is known of its damage; no event is raised, and the
selector of the path stays. -/
structure Touched (s t : State) (p : Nat) : Prop where
  frame : Frame s t (theseRegs []) (entryBytes p)
  regs  : t.regs = s.regs
  evt   : t.evt = s.evt
  sel   : (t.path p).sel = (s.path p).sel
  dirty : (s.path p).dirty = true → (t.path p).dirty = true

theorem Touched.refl (s : State) (p : Nat) : Touched s s p := ⟨.refl _ _ _, rfl, rfl, rfl, id⟩

theorem Touched.trans {s t u : State} {p : Nat} (h : Touched s t p) (k : Touched t u p) : Touched s u p :=
  ⟨h.frame.trans k.frame, k.regs.trans h.regs, k.evt.trans h.evt, k.sel.trans h.sel, k.dirty ∘ h.dirty⟩

end Sys2Proof

namespace Sys2Proof.Machine

variable (s : State)

/-! ### Device writes of a word -/

@[simp] theorem mend_mem (a : Nat) (be : BitVec 4) : (s.mend a be).mem = s.mem := congrArg Core.mem (core_mend s a be)

theorem touched_mend (a : Nat) (be : BitVec 4) (p : Nat) : Touched s (s.mend a be) p := by
  unfold State.mend
  dsimp only
  split
  · exact .refl _ _
  · exact ⟨.of_hidden ⟨rfl, rfl, rfl, rfl, rfl⟩ rfl, rfl, rfl, rfl, id⟩

/-- A write of a word changes memory alone. -/
theorem putWord_beside (a : Nat) (be : BitVec 4) (v : W32) :
    (s.putWord a be v).regs = s.regs ∧ (s.putWord a be v).evt = s.evt ∧ (s.putWord a be v).paths = s.paths := by
  unfold State.putWord
  dsimp only
  split_ifs <;> exact ⟨rfl, rfl, rfl⟩

theorem touched_setWord {p w : Nat} (hw : w < 8) (v : W32) : Touched s (s.setWord (pathAddr p w) v) p := by
  obtain ⟨hregs, hevt, hpaths⟩ := putWord_beside s (pathAddr p w) 0xF v
  have hpath : (s.setWord (pathAddr p w) v).path p = s.path p := congrArg (fun m => Sparse.get PathSt.init m p) hpaths
  exact ⟨frame_setWord s _ v fun k hk => entryBytes_of_word hw hk, hregs, hevt, by rw [hpath], by rw [hpath]; exact id⟩

theorem touched_setPathWord {p w : Nat} (hw : w < 8) (v : W32) : Touched s (s.setPathWord p w v) p :=
  (touched_mend s (pathAddr p w) 0x1 p).trans (touched_setWord _ hw v)

theorem path_onPath_self (p : Nat) (f : PathSt → PathSt) : (s.onPath p f).path p = f (s.path p) := by
  simp [State.path]

theorem touched_onPath (p : Nat) {f : PathSt → PathSt} (hsel : ∀ x, (f x).sel = x.sel)
    (hdirty : ∀ x, x.dirty = true → (f x).dirty = true) : Touched s (s.onPath p f) p :=
  ⟨.of_hidden ⟨rfl, rfl, rfl, rfl, rfl⟩ rfl, rfl, rfl, by rw [path_onPath_self, hsel],
    by rw [path_onPath_self]; exact hdirty _⟩

theorem memWord_congr {t : State} (h : t.mem = s.mem) (a : Nat) : t.memWord a = s.memWord a := by
  simp only [State.memWord, State.byte, h]

theorem pathWord_congr {t : State} (h : t.mem = s.mem) (p w : Nat) : t.pathWord p w = s.pathWord p w :=
  memWord_congr s h _

@[simp] theorem pathWord_setPathWord_self (p w : Nat) (v : W32) : (s.setPathWord p w v).pathWord p w = v :=
  memWord_setWord_self _ _ _

theorem pathWord_setPathWord_ne (p : Nat) {w j : Nat} (v : W32) (h : w ≠ j) :
    (s.setPathWord p w v).pathWord p j = s.pathWord p j := by
  have hout : (s.setPathWord p w v).pathWord p j = (s.mend (pathAddr p w) 0x1).memWord (pathAddr p j) :=
    memWord_putWord_out _ _ _ (by simp only [pathAddr]; omega)
  rw [hout]
  exact memWord_congr s (mend_mem s _ _) _

/-! ### The refresh of words 3 and 4 (R57) -/

theorem touched_refreshPath (p : Nat) : Touched s (s.refreshPath p) p := by
  unfold State.refreshPath
  split
  · exact .refl _ _
  · refine Touched.trans ?_ (touched_setPathWord _ (by decide) _)
    split
    · exact touched_setPathWord s (by decide) _
    · exact .refl _ _

/-- The refresh sets lane_fail in word 3 and cond in word 4, each its bit 31. -/
theorem refreshPath_shape (p : Nat) : s.refreshPath p = s ∨ ∃ (u : State) (n : Nat),
    (u = s ∨ ∃ m, u = s.setPathWord p 3 (setBits (s.pathWord p 3) 31 31 m)) ∧
      s.refreshPath p = u.setPathWord p 4 (setBits (u.pathWord p 4) 31 31 n) := by
  unfold State.refreshPath
  split
  · exact .inl rfl
  · refine .inr ⟨_, _, ?_, rfl⟩
    split
    · exact .inr ⟨_, rfl⟩
    · exact .inl rfl

theorem pathWord_refreshPath_ne (p : Nat) {j : Nat} (h3 : j ≠ 3) (h4 : j ≠ 4) :
    (s.refreshPath p).pathWord p j = s.pathWord p j := by
  rcases refreshPath_shape s p with h | ⟨u, n, hu, h⟩
  · rw [h]
  · rw [h, pathWord_setPathWord_ne _ _ _ (Ne.symm h4)]
    rcases hu with rfl | ⟨m, rfl⟩
    · rfl
    · exact pathWord_setPathWord_ne _ _ _ (Ne.symm h3)

theorem pathWord_refreshPath_and (p j : Nat) :
    (s.refreshPath p).pathWord p j &&& 0x7FFFFFFF = s.pathWord p j &&& 0x7FFFFFFF := by
  have hset : ∀ (u : State) (w n : Nat), (u.setPathWord p w (setBits (u.pathWord p w) 31 31 n)).pathWord p j &&&
      0x7FFFFFFF = u.pathWord p j &&& 0x7FFFFFFF := fun u w n => by
    by_cases hw : w = j
    · rw [← hw, pathWord_setPathWord_self, setBits_bit31_and]
    · rw [pathWord_setPathWord_ne _ _ _ hw]
  rcases refreshPath_shape s p with h | ⟨u, n, hu, h⟩
  · rw [h]
  · rw [h, hset]
    rcases hu with rfl | ⟨m, rfl⟩
    · rfl
    · exact hset s 3 m

/-! ### The host's write of a word (R57, R9) -/

/-- The word with the writable bits of the enabled bytes written. -/
def State.pathMerged (s : State) (p w : Nat) (be : BitVec 4) (v : W32) : W32 :=
  let m := pathRw w &&& beMask be &&&
    (if w = 1 ∧ bit (s.pathWord p 0) 31 = true then s.path1Mask p else 0xFFFFFFFF)
  (s.pathWord p w &&& ~~~m) ||| (v &&& m)

/-- The bits of a word that are locked now. -/
def State.pathLock (s : State) (p w : Nat) : W32 := if bit (s.pathWord p 0) 31 then pathLocked w else 0

/-- The word that the write leaves: locked bits keep their value. -/
def State.pathKept (s : State) (p w : Nat) (be : BitVec 4) (v : W32) : W32 :=
  (s.pathMerged p w be v &&& ~~~s.pathLock p w) ||| (s.pathWord p w &&& s.pathLock p w)

/-- A host write of a word, up to its event: its entry alone changes. -/
structure WordWritten (s u : State) (p w : Nat) (be : BitVec 4) (v : W32) : Prop where
  touched : Touched s u p
  stored  : w ≠ 3 → w ≠ 4 → u.pathWord p w = s.pathKept p w be v
  status  : w = 3 ∨ w = 4 → u.pathWord p w &&& 0x7FFFFFFF = s.pathWord p w &&& 0x7FFFFFFF
  sound   : w = 3 ∨ w = 4 → s.entryBad p = false → u.mem = s.mem
  waits   : w ≤ 2 → (u.path p).dirty = true

/-- A write with every byte of an uncorrectable word has the entry applied again (R340, R383). -/
def State.pathStored (s : State) (p w : Nat) (be : BitVec 4) (v : W32) : State :=
  let u := s.mend (pathAddr p w) be
  let u := if w = 3 || w = 4 then u else u.setPathWord p w (s.pathKept p w be v)
  let u := if w ≤ 2 then u.onPath p fun x => { x with dirty := true } else u
  if be = 0xF && s.ueAt (pathAddr p w) then u.onPath p fun x => { x with dirty := true, again := true } else u

theorem pathWordWrite_eq (p w : Nat) (be : BitVec 4) (v : W32) :
    s.pathWordWrite p w be v =
      let u := if s.entryBad p then (s.pathStored p w be v).refreshPath p else s.pathStored p w be v
      if s.pathMerged p w be v &&& s.pathLock p w ≠ s.pathWord p w &&& s.pathLock p w then
        u.raise Ev.pathWriteReject p
      else u := by
  unfold State.pathStored State.pathKept State.pathMerged State.pathLock State.pathWordWrite
  simp only [Bool.and_eq_true, decide_eq_true_eq]

/-- The entry waits for the frame mark. -/
theorem touched_waits (p : Nat) {f : PathSt → PathSt} (hsel : ∀ x, (f x).sel = x.sel) (hf : ∀ x, (f x).dirty = true) :
    Touched s (s.onPath p f) p ∧ (s.onPath p f).mem = s.mem ∧ ((s.onPath p f).path p).dirty = true :=
  ⟨touched_onPath s p hsel fun x _ => hf x, rfl, by rw [path_onPath_self]; exact hf _⟩

theorem wordWritten_pathStored {p w : Nat} (hw : w < 8) (be : BitVec 4) (v : W32) :
    WordWritten s (s.pathStored p w be v) p w be v := by
  have hmend := touched_mend s (pathAddr p w) be p
  have hmem := mend_mem s (pathAddr p w) be
  unfold State.pathStored
  generalize s.mend (pathAddr p w) be = u₁ at hmend hmem
  extract_lets _ u₂ u₃
  have hstored : Touched s u₂ p ∧ (w ≠ 3 → w ≠ 4 → u₂.pathWord p w = s.pathKept p w be v) ∧
      (w = 3 ∨ w = 4 → u₂.mem = s.mem) := by
    by_cases h : w = 3 ∨ w = 4
    · have hu : u₂ = u₁ := if_pos (by simpa using h)
      rw [hu]
      exact ⟨hmend, fun h3 h4 => (h.elim h3 h4).elim, fun _ => hmem⟩
    · have hu : u₂ = u₁.setPathWord p w (s.pathKept p w be v) := if_neg (by simpa using h)
      rw [hu]
      exact ⟨hmend.trans (touched_setPathWord _ hw _), fun _ _ => pathWord_setPathWord_self _ _ _ _,
        fun h' => (h h').elim⟩
  have hnoted : Touched u₂ u₃ p ∧ u₃.mem = u₂.mem ∧ (w ≤ 2 → (u₃.path p).dirty = true) := by
    by_cases h : w ≤ 2
    · have hu : u₃ = u₂.onPath p fun x => { x with dirty := true } := if_pos h
      obtain ⟨ht, hm, hd⟩ := touched_waits u₂ p (f := fun x => { x with dirty := true }) (fun _ => rfl) fun _ => rfl
      rw [hu]
      exact ⟨ht, hm, fun _ => hd⟩
    · have hu : u₃ = u₂ := if_neg h
      rw [hu]
      exact ⟨.refl _ _, rfl, fun h' => (h h').elim⟩
  obtain ⟨hstored, hkept, hstatus⟩ := hstored
  obtain ⟨hnoted, hmem₃, hwaits⟩ := hnoted
  have hlast : ∀ u, Touched u₃ u p → u.mem = u₃.mem → WordWritten s u p w be v := fun u hu hm =>
    have hword : u.pathWord p w = u₂.pathWord p w := pathWord_congr u₂ (hm.trans hmem₃) p w
    { touched := (hstored.trans hnoted).trans hu
      stored := fun h3 h4 => hword.trans (hkept h3 h4)
      status := fun h => by rw [hword, pathWord_congr s (hstatus h)]
      sound := fun h _ => (hm.trans hmem₃).trans (hstatus h)
      waits := fun h => hu.dirty (hwaits h) }
  split
  · obtain ⟨ht, hm, -⟩ := touched_waits u₃ p (f := fun x => { x with dirty := true, again := true }) (fun _ => rfl)
      fun _ => rfl
    exact hlast _ ht hm
  · exact hlast _ (.refl _ _) rfl

/-- The refresh of words 3 and 4 after the write of a word. -/
theorem WordWritten.refreshPath {s u : State} {p w : Nat} {be : BitVec 4} {v : W32} (h : WordWritten s u p w be v)
    (hbad : s.entryBad p = true) : WordWritten s (u.refreshPath p) p w be v where
  touched := h.touched.trans (touched_refreshPath u p)
  stored := fun h3 h4 => (pathWord_refreshPath_ne u p h3 h4).trans (h.stored h3 h4)
  status := fun hw => (pathWord_refreshPath_and u p w).trans (h.status hw)
  sound := fun _ hs => by rw [hbad] at hs; cases hs
  waits := fun hw => (touched_refreshPath u p).dirty (h.waits hw)

theorem pathWordWrite_written {p w : Nat} (hw : w < 8) (be : BitVec 4) (v : W32) :
    ∃ u, WordWritten s u p w be v ∧ s.pathWordWrite p w be v =
      if s.pathMerged p w be v &&& s.pathLock p w ≠ s.pathWord p w &&& s.pathLock p w then
        u.raise Ev.pathWriteReject p
      else u := by
  have h := wordWritten_pathStored s (p := p) hw be v
  refine ⟨if s.entryBad p then (s.pathStored p w be v).refreshPath p else s.pathStored p w be v, ?_,
    pathWordWrite_eq ..⟩
  split
  · exact h.refreshPath (by assumption)
  · exact h

end Sys2Proof.Machine
end

section
/-! SUPPORT. The event of a host write, and the statement about writes of the path table. -/

namespace Sys2Proof

open Machine

variable {s t u : State} {regs bytes : Nat → Bool}

/-! ### An event that is raised with room (R372, R373) -/

theorem evt_appendRecord (s : State) (typ sev low : Nat) (ws : List W32) :
    (s.appendRecord typ sev low ws).evt = s.evt := rfl

theorem evt_evictRecord (s : State) (sev : Nat) : (s.evictRecord sev).evt = s.evt := rfl

theorem evt_stageRecord (s : State) (typ sev low : Nat) (ws : List W32) :
    (s.stageRecord typ sev low ws).evt = s.evt := by
  unfold State.stageRecord
  dsimp only
  split_ifs
  · exact evt_appendRecord ..
  · rw [evt_appendRecord, evt_evictRecord, State.count_evt]
  · exact State.count_evt ..

theorem staged_raise (s : State) (h : s.eventRoom = true) (e : EvName) (w1 w2 w3 w4 w5 : Nat) :
    (s.raise e w1 w2 w3 w4 w5).evt.staged =
      s.evt.staged ++ if s.delivers e then [s.eventOf e [w1, w2, w3, w4, w5]] else [] := by
  have hroom : s.evt.staged.length < eventMax := by
    have := of_decide_eq_true h
    unfold eventMax
    omega
  unfold State.raise State.raiseAs
  dsimp only
  cases s.delivers e with
  | false =>
    rw [if_neg Bool.false_ne_true, if_neg Bool.false_ne_true, List.append_nil]
    split
    · rw [evt_stageRecord]
    · rfl
  | true =>
    rw [if_pos rfl, if_pos rfl, State.stageEvent, if_pos hroom]
    split
    · rw [evt_stageRecord]
      rfl
    · rfl

/-- The registers that an event of the path table is formed from. -/
def Quiet (regs : Nat → Bool) : Prop :=
  ∀ a ∈ [Reg.evtCfg, Reg.evtMask Ev.pathWriteReject.block, Reg.pmnStat, Reg.pmnTai], regs a = false

/-- Where these stay, so does the event. -/
theorem Frame.event (h : Frame s t regs bytes) (hq : Quiet regs) (ps : List Nat) :
    t.delivers Ev.pathWriteReject = s.delivers Ev.pathWriteReject ∧
      t.eventOf Ev.pathWriteReject ps = s.eventOf Ev.pathWriteReject ps := by
  have hreg : ∀ a ∈ [Reg.evtCfg, Reg.evtMask Ev.pathWriteReject.block, Reg.pmnStat, Reg.pmnTai], t.rd a = s.rd a :=
    fun a ha => h.reg a (hq a ha) (by revert a; decide)
  have hfget : ∀ f : Fld, f.reg = Reg.evtCfg → t.fget f = s.fget f := fun f hf => by
    rw [State.fget, State.fget, hf, hreg _ (by simp)]
  have htai : t.tai = s.tai := by
    rw [State.tai, State.flag, State.fget, hreg _ (by simp), hreg _ (by simp)]
    rfl
  constructor
  · rw [State.delivers, State.delivers, hfget _ rfl, hreg _ (by simp)]
  · rw [State.eventOf, State.eventOf, hfget _ rfl, htai, h.clock]

/-- What a write told its state, the host tells the state before. -/
theorem Told.of_unmoved {y : State} {on : Bool} {ps : List Nat} (hu : Unmoved s u regs) (hq : Quiet regs)
    (hy : Told u y on Ev.pathWriteReject ps) (ht : Unmoved y t regs) : Told s t on Ev.pathWriteReject ps := by
  obtain ⟨hdelivers, hevent⟩ := hu.frame.event hq ps
  intro hroom
  have hroom' : u.eventRoom = true := by rw [State.eventRoom, hu.evt]; exact hroom
  rw [ht.evt, hy hroom', hu.evt, hdelivers, hevent]

/-- The event of a write to an entry comes last. -/
theorem Touched.told {p : Nat} (h : Touched s u p) :
    Told s (u.raise Ev.pathWriteReject p) true Ev.pathWriteReject [p] := by
  obtain ⟨hdelivers, hevent⟩ := h.frame.event (fun _ _ => rfl) [p]
  intro hroom
  have hroom' : u.eventRoom = true := by rw [State.eventRoom, h.evt]; exact hroom
  rw [staged_raise u hroom', h.evt, hdelivers, Bool.true_and, ← hevent]
  rfl

theorem Touched.silent {p : Nat} (h : Touched s u p) (e : EvName) (ps : List Nat) : Told s u false e ps := by
  intro _
  rw [h.evt, Bool.false_and]
  exact (List.append_nil _).symm

end Sys2Proof
end

section
/-! SUPPORT. The statement about host writes of a path table entry. -/

namespace Sys2Proof

open Machine

variable {s t u x : State} {p w : Nat} {be : BitVec 4} {v : W32}

/-! ### What a write is judged by, on a state that shows the same -/

theorem Unmoved.pathWord (h : Unmoved s u hostMemRegs) (p w : Nat) : u.pathWord p w = s.pathWord p w :=
  pathWord_congr s h.mem p w

theorem Unmoved.path (h : Unmoved s u hostMemRegs) (p : Nat) : u.path p = s.path p := by
  rw [State.path, State.path, h.paths]

theorem Unmoved.pathMerged (h : Unmoved s u hostMemRegs) (p w : Nat) (be : BitVec 4) (v : W32) :
    u.pathMerged p w be v = s.pathMerged p w be v := by
  have hmask : u.path1Mask p = s.path1Mask p := by
    rw [State.path1Mask, State.path1Mask, h.pathWord, State.structuralWord, State.structuralWord, State.lane,
      State.lane, h.lanes]
  rw [State.pathMerged, State.pathMerged, h.pathWord, h.pathWord, hmask]

theorem Unmoved.pathLock (h : Unmoved s u hostMemRegs) (p w : Nat) : u.pathLock p w = s.pathLock p w := by
  rw [State.pathLock, State.pathLock, h.pathWord]

theorem Unmoved.pathKept (h : Unmoved s u hostMemRegs) (p w : Nat) (be : BitVec 4) (v : W32) :
    u.pathKept p w be v = s.pathKept p w be v := by
  rw [State.pathKept, State.pathKept, h.pathMerged, h.pathLock, h.pathWord]

theorem Unmoved.entryBad (h : Unmoved s u hostMemRegs) (hp : p < 262144) : u.entryBad p = s.entryBad p := by
  unfold State.entryBad
  rw [Bool.eq_iff_iff, List.any_eq_true, List.any_eq_true]
  refine exists_congr fun w => and_congr_right fun hw => ?_
  have hlt := List.mem_range.1 hw
  rw [h.ue _ (by simp only [pathAddr]; omega)]

/-! ### The write as a whole -/

/-- The write was refused for a locked bit that it would change. -/
def pathReject (s : State) (p w : Nat) (be : BitVec 4) (v : W32) : Bool :=
  s.pathMerged p w be v &&& s.pathLock p w ≠ s.pathWord p w &&& s.pathLock p w

/-- A host write of word `w` of the entry of path `p`, as the state after it shows it. -/
structure WordTaken (s t : State) (p w : Nat) (be : BitVec 4) (v : W32) : Prop where
  stored : w ≠ 3 → w ≠ 4 → t.pathWord p w = s.pathKept p w be v
  status : w = 3 ∨ w = 4 → t.pathWord p w &&& 0x7FFFFFFF = s.pathWord p w &&& 0x7FFFFFFF
  told   : Told s t (pathReject s p w be v) Ev.pathWriteReject [p]
  waits  : w ≤ 2 → (t.path p).dirty = true
  frame  : Frame s t hostMemRegs (entryBytes p)
  sound  : w = 3 ∨ w = 4 → s.entryBad p = false → t.mem = s.mem

theorem quiet_hostMemRegs : Quiet hostMemRegs := by
  unfold Quiet
  decide

theorem frame_of_unmoved {y : State} {bytes : Nat → Bool} (hu : Unmoved s u hostMemRegs)
    (hy : Frame u y (theseRegs []) bytes) (ht : Unmoved y t hostMemRegs) : Frame s t hostMemRegs bytes :=
  ((hu.frame.mono (fun _ => id) fun _ h => by cases h).trans (hy.mono (fun _ h => by cases h) fun _ => id)).trans
    (ht.frame.mono (fun _ => id) fun _ h => by cases h)

theorem wordTaken_of_written (h : WordWritten u x p w be v) (hp : p < 262144) (hu : Unmoved s u hostMemRegs)
    (ht : Unmoved (if pathReject u p w be v then x.raise Ev.pathWriteReject p else x) t hostMemRegs) :
    WordTaken s t p w be v := by
  have hreject : pathReject u p w be v = pathReject s p w be v := by
    rw [pathReject, pathReject, hu.pathMerged, hu.pathLock, hu.pathWord]
  have htold : Told u (if pathReject u p w be v then x.raise Ev.pathWriteReject p else x) (pathReject u p w be v)
      Ev.pathWriteReject [p] := by
    cases pathReject u p w be v with
    | true => exact h.touched.told
    | false => exact h.touched.silent _ _
  have hy : (if pathReject u p w be v then x.raise Ev.pathWriteReject p else x).works = x.works ∧
      Frame u (if pathReject u p w be v then x.raise Ev.pathWriteReject p else x) (theseRegs []) (entryBytes p) := by
    split
    · exact ⟨works_raise .., h.touched.frame.trans (frame_raise x _ _ _ _ _ _)⟩
    · exact ⟨rfl, h.touched.frame⟩
  generalize (if pathReject u p w be v then x.raise Ev.pathWriteReject p else x) = y at ht htold hy
  obtain ⟨hworks, hframe⟩ := hy
  have hmem : t.mem = x.mem := ht.mem.trans (congrArg Works.mem hworks)
  have hpath : t.path p = x.path p := (ht.path p).trans
    (congrArg (fun m => Sparse.get PathSt.init m p) (congrArg Works.paths hworks))
  have hword : t.pathWord p w = x.pathWord p w := pathWord_congr x hmem p w
  constructor
  case stored => exact fun h3 h4 => by rw [hword, h.stored h3 h4, hu.pathKept]
  case status => exact fun hw => by rw [hword, h.status hw, hu.pathWord]
  case told => exact hreject ▸ Told.of_unmoved hu quiet_hostMemRegs htold ht
  case waits => exact fun hw => by rw [hpath]; exact h.waits hw
  case frame => exact frame_of_unmoved hu hframe ht
  case sound => exact fun hw hs => (hmem.trans (h.sound hw ((hu.entryBad hp).trans hs))).trans hu.mem

/-- A host write of a word other than word 6, while it is taken. -/
theorem wordTaken_hostMem (hs : s.standsBy = false) (hp : p < 262144) (hw : w < 8) (h6 : w ≠ 6) (be : BitVec 4)
    (v : W32) :
    WordTaken s (s.hostMem (pathAddr p w) be v fun s => s.pathEntryWrite p w be v) p w be v := by
  obtain ⟨u, hu, ht⟩ := hostMem_taken s hs (a := pathAddr p w) (by simp only [pathAddr]; omega)
    (by simp only [pathAddr]; omega) be v fun s => s.pathEntryWrite p w be v
  obtain ⟨x, hx, heq⟩ := pathWordWrite_written u (p := p) hw be v
  have hword : u.pathEntryWrite p w be v = if pathReject u p w be v then x.raise Ev.pathWriteReject p else x := by
    rw [State.pathEntryWrite, if_neg h6, heq]
    simp only [pathReject, decide_eq_true_eq]
  rw [hword] at ht
  exact wordTaken_of_written hx hp hu ht

/-! ### Selector commands (R191, R198) -/

/-- Word 6 has no locked bit, so a write of it raises no event. -/
theorem pathLock_six (s : State) (p : Nat) : s.pathLock p 6 = 0 := ite_self _

theorem pathKept_six (s : State) (p : Nat) (be : BitVec 4) (v : W32) : s.pathKept p 6 be v = s.pathMerged p 6 be v := by
  rw [State.pathKept, pathLock_six, show ~~~(0 : W32) = BitVec.allOnes 32 from rfl, BitVec.and_allOnes]
  simp

/-- A write of word 6 with byte 3 is a command. -/
structure SelWritten (s y : State) (p : Nat) (be : BitVec 4) (v : W32) : Prop where
  touched : Frame s y (theseRegs []) (entryBytes p)
  evt     : y.evt = s.evt
  word    : y.pathWord p 6 =
    if be.getLsbD 3 then setBits (s.pathMerged p 6 be v) 20 20 0 else s.pathMerged p 6 be v
  command : (y.path p).sel.cmdNew = (be.getLsbD 3 || (s.path p).sel.cmdNew)

theorem selWrite_of_byte (h : be.getLsbD 3 = true) (hx : s.pathWordWrite p 6 be v = x) :
    s.selWrite p be v = (x.setPathWord p 6 (setBits (x.pathWord p 6) 20 20 0)).onPath p fun y =>
      { y with sel := { y.sel with cmdNew := true } } := by
  unfold State.selWrite
  rw [hx]
  dsimp only
  rw [if_pos h]

theorem selWrite_of_not_byte (h : be.getLsbD 3 = false) (hx : s.pathWordWrite p 6 be v = x) :
    s.selWrite p be v = x := by
  subst hx
  exact if_neg (by rw [h]; exact Bool.false_ne_true)

/-- An entry of which word 6 has been written and whose selector is told of a command. -/
theorem selWritten_of_touched {y : State} (h : Touched s y p) (hbyte : be.getLsbD 3 = true)
    (hword : y.pathWord p 6 = setBits (s.pathMerged p 6 be v) 20 20 0) :
    SelWritten s (y.onPath p fun x => { x with sel := { x.sel with cmdNew := true } }) p be v where
  touched := h.frame.trans (.of_hidden ⟨rfl, rfl, rfl, rfl, rfl⟩ rfl)
  evt := h.evt
  word := by
    rw [if_pos hbyte, ← hword]
    rfl
  command := by
    rw [path_onPath_self, hbyte]
    rfl

theorem selWritten_selWrite (s : State) (p : Nat) (be : BitVec 4) (v : W32) :
    SelWritten s (s.selWrite p be v) p be v := by
  obtain ⟨x, hx, heq⟩ := pathWordWrite_written s (p := p) (w := 6) (by decide) be v
  have hword : x.pathWord p 6 = s.pathMerged p 6 be v :=
    (hx.stored (by decide) (by decide)).trans (pathKept_six s p be v)
  rw [pathLock_six, if_neg (by simp)] at heq
  cases hbyte : be.getLsbD 3 with
  | false =>
    rw [selWrite_of_not_byte hbyte heq]
    refine ⟨hx.touched.frame, hx.touched.evt, ?_, ?_⟩
    · rw [hbyte, hword, if_neg Bool.false_ne_true]
    · rw [hbyte, hx.touched.sel, Bool.false_or]
  | true =>
    rw [selWrite_of_byte hbyte heq, hword]
    have hset := touched_setPathWord x (p := p) (w := 6) (by decide) (setBits (s.pathMerged p 6 be v) 20 20 0)
    exact selWritten_of_touched (hx.touched.trans hset) hbyte (pathWord_setPathWord_self x p 6 _)

/-- Settles O7: the write acts on the entry as `State.pathStored` says, over a state that shows the same entry, and
neither the wake of its bank nor the mirror changes what was written. -/
theorem pathTableWrites : Obligations.PathTableWrites := by
  intro p be v s htakes entry regs valid merge
  simp only [State.takesHost, Bool.and_eq_true, Bool.not_eq_true'] at htakes
  obtain ⟨⟨hup, -⟩, hstands⟩ := htakes
  have hp : p.toNat < 262144 := p.isLt
  refine ⟨?fields, ?status, ?command⟩
  case fields =>
    intro w h3 h4 h6
    refine completes_of_up (f := fun s => s.hostMem (pathAddr p.toNat w.val) be v fun s =>
      s.pathEntryWrite p.toNat w.val be v) hup rfl ?_
    have h := wordTaken_hostMem hstands hp w.isLt h6 be v
    exact ⟨h.stored h3 h4, h.told, h.waits, h.frame⟩
  case status =>
    intro w hw
    refine completes_of_up (f := fun s => s.hostMem (pathAddr p.toNat w.val) be v fun s =>
      s.pathEntryWrite p.toNat w.val be v) hup rfl ?_
    have h := wordTaken_hostMem hstands hp w.isLt (by omega) be v
    refine ⟨h.status hw, fun hs => pathWord_congr s (h.sound hw hs) _ _, ?_⟩
    cases hbad : s.entryBad p.toNat with
    | true => exact h.frame
    | false =>
      have hmem := h.sound hw hbad
      exact ⟨h.frame.reg, fun a _ => by rw [State.byte, State.byte, hmem], h.frame.tone, h.frame.clock, h.frame.otp,
        h.frame.pending⟩
  case command =>
    refine completes_of_up (f := fun s => s.hostMem (pathAddr p.toNat 6) be v fun s => s.selWrite p.toNat be v) hup
      rfl ?_
    obtain ⟨u, hu, ht⟩ := hostMem_taken s hstands (a := pathAddr p.toNat 6) (by simp only [pathAddr]; omega)
      (by simp only [pathAddr]; omega) be v fun s => s.selWrite p.toNat be v
    have h := selWritten_selWrite u p.toNat be v
    refine ⟨?_, ?_, ?_, ?_⟩
    · exact ((ht.pathWord _ _).trans h.word).trans (by rw [hu.pathMerged]; rfl)
    · rw [ht.path, h.command, hu.path]
    · refine Told.of_unmoved hu quiet_hostMemRegs (fun _ => ?_) ht
      rw [h.evt, Bool.false_and]
      exact (List.append_nil _).symm
    · exact frame_of_unmoved hu h.touched ht

end Sys2Proof
end

section
/-! SUPPORT. What follows a change of a lane: words 3 and 4 of its paths, the status words of its terminations, their
summaries, and the mate lane. No lane changes, and no register of one. -/

namespace Sys2Proof

open Machine

/-- Registers that show the condition of a lane elsewhere. -/
def followRegs : Nat → Bool := orAt trbSummary (theseRegs [Reg.matStat, Reg.matResync])

/-- Words that show the condition of a lane elsewhere. -/
def followBytes : Nat → Bool := orAt pathStatus termStatus

/-- What follows a change of a lane. -/
abbrev Follows (s t : State) : Prop := Aside s t followRegs followBytes

theorem followBytes_path {p w k : Nat} (hp : p < 262144) (hw : w = 3 ∨ w = 4) (hk : k < 4) :
    followBytes (pathAddr p w + k) = true := by
  simp only [followBytes, orAt_true, pathStatus, pathAddr, Bool.and_eq_true, decide_eq_true_eq]
  omega

theorem followBytes_term {t k : Nat} (ht : t < 8192) (hk : k < 4) : followBytes (termStatAddr t 0 + k) = true := by
  simp only [followBytes, orAt_true, termStatus, termStatAddr, Bool.and_eq_true, decide_eq_true_eq]
  omega

end Sys2Proof

namespace Sys2Proof.Machine

variable (s : State) {regs bytes : Nat → Bool}

/-! ### Words that the device owns a part of -/

theorem aside_mend (a : Nat) (be : BitVec 4) : Aside s (s.mend a be) regs bytes := by
  unfold State.mend
  exact Aside.ite (fun _ => .refl _ _ _) fun _ => ⟨.of_hidden ⟨rfl, rfl, rfl, rfl, rfl⟩ rfl, rfl, rfl⟩

theorem putWord_lanes_flip (a : Nat) (be : BitVec 4) (v : W32) :
    (s.putWord a be v).lanes = s.lanes ∧ (s.putWord a be v).flip = s.flip := by
  unfold State.putWord
  dsimp only
  split_ifs <;> exact ⟨rfl, rfl⟩

theorem aside_setFields (a : Nat) (v : W32) (h : ∀ k, k < 4 → bytes (a + k) = true) :
    Aside s (s.setFields a v) regs bytes := by
  obtain ⟨hlanes, hflip⟩ := putWord_lanes_flip (s.mend a 0x1) a 0xF v
  exact (aside_mend s a 0x1).trans ⟨frame_setWord _ a v h, hlanes, hflip⟩

theorem aside_onPath (p : Nat) (f : PathSt → PathSt) : Aside s (s.onPath p f) regs bytes :=
  ⟨.of_hidden ⟨rfl, rfl, rfl, rfl, rfl⟩ rfl, rfl, rfl⟩

theorem aside_onTerm (t : Nat) (f : TermSt → TermSt) : Aside s (s.onTerm t f) regs bytes :=
  ⟨.of_hidden ⟨rfl, rfl, rfl, rfl, rfl⟩ rfl, rfl, rfl⟩

theorem aside_onAu (l n : Nat) (f : AuSt → AuSt) : Aside s (s.onAu l n f) regs bytes :=
  ⟨.of_hidden ⟨rfl, rfl, rfl, rfl, rfl⟩ rfl, rfl, rfl⟩

/-! ### Paths (R57, R75, R76) -/

theorem follows_setPathWord {p w : Nat} (hp : p < 262144) (hw : w = 3 ∨ w = 4) (v : W32) :
    Follows s (s.setPathWord p w v) :=
  aside_setFields s _ v fun _ hk => followBytes_path hp hw hk

theorem follows_refreshPath {p : Nat} (hp : p < 262144) : Follows s (s.refreshPath p) := by
  rcases refreshPath_shape s p with h | ⟨u, n, hu, h⟩
  · rw [h]
    exact .refl _ _ _
  · rw [h]
    refine Aside.trans ?_ (follows_setPathWord u hp (.inr rfl) _)
    rcases hu with rfl | ⟨m, rfl⟩
    · exact .refl _ _ _
    · exact follows_setPathWord s hp (.inl rfl) _

theorem follows_refreshAll : ∀ (ps : List Nat) (s : State), (∀ p ∈ ps, p < 262144) → Follows s (s.refreshAll ps)
  | [], s, _ => .refl s _ _
  | p :: ps, s, h => (follows_refreshPath s (h p (by simp))).trans
      (follows_refreshAll ps _ fun q hq => h q (by simp [hq]))

theorem aside_startPathTail (p : Nat) (w0 w1 old : W32) : Aside s (s.startPathTail p w0 w1 old) regs bytes := by
  unfold State.startPathTail
  exact Aside.ite (fun _ => aside_onPath _ _ _) fun _ => .refl _ _ _

theorem follows_setDefect {p : Nat} (hp : p < 262144) (b : Nat) (on : Bool) : Follows s (s.setDefect p b on) := by
  unfold State.setDefect
  split
  · exact .refl _ _ _
  · refine Aside.ite (fun _ => ?_) fun _ => .refl _ _ _
    exact ((follows_setPathWord s hp (.inl rfl) _).trans (aside_startPathTail _ _ _ _ _)).trans
      (follows_refreshPath _ hp)

theorem pathsOn_lt (l : Nat) : ∀ p ∈ s.pathsOn l, p < 262144 := by
  intro p hp
  simp only [State.pathsOn, State.pathList, List.mem_map, List.mem_filter, decide_eq_true_eq] at hp
  obtain ⟨q, ⟨⟨-, hq⟩, -⟩, rfl⟩ := hp
  exact hq

theorem pathsFrom_lt (l : Nat) : ∀ p ∈ s.pathsFrom l, p < 262144 := by
  intro p hp
  obtain ⟨m, -, hm⟩ := List.mem_flatMap.1 hp
  exact pathsOn_lt s m p hm

theorem follows_startTails (l : Nat) : ∀ (ns : List Nat) (s : State), Follows s (s.startTails l ns)
  | [], s => .refl s _ _
  | _ :: ns, s => (aside_onAu s _ _ _).trans (follows_startTails l ns _)

/-- What a change of a lane brings with it once it has been made. -/
theorem follows_onCondition (l : Nat) (f : State → State) : Follows (f s) (s.onCondition l f) := by
  unfold State.onCondition
  dsimp only
  exact (Aside.ite (fun _ => follows_startTails l _ _) fun _ => .refl _ _ _).trans
    (follows_refreshAll _ _ (pathsFrom_lt _ l))

/-! ### Terminations (R90, R96, R97) -/

theorem follows_setTermFlag {t : Nat} (ht : t < 8192) (b : Nat) (on : Bool) : Follows s (s.setTermFlag t b on) := by
  unfold State.setTermFlag
  exact (aside_setFields s _ _ fun _ hk => followBytes_term ht hk).trans
    (Aside.ite (fun _ => aside_onTerm _ _ _) fun _ => .refl _ _ _)

theorem followRegs_failSum {t : Nat} (ht : t < 8192) : followRegs (summaryBit (Reg.trbFailSum 0) t).reg = true := by
  simp only [followRegs, orAt_true, trbSummary, regsOf_true, summaryBit, Reg.trbFailSum]
  omega

theorem followRegs_stickySum {t : Nat} (ht : t < 8192) :
    followRegs (summaryBit (Reg.trbStickySum 0) t).reg = true := by
  simp only [followRegs, orAt_true, trbSummary, regsOf_true, summaryBit, Reg.trbStickySum]
  omega

theorem follows_stickTerm {t : Nat} (ht : t < 8192) : Follows s (s.stickTerm t) := by
  unfold State.stickTerm
  exact (aside_fbit s _ _ (.inl (followRegs_stickySum ht))).trans (aside_raise _ _ _ _ _ _ _)

theorem termPath_lt (t i : Nat) : s.termPath t i < 262144 :=
  Nat.mod_lt _ (by decide)

theorem follows_judgeTerm {t : Nat} (ht : t < 8192) : Follows s (s.judgeTerm t) := by
  unfold State.judgeTerm
  refine Aside.ite (fun _ => .refl _ _ _) fun _ => ?_
  refine Aside.trans ?_ (Aside.ite (fun _ => follows_stickTerm _ ht) fun _ => .refl _ _ _)
  exact ((follows_setTermFlag s ht _ _).trans (follows_setDefect _ (termPath_lt ..) _ _)).trans
    (aside_fbit _ _ _ (.inl (followRegs_failSum ht)))

theorem follows_refreshTerm {t : Nat} (ht : t < 8192) : Follows s (s.refreshTerm t) := by
  unfold State.refreshTerm
  refine Aside.ite (fun _ => .refl _ _ _) fun _ => ?_
  refine Aside.trans ?_ (follows_judgeTerm _ ht)
  exact (follows_setTermFlag s ht _ _).trans (Aside.ite (fun _ => follows_setTermFlag _ ht _ _) fun _ => .refl _ _ _)

theorem follows_refreshEach : ∀ (ts : List Nat) (s : State), (∀ t ∈ ts, t < 8192) →
    Follows s (ts.foldl State.refreshTerm s)
  | [], s, _ => .refl s _ _
  | t :: ts, s, h => (follows_refreshTerm s (h t (by simp))).trans
      (follows_refreshEach ts _ fun u hu => h u (by simp [hu]))

theorem termsOn_lt : ∀ t ∈ s.termsOn, t < 8192 := by
  intro t ht
  simp only [State.termsOn, State.termList, List.mem_map, List.mem_filter, decide_eq_true_eq] at ht
  obtain ⟨q, ⟨⟨-, hq⟩, -⟩, rfl⟩ := ht
  exact hq

theorem follows_refreshTerms (l : Nat) : Follows s (s.refreshTerms l) :=
  follows_refreshEach _ s fun t ht => termsOn_lt s t (List.mem_of_mem_filter ht)

/-! ### The mate lane (R236, R241) -/

theorem follows_startResync : Follows s s.startResync := by
  have hregs : Follows s ((s.fbit F.matStat_mirrorBroken false).wr Reg.matResync 0x80000000) :=
    (aside_fbit s _ _ (.inl rfl)).trans (aside_wr _ _ _ (.inl rfl))
  unfold State.startResync
  refine Aside.ite (fun _ => .refl _ _ _) fun _ => hregs.trans ?_
  exact ⟨.of_hidden ⟨rfl, rfl, rfl, rfl, rfl⟩ rfl, rfl, rfl⟩

theorem follows_refreshMateLane : Follows s s.refreshMateLane := by
  unfold State.refreshMateLane State.mendMirror
  exact (aside_fset s _ _ (.inl rfl)).trans (Aside.ite (fun _ => follows_startResync _) fun _ => .refl _ _ _)

/-- What follows a change of a lane that its terminations see too. -/
theorem follows_condition (l : Nat) (f : State → State) : Follows (f s) ((s.onCondition l f).refreshTerms l) :=
  (follows_onCondition s l f).trans (follows_refreshTerms _ l)

end Sys2Proof.Machine
end

section
/-! SUPPORT. A lane: what its registers show after a change, the status of its CDR, and a change of its stage. -/

namespace Sys2Proof

open Machine

variable {s t u : State} {l a : Nat}

/-- The serial registers of a lane. -/
def sdsRegs (l : Nat) : Nat → Bool := regsOf (0x20000 + 0x400 * l) (0x20400 + 0x400 * l)

theorem laneRegs_of_sds (h : sdsRegs l a = true) : laneRegs l a = true := by
  simp only [laneRegs, Bool.or_eq_true]
  exact .inl (.inl (.inl (.inl h)))

theorem laneRegs_of_follow (h : followRegs a = true) : laneRegs l a = true := by
  simp only [followRegs, orAt_true, theseRegs_true, List.mem_cons, List.not_mem_nil, or_false] at h
  simp only [laneRegs, Bool.or_eq_true, beq_iff_eq]
  tauto

theorem laneRegs_ltmOhRx (l : Nat) : laneRegs l (Reg.ltmOhRx l) = true := by
  simp only [laneRegs, Bool.or_eq_true, regsOf_true, Reg.ltmOhRx]
  omega

/-- A serial register of a lane of the device keeps no account of events and shows the condition of no lane
elsewhere. -/
theorem sds_apart (hl : l < 48) (h : sdsRegs l a = true) : followRegs a = false ∧ eventReg a = false := by
  simp only [sdsRegs, regsOf_true] at h
  constructor
  · rw [← Bool.not_eq_true, followRegs, orAt_true, trbSummary, regsOf_true, theseRegs_true]
    simp only [Reg.matStat, Reg.matResync, List.mem_cons, List.not_mem_nil, or_false]
    omega
  · rw [← Bool.not_eq_true, eventReg, List.contains_iff_mem]
    simp only [Reg.hstHeadLo, Reg.hstHeadHi, Reg.hstOldestLo, Reg.hstOldestHi, Reg.hstCntDrop, Reg.evtCntDrop,
      Reg.fltLast, Reg.fltStat, List.mem_cons, List.not_mem_nil, or_false]
    omega

theorem Aside.sdsRd (h : Follows s t) (hl : l < 48) (ha : sdsRegs l a = true) : t.rd a = s.rd a :=
  h.frame.reg a (sds_apart hl ha).1 (sds_apart hl ha).2

theorem Aside.sdsFget (h : Follows s t) (hl : l < 48) {f : Fld} (ha : sdsRegs l f.reg = true) :
    t.fget f = s.fget f := by
  rw [State.fget, State.fget, h.sdsRd hl ha]

theorem Aside.sdsFlag (h : Follows s t) (hl : l < 48) {f : Fld} (ha : sdsRegs l f.reg = true) :
    t.flag f = s.flag f := by
  rw [State.flag, State.flag, h.sdsFget hl ha]

theorem Aside.lane (h : Follows s t) (l : Nat) : t.lane l = s.lane l := by rw [State.lane, State.lane, h.lanes]

theorem sdsRegs_stat (l : Nat) : sdsRegs l (Reg.sdsStat l) = true := regsOf_true.2 (by simp only [Reg.sdsStat]; omega)

theorem sdsRegs_cfg (l : Nat) : sdsRegs l (Reg.sdsCfg l) = true := regsOf_true.2 (by simp only [Reg.sdsCfg]; omega)

theorem sdsRegs_sticky (l : Nat) : sdsRegs l (Reg.sdsSticky l) = true :=
  regsOf_true.2 (by simp only [Reg.sdsSticky]; omega)

theorem sdsRegs_lat (l : Nat) : sdsRegs l (Reg.sdsLat l) = true := regsOf_true.2 (by simp only [Reg.sdsLat]; omega)

theorem sdsRegs_cntUp (l : Nat) : sdsRegs l (Reg.sdsCntUp l) = true :=
  regsOf_true.2 (by simp only [Reg.sdsCntUp]; omega)

theorem sdsRegs_cntFreeze (l : Nat) : sdsRegs l (Reg.sdsCntFreeze l) = true :=
  regsOf_true.2 (by simp only [Reg.sdsCntFreeze]; omega)

theorem sdsRegs_cntOof (l : Nat) : sdsRegs l (Reg.sdsCntOof l) = true :=
  regsOf_true.2 (by simp only [Reg.sdsCntOof]; omega)

/-- A change of a lane: its own registers, and what follows it elsewhere. -/
abbrev LaneFrame (s t : State) (l : Nat) : Prop := Frame s t (laneRegs l) followBytes

theorem Aside.laneFrame (h : Follows s t) (l : Nat) : LaneFrame s t l :=
  h.frame.mono (fun _ => laneRegs_of_follow) fun _ => id

theorem Frame.ofSds (h : Frame s t (theseRegs [a]) noBytes) (ha : sdsRegs l a = true) : LaneFrame s t l :=
  h.mono (fun b hb => by rw [List.mem_singleton.1 (theseRegs_true.1 hb)]; exact laneRegs_of_sds ha)
    fun _ h => by cases h

end Sys2Proof

namespace Sys2Proof.Machine

variable (s : State) {regs bytes : Nat → Bool}

theorem lane_onLane_self (l : Nat) (f : LaneSt → LaneSt) : (s.onLane l f).lane l = f (s.lane l) := by simp [State.lane]

theorem frame_onLane (l : Nat) (f : LaneSt → LaneSt) : Frame s (s.onLane l f) regs bytes :=
  .of_hidden ⟨rfl, rfl, rfl, rfl, rfl⟩ rfl

theorem fget_onLane (l : Nat) (f : LaneSt → LaneSt) (g : Fld) : (s.onLane l f).fget g = s.fget g := rfl

theorem flag_onLane (l : Nat) (f : LaneSt → LaneSt) (g : Fld) : (s.onLane l f).flag g = s.flag g := rfl

theorem lane_fset (f : Fld) (n l : Nat) : (s.fset f n).lane l = s.lane l := rfl

theorem lane_fbit (f : Fld) (b : Bool) (l : Nat) : (s.fbit f b).lane l = s.lane l := rfl

theorem fget_fbit_apart {f g : Fld} (b : Bool) (h : f.Within) (hd : f.hi < g.lo ∨ g.hi < f.lo) :
    (s.fbit f b).fget g = s.fget g := fget_fset_apart s _ h hd

theorem stage_fbit {f : Fld} (b : Bool) (h : f.Within) (hd : f.hi < 28) (l : Nat) : (s.fbit f b).stage l = s.stage l :=
  fget_fbit_apart s b h (.inl hd)

/-! ### The status of the CDR (R277) -/

/-- The status of the CDR is bits 24 to 22 of SDS_STAT. -/
theorem frame_refreshCdr (l : Nat) : Frame s (s.refreshCdr l) (theseRegs [Reg.sdsStat l]) bytes := by
  have hreg : theseRegs [Reg.sdsStat l] (Reg.sdsStat l) = true := theseRegs_true.2 (by simp)
  unfold State.refreshCdr
  dsimp only
  refine Frame.trans (Frame.ite (fun _ => .refl _ _ _) fun _ => ?_) (frame_fbit _ _ _ (.inl hreg))
  exact ((frame_fbit s _ _ (.inl hreg)).trans (frame_fbit _ _ _ (.inl hreg))).trans (frame_onLane _ l _)

/-- While the CDR does not run (R277). -/
def State.cdrOff (s : State) (l : Nat) : State :=
  ((s.fbit (F.sdsStat_frozen l) false).fbit (F.sdsStat_los l) false).onLane l fun x => { x with lowRun := 0 }

theorem refreshCdr_running {l : Nat} (h : s.cdrRuns l = true) :
    s.refreshCdr l = s.fbit (F.sdsStat_cdrLock l) (!s.flag (F.sdsStat_frozen l)) := by
  unfold State.refreshCdr
  dsimp only
  rw [h, if_pos rfl, Bool.true_and]

theorem refreshCdr_stopped {l : Nat} (h : s.cdrRuns l = false) :
    s.refreshCdr l = (s.cdrOff l).fbit (F.sdsStat_cdrLock l) false := by
  unfold State.refreshCdr State.cdrOff
  dsimp only
  rw [h, if_neg Bool.false_ne_true, Bool.false_and]

theorem fget_cdrOff (l : Nat) {g : Fld} (h : 24 < g.lo) : (s.cdrOff l).fget g = s.fget g := by
  unfold State.cdrOff
  rw [fget_onLane, fget_fbit_apart _ _ ⟨by simp, by simp⟩ (.inl (by simp; omega)),
    fget_fbit_apart _ _ ⟨by simp, by simp⟩ (.inl (by simp; omega))]

theorem lane_cdrOff (l : Nat) : (s.cdrOff l).lane l = { s.lane l with lowRun := 0 } := by
  unfold State.cdrOff
  rw [lane_onLane_self, lane_fbit, lane_fbit]

theorem fget_refreshCdr (l : Nat) {g : Fld} (h : 24 < g.lo) : (s.refreshCdr l).fget g = s.fget g := by
  cases hr : s.cdrRuns l with
  | true => rw [refreshCdr_running s hr, fget_fbit_apart _ _ ⟨by simp, by simp⟩ (.inl (by simp; omega))]
  | false =>
    rw [refreshCdr_stopped s hr, fget_fbit_apart _ _ ⟨by simp, by simp⟩ (.inl (by simp; omega)), fget_cdrOff s l h]

/-- Of the lane the status of the CDR takes the run of frozen windows at most. -/
theorem lane_refreshCdr (l : Nat) : ∃ n, (s.refreshCdr l).lane l = { s.lane l with lowRun := n } := by
  cases hr : s.cdrRuns l with
  | true => exact ⟨(s.lane l).lowRun, by rw [refreshCdr_running s hr, lane_fbit]⟩
  | false => exact ⟨0, by rw [refreshCdr_stopped s hr, lane_fbit, lane_cdrOff]⟩

/-! ### A stage other than LOCK (R272-R277) -/

/-- The stage set, with what a new stage forgets. -/
def State.inStage (s : State) (l st : Nat) : State := (s.fset (F.sdsStat_stage l) st).onLane l fun x => x.newStage st

/-- The same, and the status of the CDR. -/
def State.setStage (s : State) (l st : Nat) : State := (s.inStage l st).refreshCdr l

theorem lane_inStage (l st : Nat) : (s.inStage l st).lane l = (s.lane l).newStage st := by
  rw [State.inStage, lane_onLane_self, lane_fset]

theorem stage_inStage (l : Nat) {st : Nat} (h : st < 16) : (s.inStage l st).stage l = st := by
  rw [State.stage, State.inStage, fget_onLane, fget_fset_self s st ⟨by simp, by simp⟩]
  exact Nat.mod_eq_of_lt h

theorem fget_inStage (l st : Nat) {g : Fld} (h : g.hi < 28) : (s.inStage l st).fget g = s.fget g := by
  rw [State.inStage, fget_onLane, fget_fset_apart s st ⟨by simp, by simp⟩ (.inr h)]

theorem flag_inStage (l st : Nat) {g : Fld} (h : g.hi < 28) : (s.inStage l st).flag g = s.flag g := by
  rw [State.flag, State.flag, fget_inStage s l st h]

theorem goStage_fromActive {l : Nat} (h : s.stage l = stageActive) :
    s.goStage l stDetect true =
      (((s.leaveActive l true).onCondition l (·.setStage l stDetect)).refreshTerms l).refreshMateLane := by
  unfold State.goStage
  simp [h, stageActive, stDetect, stLock, State.setStage, State.inStage]

theorem goStage_lockToActive {l : Nat} (h : s.stage l = stLock) :
    s.goStage l stageActive =
      (((s.onCondition l (·.setStage l stageActive)).enterActive l).refreshTerms l).refreshMateLane := by
  unfold State.goStage
  simp [h, stageActive, stLock, State.setStage, State.inStage]

theorem frame_setStage (l st : Nat) : Frame s (s.setStage l st) (theseRegs [Reg.sdsStat l]) noBytes := by
  have hreg : theseRegs [Reg.sdsStat l] (Reg.sdsStat l) = true := theseRegs_true.2 (by simp)
  exact ((frame_fset s _ st (.inl hreg)).trans (frame_onLane _ l _)).trans (frame_refreshCdr _ l)

theorem stage_setStage (l : Nat) {st : Nat} (h : st < 16) : (s.setStage l st).stage l = st := by
  rw [State.stage, State.setStage, fget_refreshCdr _ _ (by simp)]
  exact stage_inStage s l h

/-- LOF and the second of idle_ok do not end with a stage. -/
theorem lane_setStage (l st : Nat) :
    ((s.setStage l st).lane l).lof = (s.lane l).lof ∧ ((s.setStage l st).lane l).idleRun = (s.lane l).idleRun := by
  obtain ⟨n, hn⟩ := lane_refreshCdr (s.inStage l st) l
  rw [State.setStage, hn, lane_inStage]
  exact ⟨rfl, rfl⟩

theorem frame_leaveActive (l : Nat) (fault : Bool) :
    Frame s (s.leaveActive l fault) (theseRegs [Reg.sdsSticky l]) noBytes := by
  unfold State.leaveActive State.laneSticky
  refine (Frame.trans ?_ (frame_onLane _ l _)).trans
    (frame_sticky _ _ _ _ _ _ _ (.inl (theseRegs_true.2 (by simp))))
  exact Frame.ite (fun _ => frame_report s _ _ _ _ _ _) fun _ => frame_raise s _ _ _ _ _ _

theorem lane_leaveActive (l : Nat) (fault : Bool) :
    (s.leaveActive l fault).lane l = { s.lane l with idleRun := false } := by
  have hdown : Aside s (if fault then s.report Ev.laneDown l else s.raise Ev.laneDown l) noBytes noBytes :=
    Aside.ite (fun _ => aside_report s _ _ _ _ _ _) fun _ => aside_raise s _ _ _ _ _ _
  unfold State.leaveActive State.laneSticky
  generalize (if fault then s.report Ev.laneDown l else s.raise Ev.laneDown l) = u at hdown
  have hsticky := aside_sticky (u.onLane l fun x => { x with idleRun := false }) (Reg.sdsSticky l) (Reg.sdsIntEn l)
    (BitVec.ofNat 32 (2 ^ 1)) Ev.laneEvent l 0 (regs := theseRegs [Reg.sdsSticky l]) (bytes := noBytes)
    (.inl (theseRegs_true.2 (by simp)))
  have hlane : u.lane l = s.lane l := by rw [State.lane, State.lane, hdown.lanes]
  have hstays := congrArg (fun m => Sparse.get LaneSt.init m l) hsticky.lanes
  exact hstays.trans ((lane_onLane_self u l _).trans (by rw [hlane]))

end Sys2Proof.Machine
end

section
/-! SUPPORT. A lane that leaves ACTIVE for DETECT, an SDH lane that enters it from LOCK, loss of signal on an Amenamin
lane, and a window that freezes the loops. -/

namespace Sys2Proof

open Machine

variable {s t u : State} {l : Nat}

/-- A lane has left ACTIVE for DETECT. -/
structure Left (s t : State) (l : Nat) : Prop where
  frame   : LaneFrame s t l
  stage   : t.stage l = stDetect
  freezes : t.rd (Reg.sdsCntFreeze l) = s.rd (Reg.sdsCntFreeze l)
  lof     : (t.lane l).lof = (s.lane l).lof
  idleRun : (t.lane l).idleRun = false

/-- An SDH lane whose CDR runs has left LOCK for ACTIVE. -/
structure Entered (s t : State) (l : Nat) : Prop where
  frame   : LaneFrame s t l
  stage   : t.stage l = stageActive
  frozen  : t.flag (F.sdsStat_frozen l) = s.flag (F.sdsStat_frozen l)
  los     : t.flag (F.sdsStat_los l) = s.flag (F.sdsStat_los l)
  cdrLock : t.flag (F.sdsStat_cdrLock l) = !s.flag (F.sdsStat_frozen l)
  lowRun  : (t.lane l).lowRun = (s.lane l).lowRun

end Sys2Proof

namespace Sys2Proof.Machine

variable (s : State) {l : Nat}

theorem fget_count_ne {g : Fld} {a : Nat} (n : Nat) (h : a ≠ g.reg) : (s.count a n).fget g = s.fget g :=
  fget_wr_ne s _ h

/-- A register that is not SDS_STAT keeps its value when a stage is set. -/
theorem cntFreeze_setStage (hl : l < 48) (st : Nat) :
    (s.setStage l st).rd (Reg.sdsCntFreeze l) = s.rd (Reg.sdsCntFreeze l) :=
  (frame_setStage s l st).reg _ (by simp [theseRegs]) (sds_apart hl (sdsRegs_cntFreeze l)).2

theorem cntFreeze_leaveActive (hl : l < 48) (fault : Bool) :
    (s.leaveActive l fault).rd (Reg.sdsCntFreeze l) = s.rd (Reg.sdsCntFreeze l) :=
  (frame_leaveActive s l fault).reg _ (by simp [theseRegs]) (sds_apart hl (sdsRegs_cntFreeze l)).2

theorem left_goStage (hl : l < 48) (h : s.stage l = stageActive) : Left s (s.goStage l stDetect true) l := by
  rw [goStage_fromActive s h]
  have hleave := (frame_leaveActive s l true).ofSds (sdsRegs_sticky l)
  have hlane := lane_leaveActive s l true
  have hfreezes := cntFreeze_leaveActive s hl true
  generalize s.leaveActive l true = u at hleave hlane hfreezes ⊢
  have hfollows := (follows_condition u l (·.setStage l stDetect)).trans (follows_refreshMateLane _)
  obtain ⟨hlof, hidle⟩ := lane_setStage u l stDetect
  exact {
    frame := (hleave.trans ((frame_setStage u l stDetect).ofSds (sdsRegs_stat l))).trans (hfollows.laneFrame l)
    stage := (hfollows.sdsFget hl (sdsRegs_stat l)).trans (stage_setStage u l (by decide))
    freezes := ((hfollows.sdsRd hl (sdsRegs_cntFreeze l)).trans (cntFreeze_setStage u hl _)).trans hfreezes
    lof := by rw [hfollows.lane, hlof, hlane]
    idleRun := by rw [hfollows.lane, hidle, hlane] }

/-! ### ACTIVE from LOCK (R272, R273) -/

/-- The registers of the lane on entry into ACTIVE. -/
def State.measured (s : State) (l n m : Nat) : State :=
  (((s.fset (F.sdsLat_rxNs l) n).fset (F.sdsLat_txNs l) m).fset (F.sdsStat_failCnt l) 0).count (Reg.sdsCntUp l)

/-- What shows the entry into ACTIVE. -/
def State.announced (s : State) (l : Nat) : State :=
  ((if s.isSdh l then (s.fbit (F.ltmOhRx_kValid l) false).fbit (F.ltmOhRx_s1Valid l) false else s).raise
    Ev.laneUp l).laneSticky l 0

theorem aside_measured (l n m : Nat) :
    Aside s (s.measured l n m) (theseRegs [Reg.sdsLat l, Reg.sdsStat l, Reg.sdsCntUp l]) noBytes := by
  unfold State.measured
  exact (((aside_fset s _ n (.inl (theseRegs_true.2 (by simp)))).trans
    (aside_fset _ _ m (.inl (theseRegs_true.2 (by simp))))).trans
    (aside_fset _ _ 0 (.inl (theseRegs_true.2 (by simp))))).trans
    (aside_count _ _ 1 (.inl (theseRegs_true.2 (by simp))))

theorem fget_measured (l n m : Nat) {g : Fld} (hr : g.reg = Reg.sdsStat l) (h : 21 < g.lo) :
    (s.measured l n m).fget g = s.fget g := by
  unfold State.measured
  rw [fget_count_ne _ _ (by rw [hr]; simp), fget_fset_apart _ _ ⟨by simp, by simp⟩ (.inl h),
    fget_fset_reg _ _ (by rw [hr]; simp), fget_fset_reg _ _ (by rw [hr]; simp)]

theorem aside_announced (l : Nat) : Aside s (s.announced l) (theseRegs [Reg.ltmOhRx l, Reg.sdsSticky l]) noBytes := by
  unfold State.announced State.laneSticky
  have hvalid : Aside s (if s.isSdh l then (s.fbit (F.ltmOhRx_kValid l) false).fbit (F.ltmOhRx_s1Valid l) false else s)
      (theseRegs [Reg.ltmOhRx l, Reg.sdsSticky l]) noBytes :=
    Aside.ite (fun _ => (aside_fbit s _ _ (.inl (theseRegs_true.2 (by simp)))).trans
      (aside_fbit _ _ _ (.inl (theseRegs_true.2 (by simp))))) fun _ => .refl _ _ _
  exact (hvalid.trans (aside_raise _ _ _ _ _ _ _)).trans
    (aside_sticky _ _ _ _ _ _ _ (.inl (theseRegs_true.2 (by simp))))

/-- The registers of the lane, its second of idle_ok, and what shows the entry. -/
theorem enterActive_shape (l : Nat) : ∃ u : State,
    Aside s u (theseRegs [Reg.sdsLat l, Reg.sdsStat l, Reg.sdsCntUp l]) noBytes ∧
    (∀ g : Fld, g.reg = Reg.sdsStat l → 21 < g.lo → u.fget g = s.fget g) ∧
    s.enterActive l = (u.onLane l fun x => { x with idleRun := false }).announced l := by
  let drawn : State := { s with drawn := s.drawn + 1 + 1 }
  have hdrawn : Aside s drawn (theseRegs [Reg.sdsLat l, Reg.sdsStat l, Reg.sdsCntUp l]) noBytes :=
    ⟨.of_hidden ⟨rfl, rfl, rfl, rfl, rfl⟩ rfl, rfl, rfl⟩
  exact ⟨drawn.measured l ((Config.free s.drawn).toNat % 1601) ((Config.free (s.drawn + 1)).toNat % 1601),
    hdrawn.trans (aside_measured drawn l _ _), fun _ hr h => fget_measured drawn l _ _ hr h, rfl⟩

/-- The entry into ACTIVE ends the second of idle_ok. -/
theorem lane_enterActive (l : Nat) : (s.enterActive l).lane l = { s.lane l with idleRun := false } := by
  obtain ⟨u, hu, -, h⟩ := enterActive_shape s l
  have hlane := congrArg (fun m => Sparse.get LaneSt.init m l)
    (aside_announced (u.onLane l fun x => { x with idleRun := false }) l).lanes
  rw [h]
  refine hlane.trans ((lane_onLane_self u l _).trans ?_)
  rw [State.lane, State.lane, hu.lanes]

/-- Of SDS_STAT it clears fail_cnt. -/
theorem fget_enterActive (hl : l < 48) {g : Fld} (hr : g.reg = Reg.sdsStat l) (h : 21 < g.lo) :
    (s.enterActive l).fget g = s.fget g := by
  obtain ⟨u, -, hu, heq⟩ := enterActive_shape s l
  have hout : theseRegs [Reg.ltmOhRx l, Reg.sdsSticky l] g.reg = false := by
    rw [hr, ← Bool.not_eq_true, theseRegs_true]
    simp only [Reg.sdsStat, Reg.ltmOhRx, Reg.sdsSticky, List.mem_cons, List.not_mem_nil, or_false]
    omega
  have hshown := (aside_announced (u.onLane l fun x => { x with idleRun := false }) l).frame.fget (f := g) hout
    (by rw [hr]; exact (sds_apart hl (sdsRegs_stat l)).2)
  rw [heq, hshown, fget_onLane, hu g hr h]

theorem frame_enterActive (l : Nat) : LaneFrame s (s.enterActive l) l := by
  obtain ⟨u, hu, -, heq⟩ := enterActive_shape s l
  have hmeasured : LaneFrame s u l := by
    refine hu.frame.mono (fun a ha => ?_) fun _ h => by cases h
    simp only [theseRegs_true, List.mem_cons, List.not_mem_nil, or_false] at ha
    rcases ha with rfl | rfl | rfl
    · exact laneRegs_of_sds (sdsRegs_lat l)
    · exact laneRegs_of_sds (sdsRegs_stat l)
    · exact laneRegs_of_sds (sdsRegs_cntUp l)
  rw [heq]
  refine (hmeasured.trans (frame_onLane _ l _)).trans
    ((aside_announced _ l).frame.mono (fun a ha => ?_) fun _ h => by cases h)
  simp only [theseRegs_true, List.mem_cons, List.not_mem_nil, or_false] at ha
  rcases ha with rfl | rfl
  · exact laneRegs_ltmOhRx l
  · exact laneRegs_of_sds (sdsRegs_sticky l)

/-! ### The stage of an SDH lane (R273, R277) -/

/-- The CDR of an SDH lane runs in ACTIVE: setting that stage leaves what it has frozen, LOS, and the run of frozen
windows. -/
theorem setStage_active (hsdh : s.isSdh l = true) (hpwr : s.lanePwr l = pwrActive) :
    s.setStage l stageActive =
      (s.inStage l stageActive).fbit (F.sdsStat_cdrLock l) (!s.flag (F.sdsStat_frozen l)) := by
  have hrole : (s.inStage l stageActive).isSdh l = true := by
    rw [State.isSdh, State.role, lane_inStage]
    exact hsdh
  have hpwr' : (s.inStage l stageActive).lanePwr l = pwrActive := (fget_inStage s l _ (by simp)).trans hpwr
  have hruns : (s.inStage l stageActive).cdrRuns l = true := by
    unfold State.cdrRuns State.cdrStage
    rw [hrole, hpwr', stage_inStage s l (by decide)]
    rfl
  rw [State.setStage, refreshCdr_running _ hruns, flag_inStage s l _ (by simp)]

theorem entered_goStage (hl : l < 48) (h : s.stage l = stLock) (hsdh : s.isSdh l = true)
    (hpwr : s.lanePwr l = pwrActive) : Entered s (s.goStage l stageActive) l := by
  rw [goStage_lockToActive s h]
  have hframe := (frame_setStage s l stageActive).ofSds (sdsRegs_stat l)
  have hstage := stage_setStage s l (st := stageActive) (by decide)
  have hcond := follows_onCondition s l (·.setStage l stageActive)
  rw [setStage_active s hsdh hpwr] at hframe hstage hcond
  generalize s.onCondition l (·.setStage l stageActive) = v at hcond ⊢
  have hlast := (follows_refreshTerms (v.enterActive l) l).trans (follows_refreshMateLane _)
  generalize ((v.enterActive l).refreshTerms l).refreshMateLane = t at hlast ⊢
  have hfget : ∀ g : Fld, g.reg = Reg.sdsStat l → 21 < g.lo → t.fget g =
      ((s.inStage l stageActive).fbit (F.sdsStat_cdrLock l) (!s.flag (F.sdsStat_frozen l))).fget g := fun g hr hg => by
    have hsds : sdsRegs l g.reg = true := by rw [hr]; exact sdsRegs_stat l
    rw [hlast.sdsFget hl hsds, fget_enterActive v hl hr hg, hcond.sdsFget hl hsds]
  have hflag : ∀ g : Fld, g.reg = Reg.sdsStat l → 21 < g.lo → t.flag g =
      ((s.inStage l stageActive).fbit (F.sdsStat_cdrLock l) (!s.flag (F.sdsStat_frozen l))).flag g := fun g hr hg => by
    rw [State.flag, State.flag, hfget g hr hg]
  constructor
  case frame => exact ((hframe.trans (hcond.laneFrame l)).trans (frame_enterActive v l)).trans (hlast.laneFrame l)
  case stage => exact (hfget _ rfl (by simp)).trans hstage
  case frozen =>
    rw [hflag _ rfl (by simp), flag_fbit_apart _ _ ⟨by simp, by simp⟩ (.inl (by simp)), flag_inStage s l _ (by simp)]
  case los =>
    rw [hflag _ rfl (by simp), flag_fbit_apart _ _ ⟨by simp, by simp⟩ (.inl (by simp)), flag_inStage s l _ (by simp)]
  case cdrLock => rw [hflag _ rfl (by simp), flag_fbit_self _ _ ⟨by simp, by simp⟩ rfl]
  case lowRun =>
    rw [hlast.lane, lane_enterActive, hcond.lane, lane_fbit, lane_inStage]
    rfl

end Sys2Proof.Machine
end

section
/-! SUPPORT. What the commands of the Amenamin framer and of the density windows make of a lane. -/

namespace Sys2Proof

open Machine

variable {s t u : State} {l : Nat} {x y : LaneSt}

/-- The state of a lane becomes `x`, and its serial registers stay. -/
structure LaneChanged (s t : State) (l : Nat) (x : LaneSt) : Prop where
  frame : LaneFrame s t l
  lane  : t.lane l = x
  rd    : ∀ a, sdsRegs l a = true → t.rd a = s.rd a

theorem LaneChanged.fget (h : LaneChanged s t l x) {f : Fld} (ha : sdsRegs l f.reg = true) : t.fget f = s.fget f := by
  rw [State.fget, State.fget, h.rd _ ha]

theorem LaneChanged.flag (h : LaneChanged s t l x) {f : Fld} (ha : sdsRegs l f.reg = true) : t.flag f = s.flag f := by
  rw [State.flag, State.flag, h.fget ha]

theorem LaneChanged.stage (h : LaneChanged s t l x) : t.stage l = s.stage l := h.fget (sdsRegs_stat l)

theorem LaneChanged.trans (h : LaneChanged s t l x) (k : LaneChanged t u l y) : LaneChanged s u l y :=
  ⟨h.frame.trans k.frame, k.lane, fun a ha => (k.rd a ha).trans (h.rd a ha)⟩

theorem laneChanged_onLane (s : State) (l : Nat) (f : LaneSt → LaneSt) :
    LaneChanged s (s.onLane l f) l (f (s.lane l)) :=
  ⟨frame_onLane s l f, lane_onLane_self s l f, fun _ _ => rfl⟩

theorem Aside.laneChanged (h : Follows s t) (hl : l < 48) : LaneChanged s t l (s.lane l) :=
  ⟨h.laneFrame l, h.lane l, fun _ ha => h.sdsRd hl ha⟩

/-- A change of the lane, with what follows it. -/
theorem laneChanged_of_follows (hl : l < 48) (f : LaneSt → LaneSt) (h : Follows (s.onLane l f) t) :
    LaneChanged s t l (f (s.lane l)) := by
  have hf := (laneChanged_onLane s l f).trans (h.laneChanged hl)
  rw [lane_onLane_self] at hf
  exact hf

theorem laneChanged_condition (s : State) (hl : l < 48) (f : LaneSt → LaneSt) :
    LaneChanged s ((s.onCondition l fun s => s.onLane l f).refreshTerms l) l (f (s.lane l)) :=
  laneChanged_of_follows hl f (follows_condition s l fun s => s.onLane l f)

/-- LOS of a lane becomes `on`, and its other fields stay. -/
structure LosSet (s t : State) (l : Nat) (on : Bool) : Prop where
  frame : LaneFrame s t l
  lane  : t.lane l = s.lane l
  los   : t.flag (F.sdsStat_los l) = on
  fget  : ∀ g : Fld, sdsRegs l g.reg = true → 23 < g.lo ∨ g.hi < 23 → t.fget g = s.fget g
  rd    : ∀ a, sdsRegs l a = true → a ≠ Reg.sdsStat l → t.rd a = s.rd a

theorem LosSet.flag {on : Bool} (h : LosSet s t l on) {g : Fld} (hr : sdsRegs l g.reg = true)
    (hd : 23 < g.lo ∨ g.hi < 23) : t.flag g = s.flag g := by
  rw [State.flag, State.flag, h.fget g hr hd]

theorem losSet_of_follows (hl : l < 48) {on : Bool} (h : Follows (s.fbit (F.sdsStat_los l) on) t) :
    LosSet s t l on where
  frame := (frame_fbit s _ on (.inl (laneRegs_of_sds (sdsRegs_stat l)))).trans (h.laneFrame l)
  lane := by rw [h.lane l, lane_fbit]
  los := (h.sdsFlag hl (sdsRegs_stat l)).trans (flag_fbit_self s on ⟨by simp, by simp⟩ rfl)
  fget := fun _ hr hd => (h.sdsFget hl hr).trans (fget_fbit_apart s on ⟨by simp, by simp⟩ hd)
  rd := fun _ hr hne => (h.sdsRd hl hr).trans (rd_fbit_ne s _ on (Ne.symm hne))

end Sys2Proof

namespace Sys2Proof.Machine

variable (s : State) {l : Nat}

/-! ### The framer (R52, R53) -/

/-- A framer that has left IN_FRAME. -/
def LaneSt.outOfFrame (x : LaneSt) : LaneSt :=
  { x with framer := .oof, cands := [], patBad := 0, numBad := 0, frameRun := 0, qlRun := 0 }

theorem framerLost_inFrame (h : (s.lane l).framer = .inFrame) :
    s.framerLost l =
      ((s.count (Reg.sdsCntOof l)).onCondition l fun s => s.onLane l LaneSt.outOfFrame).refreshTerms l := by
  unfold State.framerLost
  rw [if_neg (not_not_intro h)]
  rfl

theorem framerLost_hunting (h : (s.lane l).framer ≠ .inFrame) : s.framerLost l = s := if_pos h

/-- The framer counts and leaves IN_FRAME. -/
theorem laneChanged_framerLost (hl : l < 48) (h : (s.lane l).framer = .inFrame) :
    LaneChanged (s.count (Reg.sdsCntOof l)) (s.framerLost l) l (s.lane l).outOfFrame := by
  rw [framerLost_inFrame s h]
  exact laneChanged_condition (s.count (Reg.sdsCntOof l)) hl LaneSt.outOfFrame

theorem frame_countOof (l : Nat) : LaneFrame s (s.count (Reg.sdsCntOof l)) l :=
  frame_count s _ 1 (.inl (laneRegs_of_sds (sdsRegs_cntOof l)))

/-- What a lane keeps whose framer is to hunt. -/
theorem framerLost_keeps (hl : l < 48) :
    LaneFrame s (s.framerLost l) l ∧ ((s.framerLost l).lane l).framer ≠ .inFrame ∧
      ((s.framerLost l).lane l).idleRun = (s.lane l).idleRun ∧ ((s.framerLost l).lane l).lowRun = (s.lane l).lowRun ∧
      ∀ a, sdsRegs l a = true → Reg.sdsCntOof l ≠ a → (s.framerLost l).rd a = s.rd a := by
  by_cases h : (s.lane l).framer = .inFrame
  · have hlost := laneChanged_framerLost s hl h
    refine ⟨(frame_countOof s l).trans hlost.frame, ?_, ?_, ?_, fun a ha hne => ?_⟩
    · rw [hlost.lane]
      exact Framer.noConfusion
    · rw [hlost.lane]
      rfl
    · rw [hlost.lane]
      rfl
    · rw [hlost.rd a ha, rd_count_ne s 1 hne]
  · rw [framerLost_hunting s h]
    exact ⟨.refl _ _ _, h, rfl, rfl, fun _ _ _ => rfl⟩

/-- A lane on which LOF has been declared or has ended. -/
def State.withLof (s : State) (l : Nat) (on : Bool) : State :=
  (s.onCondition l fun s => s.onLane l fun x => { x with lof := on }).refreshTerms l

theorem laneChanged_withLof (hl : l < 48) (on : Bool) :
    LaneChanged s (s.withLof l on) l { s.lane l with lof := on } :=
  laneChanged_condition s hl fun x => { x with lof := on }

/-! ### Loss of signal (R277) -/

/-- A lane on which LOS has been declared or has ended. -/
def State.withLos (s : State) (l : Nat) (on : Bool) : State :=
  (s.onCondition l fun s => s.fbit (F.sdsStat_los l) on).refreshTerms l

theorem losSet_withLos (hl : l < 48) (on : Bool) : LosSet s (s.withLos l on) l on :=
  losSet_of_follows hl (follows_condition s l fun s => s.fbit (F.sdsStat_los l) on)

/-! ### A window that freezes the loops (R277) -/

/-- The loops are frozen: the first window that does so counts and is reported. -/
def State.loopsFrozen (s : State) (l : Nat) : State :=
  if s.flag (F.sdsStat_frozen l) then s
  else
    ((((s.fbit (F.sdsStat_frozen l) true).fbit (F.sdsStat_cdrLock l) false).count (Reg.sdsCntFreeze l)).raise
      Ev.laneLowDensity l).laneSticky l 4

end Sys2Proof.Machine

namespace Sys2Proof

open Machine

/-- A window has frozen the loops of a lane, whose state is now `x`. -/
structure LoopsFrozen (s t : State) (l : Nat) (x : LaneSt) : Prop where
  frame   : LaneFrame s t l
  stage   : t.stage l = s.stage l
  freezes : t.rd (Reg.sdsCntFreeze l) = s.rd (Reg.sdsCntFreeze l) + (if s.flag (F.sdsStat_frozen l) then 0 else 1)
  frozen  : t.flag (F.sdsStat_frozen l) = true
  los     : t.flag (F.sdsStat_los l) = s.flag (F.sdsStat_los l)
  cdrLock : t.flag (F.sdsStat_cdrLock l) = (s.flag (F.sdsStat_frozen l) && s.flag (F.sdsStat_cdrLock l))
  idleOk  : t.flag (F.sdsCfg_idleOk l) = s.flag (F.sdsCfg_idleOk l)
  lane    : t.lane l = x

end Sys2Proof

namespace Sys2Proof.Machine

variable (s : State) {l : Nat}

theorem lane_count (a n l : Nat) : (s.count a n).lane l = s.lane l := rfl

/-- The event and the history bit of a frozen lane leave its status. -/
theorem aside_lowDensity (l : Nat) :
    Aside s ((s.raise Ev.laneLowDensity l).laneSticky l 4) (theseRegs [Reg.sdsSticky l]) noBytes :=
  (aside_raise s _ _ _ _ _ _).trans (aside_sticky _ _ _ _ _ _ _ (.inl (theseRegs_true.2 (by simp))))

theorem loopsFrozen (hl : l < 48) : LoopsFrozen s (s.loopsFrozen l) l (s.lane l) := by
  unfold State.loopsFrozen
  cases hfrozen : s.flag (F.sdsStat_frozen l) with
  | true =>
    rw [if_pos rfl]
    exact ⟨.refl _ _ _, rfl, by rw [hfrozen, if_pos rfl]; exact (add_zero _).symm, hfrozen, rfl,
      by rw [hfrozen, Bool.true_and], rfl, rfl⟩
  | false =>
    rw [if_neg Bool.false_ne_true]
    have hlow := aside_lowDensity (((s.fbit (F.sdsStat_frozen l) true).fbit (F.sdsStat_cdrLock l) false).count
      (Reg.sdsCntFreeze l)) l
    generalize State.laneSticky _ l 4 = t at hlow ⊢
    have hrd : ∀ a, sdsRegs l a = true → a ≠ Reg.sdsSticky l → t.rd a =
        (((s.fbit (F.sdsStat_frozen l) true).fbit (F.sdsStat_cdrLock l) false).count (Reg.sdsCntFreeze l)).rd a :=
      fun a ha hne => hlow.frame.reg a (by simpa [theseRegs] using hne) (sds_apart hl ha).2
    have hfget : ∀ g : Fld, g.reg = Reg.sdsStat l → t.fget g =
        ((s.fbit (F.sdsStat_frozen l) true).fbit (F.sdsStat_cdrLock l) false).fget g := fun g hr => by
      rw [State.fget, hrd _ (hr ▸ sdsRegs_stat l) (by rw [hr]; simp), ← State.fget,
        fget_count_ne _ _ (by rw [hr]; simp)]
    have hflag : ∀ g : Fld, g.reg = Reg.sdsStat l → t.flag g =
        ((s.fbit (F.sdsStat_frozen l) true).fbit (F.sdsStat_cdrLock l) false).flag g := fun g hr => by
      rw [State.flag, State.flag, hfget g hr]
    constructor
    case frame =>
      refine Frame.trans ?_ (hlow.frame.ofSds (sdsRegs_sticky l))
      exact ((frame_fbit s _ true (.inl (laneRegs_of_sds (sdsRegs_stat l)))).trans
        (frame_fbit _ _ false (.inl (laneRegs_of_sds (sdsRegs_stat l))))).trans
        (frame_count _ _ 1 (.inl (laneRegs_of_sds (sdsRegs_cntFreeze l))))
    case stage =>
      exact (hfget _ rfl).trans ((stage_fbit _ false ⟨by simp, by simp⟩ (by simp) l).trans
        (stage_fbit s true ⟨by simp, by simp⟩ (by simp) l))
    case freezes =>
      rw [hrd _ (sdsRegs_cntFreeze l) (by simp), rd_count_self, rd_fbit_ne _ _ _ (by simp), rd_fbit_ne _ _ _ (by simp),
        hfrozen, if_neg Bool.false_ne_true]
      rfl
    case frozen =>
      rw [hflag _ rfl, flag_fbit_apart _ _ ⟨by simp, by simp⟩ (.inl (by simp)),
        flag_fbit_self _ _ ⟨by simp, by simp⟩ rfl]
    case los =>
      rw [hflag _ rfl, flag_fbit_apart _ _ ⟨by simp, by simp⟩ (.inl (by simp)),
        flag_fbit_apart _ _ ⟨by simp, by simp⟩ (.inr (by simp))]
    case cdrLock =>
      rw [hflag _ rfl, flag_fbit_self _ _ ⟨by simp, by simp⟩ rfl, hfrozen, Bool.false_and]
    case idleOk =>
      rw [State.flag, State.fget, hrd _ (sdsRegs_cfg l) (by simp), rd_count_ne _ _ (by simp),
        rd_fbit_ne _ _ _ (by simp), rd_fbit_ne _ _ _ (by simp)]
      rfl
    case lane =>
      have hlane := congrArg (fun m => Sparse.get LaneSt.init m l) hlow.lanes
      refine hlane.trans (Eq.trans (lane_count _ _ 1 l) ?_)
      rw [lane_fbit, lane_fbit]

/-- The run of frozen windows goes on, and the count of windows since a run of 20. -/
def LaneSt.lowAgain (x : LaneSt) : LaneSt :=
  { x with lowRun := x.lowRun + 1, losClean := if 20 ≤ x.lowRun + 1 then 0 else min 250 (x.losClean + 1) }

/-- The lane after a window that freezes the loops, before LOS. -/
def State.lowWindow (s : State) (l : Nat) : State := (s.loopsFrozen l).onLane l LaneSt.lowAgain

theorem loopsFrozen_lowWindow (hl : l < 48) : LoopsFrozen s (s.lowWindow l) l (s.lane l).lowAgain := by
  have h := loopsFrozen s hl
  exact ⟨h.frame.trans (frame_onLane _ l _), h.stage, h.freezes, h.frozen, h.los, h.cdrLock, h.idleOk,
    (lane_onLane_self _ l _).trans (by rw [h.lane])⟩

theorem freezeLane_eq (hl : l < 48) : s.freezeLane l =
    if s.isAmenamin l && 20 ≤ (s.lane l).lowRun + 1 then (s.lowWindow l).amenaminLos l else s.lowWindow l := by
  have hlane := (loopsFrozen_lowWindow s hl).lane
  have hkind : (s.lowWindow l).isAmenamin l = s.isAmenamin l := by
    simp only [State.isAmenamin, State.role, hlane]
    rfl
  have hcond : s.freezeLane l = if (s.lowWindow l).isAmenamin l && 20 ≤ ((s.lowWindow l).lane l).lowRun then
      (s.lowWindow l).amenaminLos l else s.lowWindow l := rfl
  rw [hcond, hkind, hlane]
  rfl

/-- The 20th window in a row that freezes the loops, where LOS is not declared yet. -/
def State.losDue (s : State) (l : Nat) : Bool :=
  s.isAmenamin l && 20 ≤ (s.lane l).lowRun + 1 && !s.flag (F.sdsStat_los l)

theorem freezeLane_of_not_due (hl : l < 48) (h : s.losDue l = false) : s.freezeLane l = s.lowWindow l := by
  rw [freezeLane_eq s hl]
  split
  · have hlos : (s.lowWindow l).flag (F.sdsStat_los l) = true := by
      rw [(loopsFrozen_lowWindow s hl).los]
      simp_all [State.losDue]
    rw [State.amenaminLos, if_pos hlos]
  · rfl

/-- The lane on which LOS has just been declared. -/
def State.losDeclared (s : State) (l : Nat) : State := (s.lowWindow l).withLos l true

theorem losSet_losDeclared (hl : l < 48) : LosSet (s.lowWindow l) (s.losDeclared l) l true := losSet_withLos _ hl true

theorem stage_losDeclared (hl : l < 48) : (s.losDeclared l).stage l = s.stage l :=
  ((losSet_losDeclared s hl).fget _ (sdsRegs_stat l) (.inl (by simp))).trans (loopsFrozen_lowWindow s hl).stage

theorem freezes_losDeclared (hl : l < 48) : (s.losDeclared l).rd (Reg.sdsCntFreeze l) =
    s.rd (Reg.sdsCntFreeze l) + (if s.flag (F.sdsStat_frozen l) then 0 else 1) := by
  rw [(losSet_losDeclared s hl).rd _ (sdsRegs_cntFreeze l) (by simp), (loopsFrozen_lowWindow s hl).freezes]

theorem frame_losDeclared (hl : l < 48) : LaneFrame s (s.losDeclared l) l :=
  (loopsFrozen_lowWindow s hl).frame.trans (losSet_losDeclared s hl).frame

/-- The second of idle_ok starts. -/
def LaneSt.idles (x : LaneSt) : LaneSt := { x with idleRun := true, idleAge := 0 }

theorem freezeLane_of_due (hl : l < 48) (h : s.losDue l = true) :
    s.freezeLane l =
      if s.stage l ≠ stageActive then s.losDeclared l
      else if s.flag (F.sdsCfg_idleOk l) then ((s.losDeclared l).onLane l LaneSt.idles).framerLost l
      else (s.losDeclared l).goStage l stDetect true := by
  simp only [State.losDue, Bool.and_eq_true, Bool.not_eq_true'] at h
  obtain ⟨⟨hkind, hrun⟩, hlos⟩ := h
  have hlow := loopsFrozen_lowWindow s hl
  have hidle : (s.losDeclared l).flag (F.sdsCfg_idleOk l) = s.flag (F.sdsCfg_idleOk l) := by
    rw [State.flag, State.fget, (losSet_losDeclared s hl).rd _ (sdsRegs_cfg l) (by simp)]
    exact hlow.idleOk
  rw [freezeLane_eq s hl, if_pos (by rw [hkind, hrun]; rfl), State.amenaminLos, hlow.los, hlos,
    if_neg Bool.false_ne_true, ← stage_losDeclared s hl, ← hidle]
  rfl

end Sys2Proof.Machine
end

section
/-! SUPPORT. The statement about the Amenamin framer, its LOF, the density windows and LOS. -/

namespace Sys2Proof.Machine

variable (s : State) {l : Nat}

/-! ### A window with transitions (R277) -/

/-- The run of frozen windows ends. -/
def LaneSt.thawed (x : LaneSt) : LaneSt := { x with lowRun := 0, losClean := min 250 (x.losClean + 1) }

/-- The status of a lane whose window has transitions. -/
def State.thawStat (s : State) (l : Nat) : State := (s.fbit (F.sdsStat_frozen l) false).fbit (F.sdsStat_cdrLock l) true

/-- The lane after a window with transitions. -/
def State.thawed (s : State) (l : Nat) : State := (s.thawStat l).onLane l LaneSt.thawed

theorem frame_thawed (l : Nat) : LaneFrame s (s.thawed l) l :=
  ((frame_fbit s _ false (.inl (laneRegs_of_sds (sdsRegs_stat l)))).trans
    (frame_fbit _ _ true (.inl (laneRegs_of_sds (sdsRegs_stat l))))).trans (frame_onLane _ l _)

theorem lane_thawed (l : Nat) : (s.thawed l).lane l = (s.lane l).thawed := by
  rw [State.thawed, lane_onLane_self, State.thawStat, lane_fbit, lane_fbit]

theorem fget_thawed (l : Nat) {g : Fld} (h : 24 < g.lo) : (s.thawed l).fget g = s.fget g := by
  rw [State.thawed, fget_onLane, State.thawStat, fget_fbit_apart _ _ ⟨by simp, by simp⟩ (.inl (by simp; omega)),
    fget_fbit_apart _ _ ⟨by simp, by simp⟩ (.inl (by simp; omega))]

theorem frozen_thawed (l : Nat) : (s.thawed l).flag (F.sdsStat_frozen l) = false := by
  rw [State.thawed, flag_onLane, State.thawStat, flag_fbit_apart _ _ ⟨by simp, by simp⟩ (.inl (by simp)),
    flag_fbit_self _ _ ⟨by simp, by simp⟩ rfl]

theorem cdrLock_thawed (l : Nat) : (s.thawed l).flag (F.sdsStat_cdrLock l) = true := by
  rw [State.thawed, flag_onLane, State.thawStat, flag_fbit_self _ _ ⟨by simp, by simp⟩ rfl]

theorem los_thawed (l : Nat) : (s.thawed l).flag (F.sdsStat_los l) = s.flag (F.sdsStat_los l) := by
  rw [State.thawed, flag_onLane, State.thawStat, flag_fbit_apart _ _ ⟨by simp, by simp⟩ (.inl (by simp)),
    flag_fbit_apart _ _ ⟨by simp, by simp⟩ (.inr (by simp))]

theorem stage_thawed (l : Nat) : (s.thawed l).stage l = s.stage l := fget_thawed s l (by simp)

theorem lanePwr_thawed (l : Nat) : (s.thawed l).lanePwr l = s.lanePwr l := fget_thawed s l (by simp)

theorem isSdh_thawed (l : Nat) : (s.thawed l).isSdh l = s.isSdh l := by
  rw [State.isSdh, State.role, lane_thawed]
  rfl

theorem awake_thawed (l : Nat) : (s.thawed l).awake l = s.awake l := by
  unfold State.awake State.role
  rw [lane_thawed, lanePwr_thawed]
  rfl

/-- An SDH lane in LOCK that has been in frame. -/
def State.sdhReady (s : State) (l : Nat) : Prop :=
  s.isSdh l = true ∧ s.awake l = true ∧ s.stage l = stLock ∧ (s.lane l).inFrameNow = true

/-- The lane no longer waits for the frame mark. -/
def LaneSt.noted (x : LaneSt) : LaneSt := { x with inFrameNow := false }

theorem densityWindow_ready (hruns : s.cdrRuns l = true) (h : s.sdhReady l) :
    s.densityWindow l false = ((s.thawed l).onLane l LaneSt.noted).goStage l stageActive := by
  obtain ⟨hsdh, hawake, hstage, hframe⟩ := h
  have hnow : ((s.thawed l).lane l).inFrameNow = true := by
    rw [lane_thawed]
    exact hframe
  have hcond : ((s.thawed l).isSdh l && (s.thawed l).awake l && (s.thawed l).stage l = stLock &&
      ((s.thawed l).lane l).inFrameNow && (s.thawed l).flag (F.sdsStat_cdrLock l)) = true := by
    rw [isSdh_thawed, awake_thawed, stage_thawed, cdrLock_thawed, hsdh, hawake, hstage, hnow]
    rfl
  have hshape : s.densityWindow l false = (s.thawed l).sdhLocked l := by
    rw [State.densityWindow, hruns]
    rfl
  rw [hshape, State.sdhLocked, if_pos hcond]
  rfl

theorem densityWindow_not_ready (hruns : s.cdrRuns l = true) (h : ¬ s.sdhReady l) :
    s.densityWindow l false = s.thawed l := by
  have hcond : ¬ ((s.thawed l).isSdh l && (s.thawed l).awake l && (s.thawed l).stage l = stLock &&
      ((s.thawed l).lane l).inFrameNow && (s.thawed l).flag (F.sdsStat_cdrLock l)) = true := by
    rw [isSdh_thawed, awake_thawed, stage_thawed, lane_thawed]
    intro hall
    simp only [Bool.and_eq_true, decide_eq_true_eq] at hall
    obtain ⟨⟨⟨⟨hsdh, hawake⟩, hstage⟩, hframe⟩, -⟩ := hall
    exact h ⟨hsdh, hawake, hstage, hframe⟩
  have hshape : s.densityWindow l false = (s.thawed l).sdhLocked l := by
    rw [State.densityWindow, hruns]
    rfl
  rw [hshape, State.sdhLocked, if_neg hcond]

theorem entered_noted (hl : l < 48) (hsdh : s.isSdh l = true) (hstage : s.stage l = stLock)
    (hpwr : s.lanePwr l = pwrActive) : Entered s ((s.onLane l LaneSt.noted).goStage l stageActive) l := by
  have hlane := lane_onLane_self s l LaneSt.noted
  have hframe : LaneFrame s (s.onLane l LaneSt.noted) l := frame_onLane s l _
  have hfget := fget_onLane s l LaneSt.noted
  have hflag := flag_onLane s l LaneSt.noted
  generalize s.onLane l LaneSt.noted = u at hlane hframe hfget hflag ⊢
  have h := entered_goStage u hl ((hfget _).trans hstage) (by rw [State.isSdh, State.role, hlane]; exact hsdh)
    ((hfget _).trans hpwr)
  exact ⟨hframe.trans h.frame, h.stage, h.frozen.trans (hflag _), h.los.trans (hflag _),
    h.cdrLock.trans (by rw [hflag]), h.lowRun.trans (by rw [hlane]; rfl)⟩

theorem entered_thawed (hl : l < 48) (hruns : s.cdrRuns l = true) (h : s.sdhReady l) :
    Entered (s.thawed l) (((s.thawed l).onLane l LaneSt.noted).goStage l stageActive) l := by
  obtain ⟨hsdh, -, hstage, -⟩ := h
  have hpwr : s.lanePwr l = pwrActive := by
    simp only [State.cdrRuns, Bool.and_eq_true, decide_eq_true_eq] at hruns
    exact hruns.2
  exact entered_noted _ hl ((isSdh_thawed s l).trans hsdh) ((stage_thawed s l).trans hstage)
    ((lanePwr_thawed s l).trans hpwr)

/-! ### The framer in frame (R52) -/

/-- The framer is IN_FRAME at the offset of a candidate. -/
def LaneSt.framed (x : LaneSt) (c : Cand) : LaneSt :=
  { x with
    framer := .inFrame, cands := [], align := c.offset, lastNum := c.last, numAge := c.age, patBad := 0, numBad := 0
    frameRun := 0 }

/-- A lane with a qualified candidate. -/
def State.framed (s : State) (l : Nat) (c : Cand) : State :=
  let u := s.onCondition l fun s => s.onLane l (·.framed c)
  (if u.stage l = stLock then u.onLane l fun x => { x with inFrameNow := true } else u).refreshTerms l

theorem laneChanged_framed (hl : l < 48) (c : Cand) :
    ∃ b, LaneChanged s (s.framed l c) l { (s.lane l).framed c with inFrameNow := b } := by
  have hu := laneChanged_of_follows hl (·.framed c) (follows_onCondition s l fun s => s.onLane l (·.framed c))
  unfold State.framed
  generalize (s.onCondition l fun s => s.onLane l (·.framed c)) = u at hu ⊢
  dsimp only
  split
  · have hnoted := laneChanged_of_follows hl (fun x => { x with inFrameNow := true })
      (follows_refreshTerms (u.onLane l fun x => { x with inFrameNow := true }) l)
    rw [hu.lane] at hnoted
    exact ⟨true, hu.trans hnoted⟩
  · have hterms := (follows_refreshTerms u l).laneChanged hl
    rw [hu.lane] at hterms
    exact ⟨_, hu.trans hterms⟩

theorem amenaminInFrame_some {c : Cand} (hruns : s.framerRuns l = true) (h : (s.lane l).framer ≠ .inFrame)
    (hc : s.qualified l = some c) : s.amenaminInFrame l = s.framed l c := by
  unfold State.amenaminInFrame
  rw [hruns, hc, if_neg (by simpa using h)]
  rfl

end Sys2Proof.Machine
end

section
/-! SUPPORT. Where each command of the Amenamin framer and of LOS applies, and what it leaves; the statement about
them. -/

namespace Sys2Proof.Machine

variable (s : State) {l : Nat}

/-! ### Where a command does not apply -/

theorem amenaminInFrame_else
    (h : ¬ (s.framerRuns l = true ∧ (s.lane l).framer ≠ .inFrame ∧ (s.qualified l).isSome = true)) :
    s.amenaminInFrame l = s := by
  unfold State.amenaminInFrame
  split
  · rfl
  · next hc =>
    simp only [Bool.or_eq_true, Bool.not_eq_true', decide_eq_true_eq, not_or, Bool.not_eq_false] at hc
    cases hq : s.qualified l with
    | none => rfl
    | some c => exact (h ⟨hc.1, hc.2, by rw [hq]; rfl⟩).elim

theorem amenaminOof_of_due (hruns : s.framerRuns l = true) (hbad : 4 ≤ (s.lane l).patBad ∨ 2 ≤ (s.lane l).numBad) :
    s.amenaminOof l = s.framerLost l :=
  if_pos (by simpa [hruns] using hbad)

theorem amenaminOof_else
    (h : ¬ (s.framerRuns l = true ∧ (s.lane l).framer = .inFrame ∧ (4 ≤ (s.lane l).patBad ∨ 2 ≤ (s.lane l).numBad))) :
    s.amenaminOof l = s := by
  unfold State.amenaminOof
  split
  · next hc =>
    simp only [Bool.and_eq_true, Bool.or_eq_true, decide_eq_true_eq] at hc
    exact framerLost_hunting s fun hf => h ⟨hc.1, hf, hc.2⟩
  · rfl

/-- LOF is due: 24 frames of OOF (R53). -/
def State.lofDue (s : State) (l : Nat) : Prop :=
  s.framerRuns l = true ∧ (s.lane l).framer = .oof ∧ 24 ≤ (s.lane l).frameRun

theorem amenaminLof_of_due (h : s.lofDue l) :
    s.amenaminLof l =
      if (s.withLof l true).stage l = stageActive && !((s.withLof l true).lane l).idleRun then
        (s.withLof l true).goStage l stDetect true
      else s.withLof l true := by
  obtain ⟨hruns, hoof, hrun⟩ := h
  refine if_neg fun hc => ?_
  simp only [Bool.or_eq_true, Bool.not_eq_true', decide_eq_true_eq] at hc
  rcases hc with (hc | hc) | hc
  · rw [hruns] at hc
    cases hc
  · exact hc hoof
  · exact absurd hrun (Nat.not_le.2 hc)

theorem amenaminLof_else (h : ¬ s.lofDue l) : s.amenaminLof l = s := by
  refine if_pos ?_
  by_contra hc
  simp only [Bool.or_eq_true, Bool.not_eq_true', decide_eq_true_eq, not_or, Bool.not_eq_false, not_not,
    Nat.not_lt] at hc
  obtain ⟨⟨hruns, hoof⟩, hrun⟩ := hc
  exact h ⟨hruns, hoof, hrun⟩

/-! ### LOF (R53) -/

theorem lofDeclared (hl : l < 48) (h : s.lofDue l) :
    ((s.amenaminLof l).lane l).lof = true ∧
      (s.amenaminLof l).stage l = (if s.stage l = 5 ∧ (s.lane l).idleRun = false then 1 else s.stage l) ∧
      LaneFrame s (s.amenaminLof l) l := by
  have hlof := laneChanged_withLof s hl true
  rw [amenaminLof_of_due s h]
  generalize s.withLof l true = u at hlof ⊢
  have hcond : (u.stage l = stageActive && !(u.lane l).idleRun) = true ↔
      s.stage l = 5 ∧ (s.lane l).idleRun = false := by
    rw [Bool.and_eq_true, decide_eq_true_eq, Bool.not_eq_true', hlof.stage, hlof.lane]
    exact Iff.rfl
  by_cases hdown : s.stage l = 5 ∧ (s.lane l).idleRun = false
  · have hleft := left_goStage u hl (hlof.stage.trans hdown.1)
    rw [if_pos (hcond.2 hdown), if_pos hdown]
    exact ⟨by rw [hleft.lof, hlof.lane], hleft.stage, hlof.frame.trans hleft.frame⟩
  · rw [if_neg (mt hcond.1 hdown), if_neg hdown]
    exact ⟨by rw [hlof.lane], hlof.stage, hlof.frame⟩

/-! ### The second of idle_ok (R277) -/

/-- The second of idle_ok has ended. -/
def LaneSt.idled (x : LaneSt) : LaneSt := { x with idleRun := false }

theorem idleOkExpiry_of_due (h : (s.lane l).idleRun = true ∧ 8000 ≤ (s.lane l).idleAge) :
    s.idleOkExpiry l =
      if (s.onLane l LaneSt.idled).stage l = stageActive &&
          ((s.onLane l LaneSt.idled).flag (F.sdsStat_los l) || ((s.onLane l LaneSt.idled).lane l).lof) then
        (s.onLane l LaneSt.idled).goStage l stDetect true
      else s.onLane l LaneSt.idled := by
  obtain ⟨hrun, hage⟩ := h
  unfold State.idleOkExpiry
  rw [if_neg (by simpa [hrun] using hage)]
  rfl

theorem idleOkExpiry_else (h : ¬ ((s.lane l).idleRun = true ∧ 8000 ≤ (s.lane l).idleAge)) : s.idleOkExpiry l = s := by
  refine if_pos ?_
  simp only [Bool.or_eq_true, Bool.not_eq_true', decide_eq_true_eq]
  by_contra hc
  simp only [not_or, Bool.not_eq_false, Nat.not_lt] at hc
  exact h hc

theorem idleExpired (hl : l < 48) (h : (s.lane l).idleRun = true ∧ 8000 ≤ (s.lane l).idleAge) :
    ((s.idleOkExpiry l).lane l).idleRun = false ∧
      (s.idleOkExpiry l).stage l =
        (if s.stage l = 5 ∧ (s.flag (F.sdsStat_los l) = true ∨ (s.lane l).lof = true) then 1 else s.stage l) ∧
      LaneFrame s (s.idleOkExpiry l) l := by
  have hidled := laneChanged_onLane s l LaneSt.idled
  rw [idleOkExpiry_of_due s h]
  generalize s.onLane l LaneSt.idled = u at hidled ⊢
  have hcond : (u.stage l = stageActive && (u.flag (F.sdsStat_los l) || (u.lane l).lof)) = true ↔
      s.stage l = 5 ∧ (s.flag (F.sdsStat_los l) = true ∨ (s.lane l).lof = true) := by
    rw [Bool.and_eq_true, decide_eq_true_eq, Bool.or_eq_true, hidled.stage, hidled.lane, hidled.flag (sdsRegs_stat l)]
    exact Iff.rfl
  by_cases hdown : s.stage l = 5 ∧ (s.flag (F.sdsStat_los l) = true ∨ (s.lane l).lof = true)
  · have hleft := left_goStage u hl (hidled.stage.trans hdown.1)
    rw [if_pos (hcond.2 hdown), if_pos hdown]
    exact ⟨hleft.idleRun, hleft.stage, hidled.frame.trans hleft.frame⟩
  · rw [if_neg (mt hcond.1 hdown), if_neg hdown]
    exact ⟨by rw [hidled.lane]; rfl, hidled.stage, hidled.frame⟩

/-! ### A window that freezes the loops (R277) -/

/-- LOS takes an ACTIVE lane down at once. -/
def State.losDown (s : State) (l : Nat) : Bool :=
  s.losDue l && s.stage l = 5 && !s.flag (F.sdsCfg_idleOk l)

/-- A window that freezes the loops, as the state after it shows it. -/
structure LowWindow (s t : State) (l : Nat) : Prop where
  stage   : t.stage l = if s.losDown l then 1 else s.stage l
  freezes : t.rd (Reg.sdsCntFreeze l) = s.rd (Reg.sdsCntFreeze l) + (if s.flag (F.sdsStat_frozen l) then 0 else 1)
  status  : s.losDown l = false → t.flag (F.sdsStat_frozen l) = true ∧ (t.lane l).lowRun = (s.lane l).lowRun + 1 ∧
    t.flag (F.sdsStat_los l) = (s.losDue l || s.flag (F.sdsStat_los l)) ∧
    t.flag (F.sdsStat_cdrLock l) = (s.flag (F.sdsStat_frozen l) && s.flag (F.sdsStat_cdrLock l))
  idles   : s.losDue l = true → s.stage l = 5 → s.flag (F.sdsCfg_idleOk l) = true →
    (t.lane l).idleRun = true ∧ (t.lane l).framer ≠ .inFrame
  frame   : LaneFrame s t l

/-- LOS is not due. -/
theorem lowWindow_of_not_due (hl : l < 48) (h : s.losDue l = false) : LowWindow s (s.lowWindow l) l := by
  have hlow := loopsFrozen_lowWindow s hl
  exact {
    stage := by rw [State.losDown, h]; exact hlow.stage
    freezes := hlow.freezes
    status := fun _ => ⟨hlow.frozen, by rw [hlow.lane]; rfl, by rw [h]; exact hlow.los, hlow.cdrLock⟩
    idles := fun hdue => by rw [h] at hdue; cases hdue
    frame := hlow.frame }

/-- What SDS_STAT and the lane show once LOS has been declared. -/
theorem status_losDeclared (hl : l < 48) (hdue : s.losDue l = true) :
    (s.losDeclared l).flag (F.sdsStat_frozen l) = true ∧ ((s.losDeclared l).lane l).lowRun = (s.lane l).lowRun + 1 ∧
      (s.losDeclared l).flag (F.sdsStat_los l) = (s.losDue l || s.flag (F.sdsStat_los l)) ∧
      (s.losDeclared l).flag (F.sdsStat_cdrLock l) =
        (s.flag (F.sdsStat_frozen l) && s.flag (F.sdsStat_cdrLock l)) := by
  have hlow := loopsFrozen_lowWindow s hl
  have hset := losSet_losDeclared s hl
  refine ⟨?_, ?_, ?_, ?_⟩
  · rw [hset.flag (sdsRegs_stat l) (.inl (by simp)), hlow.frozen]
  · rw [hset.lane, hlow.lane]
    rfl
  · rw [hset.los, hdue, Bool.true_or]
  · rw [hset.flag (sdsRegs_stat l) (.inr (by simp)), hlow.cdrLock]

theorem lowWindow_not_active (hl : l < 48) (hdue : s.losDue l = true) (h : s.stage l ≠ 5) :
    LowWindow s (s.losDeclared l) l where
  stage := by
    have hdown : s.losDown l = false := by simp [State.losDown, h]
    rw [hdown]
    exact stage_losDeclared s hl
  freezes := freezes_losDeclared s hl
  status := fun _ => status_losDeclared s hl hdue
  idles := fun _ h5 => (h h5).elim
  frame := frame_losDeclared s hl

theorem lowWindow_idle (hl : l < 48) (hdue : s.losDue l = true) (hidle : s.flag (F.sdsCfg_idleOk l) = true) :
    LowWindow s (((s.losDeclared l).onLane l LaneSt.idles).framerLost l) l := by
  have hstage := stage_losDeclared s hl
  have hfreezes := freezes_losDeclared s hl
  have hframe := frame_losDeclared s hl
  obtain ⟨hfrozen, hrun, hlos, hlock⟩ := status_losDeclared s hl hdue
  have hidles := laneChanged_onLane (s.losDeclared l) l LaneSt.idles
  generalize s.losDeclared l = d at hstage hfreezes hframe hfrozen hrun hlos hlock hidles ⊢
  generalize d.onLane l LaneSt.idles = u at hidles ⊢
  obtain ⟨hlost, hhunts, hkept, hlow, hrd⟩ := framerLost_keeps u hl
  have hstat : (u.framerLost l).rd (Reg.sdsStat l) = d.rd (Reg.sdsStat l) :=
    (hrd _ (sdsRegs_stat l) (by simp)).trans (hidles.rd _ (sdsRegs_stat l))
  have hflag : ∀ g : Fld, g.reg = Reg.sdsStat l → (u.framerLost l).flag g = d.flag g := fun g hr => by
    rw [State.flag, State.flag, State.fget, State.fget, hr, hstat]
  have hdown : s.losDown l = false := by simp [State.losDown, hidle]
  exact {
    stage := by rw [hdown, State.stage, State.fget, hstat]; exact hstage
    freezes := ((hrd _ (sdsRegs_cntFreeze l) (by simp)).trans (hidles.rd _ (sdsRegs_cntFreeze l))).trans hfreezes
    status := fun _ => ⟨(hflag _ rfl).trans hfrozen, by rw [hlow, hidles.lane]; exact hrun, (hflag _ rfl).trans hlos,
      (hflag _ rfl).trans hlock⟩
    idles := fun _ _ _ => ⟨by rw [hkept, hidles.lane]; rfl, hhunts⟩
    frame := (hframe.trans hidles.frame).trans hlost }

theorem lowWindow_down (hl : l < 48) (h : s.losDown l = true) :
    LowWindow s ((s.losDeclared l).goStage l stDetect true) l := by
  have hdown := h
  simp only [State.losDown, Bool.and_eq_true, decide_eq_true_eq, Bool.not_eq_true'] at hdown
  obtain ⟨⟨-, hstage⟩, hidle⟩ := hdown
  have hleft := left_goStage (s.losDeclared l) hl ((stage_losDeclared s hl).trans hstage)
  exact {
    stage := by rw [h]; exact hleft.stage
    freezes := hleft.freezes.trans (freezes_losDeclared s hl)
    status := fun h' => by rw [h] at h'; cases h'
    idles := fun _ _ hok => by rw [hidle] at hok; cases hok
    frame := (frame_losDeclared s hl).trans hleft.frame }

theorem lowWindow_freezeLane (hl : l < 48) : LowWindow s (s.freezeLane l) l := by
  cases hdue : s.losDue l with
  | false =>
    rw [freezeLane_of_not_due s hl hdue]
    exact lowWindow_of_not_due s hl hdue
  | true =>
    rw [freezeLane_of_due s hl hdue]
    by_cases hstage : s.stage l = stageActive
    · rw [if_neg (not_not_intro hstage)]
      cases hidle : s.flag (F.sdsCfg_idleOk l) with
      | true =>
        rw [if_pos rfl]
        exact lowWindow_idle s hl hdue hidle
      | false =>
        rw [if_neg Bool.false_ne_true]
        exact lowWindow_down s hl (by simp [State.losDown, hdue, hstage, hidle, stageActive])
    · rw [if_pos hstage]
      exact lowWindow_not_active s hl hdue hstage

end Sys2Proof.Machine

namespace Sys2Proof

open Machine

variable {s : State} {l : Nat}

/-- A window with transitions, as the state after it shows it. -/
theorem thawing_densityWindow (hl : l < 48) (hruns : s.cdrRuns l = true) :
    (s.densityWindow l false).flag (F.sdsStat_frozen l) = false ∧
      (s.densityWindow l false).flag (F.sdsStat_cdrLock l) = true ∧
      ((s.densityWindow l false).lane l).lowRun = 0 ∧
      (s.densityWindow l false).flag (F.sdsStat_los l) = s.flag (F.sdsStat_los l) ∧
      (s.densityWindow l false).stage l = (if s.isSdh l = true ∧ s.awake l = true ∧ s.stage l = 3 ∧
        (s.lane l).inFrameNow = true then 5 else s.stage l) ∧
      LaneFrame s (s.densityWindow l false) l := by
  by_cases h : s.sdhReady l
  · have hin := entered_thawed s hl hruns h
    rw [densityWindow_ready s hruns h]
    generalize State.goStage _ l stageActive = t at hin ⊢
    refine ⟨hin.frozen.trans (frozen_thawed s l), hin.cdrLock.trans (by rw [frozen_thawed]; rfl), ?_,
      hin.los.trans (los_thawed s l), hin.stage.trans (if_pos h).symm, (frame_thawed s l).trans hin.frame⟩
    rw [hin.lowRun, lane_thawed]
    rfl
  · rw [densityWindow_not_ready s hruns h]
    exact ⟨frozen_thawed s l, cdrLock_thawed s l, by rw [lane_thawed]; rfl, los_thawed s l,
      (stage_thawed s l).trans (if_neg h).symm, frame_thawed s l⟩

/-- Settles O11: each command acts on the lane and on SDS_STAT in a few fields; what follows a change of the lane
condition reaches no serial register, and LOS and LOF take an ACTIVE lane down through `State.goStage`. -/
theorem amenaminFraming : Obligations.AmenaminFraming := by
  intro l s hup x frame stays
  have hl : l.val < 48 := l.isLt
  refine ⟨?inFrame, ?oof, ?lof, ?lofClear, ?thaw, ?freeze, ?losClear, ?idle⟩
  case inFrame =>
    refine completes_of_up (f := fun s => s.amenaminInFrame l.val) hup rfl ?_
    split
    · next h =>
      obtain ⟨hruns, hframer, hq⟩ := h
      obtain ⟨c, hc⟩ := Option.isSome_iff_exists.1 hq
      obtain ⟨b, hframed⟩ := laneChanged_framed s hl c
      rw [amenaminInFrame_some s hruns hframer hc, hframed.lane, hc]
      exact ⟨rfl, rfl, hframed.stage, hframed.frame⟩
    · next h => exact amenaminInFrame_else s h
  case oof =>
    refine completes_of_up (f := fun s => s.amenaminOof l.val) hup rfl ?_
    split
    · next h =>
      obtain ⟨hruns, hframer, hbad⟩ := h
      have hlost := laneChanged_framerLost s hl hframer
      rw [amenaminOof_of_due s hruns hbad, hlost.lane]
      refine ⟨rfl, ?_, ?_, (frame_countOof s l.val).trans hlost.frame⟩
      · rw [hlost.rd _ (sdsRegs_cntOof _), rd_count_self]
        rfl
      · exact hlost.stage.trans (fget_count_ne s 1 (by simp))
    · next h => exact amenaminOof_else s h
  case lof =>
    refine completes_of_up (f := fun s => s.amenaminLof l.val) hup rfl ?_
    split
    · next h => exact lofDeclared s hl h
    · next h => exact amenaminLof_else s h
  case lofClear =>
    refine completes_of_up (f := fun s => s.amenaminLofClear l.val) hup rfl ?_
    split
    · next h =>
      obtain ⟨hkind, hframer, hrun⟩ := h
      have hclear : s.amenaminLofClear l.val = s.withLof l.val false :=
        if_pos (by rw [hframer, hkind]; exact decide_eq_true hrun)
      have hlof := laneChanged_withLof s hl false
      rw [hclear, hlof.lane]
      exact ⟨rfl, hlof.stage, hlof.frame⟩
    · next h =>
      refine if_neg fun hc => h ?_
      simp only [Bool.and_eq_true, decide_eq_true_eq] at hc
      exact ⟨hc.1.2, hc.1.1, hc.2⟩
  case thaw =>
    refine completes_of_up (f := fun s => s.densityWindow l.val false) hup rfl ?_
    split
    · next h => exact thawing_densityWindow hl h
    · next h => exact if_pos (by simpa using h)
  case freeze =>
    refine completes_of_up (f := fun s => s.densityWindow l.val true) hup rfl ?_
    split
    · next h =>
      have hfreeze : s.densityWindow l.val true = s.freezeLane l.val := by
        rw [State.densityWindow, h]
        rfl
      obtain ⟨hstage, hfreezes, hstatus, hidles, hframe⟩ := lowWindow_freezeLane s hl
      rw [hfreeze]
      exact ⟨hstage, hfreezes, hstatus, hidles, hframe⟩
    · next h => exact if_pos (by simpa using h)
  case losClear =>
    refine completes_of_up (f := fun s => s.laneLosClear l.val) hup rfl ?_
    split
    · next h =>
      have hclear : s.laneLosClear l.val = s.withLos l.val false := if_pos (by simpa using h)
      have hset := losSet_withLos s hl false
      rw [hclear]
      exact ⟨hset.los, hset.fget _ (sdsRegs_stat _) (.inl (by simp)), hset.frame⟩
    · next h => exact if_neg (by simpa using h)
  case idle =>
    refine completes_of_up (f := fun s => s.idleOkExpiry l.val) hup rfl ?_
    split
    · next h => exact idleExpired s hl h
    · next h => exact idleOkExpiry_else s h

end Sys2Proof
end

section
/-! SUPPORT. The statement about received headers and rows. -/

namespace Sys2Proof

open Machine

/-- Lane 0 is a NATIVE lane of the lowest Amenamin rate that has not come up: the lane condition holds. -/
def nativeDown : State :=
  { State.reset with lanes := [(0, { LaneSt.init with role := 1, rate := 4 })] }

/-- A row that lists payload column 0 twice: what the column holds, and after it an entry that no read reaches. The
canonical form `IngressRow.wf` excludes it, but the statement does not ask for that form. -/
def rowListedTwice : Row := ⟨⟨0, false, false⟩, [(0, ⟨0, true, false⟩), (0, ⟨1, true, false⟩)]⟩

/-- That row, received with nothing else. -/
def receivedTwice : IngressRow :=
  { content := rowListedTwice, sdh := [], parityBad := [], framing := none, kBytes := none, b1 := 0, b2 := 0
    m1 := none, bip8 := 0, bip2 := 0, b3Rei := [], mfPhase := [], blocks := [], sigma := 0, wait := 0 }

/-- CON on every cell makes the first entry equal to the cell of the columns not listed. It is unlisted, and the
second one, with octet 1, takes its place. -/
theorem ingressRow_listedTwice_octet :
    ((Sparse.get HeldRow.none (nativeDown.ingressRow 0 receivedTwice).rows
      (rowKey 0 (nativeDown.clock.period + 1))).row.at 0).octet = 1 := by decide

theorem exec_ingressRow_of_up {s : State} (h : s.up = true) (l : Lane) (r : IngressRow) :
    exec (.ingressRow l r) s = .next (s.ingressRow l.val r) := whenUp_of_up (fun s => s.ingressRow l.val r) h

/-- Refutes O14: the octets of a received row are not kept where the row lists a column twice, since CON of the lane
condition unlists one entry of the two. -/
theorem not_headerAndRowReceived : ¬ Obligations.HeaderAndRowReceived := by
  intro h
  have hup : nativeDown.up = true := by decide
  obtain ⟨-, hrow⟩ := h 0 nativeDown hup
  obtain ⟨t, hexec, ht⟩ := hrow receivedTwice
  rw [exec_ingressRow_of_up hup, Host.Outcome.next.injEq] at hexec
  subst hexec
  obtain ⟨hheld, -⟩ := (if_neg (show ¬nativeDown.role 0 = 0 by decide)).mp ht
  obtain ⟨-, -, hoctets⟩ := hheld (by decide)
  obtain ⟨hoctet, -⟩ := hoctets (by decide) rfl (by decide) (.inl (by decide)) 0
  exact absurd (ingressRow_listedTwice_octet.symm.trans hoctet) (by decide)

end Sys2Proof
end

section
/-! SUPPORT. A defect of LTM_STAT that is declared or cleared: the bit itself, its history bit, and what stays. -/

namespace Sys2Proof

open Machine

variable {s t u : State} {l a b : Nat} {regs : List Nat}

/-- The registers of the line termination of a lane. -/
def ltmRegs (l : Nat) : Nat → Bool := regsOf (0x40000 + 0x1000 * l) (0x41000 + 0x1000 * l)

/-- A register of the line termination of a lane of the device keeps no account of events and shows the condition of
no lane elsewhere. -/
theorem ltm_apart (hl : l < 48) (h : ltmRegs l a = true) : followRegs a = false ∧ eventReg a = false := by
  simp only [ltmRegs, regsOf_true] at h
  constructor
  · rw [← Bool.not_eq_true, followRegs, orAt_true, trbSummary, regsOf_true, theseRegs_true]
    simp only [Reg.matStat, Reg.matResync, List.mem_cons, List.not_mem_nil, or_false]
    omega
  · rw [← Bool.not_eq_true, eventReg, List.contains_iff_mem]
    simp only [Reg.hstHeadLo, Reg.hstHeadHi, Reg.hstOldestLo, Reg.hstOldestHi, Reg.hstCntDrop, Reg.evtCntDrop,
      Reg.fltLast, Reg.fltStat, List.mem_cons, List.not_mem_nil, or_false]
    omega

theorem ltmRegs_stat (l : Nat) : ltmRegs l (Reg.ltmStat l) = true := regsOf_true.2 (by simp only [Reg.ltmStat]; omega)

theorem ltmRegs_sticky (l : Nat) : ltmRegs l (Reg.ltmSticky l) = true :=
  regsOf_true.2 (by simp only [Reg.ltmSticky]; omega)

theorem ltmRegs_oofCnt (l : Nat) : ltmRegs l (Reg.ltmOofCnt l) = true :=
  regsOf_true.2 (by simp only [Reg.ltmOofCnt]; omega)

theorem laneRegs_of_ltm (h : ltmRegs l a = true) : laneRegs l a = true := by
  simp only [laneRegs, Bool.or_eq_true]
  exact .inl (.inl (.inl (.inr h)))

theorem ltm_congr (h : t.rd (Reg.ltmStat l) = s.rd (Reg.ltmStat l)) (d : Nat) : t.ltm l d = s.ltm l d := by
  rw [State.ltm, State.ltm, h]

/-- Only defect `b` of LTM_STAT of lane `l` changes, with its history bit once it is declared; besides LTM_STAT and
LTM_STICKY only the registers of `regs` change. -/
structure LtmKeeps (l b : Nat) (regs : List Nat) (s t : State) : Prop where
  others : ∀ d, d ≠ b → d < 32 → t.ltm l d = s.ltm l d
  sticky : t.rd (Reg.ltmSticky l) =
    if t.ltm l b && !s.ltm l b then s.rd (Reg.ltmSticky l) ||| BitVec.ofNat 32 (2 ^ b) else s.rd (Reg.ltmSticky l)
  frame  : Frame s t (theseRegs (Reg.ltmStat l :: Reg.ltmSticky l :: regs)) noBytes

theorem LtmKeeps.refl (s : State) (l b : Nat) (regs : List Nat) : LtmKeeps l b regs s s where
  others := fun _ _ _ => rfl
  sticky := by rw [Bool.and_not_self, if_neg Bool.false_ne_true]
  frame := .refl _ _ _

/-- A change that no register shows, after the defect. -/
theorem LtmKeeps.thenHidden (hl : l < 48) (h : LtmKeeps l b regs s t) (k : Frame t u (theseRegs []) noBytes) :
    LtmKeeps l b regs s u := by
  have hrd : ∀ a, ltmRegs l a = true → u.rd a = t.rd a := fun a ha => k.reg a rfl (ltm_apart hl ha).2
  have hltm := ltm_congr (hrd _ (ltmRegs_stat l))
  exact {
    others := fun d hd h32 => (hltm d).trans (h.others d hd h32)
    sticky := by rw [hrd _ (ltmRegs_sticky l), hltm, h.sticky]
    frame := h.frame.trans (k.mono (fun _ h => by cases h) fun _ => id) }

/-- A change of other registers, before the defect. -/
theorem LtmKeeps.after (hl : l < 48) (k : Frame s t (theseRegs regs) noBytes) (hstat : Reg.ltmStat l ∉ regs)
    (hsticky : Reg.ltmSticky l ∉ regs) (h : LtmKeeps l b [] t u) : LtmKeeps l b regs s u := by
  have hrd : ∀ a, ltmRegs l a = true → a ∉ regs → t.rd a = s.rd a := fun a ha hout =>
    k.reg a (Bool.eq_false_iff.2 fun e => hout (theseRegs_true.1 e)) (ltm_apart hl ha).2
  have hltm := ltm_congr (hrd _ (ltmRegs_stat l) hstat)
  refine ⟨fun d hd h32 => (h.others d hd h32).trans (hltm d), ?_, ?_⟩
  · rw [h.sticky, hrd _ (ltmRegs_sticky l) hsticky, hltm]
  · refine (k.mono (fun a ha => theseRegs_true.2 ?_) fun _ => id).trans
      (h.frame.mono (fun a ha => theseRegs_true.2 ?_) fun _ => id)
    · exact List.mem_cons_of_mem _ (List.mem_cons_of_mem _ (theseRegs_true.1 ha))
    · have := theseRegs_true.1 ha
      simp only [List.mem_cons, List.not_mem_nil, or_false] at this ⊢
      tauto

end Sys2Proof

namespace Sys2Proof.Machine

variable (s : State) {l b : Nat}

/-! ### Single bits of a word -/

theorem bit_setBits_self (v : W32) {i : Nat} (h : i < 32) (on : Bool) : bit (setBits v i i (b2n on)) i = on := by
  rw [bit, bits_setBits_self v _ (Nat.le_refl i) h, Nat.add_sub_cancel_left]
  cases on <;> rfl

theorem bit_setBits_ne (v : W32) {i j : Nat} (h : i < 32) (hne : j ≠ i) (n : Nat) :
    bit (setBits v i i n) j = bit v j := by
  rw [bit, bit]
  rcases Nat.lt_or_gt_of_ne hne with hlt | hlt
  · rw [bits_setBits_below v n (Nat.le_refl i) h hlt]
  · rw [bits_setBits_above v n (Nat.le_refl i) h hlt]

/-! ### Registers with history bits (R83, R380) -/

/-- The event of a history bit is told once the bit is set. -/
theorem aside_stickyEvent (reg en : Nat) (m : W32) (e : EvName) (inst : Nat) (fault : W32) :
    Aside (s.wr reg (s.rd reg ||| m)) (s.sticky reg en m e inst fault) (theseRegs []) noBytes := by
  unfold State.sticky
  exact Aside.ite (fun _ => .refl _ _ _) fun _ =>
    Aside.ite (fun _ => aside_raise _ _ _ _ _ _ _) fun _ => aside_report _ _ _ _ _ _ _

@[simp] theorem works_wr (a : Nat) (v : W32) : (s.wr a v).works = s.works := (rfl)

@[simp] theorem works_fset (f : Fld) (n : Nat) : (s.fset f n).works = s.works := (rfl)

@[simp] theorem works_fbit (f : Fld) (b : Bool) : (s.fbit f b).works = s.works := (rfl)

@[simp] theorem works_report (e : EvName) (w1 w2 w3 w4 w5 : Nat) : (s.report e w1 w2 w3 w4 w5).works = s.works := by
  simp [State.report]

@[simp] theorem works_sticky (reg en : Nat) (m : W32) (e : EvName) (inst : Nat) (fault : W32) :
    (s.sticky reg en m e inst fault).works = s.works := by
  simp [State.sticky]

/-! ### A defect (R83) -/

@[simp] theorem works_ltmSet (l b : Nat) (on : Bool) : (s.ltmSet l b on).works = s.works := by
  simp [State.ltmSet]

/-- A defect that changes: LTM_STAT, and the history bit of one that is declared. -/
theorem ltmSet_of_ne {on : Bool} (h : s.ltm l b ≠ on) :
    s.ltmSet l b on =
      let u := s.wr (Reg.ltmStat l) (setBits (s.rd (Reg.ltmStat l)) b b (b2n on))
      if on then u.sticky (Reg.ltmSticky l) (Reg.ltmIntEn l) (BitVec.ofNat 32 (2 ^ b)) Ev.ltmDefect l ltmFaults
      else u := if_neg h

theorem ltmSet_of_eq {on : Bool} (h : s.ltm l b = on) : s.ltmSet l b on = s := if_pos h

/-- LTM_STAT after a defect has changed. -/
theorem rd_ltmStat_ltmSet (hl : l < 48) {on : Bool} (h : s.ltm l b ≠ on) :
    (s.ltmSet l b on).rd (Reg.ltmStat l) = setBits (s.rd (Reg.ltmStat l)) b b (b2n on) := by
  rw [ltmSet_of_ne s h]
  dsimp only
  split
  · rw [(aside_stickyEvent _ _ _ _ _ _ _).frame.reg _ rfl (ltm_apart hl (ltmRegs_stat l)).2,
      rd_wr_ne _ _ (by simp), rd_wr_self]
  · exact rd_wr_self ..

theorem ltm_ltmSet_self (hl : l < 48) (hb : b < 32) (on : Bool) : (s.ltmSet l b on).ltm l b = on := by
  by_cases h : s.ltm l b = on
  · rw [ltmSet_of_eq s h, h]
  · rw [State.ltm, rd_ltmStat_ltmSet s hl h, bit_setBits_self _ hb]

theorem ltm_ltmSet_ne (hl : l < 48) (hb : b < 32) (on : Bool) {d : Nat} (hd : d ≠ b) :
    (s.ltmSet l b on).ltm l d = s.ltm l d := by
  by_cases h : s.ltm l b = on
  · rw [ltmSet_of_eq s h]
  · rw [State.ltm, rd_ltmStat_ltmSet s hl h, bit_setBits_ne _ hb hd, State.ltm]

theorem rd_ltmSticky_ltmSet (hl : l < 48) (on : Bool) :
    (s.ltmSet l b on).rd (Reg.ltmSticky l) =
      if on && !s.ltm l b then s.rd (Reg.ltmSticky l) ||| BitVec.ofNat 32 (2 ^ b) else s.rd (Reg.ltmSticky l) := by
  by_cases h : s.ltm l b = on
  · rw [ltmSet_of_eq s h, h, Bool.and_not_self, if_neg Bool.false_ne_true]
  · rw [ltmSet_of_ne s h]
    have hother : ∀ v, (s.wr (Reg.ltmStat l) v).rd (Reg.ltmSticky l) = s.rd (Reg.ltmSticky l) := fun v =>
      rd_wr_ne s v (by simp)
    cases on with
    | true =>
      rw [Bool.eq_false_iff.2 h, Bool.not_false, Bool.and_true, if_pos rfl]
      rw [if_pos rfl, (aside_stickyEvent _ _ _ _ _ _ _).frame.reg _ rfl (ltm_apart hl (ltmRegs_sticky l)).2,
        rd_wr_self, hother]
    | false => exact hother _

theorem aside_ltmSet (l b : Nat) (on : Bool) :
    Aside s (s.ltmSet l b on) (theseRegs [Reg.ltmStat l, Reg.ltmSticky l]) noBytes := by
  unfold State.ltmSet
  refine Aside.ite (fun _ => .refl _ _ _) fun _ => ?_
  refine Aside.trans (aside_wr s _ _ (.inl (theseRegs_true.2 (by simp)))) (Aside.ite (fun _ => ?_) fun _ => .refl _ _ _)
  exact aside_sticky _ _ _ _ _ _ _ (.inl (theseRegs_true.2 (by simp)))

theorem ltmKeeps_ltmSet (hl : l < 48) (hb : b < 32) (on : Bool) : LtmKeeps l b [] s (s.ltmSet l b on) where
  others := fun _ hd _ => ltm_ltmSet_ne s hl hb on hd
  sticky := by rw [ltm_ltmSet_self s hl hb, rd_ltmSticky_ltmSet s hl]
  frame := (aside_ltmSet s l b on).frame

end Sys2Proof.Machine
end

section
/-! SUPPORT. The framer of an SDH lane: out of frame, in frame, and the entry into ACTIVE from LOCK that follows. -/

namespace Sys2Proof

open Machine

variable {s t u : State} {l : Nat}

/-- An SDH lane has left LOCK for ACTIVE: its line termination stays, and so does the offset of its framer. -/
structure ActiveFromLock (s t : State) (l : Nat) : Prop where
  frame : LaneFrame s t l
  stage : t.stage l = stageActive
  align : (t.lane l).align = (s.lane l).align
  stat  : t.rd (Reg.ltmStat l) = s.rd (Reg.ltmStat l)

theorem Aside.ltmRd (h : Follows s t) (hl : l < 48) {a : Nat} (ha : ltmRegs l a = true) : t.rd a = s.rd a :=
  h.frame.reg a (ltm_apart hl ha).1 (ltm_apart hl ha).2

theorem laneFrame_of_ltm {regs : List Nat} (h : Frame s t (theseRegs regs) noBytes)
    (hregs : ∀ a ∈ regs, ltmRegs l a = true) : LaneFrame s t l :=
  h.mono (fun a ha => laneRegs_of_ltm (hregs a (theseRegs_true.1 ha))) fun _ h => by cases h

end Sys2Proof

namespace Sys2Proof.Machine

variable (s : State) {l : Nat}

/-! ### ACTIVE from LOCK (R273) -/

theorem align_setStage (l st : Nat) : ((s.setStage l st).lane l).align = (s.lane l).align := by
  obtain ⟨n, hn⟩ := lane_refreshCdr (s.inStage l st) l
  rw [State.setStage, hn, lane_inStage]
  rfl

theorem ltmStat_setStage (hl : l < 48) (st : Nat) :
    (s.setStage l st).rd (Reg.ltmStat l) = s.rd (Reg.ltmStat l) :=
  (frame_setStage s l st).reg _ (Bool.eq_false_iff.2 fun h => by
    have := List.mem_singleton.1 (theseRegs_true.1 h)
    simp only [Reg.ltmStat, Reg.sdsStat] at this
    omega) (ltm_apart hl (ltmRegs_stat l)).2

/-- What ACTIVE starts with leaves the defects of the line. -/
theorem ltmStat_enterActive (hl : l < 48) : (s.enterActive l).rd (Reg.ltmStat l) = s.rd (Reg.ltmStat l) := by
  obtain ⟨u, hu, -, heq⟩ := enterActive_shape s l
  have hshown := (aside_announced (u.onLane l fun x => { x with idleRun := false }) l).frame.reg (Reg.ltmStat l)
    (Bool.eq_false_iff.2 fun h => by
      have := theseRegs_true.1 h
      simp only [Reg.ltmStat, Reg.ltmOhRx, Reg.sdsSticky, List.mem_cons, List.not_mem_nil, or_false] at this
      omega) (ltm_apart hl (ltmRegs_stat l)).2
  have hmeasured := hu.frame.reg (Reg.ltmStat l) (Bool.eq_false_iff.2 fun h => by
      have := theseRegs_true.1 h
      simp only [Reg.ltmStat, Reg.sdsLat, Reg.sdsStat, Reg.sdsCntUp, List.mem_cons, List.not_mem_nil, or_false] at this
      omega) (ltm_apart hl (ltmRegs_stat l)).2
  rw [heq, hshown]
  exact hmeasured

theorem activeFromLock_goStage (hl : l < 48) (h : s.stage l = stLock) :
    ActiveFromLock s (s.goStage l stageActive) l := by
  rw [goStage_lockToActive s h]
  have hstage := stage_setStage s l (st := stageActive) (by decide)
  have hframe := (frame_setStage s l stageActive).ofSds (sdsRegs_stat l)
  have halign := align_setStage s l stageActive
  have hstat := ltmStat_setStage s hl stageActive
  have hcond := follows_onCondition s l (·.setStage l stageActive)
  generalize s.setStage l stageActive = u at hstage hframe halign hstat hcond
  generalize s.onCondition l (·.setStage l stageActive) = v at hcond ⊢
  have hlast := (follows_refreshTerms (v.enterActive l) l).trans (follows_refreshMateLane _)
  exact {
    frame := ((hframe.trans (hcond.laneFrame l)).trans (frame_enterActive v l)).trans (hlast.laneFrame l)
    stage := by
      rw [State.stage, hlast.sdsFget hl (sdsRegs_stat l), fget_enterActive v hl rfl (by simp),
        hcond.sdsFget hl (sdsRegs_stat l)]
      exact hstage
    align := by rw [hlast.lane, lane_enterActive, hcond.lane, halign]
    stat := by
      rw [hlast.ltmRd hl (ltmRegs_stat l), ltmStat_enterActive v hl, hcond.ltmRd hl (ltmRegs_stat l), hstat] }

/-! ### Where the framer is due (R59) -/

/-- The framer begins to hunt. -/
def LaneSt.sdhHunts (x : LaneSt) : LaneSt := { x with cands := [], patBad := 0, frameRun := 0 }

theorem sdhOof_of_due (hsdh : s.isSdh l = true) (hoof : s.ltm l ltmOof = false) (hbad : 5 ≤ (s.lane l).patBad) :
    s.sdhOof l = ((s.count (Reg.ltmOofCnt l)).ltmSet l ltmOof true).onLane l LaneSt.sdhHunts := by
  unfold State.sdhOof State.whenSdh
  rw [if_pos hsdh]
  exact if_neg (by simpa [hoof] using hbad)

theorem sdhOof_else (h : ¬ (s.ltm l ltmOof = false ∧ 5 ≤ (s.lane l).patBad)) : s.sdhOof l = s := by
  unfold State.sdhOof State.whenSdh
  refine ite_eq_right_iff.2 fun _ => if_pos ?_
  simp only [Bool.or_eq_true, decide_eq_true_eq]
  rw [← Bool.not_eq_false, ← Nat.not_le]
  tauto

/-- The framer is in frame at the offset of a candidate. -/
def LaneSt.sdhFramed (x : LaneSt) (c : Cand) : LaneSt :=
  { x with align := c.offset, cands := [], patBad := 0, frameRun := 0 }

/-- An SDH lane whose framer has reached IN_FRAME, before its stage follows. -/
def State.sdhFramed (s : State) (l : Nat) (c : Cand) : State := (s.ltmSet l ltmOof false).onLane l (·.sdhFramed c)

theorem sdhInFrame_found (hsdh : s.isSdh l = true) (hoof : s.ltm l ltmOof = true) {c : Cand}
    (hc : s.sdhFound l = some c) :
    s.sdhInFrame l =
      if (s.sdhFramed l c).stage l = 3 then (s.sdhFramed l c).onLane l fun x => { x with inFrameNow := true }
      else s.sdhFramed l c := by
  unfold State.sdhInFrame State.whenSdh
  rw [if_pos hsdh]
  dsimp only
  rw [hc]
  exact if_neg (by simp [hoof])

theorem sdhInFrame_else (h : ¬ ((s.sdhFound l).isSome = true ∧ s.ltm l ltmOof = true)) : s.sdhInFrame l = s := by
  unfold State.sdhInFrame State.whenSdh
  refine ite_eq_right_iff.2 fun _ => ?_
  dsimp only
  cases hc : s.sdhFound l with
  | none => rfl
  | some c => exact if_pos (by simpa [hc] using h)

/-- A lane in LOCK that may go to ACTIVE, its framer being in frame where `found` says so (R273). -/
def State.sdhGoes (s : State) (l : Nat) (found : Bool) : Bool :=
  found && s.stage l = 3 && s.awake l && s.flag (F.sdsStat_cdrLock l)

theorem sdhLocked_of_sdh (hsdh : s.isSdh l = true) :
    s.sdhLocked l =
      if s.sdhGoes l (s.lane l).inFrameNow then (s.onLane l LaneSt.noted).goStage l stageActive else s := by
  have hgoes : (s.isSdh l && s.awake l && s.stage l = stLock && (s.lane l).inFrameNow &&
      s.flag (F.sdsStat_cdrLock l)) = s.sdhGoes l (s.lane l).inFrameNow := by
    rw [hsdh, State.sdhGoes, stLock]
    cases s.awake l <;> cases (s.lane l).inFrameNow <;> simp
  rw [State.sdhLocked, hgoes]
  rfl

/-! ### In frame (R59) -/

/-- The framer of an SDH lane is in frame at the offset of `c`, and no more of the lane has changed. -/
structure Framed (s x : State) (l : Nat) (c : Cand) : Prop where
  keeps : LtmKeeps l ltmOof [] s x
  oof   : x.ltm l ltmOof = false
  lane  : ∃ b, x.lane l = { (s.lane l).sdhFramed c with inFrameNow := b }
  now   : s.stage l = 3 → (x.lane l).inFrameNow = true

theorem framed_sdhInFrame (hl : l < 48) (hsdh : s.isSdh l = true) (hoof : s.ltm l ltmOof = true) {c : Cand}
    (hc : s.sdhFound l = some c) : Framed s (s.sdhInFrame l) l c := by
  have hset := aside_ltmSet s l ltmOof false
  have hhidden : ∀ (u : State) f, Frame u (u.onLane l f) (theseRegs []) noBytes := fun u f => frame_onLane u l f
  have hkeeps : LtmKeeps l ltmOof [] s (s.sdhFramed l c) :=
    (ltmKeeps_ltmSet s hl (by decide) false).thenHidden hl (hhidden _ _)
  have hclear : (s.sdhFramed l c).ltm l ltmOof = false := ltm_ltmSet_self s hl (by decide) false
  have hlane : (s.sdhFramed l c).lane l = (s.lane l).sdhFramed c := by
    rw [State.sdhFramed, lane_onLane_self, State.lane, hset.lanes, ← State.lane]
  have hstage : (s.sdhFramed l c).stage l = s.stage l := hset.frame.fget (f := F.sdsStat_stage l)
    (Bool.eq_false_iff.2 fun h => by
      have := theseRegs_true.1 h
      simp only [Reg.ltmStat, Reg.ltmSticky, Reg.sdsStat, List.mem_cons, List.not_mem_nil, or_false] at this
      omega) (sds_apart hl (sdsRegs_stat l)).2
  rw [sdhInFrame_found s hsdh hoof hc, hstage]
  generalize s.sdhFramed l c = u at hkeeps hclear hlane
  by_cases h : s.stage l = 3
  · rw [if_pos h]
    exact ⟨hkeeps.thenHidden hl (hhidden _ _), hclear, ⟨true, by rw [lane_onLane_self, hlane]⟩,
      fun _ => by rw [lane_onLane_self]⟩
  · rw [if_neg h]
    exact ⟨hkeeps, hclear, ⟨(s.lane l).inFrameNow, hlane⟩, fun h' => (h h').elim⟩

variable {s} {x : State} {c : Cand}

/-- The serial registers of the lane stay. -/
theorem Framed.sdsRd (h : Framed s x l c) (hl : l < 48) {a : Nat} (ha : sdsRegs l a = true) : x.rd a = s.rd a :=
  h.keeps.frame.reg a (Bool.eq_false_iff.2 fun e => by
    have := theseRegs_true.1 e
    simp only [sdsRegs, regsOf_true, Reg.ltmStat, Reg.ltmSticky, List.mem_cons, List.not_mem_nil, or_false]
      at this ha
    omega) (sds_apart hl ha).2

theorem Framed.stage (h : Framed s x l c) (hl : l < 48) : x.stage l = s.stage l := by
  rw [State.stage, State.stage, State.fget, State.fget, h.sdsRd hl (sdsRegs_stat l)]

theorem Framed.isSdh (h : Framed s x l c) : x.isSdh l = s.isSdh l := by
  obtain ⟨b, hb⟩ := h.lane
  rw [State.isSdh, State.role, hb]
  rfl

/-- Whether the lane goes to ACTIVE is judged as before. -/
theorem Framed.goes (h : Framed s x l c) (hl : l < 48) :
    x.sdhGoes l (x.lane l).inFrameNow = s.sdhGoes l true := by
  obtain ⟨b, hb⟩ := h.lane
  have hawake : x.awake l = s.awake l := by
    unfold State.awake State.role State.lanePwr
    rw [State.fget, State.fget, h.sdsRd hl (sdsRegs_stat l), hb]
    rfl
  have hlock : x.flag (F.sdsStat_cdrLock l) = s.flag (F.sdsStat_cdrLock l) := by
    rw [State.flag, State.flag, State.fget, State.fget, h.sdsRd hl (sdsRegs_stat l)]
  rw [State.sdhGoes, State.sdhGoes, hawake, hlock, h.stage hl]
  by_cases hstage : s.stage l = 3
  · rw [h.now hstage]
  · simp [hstage]

theorem Framed.laneFrame (h : Framed s x l c) : LaneFrame s x l :=
  laneFrame_of_ltm h.keeps.frame fun a ha => by
    simp only [List.mem_cons, List.not_mem_nil, or_false] at ha
    rcases ha with rfl | rfl
    · exact ltmRegs_stat l
    · exact ltmRegs_sticky l

end Sys2Proof.Machine

namespace Sys2Proof

open Machine

variable {s x : State} {l : Nat} {c : Cand}

/-- SDH_IN_FRAME, as the state after it shows it. -/
theorem framed_sdhLocked (h : Framed s x l c) (hl : l < 48) (hsdh : s.isSdh l = true) :
    (x.sdhLocked l).ltm l ltmOof = false ∧ ((x.sdhLocked l).lane l).align = c.offset ∧
      (x.sdhLocked l).stage l = (if s.sdhGoes l true then 5 else s.stage l) ∧
      (s.sdhGoes l true = false → LtmKeeps l ltmOof [] s (x.sdhLocked l)) ∧ LaneFrame s (x.sdhLocked l) l := by
  obtain ⟨b, hlane⟩ := h.lane
  rw [sdhLocked_of_sdh x (h.isSdh.trans hsdh), h.goes hl]
  cases hgoes : s.sdhGoes l true with
  | false =>
    rw [if_neg Bool.false_ne_true, if_neg Bool.false_ne_true]
    exact ⟨h.oof, by rw [hlane]; rfl, h.stage hl, fun _ => h.keeps, h.laneFrame⟩
  | true =>
    rw [if_pos rfl, if_pos rfl]
    have hlock : s.stage l = 3 := by
      simp only [State.sdhGoes, Bool.and_eq_true, decide_eq_true_eq] at hgoes
      exact hgoes.1.1.2
    have hnoted := lane_onLane_self x l LaneSt.noted
    have hframe : LaneFrame x (x.onLane l LaneSt.noted) l := frame_onLane x l _
    have hstat : (x.onLane l LaneSt.noted).rd (Reg.ltmStat l) = x.rd (Reg.ltmStat l) := rfl
    have hstage : (x.onLane l LaneSt.noted).stage l = stLock := (h.stage hl).trans hlock
    generalize x.onLane l LaneSt.noted = u at hnoted hframe hstat hstage ⊢
    have hin := activeFromLock_goStage u hl hstage
    refine ⟨?_, ?_, hin.stage, nofun, (h.laneFrame.trans hframe).trans hin.frame⟩
    · rw [ltm_congr (hin.stat.trans hstat), h.oof]
    · rw [hin.align, hnoted, hlane]
      rfl

/-- Settles O1: each command changes one defect through `State.ltmSet`, and SDH_IN_FRAME may take the lane from LOCK
to ACTIVE, which reaches no defect of the line. -/
theorem sdhSectionDefects : Obligations.SdhSectionDefects := by
  intro l s hup hsdh keeps goes
  have hl : l.val < 48 := l.isLt
  have hkeeps : ∀ {b regs t}, LtmKeeps l.val b regs s t → keeps b regs t := fun h => ⟨h.others, h.sticky, h.frame⟩
  have hstays : ∀ (b : Nat), keeps b [] s := fun b => hkeeps (.refl s l.val b [])
  have hset : ∀ {b : Nat}, b < 32 → ∀ on, keeps b [] (s.ltmSet l.val b on) := fun hb on =>
    hkeeps (ltmKeeps_ltmSet s hl hb on)
  have hwhen : ∀ f : State → State, s.whenSdh l.val f = f s := fun f => if_pos hsdh
  refine ⟨?oof, ?inFrame, ?rdi, ?b2, ?kInconsistent⟩
  case oof =>
    refine completes_of_up (f := fun s => s.sdhOof l.val) hup rfl ?_
    split
    · next h =>
      rw [sdhOof_of_due s hsdh h.1 h.2]
      have hcount : Frame s (s.count (Reg.ltmOofCnt l.val)) (theseRegs [Reg.ltmOofCnt l.val]) noBytes :=
        frame_count s _ 1 (.inl (theseRegs_true.2 (by simp)))
      have hrd := (aside_ltmSet (s.count (Reg.ltmOofCnt l.val)) l.val ltmOof true).frame.reg (Reg.ltmOofCnt l.val)
        (by simp [theseRegs]) (ltm_apart hl (ltmRegs_oofCnt _)).2
      refine ⟨ltm_ltmSet_self _ hl (by decide) true, hrd.trans (rd_count_self ..), ?_, hkeeps ?_⟩
      · rw [lane_onLane_self]
        rfl
      · exact .after hl hcount (by simp) (by simp)
          ((ltmKeeps_ltmSet _ hl (by decide) true).thenHidden hl (frame_onLane _ _ _))
    · next h => exact sdhOof_else s h
  case inFrame =>
    refine completes_of_up (f := fun s => (s.sdhInFrame l.val).sdhLocked l.val) hup rfl ?_
    split
    · next h =>
      obtain ⟨c, hc⟩ := Option.isSome_iff_exists.1 h.1
      obtain ⟨hoof, halign, hstage, hstay, hframe⟩ :=
        framed_sdhLocked (framed_sdhInFrame s hl hsdh h.2 hc) hl hsdh
      exact ⟨hoof, by rw [halign, hc]; rfl, hstage, fun h => hkeeps (hstay h), hframe⟩
    · next h =>
      intro hgoes
      rw [sdhInFrame_else s h, sdhLocked_of_sdh s hsdh]
      exact if_neg (Bool.eq_false_iff.1 hgoes)
  case rdi =>
    intro present
    refine completes_of_up (f := fun s => s.msRdiChange l.val present) hup rfl ?_
    have hshape : s.msRdiChange l.val present =
        if s.ltmInFrame l.val then s.ltmSet l.val ltmMsRdi present else s := hwhen _
    rw [hshape]
    split
    · next h =>
      rw [if_pos (by simp [State.ltmInFrame, h])]
      exact ⟨ltm_ltmSet_self s hl (by decide) present, hset (by decide) present⟩
    · next h => exact if_neg (by simpa [State.ltmInFrame, and_assoc] using h)
  case b2 =>
    intro degrade errors
    refine completes_of_up (f := fun s => s.b2WindowEnd l.val degrade errors) hup rfl ?_
    intro b expected
    have hb : b < 32 := by
      unfold b
      split <;> decide
    have hshape : s.b2WindowEnd l.val degrade errors =
        if errors * 10 > expected then s.ltmSet l.val b true
        else if errors * 100 < expected then s.ltmSet l.val b false else s := hwhen _
    rw [hshape]
    split_ifs
    · exact ⟨ltm_ltmSet_self s hl hb true, hset hb true⟩
    · exact ⟨ltm_ltmSet_self s hl hb false, hset hb false⟩
    · exact ⟨rfl, hstays b⟩
  case kInconsistent =>
    refine completes_of_up (f := fun s => s.kInconsistent l.val) hup rfl ?_
    have hshape : s.kInconsistent l.val =
        if s.ltm l.val ltmKIncons || (s.lane l.val).kMiss < 12 then s
        else (s.ltmSet l.val ltmKIncons true).raise Ev.kInconsistent l.val := hwhen _
    rw [hshape]
    split
    · next h =>
      have hraise : Frame (s.ltmSet l.val ltmKIncons true)
          ((s.ltmSet l.val ltmKIncons true).raise Ev.kInconsistent l.val) (theseRegs []) noBytes := frame_raise ..
      rw [if_neg (by simpa using h)]
      refine ⟨?_, hkeeps ((ltmKeeps_ltmSet s hl (by decide) true).thenHidden hl hraise)⟩
      rw [ltm_congr (hraise.reg _ rfl (ltm_apart hl (ltmRegs_stat _)).2), ltm_ltmSet_self s hl (by decide)]
    · next h =>
      refine if_pos ?_
      simp only [Bool.or_eq_true, decide_eq_true_eq]
      rw [← Bool.not_eq_false, ← Nat.not_le]
      tauto

end Sys2Proof
end

section
/-! SUPPORT. What the lane conditions are judged by: the registers of the lanes and of the protection groups. -/

namespace Sys2Proof.Machine

variable {s t : State} {l : Nat}

/-- The registers of the protection groups. -/
def apsRegs : Nat → Bool := regsOf 0xD1000 0xD1600

/-- Those, and the registers of the lanes and of their line terminations. -/
def condRegs (a : Nat) : Bool := regsOf 0x20000 0x80000 a || apsRegs a

/-- No summary of the terminations and no account of events is among them. -/
theorem condRegs_apart {a : Nat} (h : condRegs a = true) : trbSummary a = false ∧ eventReg a = false := by
  simp only [condRegs, apsRegs, Bool.or_eq_true, regsOf_true] at h
  constructor
  · rw [← Bool.not_eq_true, trbSummary, regsOf_true]
    omega
  · rw [← Bool.not_eq_true, eventReg, List.contains_iff_mem]
    simp only [Reg.hstHeadLo, Reg.hstHeadHi, Reg.hstOldestLo, Reg.hstOldestHi, Reg.hstCntDrop, Reg.evtCntDrop,
      Reg.fltLast, Reg.fltStat, List.mem_cons, List.not_mem_nil, or_false]
    omega

/-- The registers of the protection groups stay. -/
def ApsKept (s t : State) : Prop := ∀ a, apsRegs a = true → t.rd a = s.rd a

theorem ApsKept.fget (h : ApsKept s t) {f : Fld} (hf : apsRegs f.reg = true) : t.fget f = s.fget f := by
  rw [State.fget, State.fget, h _ hf]

theorem ApsKept.flag (h : ApsKept s t) {f : Fld} (hf : apsRegs f.reg = true) : t.flag f = s.flag f := by
  rw [State.flag, State.flag, h.fget hf]

/-- The registers that the lane conditions are judged by stay. -/
def CondKept (s t : State) : Prop := ∀ a, condRegs a = true → t.rd a = s.rd a

theorem CondKept.aps (h : CondKept s t) : ApsKept s t := fun a ha => h a (by rw [condRegs, ha, Bool.or_true])

theorem CondKept.fget (h : CondKept s t) {f : Fld} (hf : condRegs f.reg = true) : t.fget f = s.fget f := by
  rw [State.fget, State.fget, h _ hf]

theorem CondKept.flag (h : CondKept s t) {f : Fld} (hf : condRegs f.reg = true) : t.flag f = s.flag f := by
  rw [State.flag, State.flag, h.fget hf]

theorem apsRegs_apsCfg {g : Nat} (h : g < 24) : apsRegs (Reg.apsCfg g) = true := by
  simp only [apsRegs, regsOf_true, Reg.apsCfg]
  omega

theorem apsRegs_apsStat {g : Nat} (h : g < 24) : apsRegs (Reg.apsStat g) = true := by
  simp only [apsRegs, regsOf_true, Reg.apsStat]
  omega

theorem apsRegs_apsWl {g c : Nat} (h : g < 24) (hc : c < 16) : apsRegs (Reg.apsWl g ((c - 1) / 5)) = true := by
  simp only [apsRegs, regsOf_true, Reg.apsWl]
  omega

theorem condRegs_ltmStat (h : l < 64) : condRegs (Reg.ltmStat l) = true := by
  simp only [condRegs, Bool.or_eq_true, regsOf_true, Reg.ltmStat]
  omega

theorem condRegs_sdsStat (h : l < 64) : condRegs (Reg.sdsStat l) = true := by
  simp only [condRegs, Bool.or_eq_true, regsOf_true, Reg.sdsStat]
  omega

/-! ### The protection groups (R204, R205) -/

theorem ApsKept.apsLane (h : ApsKept s t) {g c : Nat} (hg : g < 24) (hc : c < 16) : t.apsLane g c = s.apsLane g c := by
  unfold State.apsLane
  dsimp only
  rw [h.fget (apsRegs_apsCfg hg), h _ (apsRegs_apsWl hg hc)]

theorem ApsKept.apsOwner (h : ApsKept s t) (l : Nat) : t.apsOwner l = s.apsOwner l := by
  have hon : t.apsOn = s.apsOn := List.filter_congr fun g hg =>
    h.flag (apsRegs_apsCfg (List.mem_range.1 hg))
  unfold State.apsOwner
  rw [hon]
  congr 1
  refine List.flatMap_congr fun g hg => ?_
  have hlt : g < 24 := List.mem_range.1 (List.mem_of_mem_filter hg)
  have hn : t.apsN g = s.apsN g := h.fget (apsRegs_apsCfg hlt)
  have hmax : s.apsN g < 16 := bits_lt _ _ _
  rw [hn]
  refine congrArg _ (List.filter_congr fun c hc => ?_)
  rw [h.apsLane hlt (by have := List.mem_range.1 hc; omega)]

theorem apsOwner_lt {g c : Nat} (h : s.apsOwner l = some (g, c)) : g < 24 := by
  obtain ⟨g', hg', hmem⟩ := List.mem_flatMap.1 (List.mem_of_mem_head? h)
  obtain ⟨c', -, heq⟩ := List.mem_map.1 hmem
  cases heq
  exact List.mem_range.1 (List.mem_of_mem_filter hg')

theorem ApsKept.servedBy (h : ApsKept s t) (l : Nat) : t.servedBy l = s.servedBy l := by
  unfold State.servedBy
  rw [h.apsOwner]
  cases ho : s.apsOwner l with
  | none => rfl
  | some q =>
    have hg := apsOwner_lt ho
    dsimp only
    rw [h.fget (apsRegs_apsStat hg), h.apsLane hg (by decide)]

theorem ApsKept.standsFor (h : ApsKept s t) (l : Nat) : t.standsFor l = s.standsFor l := by
  unfold State.standsFor
  rw [h.apsOwner]
  cases ho : s.apsOwner l with
  | none => rfl
  | some q =>
    obtain ⟨g, c⟩ := q
    have hg := apsOwner_lt ho
    have hsel : s.fget (F.apsStat_selected g) < 16 := bits_lt _ _ _
    cases c with
    | zero =>
      have hget : t.fget (F.apsStat_selected g) = s.fget (F.apsStat_selected g) := h.fget (apsRegs_apsStat hg)
      simp only [hget, h.apsLane hg hsel]
    | succ c => rfl

theorem servedBy_lt (hl : l < 48) : s.servedBy l < 64 := by
  unfold State.servedBy
  split
  · split
    · unfold State.apsLane
      rw [if_pos rfl]
      exact bits_lt _ _ _
    · omega
  · omega

theorem ApsKept.evaluatedFrom (h : ApsKept s t) (l : Nat) : t.evaluatedFrom l = s.evaluatedFrom l := by
  rw [State.evaluatedFrom, State.evaluatedFrom, h.standsFor, h.servedBy]

/-! ### Paths of a lane -/

theorem pathsOn_congr (h : t.paths = s.paths) (l : Nat) : t.pathsOn l = s.pathsOn l := by
  rw [State.pathsOn, State.pathsOn, State.pathList, State.pathList, h]

theorem path_congr (h : t.paths = s.paths) (p : Nat) : t.path p = s.path p := by rw [State.path, State.path, h]

theorem ApsKept.pathsFrom (h : ApsKept s t) (hp : t.paths = s.paths) (l : Nat) : t.pathsFrom l = s.pathsFrom l := by
  rw [State.pathsFrom, State.pathsFrom, h.evaluatedFrom]
  exact List.flatMap_congr fun m _ => pathsOn_congr hp m

theorem ApsKept.auPaths (h : ApsKept s t) (hp : t.paths = s.paths) (l n : Nat) : t.auPaths l n = s.auPaths l n := by
  rw [State.auPaths, State.auPaths, h.pathsFrom hp]
  exact List.filter_congr fun p _ => by rw [path_congr hp]

/-! ### The condition of a lane (R39) -/

theorem CondKept.laneFail (h : CondKept s t) (hlanes : t.lanes = s.lanes) (hl : l < 64) :
    t.laneFail l = s.laneFail l := by
  have hlane : t.lane l = s.lane l := by rw [State.lane, State.lane, hlanes]
  have hltm : ∀ f : Fld, f.reg = Reg.ltmStat l → t.flag f = s.flag f := fun f hf =>
    h.flag (hf ▸ condRegs_ltmStat hl)
  have hsds : ∀ f : Fld, f.reg = Reg.sdsStat l → t.fget f = s.fget f := fun f hf =>
    h.fget (hf ▸ condRegs_sdsStat hl)
  unfold State.laneFail State.laneDefect State.isSdh State.role State.stage
  rw [hlane, hltm _ rfl, hltm _ rfl, hltm _ rfl, hsds _ rfl, hsds _ rfl,
    h.flag (f := F.sdsStat_los l) (condRegs_sdsStat hl)]

/-- lane_fail of a path is shown as before where its word 3 and its lane stand as before. -/
theorem CondKept.laneFailShown (h : CondKept s t) (hlanes : t.lanes = s.lanes) {p : Nat}
    (hentry : (t.path p).entry = (s.path p).entry) (hword : bit (t.pathWord p 3) 31 = bit (s.pathWord p 3) 31) :
    t.laneFailShown p = s.laneFailShown p := by
  unfold State.laneFailShown
  rw [hentry]
  cases (s.path p).entry with
  | none => rfl
  | some e =>
    obtain ⟨w0, w1, w2⟩ := e
    dsimp only
    rw [hword, h.aps.servedBy]
    by_cases hl : bits w0 23 18 < 48
    · rw [h.laneFail hlanes (servedBy_lt hl)]
    · rw [decide_eq_true (Nat.not_lt.1 hl), Bool.or_true, Bool.true_or, Bool.true_or]

theorem condKept_of_regs (h : t.regs = s.regs) : CondKept s t := fun a _ => by rw [State.rd, State.rd, h]

theorem condKept_of_frame {bytes : Nat → Bool} (h : Frame s t trbSummary bytes) : CondKept s t := fun a ha =>
  h.reg a (condRegs_apart ha).1 (condRegs_apart ha).2

end Sys2Proof.Machine
end

section
/-! SUPPORT. Word 3 of a path under a change of one of its defects (R57): the bit, its other bits, and lane_fail. -/

namespace Sys2Proof

open Machine

/-- Only words 3 and 4 of paths change, with what is known of their damage, and the rows that paths still carry CON. -/
structure PathsMarked (s t : State) : Prop where
  rest : t = { s with mem := t.mem, sram := t.sram, paths := t.paths }
  byte : ∀ a, pathStatus a = false → t.byte a = s.byte a
  path : ∀ p, ∃ n, t.path p = { s.path p with tail := n }

variable {s t u : State}

theorem PathsMarked.refl (s : State) : PathsMarked s s := ⟨rfl, fun _ _ => rfl, fun p => ⟨(s.path p).tail, rfl⟩⟩

theorem PathsMarked.trans (h : PathsMarked s t) (k : PathsMarked t u) : PathsMarked s u where
  rest := k.rest.trans (by rw [h.rest])
  byte := fun a ha => (k.byte a ha).trans (h.byte a ha)
  path := fun p => by
    obtain ⟨n, hn⟩ := h.path p
    obtain ⟨m, hm⟩ := k.path p
    exact ⟨m, by rw [hm, hn]⟩

theorem PathsMarked.regs (h : PathsMarked s t) : t.regs = s.regs := by rw [h.rest]

theorem PathsMarked.lanes (h : PathsMarked s t) : t.lanes = s.lanes := by rw [h.rest]

theorem PathsMarked.aus (h : PathsMarked s t) : t.aus = s.aus := by rw [h.rest]

theorem PathsMarked.rd (h : PathsMarked s t) (a : Nat) : t.rd a = s.rd a := by rw [State.rd, State.rd, h.regs]

theorem PathsMarked.entry (h : PathsMarked s t) (p : Nat) : (t.path p).entry = (s.path p).entry := by
  obtain ⟨n, hn⟩ := h.path p
  rw [hn]

theorem PathsMarked.frame (h : PathsMarked s t) : Frame s t (theseRegs []) pathStatus where
  reg := fun a _ _ => h.rd a
  byte := h.byte
  tone := by rw [h.rest]
  clock := by rw [h.rest]
  otp := by rw [h.rest]
  pending := by rw [h.rest]

theorem pathStatus_word {p w k : Nat} (hp : p < 262144) (hw : w = 3 ∨ w = 4) (hk : k < 4) :
    pathStatus (pathAddr p w + k) = true := by
  simp only [pathStatus, Bool.and_eq_true, decide_eq_true_eq]
  unfold pathAddr
  omega

end Sys2Proof

namespace Sys2Proof.Machine

variable (s : State) {p q : Nat}

/-! ### Words of paths -/

theorem pathWord_setPathWord_other {w j : Nat} (v : W32) (hw : w < 8) (hj : j < 8) (h : p ≠ q) :
    (s.setPathWord p w v).pathWord q j = s.pathWord q j := by
  have hout : (s.setPathWord p w v).pathWord q j = (s.mend (pathAddr p w) 0x1).memWord (pathAddr q j) :=
    memWord_putWord_out _ _ _ (by simp only [pathAddr]; omega)
  rw [hout]
  exact memWord_congr s (mend_mem s _ _) _

/-- A write of a word changes memory alone. -/
theorem putWord_rest (a : Nat) (be : BitVec 4) (v : W32) :
    s.putWord a be v = { s with mem := (s.putWord a be v).mem } := by
  unfold State.putWord
  dsimp only
  split_ifs <;> rfl

theorem mend_rest (a : Nat) (be : BitVec 4) : s.mend a be = { s with sram := (s.mend a be).sram } := by
  unfold State.mend
  dsimp only
  split_ifs <;> rfl

theorem setFields_rest (a : Nat) (v : W32) :
    s.setFields a v = { s with mem := (s.setFields a v).mem, sram := (s.setFields a v).sram } := by
  have h := putWord_rest (s.mend a 0x1) a 0xF v
  rw [State.setFields, State.setWord, h, mend_rest]

theorem pathsMarked_setPathWord (hp : p < 262144) {w : Nat} (hw : w = 3 ∨ w = 4) (v : W32) :
    PathsMarked s (s.setPathWord p w v) where
  rest := by
    have h := setFields_rest s (pathAddr p w) v
    rw [State.setPathWord, h]
  byte := fun a ha => ((aside_setFields s (pathAddr p w) v (regs := theseRegs []) (bytes := pathStatus)
    fun k hk => pathStatus_word hp hw hk).frame).byte a ha
  path := fun q => ⟨(s.path q).tail, by rw [State.setPathWord, setFields_rest]; rfl⟩

/-! ### The refresh of words 3 and 4 (R57) -/

theorem pathsMarked_refreshPath (hp : p < 262144) : PathsMarked s (s.refreshPath p) := by
  rcases refreshPath_shape s p with h | ⟨u, n, rfl | ⟨m, rfl⟩, h⟩
  · rw [h]
    exact .refl s
  · rw [h]
    exact pathsMarked_setPathWord _ hp (.inr rfl) _
  · rw [h]
    exact (pathsMarked_setPathWord s hp (.inl rfl) _).trans (pathsMarked_setPathWord _ hp (.inr rfl) _)

theorem pathWord_refreshPath_other {j : Nat} (hj : j < 8) (h : p ≠ q) :
    (s.refreshPath p).pathWord q j = s.pathWord q j := by
  rcases refreshPath_shape s p with h' | ⟨u, n, rfl | ⟨m, rfl⟩, h'⟩
  · rw [h']
  · rw [h', pathWord_setPathWord_other _ _ (by decide) hj h]
  · rw [h', pathWord_setPathWord_other _ _ (by decide) hj h, pathWord_setPathWord_other _ _ (by decide) hj h]

/-- The refresh sets lane_fail, and no other bit of word 3. -/
theorem bit_refreshPath {i : Nat} (hi : i ≠ 31) : bit ((s.refreshPath p).pathWord p 3) i = bit (s.pathWord p 3) i := by
  rcases refreshPath_shape s p with h | ⟨u, n, rfl | ⟨m, rfl⟩, h⟩
  · rw [h]
  · rw [h, pathWord_setPathWord_ne _ _ _ (by decide)]
  · rw [h, pathWord_setPathWord_ne _ _ _ (by decide), pathWord_setPathWord_self, bit_setBits_ne _ (by decide) hi]

variable {s} in
/-- The lane condition is judged by neither the memory nor the rows that paths carry CON. -/
theorem condKept_of_marked {t : State} (h : PathsMarked s t) : CondKept s t := condKept_of_regs h.regs

theorem laneFailShown_refreshPath (hp : p < 262144) : (s.refreshPath p).laneFailShown p = true := by
  have hmark := pathsMarked_refreshPath s hp
  have hcond := condKept_of_marked hmark
  unfold State.laneFailShown
  rw [hmark.entry]
  cases hentry : (s.path p).entry with
  | none => rfl
  | some e =>
    obtain ⟨w0, w1, w2⟩ := e
    dsimp only
    by_cases hmon : bit w0 24 = true ∧ bits w0 23 18 < 48
    · obtain ⟨hbit, hlane⟩ := hmon
      have hword : bit ((s.refreshPath p).pathWord p 3) 31 = s.laneFail (s.servedBy (bits w0 23 18)) := by
        unfold State.refreshPath
        rw [hentry]
        dsimp only
        rw [if_pos (by rw [hbit, decide_eq_true hlane]; rfl), pathWord_setPathWord_ne _ _ _ (by decide),
          pathWord_setPathWord_self, bit_setBits_self _ (by decide)]
      rw [hword, hcond.aps.servedBy, hcond.laneFail hmark.lanes (servedBy_lt hlane), decide_eq_true rfl, Bool.or_true]
    · rw [not_and_or, Bool.not_eq_true, Nat.not_lt] at hmon
      rcases hmon with h | h
      · rw [h]
        rfl
      · rw [decide_eq_true h, Bool.or_true, Bool.true_or]

/-- What the refresh of a path leaves of lane_fail in the others, and what it makes of its own, is right. -/
theorem laneFailShown_refreshPath_of (hp : p < 262144) (h : s.laneFailShown q = true) :
    (s.refreshPath p).laneFailShown q = true := by
  by_cases hq : p = q
  · subst hq
    exact laneFailShown_refreshPath s hp
  · have hmark := pathsMarked_refreshPath s hp
    rw [(condKept_of_marked hmark).laneFailShown hmark.lanes (hmark.entry q)
      (by rw [pathWord_refreshPath_other s (by decide) hq]), h]

/-! ### A defect of a path (R57) -/

/-- The path is valid and monitored. -/
def State.monitored (s : State) (p : Nat) : Prop := ∃ w0 w1 w2, (s.path p).entry = some (w0, w1, w2) ∧ bit w0 24 = true

variable {s} in
theorem monitored_of_marked {t : State} (h : PathsMarked s t) (hmon : s.monitored p) : t.monitored p := by
  obtain ⟨w0, w1, w2, hentry, hbit⟩ := hmon
  exact ⟨w0, w1, w2, (h.entry p).trans hentry, hbit⟩

theorem pathsMarked_startPathTail (p : Nat) (w0 w1 old : W32) : PathsMarked s (s.startPathTail p w0 w1 old) := by
  unfold State.startPathTail
  dsimp only
  split
  · refine ⟨rfl, fun _ _ => rfl, fun q => ?_⟩
    by_cases hq : p = q
    · subst hq
      exact ⟨_, path_onPath_self s p _⟩
    · exact ⟨_, Sparse.get_put_ne _ _ _ _ hq⟩
  · exact .refl s

theorem pathWord_startPathTail (p : Nat) (w0 w1 old : W32) (q j : Nat) :
    (s.startPathTail p w0 w1 old).pathWord q j = s.pathWord q j :=
  pathWord_congr s (by unfold State.startPathTail; dsimp only; split <;> rfl) q j

/-- A defect of a path that is not monitored does not change; of another one its bit, then what follows it. -/
theorem setDefect_shape (p b : Nat) (on : Bool) : s.setDefect p b on = s ∧ ¬ s.monitored p ∨ ∃ w0 w1 : W32,
    s.setDefect p b on = ((s.setPathWord p 3 (setBits (s.pathWord p 3) b b (b2n on))).startPathTail p w0 w1
      (s.pathWord p 3)).refreshPath p := by
  unfold State.setDefect
  cases hentry : (s.path p).entry with
  | none => exact .inl ⟨rfl, fun ⟨_, _, _, h, _⟩ => by rw [hentry] at h; cases h⟩
  | some e =>
    obtain ⟨w0, w1, w2⟩ := e
    dsimp only
    by_cases hmon : bit w0 24 = true
    · exact .inr ⟨w0, w1, by rw [if_pos hmon]⟩
    · refine .inl ⟨if_neg hmon, fun ⟨_, _, _, h, hbit⟩ => hmon ?_⟩
      rw [hentry] at h
      cases h
      exact hbit

theorem pathsMarked_setDefect (hp : p < 262144) (b : Nat) (on : Bool) : PathsMarked s (s.setDefect p b on) := by
  rcases setDefect_shape s p b on with ⟨h, -⟩ | ⟨w0, w1, h⟩
  · rw [h]
    exact .refl s
  · rw [h]
    exact ((pathsMarked_setPathWord s hp (.inl rfl) _).trans (pathsMarked_startPathTail _ _ _ _ _)).trans
      (pathsMarked_refreshPath _ hp)

theorem pathWord_setDefect_other (b : Nat) (on : Bool) {j : Nat} (hj : j < 8) (hq : p ≠ q) :
    (s.setDefect p b on).pathWord q j = s.pathWord q j := by
  rcases setDefect_shape s p b on with ⟨h, -⟩ | ⟨w0, w1, h⟩
  · rw [h]
  · rw [h, pathWord_refreshPath_other _ hj hq, pathWord_startPathTail,
      pathWord_setPathWord_other _ _ (by decide) hj hq]

theorem bit_setDefect_self {b : Nat} (hb : b < 31) (on : Bool) (hmon : s.monitored p) :
    bit ((s.setDefect p b on).pathWord p 3) b = on := by
  rcases setDefect_shape s p b on with ⟨-, h⟩ | ⟨w0, w1, h⟩
  · exact (h hmon).elim
  · rw [h, bit_refreshPath _ (by omega), pathWord_startPathTail, pathWord_setPathWord_self,
      bit_setBits_self _ (by omega)]

/-- A defect leaves every other bit of word 3 but lane_fail. -/
theorem bit_setDefect_ne {b i : Nat} (hb : b < 32) (on : Bool) (hi : i ≠ b) (h31 : i ≠ 31) (q : Nat) :
    bit ((s.setDefect p b on).pathWord q 3) i = bit (s.pathWord q 3) i := by
  by_cases hq : p = q
  · subst hq
    rcases setDefect_shape s p b on with ⟨h, -⟩ | ⟨w0, w1, h⟩
    · rw [h]
    · rw [h, bit_refreshPath _ h31, pathWord_startPathTail, pathWord_setPathWord_self, bit_setBits_ne _ hb hi]
  · rw [pathWord_setDefect_other s b on (by decide) hq]

theorem laneFailShown_setDefect (hp : p < 262144) (b : Nat) (on : Bool) (h : s.laneFailShown q = true) :
    (s.setDefect p b on).laneFailShown q = true := by
  have hmark := pathsMarked_setDefect s hp b on
  by_cases hq : p = q
  · subst hq
    rcases setDefect_shape s p b on with ⟨h', -⟩ | ⟨w0, w1, h'⟩
    · rw [h', h]
    · rw [h']
      exact laneFailShown_refreshPath _ hp
  · rw [(condKept_of_marked hmark).laneFailShown hmark.lanes (hmark.entry q)
      (by rw [pathWord_setDefect_other s b on (by decide) hq]), h]

/-! ### A defect of several paths -/

theorem pathsMarked_setDefects (b : Nat) (on : Bool) : ∀ (ps : List Nat) (s : State), (∀ p ∈ ps, p < 262144) →
    PathsMarked s (s.setDefects b on ps)
  | [], s, _ => .refl s
  | p :: ps, s, h => (pathsMarked_setDefect s (h p (by simp)) b on).trans
      (pathsMarked_setDefects b on ps _ fun q hq => h q (by simp [hq]))

theorem bit_setDefects_ne {b i : Nat} (hb : b < 32) (on : Bool) (hi : i ≠ b) (h31 : i ≠ 31) (q : Nat) :
    ∀ (ps : List Nat) (s : State), bit ((s.setDefects b on ps).pathWord q 3) i = bit (s.pathWord q 3) i
  | [], _ => rfl
  | _ :: ps, s => (bit_setDefects_ne hb on hi h31 q ps _).trans (bit_setDefect_ne s hb on hi h31 q)

/-- A bit that stands as it is to be set stays. -/
theorem bit_setDefects_stays {b : Nat} (hb : b < 31) (on : Bool) (q : Nat) : ∀ (ps : List Nat) (s : State),
    s.monitored q → (∀ p ∈ ps, p < 262144) → bit (s.pathWord q 3) b = on →
      bit ((s.setDefects b on ps).pathWord q 3) b = on
  | [], _, _, _, h => h
  | p :: ps, s, hmon, hlt, h => by
    have hp := hlt p (by simp)
    refine bit_setDefects_stays hb on q ps _ (monitored_of_marked (pathsMarked_setDefect s hp b on) hmon)
      (fun r hr => hlt r (by simp [hr])) ?_
    by_cases hq : p = q
    · rw [hq]
      exact bit_setDefect_self s hb on hmon
    · rw [pathWord_setDefect_other s b on (by decide) hq, h]

theorem bit_setDefects_mem {b : Nat} (hb : b < 31) (on : Bool) : ∀ (ps : List Nat) (s : State),
    (∀ p ∈ ps, p < 262144 ∧ s.monitored p) → ∀ q ∈ ps, bit ((s.setDefects b on ps).pathWord q 3) b = on
  | [], _, _ => nofun
  | p :: ps, s, h => by
    have hp := h p (by simp)
    have hmark := pathsMarked_setDefect s hp.1 b on
    have hrest : ∀ q ∈ ps, q < 262144 ∧ (s.setDefect p b on).monitored q := fun q hq =>
      (h q (by simp [hq])).imp_right (monitored_of_marked hmark)
    intro q hq
    rcases List.mem_cons.1 hq with rfl | hq
    · exact bit_setDefects_stays hb on q ps _ (monitored_of_marked hmark hp.2) (fun r hr => (hrest r hr).1)
        (bit_setDefect_self s hb on hp.2)
    · exact bit_setDefects_mem hb on ps _ hrest q hq

/-- The paths that the overhead of an AU is evaluated for are monitored. -/
theorem auPaths_monitored (l n : Nat) : ∀ p ∈ s.auPaths l n, p < 262144 ∧ s.monitored p := by
  intro p hp
  obtain ⟨hfrom, hcond⟩ := List.mem_filter.1 hp
  refine ⟨pathsFrom_lt s l p hfrom, ?_⟩
  cases hentry : (s.path p).entry with
  | none =>
    rw [hentry] at hcond
    cases hcond
  | some e =>
    rw [hentry] at hcond
    simp only [Bool.and_eq_true] at hcond
    exact ⟨e.1, e.2.1, e.2.2, hentry, hcond.1.1.1⟩

theorem auPaths_lt (l n : Nat) : ∀ p ∈ s.auPaths l n, p < 262144 := fun p hp => (auPaths_monitored s l n p hp).1

end Sys2Proof.Machine
end

section
/-! SUPPORT. What follows a change of a lane, seen on its paths: the entries, lane_fail, and the other bits of
word 3. -/

namespace Sys2Proof

open Machine

variable {s t u : State}

/-- What follows a change of a lane, on the paths and the terminations: the summaries of the terminations, and of
word 3 of a path lane_fail, kept right, and term_fail. -/
structure Followed (s t : State) : Prop where
  frame : Frame s t trbSummary followBytes
  lanes : t.lanes = s.lanes
  entry : ∀ p, (t.path p).entry = (s.path p).entry
  bits  : ∀ p i, p < 262144 → i ≠ 22 → i ≠ 31 → bit (t.pathWord p 3) i = bit (s.pathWord p 3) i
  shown : ∀ p, p < 262144 → s.laneFailShown p = true → t.laneFailShown p = true

theorem Followed.refl (s : State) : Followed s s :=
  ⟨.refl _ _ _, rfl, fun _ => rfl, fun _ _ _ _ _ => rfl, fun _ _ => id⟩

theorem Followed.trans (h : Followed s t) (k : Followed t u) : Followed s u :=
  ⟨h.frame.trans k.frame, k.lanes.trans h.lanes, fun p => (k.entry p).trans (h.entry p),
    fun p i hp h22 h31 => (k.bits p i hp h22 h31).trans (h.bits p i hp h22 h31),
    fun p hp hs => k.shown p hp (h.shown p hp hs)⟩

theorem Followed.ite {c : Prop} [Decidable c] {x y : State} (hx : c → Followed s x) (hy : ¬ c → Followed s y) :
    Followed s (if c then x else y) := by
  split
  · exact hx (by assumption)
  · exact hy (by assumption)

/-- An operation beside the paths. -/
theorem Followed.of_paths (hframe : Frame s t trbSummary followBytes) (hlanes : t.lanes = s.lanes)
    (hpaths : t.paths = s.paths) (hword : ∀ p, p < 262144 → t.pathWord p 3 = s.pathWord p 3) : Followed s t where
  frame := hframe
  lanes := hlanes
  entry := fun p => by rw [path_congr hpaths]
  bits := fun p _ hp _ _ => by rw [hword p hp]
  shown := fun p hp h => by
    rw [(condKept_of_frame hframe).laneFailShown hlanes (by rw [path_congr hpaths]) (by rw [hword p hp]), h]

/-- An operation that neither the paths nor the memory see. -/
theorem Followed.of_works (hframe : Frame s t trbSummary followBytes) (hworks : t.works = s.works) : Followed s t :=
  .of_paths hframe (congrArg Works.lanes hworks) (congrArg Works.paths hworks) fun p _ =>
    pathWord_congr s (congrArg Works.mem hworks) p 3

/-- A change of word 3 and 4 of paths. -/
theorem Followed.of_marked (h : PathsMarked s t)
    (hbits : ∀ p i, i ≠ 22 → i ≠ 31 → bit (t.pathWord p 3) i = bit (s.pathWord p 3) i)
    (hshown : ∀ p, s.laneFailShown p = true → t.laneFailShown p = true) : Followed s t where
  frame := h.frame.mono (fun _ h => by cases h) fun _ ha => orAt_true.2 (.inl ha)
  lanes := h.lanes
  entry := h.entry
  bits := fun p i _ => hbits p i
  shown := fun p _ => hshown p

theorem Followed.cond (h : Followed s t) : CondKept s t := condKept_of_frame h.frame

end Sys2Proof

namespace Sys2Proof.Machine

variable (s : State)

/-! ### Paths -/

theorem followed_refreshPath {p : Nat} (hp : p < 262144) : Followed s (s.refreshPath p) := by
  refine .of_marked (pathsMarked_refreshPath s hp) (fun q i _ h31 => ?_) fun q h => laneFailShown_refreshPath_of s hp h
  by_cases hq : p = q
  · rw [← hq, bit_refreshPath s h31]
  · rw [pathWord_refreshPath_other s (by decide) hq]

/-- After the refresh of a list of paths lane_fail of each is right. -/
theorem followed_refreshAll : ∀ (ps : List Nat) (s : State), (∀ p ∈ ps, p < 262144) →
    Followed s (s.refreshAll ps) ∧ ∀ p ∈ ps, (s.refreshAll ps).laneFailShown p = true
  | [], s, _ => ⟨.refl s, nofun⟩
  | p :: ps, s, h => by
    have hp := h p (by simp)
    obtain ⟨hrest, hshown⟩ := followed_refreshAll ps (s.refreshPath p) fun q hq => h q (by simp [hq])
    refine ⟨(followed_refreshPath s hp).trans hrest, fun q hq => ?_⟩
    rcases List.mem_cons.1 hq with rfl | hq
    · exact hrest.shown q hp (laneFailShown_refreshPath s hp)
    · exact hshown q hq

theorem startTails_rest (l : Nat) : ∀ (ns : List Nat) (s : State),
    s.startTails l ns = { s with aus := (s.startTails l ns).aus }
  | [], _ => rfl
  | n :: ns, s => by
    have h := startTails_rest l ns (s.onAu l n fun a => { a with tail := max a.tail (s.auTailRows l n) })
    exact h

/-- AUs that keep CON are seen by no path. -/
theorem followed_startTails (l : Nat) (ns : List Nat) :
    Followed s (s.startTails l ns) ∧ (s.startTails l ns).paths = s.paths := by
  rw [startTails_rest]
  exact ⟨.of_paths (.of_hidden ⟨rfl, rfl, rfl, rfl, rfl⟩ rfl) rfl rfl fun _ _ => rfl, rfl⟩

/-- What a change of a lane brings with it: lane_fail of its paths is right. -/
theorem followed_onCondition (l : Nat) (f : State → State) :
    Followed (f s) (s.onCondition l f) ∧ ∀ p ∈ (f s).pathsFrom l, (s.onCondition l f).laneFailShown p = true := by
  have htails : Followed (f s) (if s.laneDefect l && !(f s).laneDefect l && (f s).isSdh l then
      (f s).startTails l (List.range ((f s).auCount l)) else f s) ∧
      (if s.laneDefect l && !(f s).laneDefect l && (f s).isSdh l then
        (f s).startTails l (List.range ((f s).auCount l)) else f s).paths = (f s).paths := by
    split
    · exact followed_startTails ..
    · exact ⟨.refl _, rfl⟩
  unfold State.onCondition
  dsimp only
  generalize (if s.laneDefect l && !(f s).laneDefect l && (f s).isSdh l then
    (f s).startTails l (List.range ((f s).auCount l)) else f s) = u at htails ⊢
  obtain ⟨hu, hpaths⟩ := htails
  obtain ⟨hall, hshown⟩ := followed_refreshAll (u.pathsFrom l) u (pathsFrom_lt u l)
  rw [hu.cond.aps.pathsFrom hpaths] at hall hshown ⊢
  exact ⟨hu.trans hall, hshown⟩

/-! ### Terminations (R90, R96, R97) -/

theorem followed_setDefect {p : Nat} (hp : p < 262144) (on : Bool) : Followed s (s.setDefect p 22 on) :=
  .of_marked (pathsMarked_setDefect s hp 22 on) (fun q _ h22 h31 => bit_setDefect_ne s (by decide) on h22 h31 q)
    fun _ h => laneFailShown_setDefect s hp 22 on h

/-- The status words of the terminations lie behind the path table. -/
theorem pathWord_setTermStat {t : Nat} (v : W32) {p j : Nat} (hp : p < 262144) (hj : j < 8) :
    (s.setTermStat t 0 v).pathWord p j = s.pathWord p j := by
  have hout : (s.setTermStat t 0 v).pathWord p j = (s.mend (termStatAddr t 0) 0x1).memWord (pathAddr p j) :=
    memWord_putWord_out _ _ _ (by simp only [pathAddr, termStatAddr]; omega)
  rw [hout]
  exact memWord_congr s (mend_mem s _ _) _

theorem followed_setTermFlag {t : Nat} (ht : t < 8192) (b : Nat) (on : Bool) : Followed s (s.setTermFlag t b on) := by
  have hstat : ∀ v, Followed s (s.setTermStat t 0 v) := fun v =>
    have hrest : s.setTermStat t 0 v = _ := setFields_rest s (termStatAddr t 0) v
    .of_paths (aside_setFields s _ v fun _ hk => followBytes_term ht hk).frame (by rw [hrest]) (by rw [hrest])
      fun p hp => pathWord_setTermStat s v hp (by decide)
  unfold State.setTermFlag
  refine (hstat _).trans (.ite (fun _ => ?_) fun _ => .refl _)
  exact .of_paths (aside_onTerm _ t _).frame rfl rfl fun p _ => pathWord_congr _ (State.onTerm_mem ..) p 3

theorem trbSummary_failSum {t : Nat} (ht : t < 8192) : trbSummary (summaryBit (Reg.trbFailSum 0) t).reg = true := by
  simp only [trbSummary, regsOf_true, summaryBit, Reg.trbFailSum]
  omega

theorem trbSummary_stickySum {t : Nat} (ht : t < 8192) :
    trbSummary (summaryBit (Reg.trbStickySum 0) t).reg = true := by
  simp only [trbSummary, regsOf_true, summaryBit, Reg.trbStickySum]
  omega

theorem followed_summary {f : Fld} (h : trbSummary f.reg = true) (on : Bool) : Followed s (s.fbit f on) :=
  .of_works (frame_fbit s f on (.inl h)) (works_fbit s f on)

theorem followed_stickTerm {t : Nat} (ht : t < 8192) : Followed s (s.stickTerm t) := by
  unfold State.stickTerm
  exact (followed_summary s (trbSummary_stickySum ht) true).trans
    (.of_works (frame_raise _ _ _ _ _ _ _) (works_raise _ _ _ _ _ _ _))

theorem followed_judgeTerm {t : Nat} (ht : t < 8192) : Followed s (s.judgeTerm t) := by
  unfold State.judgeTerm
  refine .ite (fun _ => .refl _) fun _ => ?_
  refine .trans ?_ (.ite (fun _ => followed_stickTerm _ ht) fun _ => .refl _)
  exact ((followed_setTermFlag s ht _ _).trans (followed_setDefect _ (termPath_lt ..) _)).trans
    (followed_summary _ (trbSummary_failSum ht) _)

theorem followed_refreshTerm {t : Nat} (ht : t < 8192) : Followed s (s.refreshTerm t) := by
  unfold State.refreshTerm
  refine .ite (fun _ => .refl _) fun _ => ?_
  refine .trans ?_ (followed_judgeTerm _ ht)
  exact (followed_setTermFlag s ht _ _).trans (.ite (fun _ => followed_setTermFlag _ ht _ _) fun _ => .refl _)

theorem followed_refreshEach : ∀ (ts : List Nat) (s : State), (∀ t ∈ ts, t < 8192) →
    Followed s (ts.foldl State.refreshTerm s)
  | [], s, _ => .refl s
  | t :: ts, s, h => (followed_refreshTerm s (h t (by simp))).trans
      (followed_refreshEach ts _ fun u hu => h u (by simp [hu]))

theorem followed_refreshTerms (l : Nat) : Followed s (s.refreshTerms l) :=
  followed_refreshEach _ s fun t ht => termsOn_lt s t (List.mem_of_mem_filter ht)

end Sys2Proof.Machine
end

section
/-! SUPPORT. The statement about the defects that enter the lane condition of an SDH lane. -/

namespace Sys2Proof

open Machine

variable {s t : State} {l b : Nat}

/-- Of the lane's defects only `b` is judged, and is `on` now; what shows the lane condition follows it. -/
structure ConditionSet (s t : State) (l b : Nat) (on : Bool) : Prop where
  self   : t.ltm l b = on
  others : ∀ d, d ≠ b → d < 32 → t.ltm l d = s.ltm l d
  shown  : ∀ p ∈ s.pathsFrom l, t.laneFailShown p = true
  frame  : Frame s t (orAt (theseRegs [Reg.ltmStat l, Reg.ltmSticky l]) trbSummary) (orAt pathStatus termStatus)

/-- A change of a defect that enters the lane condition, which the terminations of the lane see too. -/
theorem conditionSet_ltmCondition (s : State) (hl : l < 48) (hb : b < 32) (on : Bool) :
    ConditionSet s ((s.ltmCondition l b on).refreshTerms l) l b on := by
  have haside := aside_ltmSet s l b on
  have hself := ltm_ltmSet_self s hl hb on
  have hothers := fun d (hd : d ≠ b) => ltm_ltmSet_ne s hl hb on hd
  have haps : ApsKept s (s.ltmSet l b on) := fun a ha => haside.frame.reg a (Bool.eq_false_iff.2 fun e => by
    have hin := theseRegs_true.1 e
    simp only [apsRegs, regsOf_true, Reg.ltmStat, Reg.ltmSticky, List.mem_cons, List.not_mem_nil, or_false] at hin ha
    omega) (condRegs_apart (by rw [condRegs, ha, Bool.or_true])).2
  have hpaths := haps.pathsFrom (congrArg Works.paths (works_ltmSet s l b on)) l
  obtain ⟨hcond, hshown⟩ := followed_onCondition s l fun s => s.ltmSet l b on
  unfold State.ltmCondition
  generalize s.onCondition l (fun s => s.ltmSet l b on) = u at hcond hshown ⊢
  generalize s.ltmSet l b on = v at haside hself hothers hpaths hcond hshown
  have hlast := followed_refreshTerms u l
  have hall := hcond.trans hlast
  have hstat : (u.refreshTerms l).rd (Reg.ltmStat l) = v.rd (Reg.ltmStat l) :=
    hall.cond _ (condRegs_ltmStat (by omega))
  refine ⟨(ltm_congr hstat b).trans hself, fun d hd _ => (ltm_congr hstat d).trans (hothers d hd), fun p hp => ?_, ?_⟩
  · rw [← hpaths] at hp
    exact hlast.shown p (pathsFrom_lt v l p hp) (hshown p hp)
  · exact (haside.frame.mono (fun a ha => orAt_true.2 (.inl ha)) fun _ h => by cases h).trans
      (hall.frame.mono (fun a ha => orAt_true.2 (.inr ha)) fun _ => id)

/-- Where the condition of a command does not hold, the terminations are judged anew and the defects stay. -/
theorem frame_refreshTerms_only (s : State) (hl : l < 48) :
    (∀ d, (s.refreshTerms l).ltm l d = s.ltm l d) ∧
      Frame s (s.refreshTerms l) (orAt (theseRegs [Reg.ltmStat l, Reg.ltmSticky l]) trbSummary)
        (orAt pathStatus termStatus) := by
  have h := followed_refreshTerms s l
  exact ⟨ltm_congr (h.cond _ (condRegs_ltmStat (by omega))), h.frame.mono (fun a ha => orAt_true.2 (.inr ha)) fun _ => id⟩

/-- Settles O2: a defect that is due changes through `State.ltmCondition`, which refreshes the paths of the lane and
then its terminations; a command whose condition does not hold refreshes the terminations at most. -/
theorem sdhConditionDefects : Obligations.SdhConditionDefects := by
  intro l s hup hsdh after oof long
  have hl : l.val < 48 := l.isLt
  have hset : ∀ {b : Nat} (due on : Bool), b < 32 → due = true →
      after b due on ((s.ltmCondition l.val b on).refreshTerms l.val) := fun {b} due on hb hdue => by
    have h := conditionSet_ltmCondition s hl hb on
    exact ⟨h.self.trans (if_pos hdue).symm, h.others, fun _ => h.shown, h.frame⟩
  have hstays : ∀ {b : Nat} (due on : Bool), due = false → after b due on (s.refreshTerms l.val) :=
    fun {b} due on hdue => by
      obtain ⟨hltm, hframe⟩ := frame_refreshTerms_only s hl
      exact ⟨(hltm b).trans (if_neg (Bool.eq_false_iff.1 hdue)).symm, fun d _ _ => hltm d,
        fun h => (Bool.eq_false_iff.1 hdue h).elim, hframe⟩
  have hcase : ∀ {b : Nat} (due on : Bool), b < 32 →
      after b due on ((if due then s.ltmCondition l.val b on else s).refreshTerms l.val) := fun due on hb => by
    cases hdue : due with
    | true => exact hset true on hb rfl
    | false => exact hstays false on rfl
  have hwhen : ∀ f : State → State, s.whenSdh l.val f = f s := fun f => if_pos hsdh
  refine ⟨?los, ?losClear, ?lof, ?lofClear, ?msAis⟩
  case los =>
    refine completes_of_up (f := fun s => s.losDeclare l.val) hup rfl ?_
    have hshape : s.losDeclare l.val = (s.ltmCondition l.val ltmLos true).refreshTerms l.val := hwhen _
    rw [hshape]
    exact hset true true (by decide) rfl
  case losClear =>
    refine completes_of_up (f := fun s => s.losClear l.val) hup rfl ?_
    have hshape : s.losClear l.val = if s.flag (F.sdsCfg_modPresent l.val) then
        (s.ltmCondition l.val ltmLos false).refreshTerms l.val else s := hwhen _
    rw [hshape]
    cases hpresent : s.flag (F.sdsCfg_modPresent l.val) with
    | true => exact hset true false (by decide) rfl
    | false => exact ⟨rfl, fun _ _ _ => rfl, nofun, .refl _ _ _⟩
  case lof =>
    refine completes_of_up (f := fun s => s.onSdhLane l.val fun s => s.sdhLofDeclare l.val) hup rfl ?_
    have hshape : s.sdhLofDeclare l.val = if oof && long then s.ltmCondition l.val ltmLof true else s := hwhen _
    rw [State.onSdhLane, hshape]
    exact hcase (oof && long) true (by decide)
  case lofClear =>
    refine completes_of_up (f := fun s => s.onSdhLane l.val fun s => s.sdhLofClear l.val) hup rfl ?_
    have hshape : s.sdhLofClear l.val = if !oof && long then s.ltmCondition l.val ltmLof false else s := hwhen _
    rw [State.onSdhLane, hshape]
    exact hcase (!oof && long) false (by decide)
  case msAis =>
    intro present
    refine completes_of_up (f := fun s => s.onSdhLane l.val fun s => s.msAisChange l.val present) hup rfl ?_
    have hshape : s.msAisChange l.val present =
        if !s.ltm l.val ltmLos && !oof && !s.ltm l.val ltmLof then s.ltmCondition l.val ltmMsAis present else s :=
      hwhen _
    rw [State.onSdhLane, hshape]
    exact hcase _ present (by decide)

end Sys2Proof
end

section
/-! SUPPORT. Accepted traces and the overhead of an AU: the trace in its table, a field of LTM_AU_STAT with its bit in
the paths, and the statement about accepted overhead. -/

namespace Sys2Proof.Machine

variable (s : State) {regs : Nat → Bool}

/-! ### Runs of octets -/

theorem byte_putBytes (l : List Octet) : ∀ (s : State) (a x : Nat), (s.putBytes a l).byte x =
    if a ≤ x ∧ x < a + l.length then l.getD (x - a) 0 else s.byte x := by
  induction l with
  | nil =>
    intro s a x
    exact (if_neg (by simp)).symm
  | cons v l ih =>
    intro s a x
    rw [State.putBytes, ih, byte_putByte, List.length_cons]
    by_cases hx : a = x
    · subst hx
      rw [if_neg (by omega), if_pos rfl, if_pos (by omega), Nat.sub_self]
      rfl
    · rw [if_neg hx]
      by_cases hin : a + 1 ≤ x ∧ x < a + 1 + l.length
      · rw [if_pos hin, if_pos (by omega), show x - a = (x - (a + 1)) + 1 by omega]
        rfl
      · rw [if_neg hin, if_neg (by omega)]

theorem bytes_putBytes_self (a : Nat) (l : List Octet) : (s.putBytes a l).bytes a l.length = l := by
  refine List.ext_getElem (by simp [State.bytes]) fun i _ hi => ?_
  simp [State.bytes, byte_putBytes, hi]

variable {s} in
theorem bytes_congr {t : State} {a n : Nat} (h : ∀ x, a ≤ x → x < a + n → t.byte x = s.byte x) :
    t.bytes a n = s.bytes a n :=
  List.map_congr_left fun i hi => h _ (by omega) (by have := List.mem_range.1 hi; omega)

theorem putBytes_rest (l : List Octet) : ∀ (s : State) (a : Nat),
    s.putBytes a l = { s with mem := (s.putBytes a l).mem } := by
  induction l with
  | nil => exact fun _ _ => rfl
  | cons v l ih => exact fun s a => ih (s.putByte a v) (a + 1)

theorem frame_putBytes (a : Nat) (l : List Octet) : Frame s (s.putBytes a l) regs (bytesAt a l.length) where
  reg := fun _ _ _ => by rw [putBytes_rest]; rfl
  byte := fun x hx => by
    rw [byte_putBytes, if_neg fun h => ?_]
    rw [bytesAt, decide_eq_true h.1, decide_eq_true h.2] at hx
    cases hx
  tone := by rw [putBytes_rest]
  clock := by rw [putBytes_rest]
  otp := by rw [putBytes_rest]
  pending := by rw [putBytes_rest]

/-! ### Traces (R62, R74) -/

theorem length_traceEntry (n : Nat) (tr : List Octet) : (traceEntry n tr).length = n := by
  simp [traceEntry]

/-- A trace that is accepted stands in its table. -/
structure TraceTaken (s t : State) (a : Nat) (tr : List Octet) : Prop where
  bytes : t.bytes a tr.length = tr
  frame : Frame s t (theseRegs []) (bytesAt a tr.length)
  paths : t.paths = s.paths

theorem traceTaken_acceptTrace (a : Nat) (tr : List Octet) (w1 w2 : Nat) :
    TraceTaken s (s.acceptTrace a tr w1 w2) a tr := by
  unfold State.acceptTrace
  split
  · next h => exact ⟨h, .refl _ _ _, rfl⟩
  · have hraise : Frame (s.putBytes a tr) ((s.putBytes a tr).raise Ev.traceChange w1 w2) (theseRegs []) noBytes :=
      frame_raise ..
    have hpaths : ((s.putBytes a tr).raise Ev.traceChange w1 w2).paths = (s.putBytes a tr).paths :=
      congrArg Works.paths (works_raise ..)
    refine ⟨?_, (frame_putBytes s a tr).trans (hraise.mono (fun _ => id) fun _ h => by cases h), ?_⟩
    · rw [bytes_congr fun x _ _ => hraise.byte x rfl]
      exact bytes_putBytes_self s a tr
    · rw [hpaths, putBytes_rest]

/-! ### The overhead of an AU (R71, R83) -/

theorem ltmRegs_auStat {l n : Nat} (hn : n < 64) : ltmRegs l (Reg.ltmAuStat l n) = true :=
  regsOf_true.2 (by simp only [Reg.ltmAuStat]; omega)

theorem apsRegs_apart_ltm {l a : Nat} (hl : l < 48) (h : ltmRegs l a = true) : apsRegs a = false := by
  simp only [ltmRegs, regsOf_true] at h
  rw [← Bool.not_eq_true, apsRegs, regsOf_true]
  omega

variable {s} in
/-- A change of registers of one line termination reaches no protection group. -/
theorem apsKept_of_ltm {t : State} {l : Nat} {rs : List Nat} {bytes : Nat → Bool} (hl : l < 48)
    (h : Frame s t (theseRegs rs) bytes) (hrs : ∀ a ∈ rs, ltmRegs l a = true) : ApsKept s t := fun a ha =>
  h.reg a (Bool.eq_false_iff.2 fun e => by
    have := apsRegs_apart_ltm hl (hrs a (theseRegs_true.1 e))
    rw [ha] at this
    cases this) (condRegs_apart (by rw [condRegs, ha, Bool.or_true])).2

/-- A defect of the overhead of an AU: its field `f` of LTM_AU_STAT, and bit `b` of word 3 of the paths on the AU. -/
structure HpSet (s t : State) (l n : Nat) (f : Fld) (b : Nat) (on : Bool) : Prop where
  flag  : t.flag f = on
  bits  : ∀ p ∈ s.auPaths l n, bit (t.pathWord p 3) b = on
  fget  : ∀ g : Fld, f.hi < g.lo ∨ g.hi < f.lo → t.fget g = s.fget g
  frame : Frame s t (theseRegs [Reg.ltmAuStat l n]) pathStatus

theorem hpSet_hpDefect {l n b : Nat} {f : Fld} (hl : l < 48) (hn : n < 64) (hf : f.reg = Reg.ltmAuStat l n)
    (hw : f.Within) (h1 : f.hi = f.lo) (hb : b < 31) (on : Bool) : HpSet s (s.hpDefect l n f b on) l n f b on := by
  have hbit : Frame s (s.fbit f on) (theseRegs [Reg.ltmAuStat l n]) noBytes :=
    frame_fbit s f on (.inl (theseRegs_true.2 (by simp [hf])))
  have hpaths : (s.fbit f on).auPaths l n = s.auPaths l n :=
    (apsKept_of_ltm hl hbit (by simpa using ltmRegs_auStat hn)).auPaths rfl l n
  have hmon := auPaths_monitored (s.fbit f on) l n
  have hflag := flag_fbit_self s on hw h1
  have hfget := fun (g : Fld) hd => fget_fbit_apart s (g := g) on hw hd
  unfold State.hpDefect
  rw [hpaths] at hmon
  generalize s.fbit f on = u at hbit hmon hflag hfget ⊢
  have hmark := pathsMarked_setDefects b on (s.auPaths l n) u fun p hp => (hmon p hp).1
  exact {
    flag := by rw [State.flag, State.fget, hmark.rd, ← State.fget, ← State.flag, hflag]
    bits := bit_setDefects_mem hb on _ u hmon
    fget := fun g hd => by rw [State.fget, hmark.rd, ← State.fget, hfget g hd]
    frame := (hbit.mono (fun _ => id) fun _ h => by cases h).trans (hmark.frame.mono (fun _ h => by cases h) fun _ => id) }

theorem whenHp_of_paths {l n : Nat} (hsdh : s.isSdh l = true) (h : s.auPaths l n ≠ []) (f : State → State) :
    s.whenHp l n f = f s := if_pos (by rw [hsdh, Bool.true_and, Bool.not_eq_true', List.isEmpty_eq_false_iff]; exact h)

theorem whenHp_of_none {l n : Nat} (h : s.auPaths l n = []) (f : State → State) : s.whenHp l n f = s :=
  if_neg (by rw [h]; simp)

end Sys2Proof.Machine
end

section
/-! SUPPORT. The statement about the accepted overhead of the section and of the paths of an SDH lane. -/

namespace Sys2Proof

open Machine

variable {s t : State} {l n : Nat}

/-- J0 and RS-TIM where the section overhead is readable. -/
theorem j0Accepted (hl : l < 48) (hsdh : s.isSdh l = true) (hheld : s.sohHeld l = false) (trace : List Octet) :
    let len := if s.flag (F.ltmCfg_j0Len64 l) then 64 else 16
    let tr := traceEntry len trace
    (s.j0Accept l trace).bytes (0x1901000 + 64 * l) len = tr ∧
      (s.j0Accept l trace).ltm l ltmRsTim =
        (s.flag (F.ltmCfg_j0TimEn l) && s.bytes (0x1900000 + 64 * l) len ≠ tr) ∧
      Frame s (s.j0Accept l trace) (theseRegs [Reg.ltmStat l, Reg.ltmSticky l])
        (bytesAt (0x1901000 + 64 * l) len) := by
  intro len tr
  have hlen : len ≤ 64 := by
    unfold len
    split <;> decide
  have htr : tr.length = len := length_traceEntry len trace
  have htake := traceTaken_acceptTrace s (0x1901000 + 64 * l) tr l 0
  have hshape : s.j0Accept l trace =
      let u := s.acceptTrace (0x1901000 + 64 * l) tr l 0
      u.ltmSet l ltmRsTim (u.flag (F.ltmCfg_j0TimEn l) && u.bytes (0x1900000 + 64 * l) len ≠ tr) := by
    unfold State.j0Accept State.whenSdh
    rw [if_pos hsdh]
    exact if_neg (Bool.eq_false_iff.1 hheld)
  rw [hshape]
  generalize s.acceptTrace (0x1901000 + 64 * l) tr l 0 = u at htake ⊢
  obtain ⟨hbytes, hframe, -⟩ := htake
  rw [htr] at hbytes hframe
  have hexpected : u.bytes (0x1900000 + 64 * l) len = s.bytes (0x1900000 + 64 * l) len :=
    bytes_congr fun x hlo hhi => hframe.byte x (by
      rw [← Bool.not_eq_true, bytesAt, Bool.and_eq_true, decide_eq_true_eq, decide_eq_true_eq]
      omega)
  have henabled : u.flag (F.ltmCfg_j0TimEn l) = s.flag (F.ltmCfg_j0TimEn l) := hframe.flag rfl
    (ltm_apart hl (regsOf_true.2 (by simp only [Reg.ltmCfg]; omega))).2
  dsimp only
  rw [hexpected, henabled]
  have hset := (aside_ltmSet u l ltmRsTim
    (s.flag (F.ltmCfg_j0TimEn l) && s.bytes (0x1900000 + 64 * l) len ≠ tr)).frame
  refine ⟨?_, ltm_ltmSet_self u hl (by decide) _, ?_⟩
  · rw [bytes_congr fun x _ _ => hset.byte x rfl, hbytes]
  · exact (hframe.mono (fun _ h => by cases h) fun _ => id).trans (hset.mono (fun _ => id) fun _ h => by cases h)

/-- S1 where the section overhead is readable. -/
theorem s1Accepted (hsdh : s.isSdh l = true) (hheld : s.sohHeld l = false) (v : BitVec 4) :
    (s.s1Accept l v.toNat).fget (F.ltmOhRx_s1 l) = v.toNat ∧
      (s.s1Accept l v.toNat).flag (F.ltmOhRx_s1Valid l) = true ∧
      (s.s1Accept l v.toNat).fget (F.ltmOhRx_k1 l) = s.fget (F.ltmOhRx_k1 l) ∧
      (s.s1Accept l v.toNat).fget (F.ltmOhRx_k2 l) = s.fget (F.ltmOhRx_k2 l) ∧
      Frame s (s.s1Accept l v.toNat) (theseRegs [Reg.ltmOhRx l]) noBytes := by
  have hshape : s.s1Accept l v.toNat =
      (s.fset (F.ltmOhRx_s1 l) v.toNat).fbit (F.ltmOhRx_s1Valid l) true := by
    unfold State.s1Accept State.whenSdh
    rw [if_pos hsdh]
    exact if_neg (Bool.eq_false_iff.1 hheld)
  have hreg : theseRegs [Reg.ltmOhRx l] (Reg.ltmOhRx l) = true := theseRegs_true.2 (by simp)
  have hkeeps : ∀ g : Fld, 15 < g.lo →
      ((s.fset (F.ltmOhRx_s1 l) v.toNat).fbit (F.ltmOhRx_s1Valid l) true).fget g = s.fget g := fun g hg => by
    rw [fget_fbit_apart _ _ ⟨by simp, by simp⟩ (.inl (by simp; omega)),
      fget_fset_apart _ _ ⟨by simp, by simp⟩ (.inl (by simpa using hg))]
  rw [hshape]
  refine ⟨?_, flag_fbit_self _ true ⟨by simp, by simp⟩ rfl, hkeeps _ (by simp), hkeeps _ (by simp),
    (frame_fset s _ _ (.inl hreg)).trans (frame_fbit _ _ _ (.inl hreg))⟩
  rw [fget_fbit_apart _ _ ⟨by simp, by simp⟩ (.inl (by simp)), fget_fset_self _ _ ⟨by simp, by simp⟩]
  exact Nat.mod_eq_of_lt v.isLt

/-- What an accepted C2 makes of HP-PLM: it is set, cleared, or kept (R71). -/
def plmOf (c2 e : Nat) (was : Bool) : Bool :=
  if ¬(c2 = e ∨ e = 1 ∧ c2 ≠ 0) ∧ c2 ≠ 0 ∧ e ≠ 0 then true
  else if c2 = e ∨ e = 1 ∧ c2 ≠ 0 then false else was

/-- C2 and HP-PLM on an AU with a monitored path. -/
structure C2Taken (s t : State) (l n c2 : Nat) : Prop where
  accepted : t.fget (F.ltmAuStat_c2Acc l n) = c2
  flag     : t.flag (F.ltmAuStat_hpPlm l n) = plmOf c2 (bits (s.auCfg l n) 10 3) (s.flag (F.ltmAuStat_hpPlm l n))
  bits     : ∀ p ∈ s.auPaths l n, bit (t.pathWord p 3) 26 =
    plmOf c2 (bits (s.auCfg l n) 10 3) (bit (s.pathWord p 3) 26)
  ptrState : t.ptrState l n = s.ptrState l n
  frame    : Frame s t (theseRegs [Reg.ltmAuStat l n]) pathStatus

/-- C2 is stored, and HP-PLM judged on the state that holds it. -/
theorem c2Accept_of_paths (hsdh : s.isSdh l = true) (hpaths : s.auPaths l n ≠ []) (c2 : Nat) :
    s.c2Accept l n c2 =
      let u := s.fset (F.ltmAuStat_c2Acc l n) c2
      let e := bits (s.auCfg l n) 10 3
      if c2 = e ∨ e = 1 ∧ c2 ≠ 0 then u.hpDefect l n (F.ltmAuStat_hpPlm l n) 26 false
      else if c2 ≠ 0 ∧ e ≠ 0 then u.hpDefect l n (F.ltmAuStat_hpPlm l n) 26 true
      else u := by
  unfold State.c2Accept
  rw [whenHp_of_paths s hsdh hpaths]
  simp only [Bool.or_eq_true, Bool.and_eq_true, decide_eq_true_eq]
  rfl

theorem c2Taken (hl : l < 48) (hn : n < 64) (hsdh : s.isSdh l = true) (hpaths : s.auPaths l n ≠ []) {c2 : Nat}
    (hc2 : c2 < 256) : C2Taken s (s.c2Accept l n c2) l n c2 := by
  have hstored : Frame s (s.fset (F.ltmAuStat_c2Acc l n) c2) (theseRegs [Reg.ltmAuStat l n]) noBytes :=
    frame_fset s _ _ (.inl (theseRegs_true.2 (by simp)))
  have haccepted : (s.fset (F.ltmAuStat_c2Acc l n) c2).fget (F.ltmAuStat_c2Acc l n) = c2 := by
    rw [fget_fset_self _ _ ⟨by simp, by simp⟩]
    exact Nat.mod_eq_of_lt hc2
  have hfget : ∀ g : Fld, 13 < g.lo → (s.fset (F.ltmAuStat_c2Acc l n) c2).fget g = s.fget g := fun g hg =>
    fget_fset_apart s _ ⟨by simp, by simp⟩ (.inl hg)
  have hauPaths : (s.fset (F.ltmAuStat_c2Acc l n) c2).auPaths l n = s.auPaths l n :=
    (apsKept_of_ltm hl hstored (by simpa using ltmRegs_auStat hn)).auPaths rfl l n
  have hword : ∀ p, (s.fset (F.ltmAuStat_c2Acc l n) c2).pathWord p 3 = s.pathWord p 3 := fun p =>
    pathWord_congr s (State.fset_mem ..) p 3
  rw [c2Accept_of_paths hsdh hpaths]
  generalize s.fset (F.ltmAuStat_c2Acc l n) c2 = u at hstored haccepted hfget hauPaths hword ⊢
  have hwiden : Frame s u (theseRegs [Reg.ltmAuStat l n]) pathStatus :=
    hstored.mono (fun _ => id) fun _ h => by cases h
  have hset : ∀ on, (∀ was, plmOf c2 (bits (s.auCfg l n) 10 3) was = on) →
      C2Taken s (u.hpDefect l n (F.ltmAuStat_hpPlm l n) 26 on) l n c2 := fun on hon => by
    have h := hpSet_hpDefect u (f := F.ltmAuStat_hpPlm l n) hl hn rfl ⟨by simp, by simp⟩ rfl (b := 26) (by decide) on
    exact {
      accepted := (h.fget _ (.inr (by simp))).trans haccepted
      flag := h.flag.trans (hon _).symm
      bits := fun p hp => (h.bits p (by rw [hauPaths]; exact hp)).trans (hon _).symm
      ptrState := (h.fget _ (.inl (by simp))).trans (hfget _ (by simp))
      frame := hwiden.trans h.frame }
  dsimp only
  split_ifs with hclears hsets
  · exact hset false fun was => by rw [plmOf, if_neg fun h => h.1 hclears, if_pos hclears]
  · exact hset true fun was => if_pos ⟨hclears, hsets⟩
  · have hkeep : ∀ was, plmOf c2 (bits (s.auCfg l n) 10 3) was = was := fun was => by
      rw [plmOf, if_neg fun h => hsets h.2, if_neg hclears]
    exact {
      accepted := haccepted
      flag := by rw [hkeep, State.flag, State.flag, hfget _ (by simp)]
      bits := fun p _ => by rw [hkeep, hword]
      ptrState := hfget _ (by simp)
      frame := hwiden }

/-- J1 and HP-TIM on an AU with a monitored path. -/
theorem j1Accepted (hl : l < 48) (hn : n < 64) (hsdh : s.isSdh l = true) (hpaths : s.auPaths l n ≠ [])
    (trace : List Octet) :
    let k := 64 * (64 * l + n)
    let len := if bit (s.auCfg l n) 2 then 64 else 16
    let tr := traceEntry len trace
    let tim := decide (s.bytes (0x1910000 + k) len ≠ tr)
    (s.j1Accept l n trace).bytes (0x1940000 + k) len = tr ∧
      (s.j1Accept l n trace).flag (F.ltmAuStat_hpTim l n) = tim ∧
      (∀ p ∈ s.auPaths l n, bit ((s.j1Accept l n trace).pathWord p 3) 28 = tim) ∧
      Frame s (s.j1Accept l n trace) (theseRegs [Reg.ltmAuStat l n])
        (orAt pathStatus (bytesAt (0x1940000 + k) len)) := by
  intro k len tr tim
  have hlen : len ≤ 64 := by
    unfold len
    split <;> decide
  have htr : tr.length = len := length_traceEntry len trace
  have htake := traceTaken_acceptTrace s (0x1940000 + k) tr l n
  have hshape : s.j1Accept l n trace =
      let u := s.acceptTrace (0x1940000 + k) tr l n
      u.hpDefect l n (F.ltmAuStat_hpTim l n) 28 (u.bytes (0x1910000 + k) len ≠ tr) :=
    whenHp_of_paths s hsdh hpaths _
  rw [hshape]
  generalize s.acceptTrace (0x1940000 + k) tr l n = u at htake ⊢
  obtain ⟨hbytes, hframe, hsame⟩ := htake
  rw [htr] at hbytes hframe
  have hk : k = 64 * (64 * l + n) := rfl
  have hexpected : u.bytes (0x1910000 + k) len = s.bytes (0x1910000 + k) len :=
    bytes_congr fun x hlo hhi => hframe.byte x (by
      rw [← Bool.not_eq_true, bytesAt, Bool.and_eq_true, decide_eq_true_eq, decide_eq_true_eq]
      omega)
  have hauPaths : u.auPaths l n = s.auPaths l n := (apsKept_of_ltm hl hframe (by simp)).auPaths hsame l n
  dsimp only
  rw [hexpected]
  have hset := hpSet_hpDefect u (f := F.ltmAuStat_hpTim l n) hl hn rfl ⟨by simp, by simp⟩ rfl (b := 28) (by decide) tim
  refine ⟨?_, hset.flag, hauPaths ▸ hset.bits, ?_⟩
  · rw [bytes_congr fun x hlo hhi => hset.frame.byte x (by
      rw [← Bool.not_eq_true, pathStatus]
      simp only [Bool.and_eq_true, decide_eq_true_eq]
      omega), hbytes]
  · exact (hframe.mono (fun _ h => by cases h) fun _ h => orAt_true.2 (.inr h)).trans
      (hset.frame.mono (fun _ => id) fun _ h => orAt_true.2 (.inl h))

/-- Settles O3: each accepted value is stored first, and the defect that follows from it is judged on the state that
holds it, of which neither the expected value nor the paths have changed. -/
theorem sdhOverheadAccepted : Obligations.SdhOverheadAccepted := by
  intro l n s hup hsdh
  have hl : l.val < 48 := l.isLt
  have hn : n.toNat < 64 := n.isLt
  have hwhen : ∀ f : State → State, s.whenSdh l.val f = f s := fun f => if_pos hsdh
  refine ⟨?j0, ?s1, ?c2, ?j1⟩
  case j0 =>
    intro trace
    refine completes_of_up (f := fun s => s.j0Accept l.val trace) hup rfl ?_
    split
    · next h => exact (hwhen _).trans (if_pos h)
    · next h => exact j0Accepted hl hsdh (Bool.eq_false_iff.2 h) trace
  case s1 =>
    intro v
    refine completes_of_up (f := fun s => s.s1Accept l.val v.toNat) hup rfl ?_
    split
    · next h => exact (hwhen _).trans (if_pos h)
    · next h => exact s1Accepted hsdh (Bool.eq_false_iff.2 h) v
  case c2 =>
    intro c2
    refine completes_of_up (f := fun s => s.c2Accept l.val n.toNat c2.toNat) hup rfl ?_
    split
    · next h => exact whenHp_of_none s h _
    · next h =>
      have htaken := c2Taken hl hn hsdh h c2.isLt
      exact ⟨htaken.accepted, htaken.flag, htaken.bits, htaken.ptrState, htaken.frame⟩
  case j1 =>
    intro trace
    refine completes_of_up (f := fun s => s.j1Accept l.val n.toNat trace) hup rfl ?_
    split
    · next h => exact whenHp_of_none s h _
    · next h => exact j1Accepted hl hn hsdh h trace

end Sys2Proof
end

section
/-! SUPPORT. Lower-order paths of an SDH lane: lop under LOM, and the statement about path defects. -/

namespace Sys2Proof.Machine

variable {s t : State} {p q l n : Nat}

/-! ### Paths on an AU (R71, R72) -/

theorem ApsKept.loPaths (h : ApsKept s t) (hp : t.paths = s.paths) (l n : Nat) : t.loPaths l n = s.loPaths l n := by
  rw [State.loPaths, State.loPaths, h.pathsFrom hp]
  exact List.filter_congr fun p _ => by rw [path_congr hp]

theorem loPaths_monitored : ∀ p ∈ s.loPaths l n, p < 262144 ∧ s.monitored p := by
  intro p hp
  obtain ⟨hfrom, hcond⟩ := List.mem_filter.1 hp
  refine ⟨pathsFrom_lt s l p hfrom, ?_⟩
  cases hentry : (s.path p).entry with
  | none =>
    rw [hentry] at hcond
    cases hcond
  | some e =>
    rw [hentry] at hcond
    simp only [Bool.and_eq_true] at hcond
    exact ⟨e.1, e.2.1, e.2.2, hentry, hcond.1.1.1⟩

/-- A live lower-order path is monitored. -/
theorem monitored_of_loLive (h : s.loLive p = true) : s.monitored p := by
  unfold State.loLive at h
  cases hentry : (s.path p).entry with
  | none =>
    rw [hentry] at h
    cases h
  | some e =>
    rw [hentry] at h
    simp only [Bool.and_eq_true] at h
    exact ⟨e.1, e.2.1, e.2.2, hentry, h.1.1.1.1.1⟩

theorem au_onAu_self (s : State) (l n : Nat) (f : AuSt → AuSt) : (s.onAu l n f).au l n = f (s.au l n) := by
  simp [State.au]

/-! ### lop and the LOM of the AU (R72) -/

/-- What lop of a TU-2, TU-12 or TU-11 path is to be. -/
def State.lopNow (s : State) (p : Nat) : Bool := (s.path p).tu = 2 || s.pathLom p

theorem pathLom_congr (hentry : (t.path p).entry = (s.path p).entry) (haus : t.aus = s.aus) (haps : ApsKept s t) :
    t.pathLom p = s.pathLom p := by
  unfold State.pathLom
  rw [hentry]
  cases (s.path p).entry with
  | none => rfl
  | some e =>
    dsimp only
    rw [haps.servedBy, State.au, State.au, haus]

theorem lopNow_of_marked (h : PathsMarked s t) (p : Nat) : t.lopNow p = s.lopNow p := by
  obtain ⟨m, hm⟩ := h.path p
  rw [State.lopNow, State.lopNow, pathLom_congr (h.entry p) h.aus (condKept_of_marked h).aps, hm]

theorem lopShown_of_bit (h : bit (s.pathWord p 3) 29 = s.lopNow p) : s.lopShown p = true := by
  unfold State.lopShown
  cases (s.path p).entry with
  | none => rfl
  | some e =>
    dsimp only
    rw [h, State.lopNow, decide_eq_true rfl, Bool.or_true]

/-- lop of each path of a list is right once it has been set. -/
theorem lop_lomPaths : ∀ (ps : List Nat) (s : State), (∀ p ∈ ps, p < 262144 ∧ s.monitored p) →
    PathsMarked s (s.lomPaths ps) ∧
      ∀ q, s.monitored q → q ∈ ps ∨ bit (s.pathWord q 3) 29 = s.lopNow q →
        bit ((s.lomPaths ps).pathWord q 3) 29 = s.lopNow q
  | [], s, _ => ⟨.refl s, fun q _ h => h.resolve_left (by simp)⟩
  | p :: ps, s, h => by
    obtain ⟨hp, hmon⟩ := h p (by simp)
    have hmark := pathsMarked_setDefect s hp 29 (s.lopNow p)
    obtain ⟨hrest, hset⟩ := lop_lomPaths ps (s.setDefect p 29 (s.lopNow p)) fun q hq =>
      (h q (by simp [hq])).imp_right (monitored_of_marked hmark)
    refine ⟨hmark.trans hrest, fun q hq hcase => ?_⟩
    rw [← lopNow_of_marked hmark q]
    refine hset q (monitored_of_marked hmark hq) ?_
    rw [lopNow_of_marked hmark q]
    by_cases hpq : p = q
    · subst hpq
      exact .inr (bit_setDefect_self s (by decide) _ hmon)
    · rcases hcase with hmem | hbit
      · exact .inl ((List.mem_cons.1 hmem).resolve_left (Ne.symm hpq))
      · exact .inr (by rw [pathWord_setDefect_other s 29 _ (by decide) hpq, hbit])

/-- The TU-2, TU-12 and TU-11 paths among those on an AU. -/
def State.lomListed (s : State) (l n : Nat) : List Nat :=
  (s.loPaths l n).filter fun p =>
    match (s.path p).entry with
    | some (w0, _, _) => bits w0 30 27 ≠ 4
    | none => false

theorem lomChange_of_runs {on : Bool} (hsdh : s.isSdh l = true) (hdefect : s.laneDefect l = false)
    (hptr : s.ptrState l n = 0) :
    s.lomChange l n on =
      let u := s.onAu l n fun x => { x with lom := on }
      u.lomPaths (u.lomListed l n) :=
  if_pos (by rw [hsdh, hdefect, hptr]; rfl)

/-- LOM is set, and lop of the paths on the AU follows. -/
theorem lomChanged (on : Bool) (hsdh : s.isSdh l = true) (hdefect : s.laneDefect l = false) (hptr : s.ptrState l n = 0) :
    ((s.lomChange l n on).au l n).lom = on ∧ (∀ p ∈ s.loPaths l n, (s.lomChange l n on).lopShown p = true) ∧
      Frame s (s.lomChange l n on) (theseRegs []) pathStatus := by
  rw [lomChange_of_runs hsdh hdefect hptr]
  have hhidden : Frame s (s.onAu l n fun x => { x with lom := on }) (theseRegs []) pathStatus :=
    .of_hidden ⟨rfl, rfl, rfl, rfl, rfl⟩ rfl
  have hpaths : (s.onAu l n fun x => { x with lom := on }).loPaths l n = s.loPaths l n :=
    (condKept_of_regs (State.onAu_regs ..)).aps.loPaths rfl l n
  have hlom : ((s.onAu l n fun x => { x with lom := on }).au l n).lom = on := by rw [au_onAu_self]
  dsimp only
  generalize (s.onAu l n fun x => { x with lom := on }) = u at hhidden hpaths hlom ⊢
  obtain ⟨hmark, hset⟩ := lop_lomPaths (u.lomListed l n) u fun p hp => loPaths_monitored p (List.mem_of_mem_filter hp)
  refine ⟨by rw [State.au, hmark.aus]; exact hlom, fun p hp => ?_, hhidden.trans hmark.frame⟩
  rw [← hpaths] at hp
  by_cases hlisted : p ∈ u.lomListed l n
  · refine lopShown_of_bit ?_
    rw [hset p (loPaths_monitored p hp).2 (.inl hlisted), lopNow_of_marked hmark]
  · obtain ⟨-, w0, w1, w2, hentry, -⟩ := loPaths_monitored p hp
    have htyp : bits w0 30 27 = 4 := by
      by_contra hne
      refine hlisted (List.mem_filter.2 ⟨hp, ?_⟩)
      rw [hentry]
      exact decide_eq_true hne
    unfold State.lopShown
    rw [hmark.entry, hentry]
    dsimp only
    rw [decide_eq_true htyp, Bool.true_or]

/-! ### Tables behind the path table -/

/-- Words of the path table whose bytes stay. -/
theorem pathWord_of_bytes {j : Nat} (h : ∀ x, x < 0x1800000 → t.byte x = s.byte x) (hp : p < 262144) (hj : j < 8) :
    t.pathWord p j = s.pathWord p j := by
  unfold State.pathWord State.memWord pathAddr
  rw [h _ (by omega), h _ (by omega), h _ (by omega), h _ (by omega)]

theorem pathStatus_behind {x : Nat} (h : 0x1800000 ≤ x) : pathStatus x = false := by
  rw [← Bool.not_eq_true, pathStatus]
  simp only [Bool.and_eq_true, decide_eq_true_eq]
  omega

theorem bytesAt_out {a m x : Nat} (h : x < a ∨ a + m ≤ x) : bytesAt a m x = false := by
  rw [← Bool.not_eq_true, bytesAt, Bool.and_eq_true, decide_eq_true_eq, decide_eq_true_eq]
  omega

theorem monitored_congr (h : t.paths = s.paths) (hmon : s.monitored p) : t.monitored p := by
  unfold State.monitored
  rw [path_congr h]
  exact hmon

/-! ### Defects of a lower-order path (R72, R74) -/

/-- The interpreter of a live path enters a state. -/
theorem tuChanged (hp : p < 262144) (hlive : s.loLive p = true) (st : BitVec 2) (hst : st.toNat ≤ 2) :
    ((s.tuPath p st.toNat).path p).tu = st ∧
      bit ((s.tuPath p st.toNat).pathWord p 3) 30 = decide (st.toNat = 1) ∧
      bit ((s.tuPath p st.toNat).pathWord p 3) 29 = (decide (st.toNat = 2) || s.pathLom p) ∧
      Frame s (s.tuPath p st.toNat) (theseRegs []) pathStatus := by
  have hshape : s.tuPath p st.toNat =
      let u := s.onPath p fun x => { x with tu := BitVec.ofNat 2 st.toNat }
      (u.setDefect p 30 (st.toNat = 1)).setDefect p 29 (st.toNat = 2 || u.pathLom p) :=
    if_pos (by rw [hlive, decide_eq_true hst]; rfl)
  have hhidden : Frame s (s.onPath p fun x => { x with tu := BitVec.ofNat 2 st.toNat }) (theseRegs []) pathStatus :=
    .of_hidden ⟨rfl, rfl, rfl, rfl, rfl⟩ rfl
  have hpath := path_onPath_self s p fun x => { x with tu := BitVec.ofNat 2 st.toNat }
  have hlom : (s.onPath p fun x => { x with tu := BitVec.ofNat 2 st.toNat }).pathLom p = s.pathLom p :=
    pathLom_congr (by rw [hpath]) rfl (condKept_of_regs (State.onPath_regs ..)).aps
  rw [hshape]
  dsimp only
  rw [hlom]
  generalize (s.onPath p fun x => { x with tu := BitVec.ofNat 2 st.toNat }) = u at hhidden hpath ⊢
  have hmon : u.monitored p := by
    obtain ⟨w0, w1, w2, hentry, hbit⟩ := monitored_of_loLive hlive
    exact ⟨w0, w1, w2, by rw [hpath]; exact hentry, hbit⟩
  have hais := pathsMarked_setDefect u hp 30 (st.toNat = 1)
  have hlop := pathsMarked_setDefect (u.setDefect p 30 (st.toNat = 1)) hp 29 (st.toNat = 2 || s.pathLom p)
  refine ⟨?_, ?_, bit_setDefect_self _ (by decide) _ (monitored_of_marked hais hmon),
    (hhidden.trans hais.frame).trans hlop.frame⟩
  · obtain ⟨m, hm⟩ := (hais.trans hlop).path p
    rw [hm, hpath]
    simp
  · rw [bit_setDefect_ne _ (by decide) _ (by decide) (by decide), bit_setDefect_self u (by decide) _ hmon]

/-- The label of a live path that has an entry in the tables of labels. -/
theorem labelTaken (hp : p < 4096) (hlive : s.loLive p = true) (label : Octet) :
    let e := s.byte (0x19A0000 + 32 * p + 16)
    bit ((s.lpLabelAccept p label).pathWord p 3) 27 = decide (label = 0) ∧
      (s.lpLabelAccept p label).byte (0x19C0000 + 32 * p + 16) = label ∧
      bit ((s.lpLabelAccept p label).pathWord p 3) 26 = !(label = e || (e = 1 && label ≠ 0)) ∧
      Frame s (s.lpLabelAccept p label) (theseRegs []) (orAt pathStatus (bytesAt (0x19C0000 + 32 * p + 16) 1)) := by
  intro e
  have hp' : p < 262144 := by omega
  have hmon := monitored_of_loLive hlive
  have hshape : s.lpLabelAccept p label =
      let u := (s.setDefect p 27 (label = 0)).putByte (0x19C0000 + 32 * p + 16) label
      u.setDefect p 26 (!(label = u.byte (0x19A0000 + 32 * p + 16) ||
        (u.byte (0x19A0000 + 32 * p + 16) = 1 && label ≠ 0))) := by
    unfold State.lpLabelAccept
    rw [if_pos hlive]
    exact if_pos hp
  have huneq := pathsMarked_setDefect s hp' 27 (label = 0)
  have hbit := bit_setDefect_self s (b := 27) (by decide) (label = 0) hmon
  have hmon' := monitored_of_marked huneq hmon
  rw [hshape]
  generalize s.setDefect p 27 (label = 0) = v at huneq hbit hmon' ⊢
  have hput : Frame v (v.putByte (0x19C0000 + 32 * p + 16) label) (theseRegs [])
      (bytesAt (0x19C0000 + 32 * p + 16) 1) :=
    frame_putByte v _ _ (by simp [bytesAt])
  have hself : (v.putByte (0x19C0000 + 32 * p + 16) label).byte (0x19C0000 + 32 * p + 16) = label := by
    rw [byte_putByte, if_pos rfl]
  have hpaths : (v.putByte (0x19C0000 + 32 * p + 16) label).paths = v.paths := rfl
  generalize v.putByte (0x19C0000 + 32 * p + 16) label = u at hput hself hpaths ⊢
  have hexpected : u.byte (0x19A0000 + 32 * p + 16) = e := by
    rw [hput.byte _ (bytesAt_out (.inl (by omega))), huneq.byte _ (pathStatus_behind (by omega))]
  dsimp only
  rw [hexpected]
  have hplm := pathsMarked_setDefect u hp' 26 (!(label = e || (e = 1 && label ≠ 0)))
  refine ⟨?_, ?_, bit_setDefect_self u (by decide) _ (monitored_congr hpaths hmon'), ?_⟩
  · rw [bit_setDefect_ne u (by decide) _ (by decide) (by decide),
      pathWord_of_bytes (fun x hx => hput.byte x (bytesAt_out (.inl (by omega)))) hp' (by decide), hbit]
  · rw [hplm.byte _ (pathStatus_behind (by omega)), hself]
  · exact ((huneq.frame.mono (fun _ => id) fun _ h => orAt_true.2 (.inl h)).trans
      (hput.mono (fun _ => id) fun _ h => orAt_true.2 (.inr h))).trans
      (hplm.frame.mono (fun _ => id) fun _ h => orAt_true.2 (.inl h))

/-- The trace of a live path that has an entry in the tables of traces. -/
theorem j2Accepted (hp : p < 4096) (hlive : s.loLive p = true) (trace : List Octet) :
    (s.j2Accept p trace).bytes (0x19C0000 + 32 * p) 16 = traceEntry 16 trace ∧
      bit ((s.j2Accept p trace).pathWord p 3) 28 =
        decide (s.bytes (0x19A0000 + 32 * p) 16 ≠ traceEntry 16 trace) ∧
      Frame s (s.j2Accept p trace) (theseRegs []) (orAt pathStatus (bytesAt (0x19C0000 + 32 * p) 16)) := by
  have hp' : p < 262144 := by omega
  have htake := traceTaken_acceptTrace s (0x19C0000 + 32 * p) (traceEntry 16 trace) p 0
  have hshape : s.j2Accept p trace =
      let u := s.acceptTrace (0x19C0000 + 32 * p) (traceEntry 16 trace) p 0
      u.setDefect p 28 (u.bytes (0x19A0000 + 32 * p) 16 ≠ traceEntry 16 trace) :=
    if_pos (by rw [hlive, Bool.true_and]; exact decide_eq_true hp)
  rw [hshape]
  generalize s.acceptTrace (0x19C0000 + 32 * p) (traceEntry 16 trace) p 0 = u at htake ⊢
  obtain ⟨hbytes, hframe, hpaths⟩ := htake
  rw [length_traceEntry] at hbytes hframe
  have hexpected : u.bytes (0x19A0000 + 32 * p) 16 = s.bytes (0x19A0000 + 32 * p) 16 :=
    bytes_congr fun x hlo hhi => hframe.byte x (bytesAt_out (.inl (by omega)))
  dsimp only
  rw [hexpected]
  have htim := pathsMarked_setDefect u hp' 28 (s.bytes (0x19A0000 + 32 * p) 16 ≠ traceEntry 16 trace)
  refine ⟨?_, bit_setDefect_self u (by decide) _ (monitored_congr hpaths (monitored_of_loLive hlive)), ?_⟩
  · rw [bytes_congr fun x hlo _ => htim.byte x (pathStatus_behind (by omega)), hbytes]
  · exact (hframe.mono (fun _ => id) fun _ h => orAt_true.2 (.inr h)).trans
      (htim.frame.mono (fun _ => id) fun _ h => orAt_true.2 (.inl h))

end Sys2Proof.Machine

namespace Sys2Proof

open Machine

/-- Settles O4: a defect of the overhead of an AU goes through `State.hpDefect`, one of a path through
`State.setDefect`, and each sets its bit of word 3 and leaves the others. -/
theorem sdhPathDefects : Obligations.SdhPathDefects := by
  refine ⟨fun l n present s hup hsdh => ⟨?uneq, ?rdi, ?lom⟩, fun p s hup => ⟨?tu, ?lpRdi, ?label, ?j2⟩⟩
  case uneq =>
    refine completes_of_up (f := fun s => s.hpUneqChange l.val n.toNat present) hup rfl ?_
    split
    · next h => exact whenHp_of_none s h _
    · next h =>
      have hset := hpSet_hpDefect s (f := F.ltmAuStat_hpUneq l.val n.toNat) l.isLt n.isLt rfl ⟨by simp, by simp⟩ rfl
        (b := 27) (by decide) present
      rw [State.hpUneqChange, whenHp_of_paths s hsdh h]
      exact ⟨hset.flag, hset.bits, hset.frame⟩
  case rdi =>
    refine completes_of_up (f := fun s => s.hpRdiChange l.val n.toNat present) hup rfl ?_
    split
    · next h => exact whenHp_of_none s h _
    · next h =>
      have hset := hpSet_hpDefect s (f := F.ltmAuStat_hpRdi l.val n.toNat) l.isLt n.isLt rfl ⟨by simp, by simp⟩ rfl
        (b := 23) (by decide) present
      rw [State.hpRdiChange, whenHp_of_paths s hsdh h]
      exact ⟨hset.flag, hset.bits, hset.frame⟩
  case lom =>
    refine completes_of_up (f := fun s => s.lomChange l.val n.toNat present) hup rfl ?_
    split
    · next h =>
      refine if_neg fun hc => ?_
      simp only [Bool.and_eq_true, Bool.not_eq_true', decide_eq_true_eq] at hc
      rcases h with h | h
      · rw [hc.1.2] at h
        cases h
      · exact h hc.2
    · next h =>
      obtain ⟨hdefect, hptr⟩ := not_or.1 h
      exact lomChanged present hsdh (Bool.eq_false_iff.2 hdefect) (not_not.1 hptr)
  case tu =>
    intro st
    refine completes_of_up (f := fun s => s.tuPath p.toNat st.toNat) hup rfl ?_
    split
    · next h => exact tuChanged p.isLt h.1 st h.2
    · next h => exact if_neg (by simpa using h)
  case lpRdi =>
    intro present
    refine completes_of_up (f := fun s => s.lpRdiChange p.toNat present) hup rfl ?_
    split
    · next h =>
      rw [State.lpRdiChange, if_pos h]
      exact ⟨bit_setDefect_self s (by decide) present (monitored_of_loLive h),
        (pathsMarked_setDefect s p.isLt 23 present).frame⟩
    · next h => exact if_neg h
  case label =>
    intro label
    refine completes_of_up (f := fun s => s.lpLabelAccept p.toNat label) hup rfl ?_
    split
    · next h =>
      by_cases hp : p.toNat < 4096
      · obtain ⟨huneq, hstored, hplm, hframe⟩ := labelTaken hp h label
        exact ⟨huneq, fun _ => ⟨hstored, hplm⟩, by rw [if_pos hp]; exact hframe⟩
      · have hshape : s.lpLabelAccept p.toNat label = s.setDefect p.toNat 27 (label = 0) := by
          unfold State.lpLabelAccept
          rw [if_pos h]
          exact if_neg hp
        rw [hshape]
        exact ⟨bit_setDefect_self s (by decide) _ (monitored_of_loLive h), fun h' => (hp h').elim,
          (pathsMarked_setDefect s p.isLt 27 _).frame.mono (fun _ => id) fun _ h => orAt_true.2 (.inl h)⟩
    · next h => exact if_neg h
  case j2 =>
    intro trace
    refine completes_of_up (f := fun s => s.j2Accept p.toNat trace) hup rfl ?_
    split
    · next h => exact j2Accepted h.2 h.1 trace
    · next h =>
      refine if_neg fun hc => h ?_
      rw [Bool.and_eq_true] at hc
      exact hc.imp_right of_decide_eq_true

end Sys2Proof
end

section
/-! SUPPORT. An AU pointer interpreter that enters a state: LTM_AU_STAT, the paths on the AU, and the statement about
it. -/

namespace Sys2Proof.Machine

variable {s t u v : State} {l n st : Nat}

/-- Registers that a change of an AU's interpreter reaches in its own entries. -/
def auRegs (l n : Nat) : List Nat := [Reg.ltmAuStat l n, Reg.ltmAuDly l n]

theorem ltmRegs_of_auRegs {a : Nat} (hn : n < 64) (h : a ∈ auRegs l n) : ltmRegs l a = true := by
  simp only [auRegs, List.mem_cons, List.not_mem_nil, or_false] at h
  rcases h with rfl | rfl
  · exact ltmRegs_auStat hn
  · exact regsOf_true.2 (by simp only [Reg.ltmAuDly]; omega)

theorem condRegs_of_ltm {a : Nat} (hl : l < 48) (h : ltmRegs l a = true) : condRegs a = true := by
  simp only [ltmRegs, regsOf_true] at h
  simp only [condRegs, Bool.or_eq_true, regsOf_true]
  omega

/-- Everything that a change of an AU's interpreter may reach. -/
def auReach (l n : Nat) : Nat → Bool :=
  orAt (theseRegs [Reg.ltmAuStat l n, Reg.ltmAuDly l n, Reg.ltmStat l, Reg.ltmSticky l]) trbSummary

theorem auReach_of_auRegs {a : Nat} (h : theseRegs (auRegs l n) a = true) : auReach l n a = true := by
  rw [theseRegs_true] at h
  simp only [auReach, orAt_true, theseRegs_true, auRegs, List.mem_cons, List.not_mem_nil, or_false] at h ⊢
  tauto

theorem auReach_of_stat {a : Nat} (h : theseRegs [Reg.ltmStat l, Reg.ltmSticky l] a = true) :
    auReach l n a = true := by
  rw [theseRegs_true] at h
  simp only [auReach, orAt_true, theseRegs_true, List.mem_cons, List.not_mem_nil, or_false] at h ⊢
  tauto

theorem fset_paths (s : State) (f : Fld) (x : Nat) : (s.fset f x).paths = s.paths := rfl

theorem fget_onAu (s : State) (l n : Nat) (f : AuSt → AuSt) (g : Fld) : (s.onAu l n f).fget g = s.fget g := rfl

theorem onAu_paths (s : State) (l n : Nat) (f : AuSt → AuSt) : (s.onAu l n f).paths = s.paths := rfl

/-! ### The paths on the AU (R71) -/

/-- ais and lop of the paths on an AU are as its interpreter stands. -/
theorem auDefects_bits (s : State) (l n : Nat) :
    PathsMarked s (s.auDefects l n) ∧ ∀ p ∈ s.auPaths l n,
      bit ((s.auDefects l n).pathWord p 3) 30 = decide (s.ptrState l n = 1) ∧
        bit ((s.auDefects l n).pathWord p 3) 29 = decide (s.ptrState l n = 2) := by
  have hmon := auPaths_monitored s l n
  have hlt := auPaths_lt s l n
  have hais := pathsMarked_setDefects 30 (s.ptrState l n = 1) (s.auPaths l n) s hlt
  have hbit := bit_setDefects_mem (b := 30) (by decide) (s.ptrState l n = 1) _ s hmon
  unfold State.auDefects
  dsimp only
  generalize s.setDefects 30 (s.ptrState l n = 1) (s.auPaths l n) = u at hais hbit ⊢
  refine ⟨hais.trans (pathsMarked_setDefects 29 _ _ u hlt), fun p hp => ⟨?_, ?_⟩⟩
  · rw [bit_setDefects_ne (by decide) _ (by decide) (by decide), hbit p hp]
  · exact bit_setDefects_mem (by decide) _ _ u (fun q hq => (hmon q hq).imp_right (monitored_of_marked hais)) p hp

/-- The interpreter of an AU stands in state `st`, and so do the paths on it. -/
structure AuStands (s t : State) (l n st : Nat) : Prop where
  ptrState : t.ptrState l n = st
  bits     : ∀ p ∈ s.auPaths l n,
    bit (t.pathWord p 3) 30 = decide (st = 1) ∧ bit (t.pathWord p 3) 29 = decide (st = 2)
  frame    : Frame s t (auReach l n) followBytes

/-- The interpreter has entered a state, and the paths on the AU have been told. -/
theorem auStands_auDefects (hl : l < 48) (hn : n < 64) (hv : Frame s v (theseRegs (auRegs l n)) noBytes)
    (hpaths : v.paths = s.paths) (hst : v.ptrState l n = st) :
    AuStands s (v.auDefects l n) l n st ∧ ∀ a, (v.auDefects l n).rd a = v.rd a := by
  obtain ⟨hmark, hbits⟩ := auDefects_bits v l n
  have hsame : v.auPaths l n = s.auPaths l n :=
    (apsKept_of_ltm hl hv fun _ => ltmRegs_of_auRegs hn).auPaths hpaths l n
  rw [hsame, hst] at hbits
  refine ⟨⟨?_, hbits, ?_⟩, hmark.rd⟩
  · rw [State.ptrState, State.fget, hmark.rd]
    exact hst
  · exact (hv.mono (fun _ => auReach_of_auRegs) fun _ h => by cases h).trans
      (hmark.frame.mono (fun _ h => by cases h) fun _ h => orAt_true.2 (.inl h))

/-- The registers of the interpreters stay when au_any is judged, and when the terminations are. -/
theorem auStat_judged (hl : l < 48) (hn : n < 64) (hw : Frame u v (theseRegs [Reg.ltmStat l, Reg.ltmSticky l]) noBytes) :
    (v.refreshTerms l).rd (Reg.ltmAuStat l n) = u.rd (Reg.ltmAuStat l n) := by
  have hreg := ltmRegs_auStat (l := l) hn
  rw [(followed_refreshTerms v l).cond _ (condRegs_of_ltm hl hreg)]
  refine hw.reg _ (Bool.eq_false_iff.2 fun h => ?_) (ltm_apart hl hreg).2
  have := theseRegs_true.1 h
  simp only [Reg.ltmAuStat, Reg.ltmStat, Reg.ltmSticky, List.mem_cons, List.not_mem_nil, or_false] at this
  omega

/-- au_any follows, and so do the terminations of the lane. -/
theorem AuStands.judged (h : AuStands s u l n st) (hl : l < 48) (hn : n < 64)
    (hw : Frame u v (theseRegs [Reg.ltmStat l, Reg.ltmSticky l]) noBytes) : AuStands s (v.refreshTerms l) l n st := by
  have hlast := followed_refreshTerms v l
  have hword : ∀ p, p < 262144 → ∀ i, i ≠ 22 → i ≠ 31 →
      bit ((v.refreshTerms l).pathWord p 3) i = bit (u.pathWord p 3) i := fun p hp i h22 h31 => by
    rw [hlast.bits p i hp h22 h31, pathWord_of_bytes (fun x _ => hw.byte x rfl) hp (by decide)]
  refine ⟨?_, fun p hp => ?_, ?_⟩
  · rw [State.ptrState, State.fget, auStat_judged hl hn hw]
    exact h.ptrState
  · have hlt := auPaths_lt s l n p hp
    rw [hword p hlt 30 (by decide) (by decide), hword p hlt 29 (by decide) (by decide)]
    exact h.bits p hp
  · exact (h.frame.trans (hw.mono (fun _ => auReach_of_stat) fun _ h => by cases h)).trans
      (hlast.frame.mono (fun _ ha => orAt_true.2 (.inr ha)) fun _ => id)

/-! ### NORM (R66, R68) -/

theorem frame_setA (s : State) (l n : Nat) (a : Int) :
    Frame s (s.setA l n a) (theseRegs (auRegs l n)) noBytes ∧ (s.setA l n a).paths = s.paths := by
  have haside := (aside_onAu (regs := theseRegs (auRegs l n)) (bytes := noBytes) (s := s) l n
    fun x => { x with a := a.toNat, aligned := true }).frame
  have hdelay := frame_fset (bytes := noBytes) (s.onAu l n fun x => { x with a := a.toNat, aligned := true })
    (F.ltmAuDly_delay l n) (a.toNat / 45)
    (.inl (theseRegs_true.2 (List.mem_cons_of_mem _ (List.mem_cons_self ..)) : theseRegs (auRegs l n) _ = true))
  exact ⟨haside.trans hdelay, rfl⟩

theorem frame_acquireA (s : State) (l n p : Nat) :
    Frame s (s.acquireA l n p) (theseRegs (auRegs l n)) noBytes ∧ (s.acquireA l n p).paths = s.paths := by
  unfold State.acquireA
  dsimp only
  generalize (s.au l n).a + ((s.fget (F.ltmAuStat_ptr l n) : Int) - p) * offsetTime = a
  split
  · obtain ⟨hframe, hpaths⟩ := frame_setA s l n a
    exact ⟨hframe.trans (.of_hidden ⟨rfl, rfl, rfl, rfl, rfl⟩ rfl), hpaths⟩
  · obtain ⟨hframe, hpaths⟩ := frame_setA s l n (s.smallestA l p)
    exact ⟨hframe.trans (.of_hidden ⟨rfl, rfl, rfl, rfl, rfl⟩ rfl), hpaths⟩

/-- LTM_AU_STAT of an interpreter in NORM with offset `p`. -/
def State.statNorm (s : State) (l n p : Nat) : State :=
  (s.fset (F.ltmAuStat_ptrState l n) 0).fset (F.ltmAuStat_ptr l n) p

theorem statNorm_shows (s : State) (l n : Nat) {p : Nat} (hp : p < 1024) :
    (s.statNorm l n p).ptrState l n = 0 ∧ (s.statNorm l n p).fget (F.ltmAuStat_ptr l n) = p ∧
      Frame s (s.statNorm l n p) (theseRegs (auRegs l n)) noBytes := by
  have hreg : theseRegs (auRegs l n) (Reg.ltmAuStat l n) = true := theseRegs_true.2 (List.mem_cons_self ..)
  unfold State.statNorm
  refine ⟨?_, ?_, (frame_fset _ _ _ (.inl hreg)).trans (frame_fset _ _ _ (.inl hreg))⟩
  · rw [State.ptrState, fget_fset_apart _ _ ⟨by simp, by simp⟩ (.inl (by simp)),
      fget_fset_self _ _ ⟨by simp, by simp⟩]
    exact Nat.zero_mod _
  · rw [fget_fset_self _ _ ⟨by simp, by simp⟩]
    exact Nat.mod_eq_of_lt hp

/-- The interpreter has entered NORM with offset `p`, and the paths on the AU have not been told yet. -/
def State.enterNorm (s : State) (l n p : Nat) : State :=
  ((s.acquireA l n p).statNorm l n p).onAu l n
    fun x => { x with tail := ((s.acquireA l n p).statNorm l n p).auTailRows l n }

theorem enterNorm_shows (s : State) (l n : Nat) {p : Nat} (hp : p < 1024) :
    (s.enterNorm l n p).ptrState l n = 0 ∧ (s.enterNorm l n p).fget (F.ltmAuStat_ptr l n) = p ∧
      Frame s (s.enterNorm l n p) (theseRegs (auRegs l n)) noBytes ∧ (s.enterNorm l n p).paths = s.paths := by
  obtain ⟨hframe, hpaths⟩ := frame_acquireA s l n p
  obtain ⟨hstat, hptr, hset⟩ := statNorm_shows (s.acquireA l n p) l n hp
  have hkeep : ((s.acquireA l n p).statNorm l n p).paths = s.paths := by
    rw [State.statNorm, fset_paths, fset_paths, hpaths]
  unfold State.enterNorm
  generalize (s.acquireA l n p).statNorm l n p = v at hstat hptr hset hkeep
  refine ⟨?_, ?_, (hframe.trans hset).trans (aside_onAu (s := v) l n _).frame, ?_⟩
  · rw [State.ptrState, fget_onAu]
    exact hstat
  · rw [fget_onAu, hptr]
  · rw [onAu_paths, hkeep]

/-- AU_PTR_NORM, as the state after it shows it. -/
theorem auPtrNorm_stands (hl : l < 48) (hn : n < 64) (hruns : s.auRuns l n = true) (hst : s.ptrState l n ≠ 0)
    (hfound : s.auPtrFound l n = true) :
    AuStands s ((s.auPtrNorm l n).refreshTerms l) l n 0 ∧
      ((s.auPtrNorm l n).refreshTerms l).fget (F.ltmAuStat_ptr l n) = (s.au l n).ptr.last.toNat % 1024 := by
  have hshape : s.auPtrNorm l n =
      ((s.enterNorm l n (ptrOffset (s.au l n).ptr.last)).auDefects l n).judgeAuAny l := by
    unfold State.auPtrNorm
    rw [if_pos]
    · rfl
    · rw [hruns, hfound, decide_eq_true hst]
      rfl
  obtain ⟨hstat, hptr, hframe, hpaths⟩ := enterNorm_shows s l n (p := ptrOffset (s.au l n).ptr.last)
    (Nat.mod_lt _ (by decide))
  obtain ⟨hstands, hrd⟩ := auStands_auDefects hl hn hframe hpaths hstat
  rw [hshape]
  generalize s.enterNorm l n (ptrOffset (s.au l n).ptr.last) = v at hptr hstands hrd
  have hany : Frame (v.auDefects l n) ((v.auDefects l n).judgeAuAny l) (theseRegs [Reg.ltmStat l, Reg.ltmSticky l])
      noBytes := (aside_ltmSet _ l ltmAuAny _).frame
  refine ⟨hstands.judged hl hn hany, ?_⟩
  rw [State.fget, auStat_judged hl hn hany, hrd]
  exact hptr

/-! ### AIS and LOP (R66) -/

/-- au_any is set, or told again. -/
def State.auAnySet (s : State) (l : Nat) : State :=
  if s.ltm l ltmAuAny then s.sticky (Reg.ltmSticky l) (Reg.ltmIntEn l) 0x200 Ev.ltmDefect l
  else s.ltmSet l ltmAuAny true

theorem auAnySet_shows (s : State) (hl : l < 48) :
    (s.auAnySet l).ltm l ltmAuAny = true ∧
      Frame s (s.auAnySet l) (theseRegs [Reg.ltmStat l, Reg.ltmSticky l]) noBytes := by
  unfold State.auAnySet
  split
  · next h =>
    have hsticky := (aside_sticky s (Reg.ltmSticky l) (Reg.ltmIntEn l) 0x200 Ev.ltmDefect l 0
      (regs := theseRegs [Reg.ltmSticky l]) (bytes := noBytes) (.inl (theseRegs_true.2 (by simp)))).frame
    refine ⟨?_, hsticky.mono (fun a ha => ?_) fun _ => id⟩
    · rw [ltm_congr (hsticky.reg _ (by simp [theseRegs]) (ltm_apart hl (ltmRegs_stat l)).2), h]
    · rw [List.mem_singleton.1 (theseRegs_true.1 ha)]
      exact theseRegs_true.2 (by simp)
  · exact ⟨ltm_ltmSet_self s hl (by decide) true, (aside_ltmSet s l ltmAuAny true).frame⟩

/-- The counts of the interpreter ask for state `st`: AIS, or LOP. -/
def State.auLossDue (s : State) (l n st : Nat) : Bool := if st = 1 then s.auAllOnes l n else s.auPtrLost l n

/-- AU_AIS and AU_LOP, as the state after each shows it. -/
theorem auLost_stands (hl : l < 48) (hn : n < 64) (hst4 : st < 4) (hruns : s.auRuns l n = true)
    (hst : s.ptrState l n ≠ st) (hdue : s.auLossDue l n st = true) :
    AuStands s ((s.auLost l n st).refreshTerms l) l n st ∧
      ((s.auLost l n st).refreshTerms l).ltm l ltmAuAny = true := by
  have hshape : s.auLost l n st = ((s.fset (F.ltmAuStat_ptrState l n) st).auDefects l n).auAnySet l := by
    unfold State.auLost
    rw [if_pos]
    · rfl
    · rw [hruns, decide_eq_true hst]
      exact hdue
  have hframe : Frame s (s.fset (F.ltmAuStat_ptrState l n) st) (theseRegs (auRegs l n)) noBytes :=
    frame_fset s _ _ (.inl (theseRegs_true.2 (List.mem_cons_self ..)))
  have hstat : (s.fset (F.ltmAuStat_ptrState l n) st).ptrState l n = st := by
    rw [State.ptrState, fget_fset_self _ _ ⟨by simp, by simp⟩]
    exact Nat.mod_eq_of_lt hst4
  obtain ⟨hstands, -⟩ := auStands_auDefects hl hn hframe (fset_paths ..) hstat
  rw [hshape]
  obtain ⟨hany, hset⟩ := auAnySet_shows ((s.fset (F.ltmAuStat_ptrState l n) st).auDefects l n) hl
  refine ⟨hstands.judged hl hn hset, ?_⟩
  rw [ltm_congr ((followed_refreshTerms _ l).cond _ (condRegs_ltmStat (by omega))), hany]

/-- Where the interpreter stays, the terminations are judged anew. -/
theorem refreshTerms_only (s : State) (hl : l < 48) (hn : n < 64) :
    Frame s (s.refreshTerms l) (auReach l n) followBytes ∧ (s.refreshTerms l).ptrState l n = s.ptrState l n := by
  have h := followed_refreshTerms s l
  refine ⟨h.frame.mono (fun _ ha => orAt_true.2 (.inr ha)) fun _ => id, ?_⟩
  rw [State.ptrState, State.fget, h.cond _ (condRegs_of_ltm hl (ltmRegs_auStat hn))]
  rfl

end Sys2Proof.Machine

namespace Sys2Proof

open Machine

/-- Settles O5: the interpreter enters its state in LTM_AU_STAT, `State.auDefects` tells the paths on the AU, and
neither au_any nor the terminations change those bits again. -/
theorem auPointerStates : Obligations.AuPointerStates := by
  intro l n s hup frame after last
  have hl : l.val < 48 := l.isLt
  have hn : n.toNat < 64 := n.isLt
  have hstays : ∀ {u : State} {st : Nat}, u = s → (frame (u.refreshTerms l.val) ∧
      (u.refreshTerms l.val).ptrState l.val n.toNat = s.ptrState l.val n.toNat) := fun hu => by
    rw [hu]
    exact refreshTerms_only s hl hn
  have hlost : ∀ st, st < 4 →
      frame ((s.auLost l.val n.toNat st).refreshTerms l.val) ∧
        if s.auRuns l.val n.toNat = true ∧ s.ptrState l.val n.toNat ≠ st ∧ s.auLossDue l.val n.toNat st = true then
          after st ((s.auLost l.val n.toNat st).refreshTerms l.val) ∧
            ((s.auLost l.val n.toNat st).refreshTerms l.val).ltm l.val ltmAuAny = true
        else ((s.auLost l.val n.toNat st).refreshTerms l.val).ptrState l.val n.toNat =
          s.ptrState l.val n.toNat := fun st hst4 => by
    split
    · next h =>
      obtain ⟨hstands, hany⟩ := auLost_stands hl hn hst4 h.1 h.2.1 h.2.2
      exact ⟨hstands.frame, ⟨hstands.ptrState, hstands.bits⟩, hany⟩
    · next h =>
      refine hstays (st := st) (if_neg fun hc => h ?_)
      simp only [Bool.and_eq_true, decide_eq_true_eq, and_assoc] at hc
      exact hc
  refine ⟨?norm, ?ais, ?lop⟩
  case norm =>
    refine completes_of_up (f := fun s => s.onSdhLane l.val fun s => s.auPtrNorm l.val n.toNat) hup rfl ?_
    rw [State.onSdhLane]
    split
    · next h =>
      obtain ⟨hruns, hst, hfound⟩ := h
      obtain ⟨hstands, hptr⟩ := auPtrNorm_stands hl hn hruns hst hfound
      exact ⟨hstands.frame, ⟨hstands.ptrState, hstands.bits⟩, hptr⟩
    · next h =>
      refine hstays (st := 0) (if_neg fun hc => h ?_)
      simp only [Bool.and_eq_true, decide_eq_true_eq, and_assoc] at hc
      exact hc
  case ais =>
    exact completes_of_up (f := fun s => s.onSdhLane l.val fun s => s.auLost l.val n.toNat 1) hup rfl
      (hlost 1 (by decide))
  case lop =>
    exact completes_of_up (f := fun s => s.onSdhLane l.val fun s => s.auLost l.val n.toNat 2) hup rfl
      (hlost 2 (by decide))

end Sys2Proof
end

section
/-! SUPPORT. The way of a host write to a register (R297, R234-R236), and a write of SDS_CFG (R269). -/

namespace Sys2Proof

open Machine

variable {s t u : State} {l a : Nat}

theorem Unmoved.rd {regs : Nat → Bool} (h : Unmoved s u regs) (hr : regs a = false) (he : eventReg a = false) :
    u.rd a = s.rd a := h.frame.reg a hr he

theorem Unmoved.lane {regs : Nat → Bool} (h : Unmoved s u regs) (l : Nat) : u.lane l = s.lane l := by
  rw [State.lane, State.lane, h.lanes]

/-- A register below the account of host accesses and the mate is not part of either. -/
theorem hostAccount_below (h : a < 0xC0000) (h' : 0x20000 ≤ a) : hostAccount a = false ∧ eventReg a = false := by
  constructor
  · rw [← Bool.not_eq_true, hostAccount, theseRegs_true]
    simp only [Reg.cntLo, Reg.cntHi, Reg.matStat, Reg.matResync, List.mem_cons, List.not_mem_nil, or_false]
    omega
  · rw [← Bool.not_eq_true, eventReg, List.contains_iff_mem]
    simp only [Reg.hstHeadLo, Reg.hstHeadHi, Reg.hstOldestLo, Reg.hstOldestHi, Reg.hstCntDrop, Reg.evtCntDrop,
      Reg.fltLast, Reg.fltStat, List.mem_cons, List.not_mem_nil, or_false]
    omega

end Sys2Proof

namespace Sys2Proof.Machine

variable (s : State) {l : Nat}

/-- A host write of register `a` has been received, and has not had its effect. -/
def State.received (s : State) (a : Nat) : State := (s.speed 96 4).mendReg a

theorem unmoved_received (a : Nat) : Unmoved s (s.received a) hostAccount :=
  (unmoved_speed s 96 4 (by decide) (by decide)).trans
    ⟨.of_hidden ⟨rfl, rfl, rfl, rfl, rfl⟩ rfl, rfl, rfl, rfl, rfl, fun _ _ => rfl⟩

theorem fget_received (a : Nat) {f : Fld} (h : hostAccount f.reg = false) (he : eventReg f.reg = false) :
    (s.received a).fget f = s.fget f := by
  rw [State.fget, State.fget, (unmoved_received s a).rd h he]

theorem account_queueRecord (kind : BitVec 4) (r : MirrorRec) : Unmoved s (s.queueRecord kind r) hostAccount := by
  unfold State.queueRecord
  split
  · exact (unmoved_wr s _ _ (by decide)).trans (unmoved_mendMirror _ (by decide) (by decide))
  · exact ⟨.of_hidden ⟨rfl, rfl, rfl, rfl, rfl⟩ rfl, rfl, rfl, rfl, rfl, fun _ _ => rfl⟩

/-- Of a host write that is taken the mirror keeps a record, no more. -/
theorem account_asHost (h : s.standsBy = false) (a : Nat) (be : BitVec 4) (v : W32) (f : State → State) :
    Unmoved (f s) (s.asHost false a be v f) hostAccount := by
  unfold State.asHost
  rw [h]
  split
  · exact .refl _ _
  · rw [if_neg Bool.false_ne_true]
    split
    · unfold State.mirrorWrite
      dsimp only
      split
      · exact .refl _ _
      · exact account_queueRecord _ _ _
    · exact .refl _ _

/-- The effect of a host write of a register that is taken, on the state that has received it. -/
theorem hostReg_taken (h : s.takesHost = true) (a : Nat) (be : BitVec 4) (v : W32) (f : State → State) :
    Unmoved (f (s.received a)) (s.hostReg a be v f) hostAccount := by
  simp only [State.takesHost, Bool.and_eq_true, Bool.not_eq_true'] at h
  obtain ⟨⟨-, hbusy⟩, hstands⟩ := h
  rw [State.hostReg, fromHost_idle s hbusy]
  refine account_asHost (s.received a) ?_ a be v f
  have hstat : (s.speed 96 4).fget F.matStat_state = s.fget F.matStat_state := by
    rw [State.fget, State.fget, rd_speed_ne s 96 4 (by decide) (by decide)]
  have hmate : (s.received a).mateState = s.mateState := hstat
  rw [State.standsBy, hmate]
  exact hstands

/-! ### A lane that returns to DETECT (R273, R275) -/

/-- The registers of the lane change, and what follows from them; SDS_CFG, role and rate stay. -/
structure Reset (s t : State) (l : Nat) : Prop where
  frame : LaneFrame s t l
  cfg   : t.rd (Reg.sdsCfg l) = s.rd (Reg.sdsCfg l)
  role  : (t.lane l).role = (s.lane l).role
  rate  : (t.lane l).rate = (s.lane l).rate

variable {s} {t u : State}

theorem Reset.refl (s : State) (l : Nat) : Reset s s l := ⟨.refl _ _ _, rfl, rfl, rfl⟩

theorem Reset.trans (h : Reset s t l) (k : Reset t u l) : Reset s u l :=
  ⟨h.frame.trans k.frame, k.cfg.trans h.cfg, k.role.trans h.role, k.rate.trans h.rate⟩

/-- Another serial register of the lane changes. -/
theorem Reset.of_sds {a : Nat} (hl : l < 48) (h : Frame s t (theseRegs [a]) noBytes) (ha : sdsRegs l a = true)
    (hne : a ≠ Reg.sdsCfg l) (hrole : (t.lane l).role = (s.lane l).role) (hrate : (t.lane l).rate = (s.lane l).rate) :
    Reset s t l where
  frame := h.ofSds ha
  cfg := h.reg _ (Bool.eq_false_iff.2 fun e => hne (List.mem_singleton.1 (theseRegs_true.1 e)).symm)
    (sds_apart hl (sdsRegs_cfg l)).2
  role := hrole
  rate := hrate

theorem Reset.of_follows (hl : l < 48) (h : Follows s t) : Reset s t l :=
  ⟨h.laneFrame l, h.sdsRd hl (sdsRegs_cfg l), by rw [h.lane], by rw [h.lane]⟩

variable (s)

theorem reset_fset (hl : l < 48) (f : Fld) (n : Nat) (hf : f.reg = Reg.sdsStat l) : Reset s (s.fset f n) l :=
  .of_sds hl (frame_fset s f n (.inl (theseRegs_true.2 (by simp [hf])))) (sdsRegs_stat l) (by simp) rfl rfl

theorem reset_onLane (hl : l < 48) (f : LaneSt → LaneSt) (hrole : (f (s.lane l)).role = (s.lane l).role)
    (hrate : (f (s.lane l)).rate = (s.lane l).rate) : Reset s (s.onLane l f) l :=
  .of_sds hl (frame_onLane s l f) (sdsRegs_stat l) (by simp) (by rw [lane_onLane_self, hrole])
    (by rw [lane_onLane_self, hrate])

theorem reset_refreshCdr (hl : l < 48) : Reset s (s.refreshCdr l) l := by
  obtain ⟨n, hn⟩ := lane_refreshCdr s l
  exact .of_sds hl (frame_refreshCdr s l) (sdsRegs_stat l) (by simp) (by rw [hn]) (by rw [hn])

theorem reset_leaveActive (hl : l < 48) (fault : Bool) : Reset s (s.leaveActive l fault) l := by
  have hlane := lane_leaveActive s l fault
  exact .of_sds hl (frame_leaveActive s l fault) (sdsRegs_sticky l) (by simp) (by rw [hlane]) (by rw [hlane])

theorem reset_goDetect (hl : l < 48) : Reset s (s.goStage l stDetect) l := by
  have hlock : stDetect ≠ stLock := by decide
  have hactive : ¬ (stDetect = stageActive ∧ s.stage l ≠ stageActive) := fun h => absurd h.1 (by decide)
  unfold State.goStage
  dsimp only
  simp only [hlock, if_false, Bool.and_eq_true, decide_eq_true_eq]
  rw [if_neg hactive]
  have hleave : Reset s (if s.stage l = stageActive ∧ stDetect ≠ stageActive then s.leaveActive l false else s) l := by
    split
    · exact reset_leaveActive s hl false
    · exact .refl s l
  generalize (if s.stage l = stageActive ∧ stDetect ≠ stageActive then s.leaveActive l false else s) = u at hleave ⊢
  refine hleave.trans (Reset.trans ?_ (.of_follows hl
    ((follows_condition u l _).trans (follows_refreshMateLane _))))
  refine ((reset_fset u hl (F.sdsStat_stage l) stDetect rfl).trans ?_).trans (reset_refreshCdr _ hl)
  split
  · exact .refl _ l
  · exact reset_onLane _ hl _ rfl rfl

theorem reset_endBackoff (hl : l < 48) : Reset s (s.endBackoff l) l := by
  unfold State.endBackoff State.leaveDeep
  exact (((((reset_fset s hl (F.sdsStat_pwr l) pwrActive rfl).trans (reset_fset _ hl (F.sdsStat_pendingEnable l) _ rfl)).trans
    (reset_onLane _ hl _ rfl rfl)).trans (reset_fset _ hl (F.sdsStat_failCnt l) 0 rfl))).trans (reset_goDetect _ hl)

/-! ### LANE_CFG_WRITE (R269) -/

/-- A bit of a register that is set stays set when its history is told. -/
theorem bit_laneSticky (hl : l < 48) {b : Nat} (hb : b < 32) :
    bit ((s.laneSticky l b).rd (Reg.sdsSticky l)) b = true := by
  have hrd : (s.laneSticky l b).rd (Reg.sdsSticky l) = s.rd (Reg.sdsSticky l) ||| BitVec.ofNat 32 (2 ^ b) := by
    rw [State.laneSticky, (aside_stickyEvent s _ _ _ _ _ _).frame.reg _ rfl (sds_apart hl (sdsRegs_sticky l)).2,
      rd_wr_self]
  rw [hrd, bit, bits, Nat.add_sub_cancel_left]
  have hbit : (s.rd (Reg.sdsSticky l) ||| BitVec.ofNat 32 (2 ^ b)).toNat.testBit b = true := by
    rw [BitVec.toNat_or, Nat.testBit_or, BitVec.toNat_ofNat, Nat.mod_eq_of_lt (Nat.pow_lt_pow_right (by decide) hb),
      Nat.testBit_two_pow_self, Bool.or_true]
  rw [Nat.testBit_eq_decide_div_mod_eq] at hbit
  exact hbit

/-- SDS_CFG after a write of a combination that R269 allows, or of another one. -/
theorem laneCfgWrite_taken (hl : l < 48) (be : BitVec 4) (v : W32) (hretired : s.retired = false) :
    let new := mergeBe (s.rd (Reg.sdsCfg l)) (v &&& 0xFFFE0000) be
    let t := s.laneCfgWrite l be v
    LaneFrame s t l ∧ (t.lane l).role = (s.lane l).role ∧ (t.lane l).rate = (s.lane l).rate ∧
      if laneCfgOk (bits new 31 29) (bits new 28 26) then t.rd (Reg.sdsCfg l) = new
      else t.rd (Reg.sdsCfg l) = s.rd (Reg.sdsCfg l) ∧ bit (t.rd (Reg.sdsSticky l)) 6 = true := by
  intro new
  unfold State.laneCfgWrite
  rw [hretired, if_neg Bool.false_ne_true]
  dsimp only
  cases hok : laneCfgOk (bits new 31 29) (bits new 28 26) with
  | false =>
    rw [Bool.not_false, if_pos rfl, if_neg Bool.false_ne_true]
    have hraise : Follows s (s.raise Ev.laneCfgReject l) := aside_raise s _ _ _ _ _ _
    have hsticky : Aside (s.raise Ev.laneCfgReject l) ((s.raise Ev.laneCfgReject l).laneSticky l 6)
        (theseRegs [Reg.sdsSticky l]) noBytes := aside_sticky _ _ _ _ _ _ _ (.inl (theseRegs_true.2 (by simp)))
    have hlane : ((s.raise Ev.laneCfgReject l).laneSticky l 6).lane l = (s.raise Ev.laneCfgReject l).lane l := by
      rw [State.lane, State.lane, hsticky.lanes]
    have h := (Reset.of_follows hl hraise).trans
      (.of_sds hl hsticky.frame (sdsRegs_sticky l) (by simp) (by rw [hlane]) (by rw [hlane]))
    exact ⟨h.frame, h.role, h.rate, h.cfg, bit_laneSticky _ hl (by decide)⟩
  | true =>
    rw [Bool.not_true, if_neg Bool.false_ne_true, if_pos rfl]
    have hwr : LaneFrame s (s.wr (Reg.sdsCfg l) new) l :=
      (frame_wr s _ _ (.inl (theseRegs_true.2 (by simp)))).ofSds (sdsRegs_cfg l)
    have hself : (s.wr (Reg.sdsCfg l) new).rd (Reg.sdsCfg l) = new := rd_wr_self ..
    have hlane : (s.wr (Reg.sdsCfg l) new).lane l = s.lane l := rfl
    generalize s.wr (Reg.sdsCfg l) new = u at hwr hself hlane ⊢
    have hafter : ∀ {t : State}, Reset u t l → LaneFrame s t l ∧ (t.lane l).role = (s.lane l).role ∧
        (t.lane l).rate = (s.lane l).rate ∧ t.rd (Reg.sdsCfg l) = new := fun h =>
      ⟨hwr.trans h.frame, by rw [h.role, hlane], by rw [h.rate, hlane], h.cfg.trans hself⟩
    split_ifs
    · exact hafter (.refl u l)
    · exact hafter (reset_endBackoff u hl)
    · exact hafter (reset_goDetect u hl)
    · exact hafter (.refl u l)

end Sys2Proof.Machine
end

section
/-! SUPPORT. Writes of LTM_CFG and LTM_AU_CFG (R64, R65): what a change of the structure of a lane reaches, and the
event of a write that is discarded. -/

namespace Sys2Proof

open Machine

variable {s t u : State} {regs regs' : Nat → Bool} {l n a : Nat}

/-! ### The merged word (R364) -/

/-- Which word a write would store does not hang on the account of the access. -/
theorem Unmoved.merged (h : Unmoved s u hostAccount) (ha : a < 0xC0000) (ha' : 0x20000 ≤ a) (be : BitVec 4) (v : W32) :
    u.merged a be v = s.merged a be v := by
  obtain ⟨haccount, hevent⟩ := hostAccount_below ha ha'
  have hlc : u.lc = s.lc := by rw [State.lc, State.lc, State.fget, State.fget, h.rd (by decide) (by decide)]
  unfold State.merged
  rw [hlc, h.rd haccount hevent]

theorem Unmoved.isSdh (h : Unmoved s u regs) (l : Nat) : u.isSdh l = s.isSdh l := by
  rw [State.isSdh, State.isSdh, State.role, State.role, h.lane]

theorem Unmoved.rate (h : Unmoved s u regs) (l : Nat) : u.rate l = s.rate l := by
  rw [State.rate, State.rate, h.lane]

theorem ltmRegs_cfg (l : Nat) : ltmRegs l (Reg.ltmCfg l) = true := regsOf_true.2 (by simp only [Reg.ltmCfg]; omega)

theorem ltmRegs_auCfg (hn : n < 64) : ltmRegs l (Reg.ltmAuCfg l n) = true :=
  regsOf_true.2 (by simp only [Reg.ltmAuCfg]; omega)

/-- The registers of the line termination of a lane lie apart from the account of host accesses. -/
theorem ltm_range (hl : l < 48) (h : ltmRegs l a = true) : 0x20000 ≤ a ∧ a < 0xC0000 := by
  simp only [ltmRegs, regsOf_true] at h
  omega

/-! ### Events between two states -/

/-- An operation that reaches none of the registers an event is formed from leaves the event as it would be. -/
theorem Frame.eventOf {bytes : Nat → Bool} (h : Frame s t regs bytes) {e : EvName}
    (hq : ∀ a ∈ [Reg.evtCfg, Reg.evtMask e.block, Reg.pmnStat, Reg.pmnTai], regs a = false ∧ eventReg a = false)
    (ps : List Nat) : t.delivers e = s.delivers e ∧ t.eventOf e ps = s.eventOf e ps := by
  have hreg : ∀ a ∈ [Reg.evtCfg, Reg.evtMask e.block, Reg.pmnStat, Reg.pmnTai], t.rd a = s.rd a :=
    fun a ha => h.reg a (hq a ha).1 (hq a ha).2
  have hfget : ∀ f : Fld, f.reg = Reg.evtCfg → t.fget f = s.fget f := fun f hf => by
    rw [State.fget, State.fget, hf, hreg _ (by simp)]
  have htai : t.tai = s.tai := by
    rw [State.tai, State.flag, State.fget, hreg _ (by simp), hreg _ (by simp)]
    rfl
  constructor
  · rw [State.delivers, State.delivers, hfget _ rfl, hreg _ (by simp)]
  · rw [State.eventOf, State.eventOf, hfget _ rfl, htai, h.clock]

/-- What is told of the effect of a host write is told of the write. -/
theorem Told.of_account {x y : State} {on : Bool} {e : EvName} {ps : List Nat} (hu : Unmoved s x hostAccount)
    (hq : ∀ a ∈ [Reg.evtCfg, Reg.evtMask e.block, Reg.pmnStat, Reg.pmnTai],
      hostAccount a = false ∧ eventReg a = false)
    (hy : Told x y on e ps) (ht : Unmoved y t hostAccount) : Told s t on e ps := by
  obtain ⟨hdelivers, hevent⟩ := hu.frame.eventOf hq ps
  intro hroom
  have hroom' : x.eventRoom = true := by rw [State.eventRoom, hu.evt]; exact hroom
  rw [ht.evt, hy hroom', hu.evt, hdelivers, hevent]

/-! ### What a change of the structure of a lane reaches -/

/-- The registers of the line termination of a lane but LTM_CFG, and the summaries of the terminations. -/
def structureRegs (l : Nat) : Nat → Bool := orAt (fun a => ltmRegs l a && a != Reg.ltmCfg l) trbSummary

theorem structureRegs_of_ltm (h : ltmRegs l a = true) (hne : a ≠ Reg.ltmCfg l) : structureRegs l a = true := by
  rw [structureRegs, orAt_true, h, bne_iff_ne.2 hne]
  exact .inl rfl

theorem structureRegs_cfg (hl : l < 48) : structureRegs l (Reg.ltmCfg l) = false := by
  have hfollow := (ltm_apart hl (ltmRegs_cfg l)).1
  rw [followRegs, orAt, Bool.or_eq_false_iff] at hfollow
  rw [structureRegs, orAt, hfollow.1, bne_self_eq_false, Bool.and_false, Bool.or_false]

/-- A change of the structure of a lane. -/
abbrev Structured (s t : State) (l : Nat) : Prop := Frame s t (structureRegs l) followBytes

theorem PathsMarked.structured (h : PathsMarked s t) (l : Nat) : Structured s t l :=
  h.frame.mono (fun _ h => by cases h) fun _ ha => orAt_true.2 (.inl ha)

end Sys2Proof

namespace Sys2Proof.Machine

variable (s : State) {l n p : Nat} {regs bytes : Nat → Bool}

theorem frame_judgeAus (l : Nat) (always : Bool) : Frame s (s.judgeAus l always) regs bytes := by
  have hjudge : ∀ f : State → Nat → AuSt → AuSt,
      Frame s ((List.range 64).foldl (fun s n => s.onAu l n (f s n)) s) regs bytes := fun f =>
    Frame.foldl (fun s n => (aside_onAu s l n (f s n)).frame) _ s
  unfold State.judgeAus
  dsimp only
  split
  · exact (hjudge _).trans (frame_raise _ _ _ _ _ _ _)
  · exact Frame.ite (fun _ => (hjudge _).trans (frame_raise _ _ _ _ _ _ _)) fun _ => hjudge _

theorem structured_ltmSet (l b : Nat) (on : Bool) : Structured s (s.ltmSet l b on) l := by
  refine (aside_ltmSet s l b on).frame.mono (fun a ha => ?_) fun _ h => by cases h
  simp only [theseRegs_true, List.mem_cons, List.not_mem_nil, or_false] at ha
  rcases ha with rfl | rfl
  · exact structureRegs_of_ltm (ltmRegs_stat l) (by simp)
  · exact structureRegs_of_ltm (ltmRegs_sticky l) (by simp)

theorem structured_restartAus (l : Nat) : ∀ (ns : List Nat) (s : State), (∀ n ∈ ns, n < 64) →
    Structured s (s.restartAus l ns) l
  | [], s, _ => .refl s _ _
  | n :: ns, s, h => by
    have hreg : structureRegs l (Reg.ltmAuStat l n) = true :=
      structureRegs_of_ltm (ltmRegs_auStat (h n (by simp))) (by simp only [Reg.ltmAuStat, Reg.ltmCfg]; omega)
    have hone : Structured s _ l := (aside_onAu s l n AuSt.restart).frame.trans
      (frame_fset _ (F.ltmAuStat_ptrState l n)
        (if ((s.onAu l n AuSt.restart).auMemberOf l n).isSome then 3 else 2) (.inl hreg))
    exact (hone.trans ((auDefects_bits _ l n).1.structured l)).trans
      (structured_restartAus l ns _ fun m hm => h m (by simp [hm]))

theorem structured_judgeEntry (hp : p < 262144) (again : Bool) (l : Nat) : Structured s (s.judgeEntry p again) l := by
  have hpath : ∀ f, Structured s (s.onPath p f) l := fun f => (aside_onPath s p f).frame
  have hfresh : ∀ (u : State) (w : W32), Structured u ((u.setPathWord p 3 w).refreshPath p) l := fun u w =>
    ((pathsMarked_setPathWord u hp (.inl rfl) w).trans (pathsMarked_refreshPath _ hp)).structured l
  unfold State.judgeEntry
  dsimp only
  split
  · exact hpath _
  · refine Frame.ite (fun _ => Frame.ite (fun _ => .refl _ _ _) fun _ => ?fresh) fun _ => ?gone
    case fresh => exact (hpath _).trans (hfresh _ _)
    case gone => exact (hpath _).trans (Frame.ite (fun _ => frame_raise _ _ _ _ _ _ _) fun _ => .refl _ _ _)

theorem structured_judgeEach (again : Bool) (l : Nat) : ∀ (ps : List Nat) (s : State), (∀ p ∈ ps, p < 262144) →
    Structured s (ps.foldl (fun s p => s.judgeEntry p again) s) l
  | [], s, _ => .refl s _ _
  | p :: ps, s, h => (structured_judgeEntry s (h p (by simp)) again l).trans
      (structured_judgeEach again l ps _ fun q hq => h q (by simp [hq]))

theorem structured_rejudgeLane (l : Nat) : Structured s (s.rejudgeLane l) l := by
  refine structured_judgeEach false l _ s fun p hp => ?_
  simp only [State.pathList, List.mem_map, List.mem_filter, decide_eq_true_eq] at hp
  obtain ⟨q, ⟨⟨-, hq⟩, -⟩, rfl⟩ := hp
  exact hq

/-! ### LTM_CFG (R64) -/

/-- Every AU and path of the lane is judged again. -/
theorem structured_au3 (l : Nat) :
    Structured s ((((s.judgeAus l).restartAus l (List.range 64)).judgeAuAny l).rejudgeLane l) l := by
  have hjudge : Structured s (s.judgeAus l) l := frame_judgeAus s l false
  have hrestart := structured_restartAus l (List.range 64) (s.judgeAus l) fun n hn => List.mem_range.1 hn
  exact ((hjudge.trans hrestart).trans (structured_ltmSet _ l ltmAuAny _)).trans (structured_rejudgeLane _ l)

/-- A write of LTM_CFG of an SDH lane is discarded with an event, or stored with what it brings about. -/
theorem structured_ltmCfgWrite (l : Nat) (be : BitVec 4) (v : W32) :
    let w := s.merged (Reg.ltmCfg l) be v
    Structured (if s.isSdh l = false ∨ (bit w 30 = true ∧ s.rate l = 3) then s else s.wr (Reg.ltmCfg l) w)
      (s.ltmCfgWrite l be v) l := by
  intro w
  unfold State.ltmCfgWrite
  cases hsdh : s.isSdh l with
  | false =>
    rw [if_pos (.inl rfl), State.whenSdh, hsdh, if_neg Bool.false_ne_true]
    exact .refl _ _ _
  | true =>
    rw [State.whenSdh, hsdh, if_pos rfl]
    simp only [Bool.true_eq_false, false_or, Bool.and_eq_true, decide_eq_true_eq]
    by_cases h : bit w 30 = true ∧ s.rate l = 3
    · rw [if_pos h, if_pos h]
      exact frame_raise _ _ _ _ _ _ _
    · rw [if_neg h, if_neg h]
      have htim : Structured (s.wr (Reg.ltmCfg l) w)
          (if bit w 28 then s.wr (Reg.ltmCfg l) w else (s.wr (Reg.ltmCfg l) w).ltmSet l ltmRsTim false) l :=
        Frame.ite (fun _ => .refl _ _ _) fun _ => structured_ltmSet _ l ltmRsTim false
      exact htim.trans (Frame.ite (fun _ => .refl _ _ _) fun _ => structured_au3 _ l)

/-! ### LTM_AU_CFG (R65) -/

/-- Entry `n` of the lane may become `w` (R65, R83). -/
def State.auTakes (s : State) (l n : Nat) (w : W32) : Bool :=
  let au3 := s.au3 l
  let nStm := stmN (s.rate l)
  let cfg := fun m => if m = n then w else s.auStored l m
  let taken := auNcOf w = 3 || auShapeOk au3 nStm w n && (auSpan au3 w n).any fun m => auTypeOf (cfg m) ≠ 0
  auLawful au3 nStm cfg n && !taken

theorem ltmAuCfgWrite_eq (l n : Nat) (be : BitVec 4) (v : W32) :
    s.ltmAuCfgWrite l n be v =
      if s.isSdh l then
        if s.auTakes l n (s.merged (Reg.ltmAuCfg l n) be v) then
          s.wr (Reg.ltmAuCfg l n) (s.merged (Reg.ltmAuCfg l n) be v)
        else s.raise Ev.sdhCfgReject l n
      else s := rfl

/-- The register, the event and the frame of a write of LTM_AU_CFG. -/
theorem ltmAuCfgWrite_taken (hl : l < 48) (hn : n < 64) (be : BitVec 4) (v : W32) :
    let a := Reg.ltmAuCfg l n
    let lawful := s.auTakes l n (s.merged a be v)
    let t := s.ltmAuCfgWrite l n be v
    t.rd a = (if s.isSdh l && lawful then s.merged a be v else s.rd a) ∧
      Told s t (s.isSdh l && !lawful) Ev.sdhCfgReject [l, n] ∧ Frame s t (theseRegs [a]) noBytes := by
  intro a lawful
  rw [ltmAuCfgWrite_eq]
  have hout : eventReg a = false := (ltm_apart hl (ltmRegs_auCfg hn)).2
  cases hsdh : s.isSdh l with
  | false => exact ⟨rfl, fun _ => (List.append_nil _).symm, .refl _ _ _⟩
  | true =>
    rw [if_pos rfl, Bool.true_and, Bool.true_and]
    cases hlawful : lawful with
    | true =>
      rw [if_pos hlawful, if_pos rfl]
      exact ⟨rd_wr_self .., fun _ => (List.append_nil _).symm, frame_wr _ _ _ (.inl (theseRegs_true.2 (by simp [a])))⟩
    | false =>
      rw [if_neg (by rw [show s.auTakes l n _ = false from hlawful]; exact Bool.false_ne_true),
        if_neg Bool.false_ne_true]
      have hraise : Frame s (s.raise Ev.sdhCfgReject l n) (theseRegs []) noBytes := frame_raise s _ _ _ _ _ _
      refine ⟨hraise.reg a rfl hout, fun hroom => ?_, hraise.mono (fun _ h => by cases h) fun _ => id⟩
      rw [staged_raise s hroom, Bool.not_false, Bool.true_and]
      rfl

end Sys2Proof.Machine
end

section
/-! SUPPORT. The statement about the configuration of a lane and its line termination. -/

namespace Sys2Proof

open Machine

variable {s t u x y : State} {l n : Nat}

/-- Before and after its effect a host write accounts for itself. -/
theorem Frame.throughAccount {regs regs' bytes : Nat → Bool} (hu : Unmoved s x hostAccount)
    (hy : Frame x y regs bytes) (ht : Unmoved y t hostAccount) (hr : ∀ a, regs a = true → regs' a = true)
    (haccount : ∀ a, hostAccount a = true → regs' a = true) : Frame s t regs' bytes :=
  ((hu.frame.mono haccount fun _ h => by cases h).trans (hy.mono hr fun _ => id)).trans
    (ht.frame.mono haccount fun _ h => by cases h)

theorem laneCfgOk_eq (role rate : Nat) :
    decide (rate ≠ 7 ∧ (role = 0 ∨ (1 ≤ role ∧ role ≤ 3 ∧ 4 ≤ rate) ∨ (role = 4 ∧ rate ≤ 3))) =
      laneCfgOk role rate := by
  rw [laneCfgOk, Bool.eq_iff_iff]
  simp only [decide_eq_true_eq, Bool.and_eq_true, Bool.or_eq_true, or_assoc, and_assoc]

/-- SDS_CFG after a host write that no reset holds off. -/
theorem laneCfgWrite_completes (hl : l < 48) (be : BitVec 4) (v : W32) (hbusy : s.flag F.rstStat_busy = false)
    (hretired : s.retired = false) :
    let new := mergeBe (s.rd (Reg.sdsCfg l)) (v &&& 0xFFFE0000) be
    let t := s.hostReg (Reg.sdsCfg l) be v fun s => s.laneCfgWrite l be v
    (if laneCfgOk (bits new 31 29) (bits new 28 26) then t.rd (Reg.sdsCfg l) = new
      else t.rd (Reg.sdsCfg l) = s.rd (Reg.sdsCfg l) ∧ bit (t.rd (Reg.sdsSticky l)) 6 = true) ∧
    t.role l = s.role l ∧ t.rate l = s.rate l ∧ Frame s t (orAt (laneRegs l) hostAccount) followBytes := by
  have hmirror : mirrored false (Reg.sdsCfg l) = false := by
    have hlo : 0x20000 ≤ Reg.sdsCfg l := by simp only [Reg.sdsCfg]; omega
    have hhi : Reg.sdsCfg l < 0x40000 := by simp only [Reg.sdsCfg]; omega
    show mirroredReg (Reg.sdsCfg l) = false
    generalize Reg.sdsCfg l = a at hlo hhi
    grind [mirroredReg]
  intro new t
  have ht : t = (s.received (Reg.sdsCfg l)).laneCfgWrite l be v := by
    rw [show t = s.fromHost (Reg.sdsCfg l) fun s => s.laneCfgWrite l be v from
      congrArg (s.fromHost (Reg.sdsCfg l)) (funext fun u => asHost_unmirrored u hmirror be v _), fromHost_idle s hbusy]
    rfl
  have hu := unmoved_received s (Reg.sdsCfg l)
  have hcfg : (s.received (Reg.sdsCfg l)).rd (Reg.sdsCfg l) = s.rd (Reg.sdsCfg l) := by
    obtain ⟨haccount, hevent⟩ := hostAccount_below (a := Reg.sdsCfg l) (by simp only [Reg.sdsCfg]; omega)
      (by simp only [Reg.sdsCfg]; omega)
    exact hu.rd haccount hevent
  have hkeeps : (s.received (Reg.sdsCfg l)).retired = false := by
    rw [State.retired, State.lc, fget_received s _ (by decide) (by decide)]
    exact hretired
  rw [ht]
  obtain ⟨hframe, hrole, hrate, hword⟩ := laneCfgWrite_taken (s.received (Reg.sdsCfg l)) hl be v hkeeps
  rw [hcfg] at hword
  refine ⟨hword, ?_, ?_, ?_⟩
  · rw [State.role, State.role, hrole, hu.lane]
  · rw [State.rate, State.rate, hrate, hu.lane]
  · exact Frame.throughAccount hu hframe (.refl _ _) (fun _ ha => orAt_true.2 (.inl ha)) fun _ ha =>
      orAt_true.2 (.inr ha)

/-- LTM_CFG after a host write that is taken. -/
theorem ltmCfgWrite_completes (hl : l < 48) (be : BitVec 4) (v : W32) (h : s.takesHost = true) :
    let w := s.merged (Reg.ltmCfg l) be v
    let t := s.hostReg (Reg.ltmCfg l) be v fun s => s.onSdhLane l fun s => s.ltmCfgWrite l be v
    t.rd (Reg.ltmCfg l) =
      (if s.isSdh l = false ∨ (bit w 30 = true ∧ s.rate l = 3) then s.rd (Reg.ltmCfg l) else w) ∧
    Frame s t (orAt (ltmRegs l) (orAt trbSummary hostAccount)) followBytes := by
  intro w t
  have ht := hostReg_taken s h (Reg.ltmCfg l) be v fun s => s.onSdhLane l fun s => s.ltmCfgWrite l be v
  have hu := unmoved_received s (Reg.ltmCfg l)
  obtain ⟨hlo, hhi⟩ := ltm_range hl (ltmRegs_cfg l)
  obtain ⟨haccount, hevent⟩ := hostAccount_below hhi hlo
  have heffect := structured_ltmCfgWrite (s.received (Reg.ltmCfg l)) l be v
  rw [hu.merged hhi hlo, hu.isSdh, hu.rate] at heffect
  have hcfg := hu.rd haccount hevent
  generalize s.received (Reg.ltmCfg l) = x at ht hu heffect hcfg
  have hlast : Structured (x.ltmCfgWrite l be v) ((x.ltmCfgWrite l be v).refreshTerms l) l :=
    (followed_refreshTerms _ l).frame.mono (fun _ ha => orAt_true.2 (.inr ha)) fun _ => id
  have hall := heffect.trans hlast
  have hword : t.rd (Reg.ltmCfg l) = _ := (ht.rd haccount hevent).trans (hall.reg _ (structureRegs_cfg hl) hevent)
  refine ⟨?_, ?_⟩
  · rw [hword]
    split
    · exact hcfg
    · exact rd_wr_self ..
  · have hstart : Frame x (if s.isSdh l = false ∨ (bit w 30 = true ∧ s.rate l = 3) then x
        else x.wr (Reg.ltmCfg l) w) (orAt (ltmRegs l) trbSummary) followBytes :=
      Frame.ite (fun _ => .refl _ _ _) fun _ => frame_wr x _ _ (.inl (orAt_true.2 (.inl (ltmRegs_cfg l))))
    have hbody : Frame x ((x.ltmCfgWrite l be v).refreshTerms l) (orAt (ltmRegs l) trbSummary) followBytes :=
      hstart.trans (hall.mono (fun a ha => orAt_true.2 ((orAt_true.1 ha).imp_left fun h' =>
        ((Bool.and_eq_true _ _).mp h').1)) fun _ => id)
    refine Frame.throughAccount hu hbody ht (fun a ha => ?_) fun a ha => ?_
    · rw [orAt_true] at ha
      rw [orAt_true, orAt_true]
      tauto
    · exact orAt_true.2 (.inr (orAt_true.2 (.inr ha)))

/-! ### The rules of R65, as the statement puts them -/

theorem auTakes_eq (s : State) (l n : Nat) (w : W32) :
    s.auTakes l n w =
      let cfg := fun m => if m = n then w else s.auStored l m
      let shaped := decide (auTypeOf w = 0) || auShapeOk (s.au3 l) (stmN (s.rate l)) w n
      let covered := decide (auTypeOf w ≠ 0) && (auHead? (s.au3 l) (stmN (s.rate l)) cfg n).isSome
      let takes := auShapeOk (s.au3 l) (stmN (s.rate l)) w n &&
        (auSpan (s.au3 l) w n).any fun m => auTypeOf (cfg m) ≠ 0
      shaped && !covered && !takes && bits w 29 28 ≠ 3 := by
  unfold State.auTakes auLawful auNcOf
  dsimp only
  simp only [↓reduceIte]
  cases auHead? (s.au3 l) (stmN (s.rate l)) (fun m => if m = n then w else s.auStored l m) n <;>
    by_cases htype : auTypeOf w = 0 <;> by_cases hnc : bits w 29 28 = 3 <;> simp [htype, hnc]

/-- No entry spans AU numbers beyond 1,023, lawful or not. -/
theorem auSpan_lt (au3 : Bool) (w : W32) (hn : n < 64) : ∀ m ∈ auSpan au3 w n, m < 1024 := by
  intro m hm
  have hsize : ncSize (auNcOf w) ≤ 4 * 4 ^ 3 :=
    Nat.mul_le_mul_left 4 (Nat.pow_le_pow_right (by decide) (Nat.le_of_lt_succ (bits_lt w 29 28)))
  unfold auSpan at hm
  dsimp only at hm
  cases au3 <;> simp only [if_true, if_false, Bool.false_eq_true] at hm
  · split_ifs at hm
    · cases hm
    · simp only [List.mem_filter, List.mem_map, List.mem_range] at hm
      omega
    · cases hm
  · split_ifs at hm
    · simp only [List.mem_cons, List.not_mem_nil, or_false] at hm
      omega
    · simp only [List.mem_filter, List.mem_map, List.mem_range] at hm
      omega
    · cases hm

theorem auTakes_congr (hl : l < 48) (hn : n < 64) (hu : Unmoved s u hostAccount) (w : W32) :
    u.auTakes l n w = s.auTakes l n w := by
  have hcfg : u.flag (F.ltmCfg_au3 l) = s.flag (F.ltmCfg_au3 l) := by
    obtain ⟨hlo, hhi⟩ := ltm_range hl (ltmRegs_cfg l)
    obtain ⟨haccount, hevent⟩ := hostAccount_below hhi hlo
    rw [State.flag, State.flag, State.fget, State.fget, hu.rd haccount hevent]
  have hau3 : u.au3 l = s.au3 l := by rw [State.au3, State.au3, hcfg, hu.rate]
  have hstored : ∀ m, m < 1024 → u.auStored l m = s.auStored l m := fun m hm => by
    obtain ⟨haccount, hevent⟩ := hostAccount_below (a := Reg.ltmAuCfg l m) (by simp only [Reg.ltmAuCfg]; omega)
      (by simp only [Reg.ltmAuCfg]; omega)
    exact hu.rd haccount hevent
  have hentry : ∀ m, m < 1024 → (if m = n then w else u.auStored l m) = if m = n then w else s.auStored l m :=
    fun m hm => by rw [hstored m hm]
  have hhead : auHead? (s.au3 l) (stmN (s.rate l)) (fun m => if m = n then w else u.auStored l m) n =
      auHead? (s.au3 l) (stmN (s.rate l)) (fun m => if m = n then w else s.auStored l m) n :=
    List.find?_congr fun m hm => by
      dsimp only
      rw [hentry m (Nat.lt_trans (List.mem_range.1 hm) (by decide))]
  have hspan : ((auSpan (s.au3 l) w n).any fun m => auTypeOf (if m = n then w else u.auStored l m) ≠ 0) =
      (auSpan (s.au3 l) w n).any fun m => auTypeOf (if m = n then w else s.auStored l m) ≠ 0 := by
    rw [Bool.eq_iff_iff, List.any_eq_true, List.any_eq_true]
    exact exists_congr fun m => and_congr_right fun hm => by rw [hentry m (auSpan_lt _ w hn m hm)]
  rw [auTakes_eq, auTakes_eq, hau3, hu.rate]
  dsimp only
  rw [hhead, hspan]

/-- LTM_AU_CFG after a host write that is taken. -/
theorem ltmAuCfgWrite_completes (hl : l < 48) (hn : n < 64) (be : BitVec 4) (v : W32) (h : s.takesHost = true) :
    let a := Reg.ltmAuCfg l n
    let lawful := s.auTakes l n (s.merged a be v)
    let t := s.hostReg a be v fun s => s.ltmAuCfgWrite l n be v
    t.rd a = (if s.isSdh l && lawful then s.merged a be v else s.rd a) ∧
      Told s t (s.isSdh l && !lawful) Ev.sdhCfgReject [l, n] ∧ Frame s t (orAt (theseRegs [a]) hostAccount) noBytes := by
  intro a lawful t
  have ht := hostReg_taken s h a be v fun s => s.ltmAuCfgWrite l n be v
  have hu := unmoved_received s a
  obtain ⟨hlo, hhi⟩ := ltm_range hl (ltmRegs_auCfg hn)
  obtain ⟨haccount, hevent⟩ := hostAccount_below hhi hlo
  obtain ⟨hword, htold, hframe⟩ := ltmAuCfgWrite_taken (s.received a) hl hn be v
  have hmerged : (s.received a).merged a be v = s.merged a be v := hu.merged hhi hlo be v
  have htakes : (s.received a).auTakes l n (s.merged a be v) = lawful := auTakes_congr hl hn hu _
  rw [hmerged, hu.isSdh, htakes] at hword htold
  refine ⟨?_, ?_, ?_⟩
  · rw [ht.rd haccount hevent, hword, hu.rd haccount hevent]
  · exact Told.of_account hu (by decide) htold ht
  · exact Frame.throughAccount hu hframe ht (fun _ ha => orAt_true.2 (.inl ha)) fun _ ha => orAt_true.2 (.inr ha)

/-- Settles O6: each write acts on the state that has received it, which shows what the state before it showed, and
the mirror keeps its record behind the effect. -/
theorem laneAndLineConfiguration : Obligations.LaneAndLineConfiguration := by
  intro l be v s block
  have hl : l.val < 48 := l.isLt
  have hup : s.takesHost = true → s.up = true := fun h => by
    simp only [State.takesHost, Bool.and_eq_true] at h
    exact h.1.1
  refine ⟨fun hup hbusy hretired => ?lane, fun h => ?line, fun h n => ?au⟩
  case lane =>
    obtain ⟨hword, hrole, hrate, hframe⟩ := laneCfgWrite_completes hl be v hbusy hretired
    refine completes_of_up (f := fun s => s.hostReg (Reg.sdsCfg l.val) be v fun s => s.laneCfgWrite l.val be v) hup
      rfl ?_
    intro new role rate lawful
    have hlawful : lawful = laneCfgOk role rate := laneCfgOk_eq role rate
    rw [hlawful]
    refine ⟨fun hok => ?_, fun hbad => ?_, hrole, hrate, hframe⟩
    · rwa [if_pos hok] at hword
    · rwa [if_neg (by rw [hbad]; exact Bool.false_ne_true)] at hword
  case line =>
    exact completes_of_up (f := fun s => s.hostReg (Reg.ltmCfg l.val) be v fun s => s.onSdhLane l.val fun s =>
      s.ltmCfgWrite l.val be v) (hup h) rfl (ltmCfgWrite_completes hl be v h)
  case au =>
    have htaken := ltmAuCfgWrite_completes hl n.isLt be v h
    refine completes_of_up (f := fun s => s.hostReg (Reg.ltmAuCfg l.val n.toNat) be v fun s =>
      s.ltmAuCfgWrite l.val n.toNat be v) (hup h) rfl ?_
    dsimp only at htaken
    rw [auTakes_eq] at htaken
    exact htaken

end Sys2Proof
end

section
/-! SUPPORT. An event, a record of the history and the completion of a ring command: they change registers, the events,
the history and the commands in progress, and no other part of the state. -/

namespace Sys2Proof

open Machine

/-- The command waits for the store (R312, R313). -/
def Machine.Waiting.onStore : Waiting → Bool
  | .storeRead => true
  | .storeMark _ => true
  | _ => false

/-- Of what is waited for at most the number of a marker changes. -/
def Renumbers (f : Waiting → Waiting) : Prop :=
  ∀ w, (f w).onStore = w.onStore ∧ (w.onStore = false → f w = w)

theorem renumbers_id : Renumbers id := fun _ => ⟨rfl, fun _ => rfl⟩

theorem Renumbers.comp {f g : Waiting → Waiting} (hf : Renumbers f) (hg : Renumbers g) : Renumbers (g ∘ f) := fun w =>
  ⟨(hg (f w)).1.trans (hf w).1, fun h => ((hg (f w)).2 ((hf w).1.trans h)).trans ((hf w).2 h)⟩

theorem renumbers_evicted (n : Nat) : Renumbers (·.evicted n) := fun w => by
  cases w with
  | storeMark m => cases m <;> exact ⟨rfl, nofun⟩
  | _ => exact ⟨rfl, fun _ => rfl⟩

/-- Only registers, events, the history and the ring commands differ; the pins of the drive stay, and every command in
progress goes on. -/
structure Noted (s t : State) : Prop where
  rest : t = { s with regs := t.regs, evt := t.evt, hst := t.hst, hif := t.hif }
  pins : t.hst.pwrEn = s.hst.pwrEn ∧ t.hst.perstN = s.hst.perstN
  busy : ∃ f, Renumbers f ∧ t.hif.busy = s.hif.busy.map fun q => (q.1, q.2.1, f q.2.2)

variable {s t u : State}

theorem Noted.of_busy (hrest : t = { s with regs := t.regs, evt := t.evt, hst := t.hst, hif := t.hif })
    (hpins : t.hst.pwrEn = s.hst.pwrEn ∧ t.hst.perstN = s.hst.perstN) (hbusy : t.hif.busy = s.hif.busy) : Noted s t :=
  ⟨hrest, hpins, id, renumbers_id, hbusy.trans (List.map_id _).symm⟩

theorem Noted.refl (s : State) : Noted s s := .of_busy rfl ⟨rfl, rfl⟩ rfl

theorem Noted.trans (h : Noted s t) (k : Noted t u) : Noted s u where
  rest := k.rest.trans (by rw [h.rest])
  pins := ⟨k.pins.1.trans h.pins.1, k.pins.2.trans h.pins.2⟩
  busy := by
    obtain ⟨f, hf, hs⟩ := h.busy
    obtain ⟨g, hg, ht⟩ := k.busy
    exact ⟨g ∘ f, hf.comp hg, by rw [ht, hs, List.map_map]; rfl⟩

theorem Noted.ite {c : Prop} [Decidable c] {x y : State} (hx : c → Noted s x) (hy : ¬ c → Noted s y) :
    Noted s (if c then x else y) := by
  split
  · exact hx (by assumption)
  · exact hy (by assumption)

theorem Noted.foldl {α : Type} {f : State → α → State} (hf : ∀ s x, Noted s (f s x)) :
    ∀ (l : List α) (s : State), Noted s (l.foldl f s)
  | [], s => .refl s
  | x :: l, s => (hf s x).trans (Noted.foldl hf l (f s x))

theorem Noted.mem (h : Noted s t) : t.mem = s.mem := by rw [h.rest]
theorem Noted.terms (h : Noted s t) : t.terms = s.terms := by rw [h.rest]
theorem Noted.power (h : Noted s t) : t.power = s.power := by rw [h.rest]
theorem Noted.nrg (h : Noted s t) : t.nrg = s.nrg := by rw [h.rest]

/-- The commands that wait for something other than the store. -/
def Machine.State.elsewhere (s : State) : Sparse (CmdEntry × Waiting) := s.hif.busy.filter fun q => !q.2.2.onStore

theorem Noted.elsewhere (h : Noted s t) : t.elsewhere = s.elsewhere := by
  obtain ⟨f, hf, hbusy⟩ := h.busy
  unfold State.elsewhere
  rw [hbusy, List.filter_map]
  have hcond : ((fun q : Nat × CmdEntry × Waiting => !q.2.2.onStore) ∘
      fun q : Nat × CmdEntry × Waiting => (q.1, q.2.1, f q.2.2)) = fun q => !q.2.2.onStore := by
    funext q
    exact congrArg (!·) (hf q.2.2).1
  rw [hcond]
  refine (List.map_congr_left fun q hq => ?_).trans (List.map_id _)
  have hstore : q.2.2.onStore = false := by simpa using (List.mem_filter.1 hq).2
  rw [(hf q.2.2).2 hstore]
  rfl

/-- No command waits for the store. -/
def Machine.State.storeFree (s : State) : Prop := s.elsewhere = s.hif.busy

theorem Noted.busy_of_free (h : Noted s t) (hs : s.storeFree) : t.hif.busy = s.hif.busy := by
  obtain ⟨f, hf, hbusy⟩ := h.busy
  rw [hbusy]
  refine (List.map_congr_left fun q hq => ?_).trans (List.map_id _)
  rw [← hs] at hq
  have hstore : q.2.2.onStore = false := by simpa using (List.mem_filter.1 hq).2
  rw [(hf q.2.2).2 hstore]
  rfl

end Sys2Proof

namespace Sys2Proof.Machine

variable (s : State)

theorem noted_wr (a : Nat) (v : W32) : Noted s (s.wr a v) := .of_busy rfl ⟨rfl, rfl⟩ rfl

theorem noted_count (a n : Nat) : Noted s (s.count a n) := noted_wr s a _

theorem noted_stageEvent (e : Event) : Noted s (s.stageEvent e) := by
  unfold State.stageEvent
  dsimp only
  refine .ite (fun _ => .of_busy rfl ⟨rfl, rfl⟩ rfl) fun _ => .trans (noted_count s Reg.evtCntDrop 1) ?_
  exact .ite (fun _ => .of_busy rfl ⟨rfl, rfl⟩ rfl) fun _ => .of_busy rfl ⟨rfl, rfl⟩ rfl

theorem noted_appendRecord (typ sev low : Nat) (ws : List W32) : Noted s (s.appendRecord typ sev low ws) :=
  .of_busy rfl ⟨rfl, rfl⟩ rfl

theorem noted_evictRecord (sev : Nat) : Noted s (s.evictRecord sev) where
  rest := rfl
  pins := ⟨rfl, rfl⟩
  busy := ⟨_, renumbers_evicted _, rfl⟩

theorem noted_stageRecord (typ sev low : Nat) (ws : List W32) : Noted s (s.stageRecord typ sev low ws) := by
  unfold State.stageRecord
  dsimp only
  refine .ite (fun _ => noted_appendRecord ..) fun _ => .trans (noted_count s Reg.hstCntDrop 1) ?_
  exact .ite (fun _ => (noted_evictRecord _ _).trans (noted_appendRecord ..)) fun _ => .refl _

theorem noted_raiseAs (deliver ring : Bool) (e : EvName) (ps : List W32) : Noted s (s.raiseAs deliver ring e ps) := by
  unfold State.raiseAs
  dsimp only
  generalize Event.mk _ _ _ _ _ _ = ev
  exact (Noted.ite (fun _ => noted_stageEvent s ev) fun _ => .refl _).trans
    (.ite (fun _ => noted_stageRecord ..) fun _ => .refl _)

theorem noted_raise (e : EvName) (w1 w2 w3 w4 w5 : Nat) : Noted s (s.raise e w1 w2 w3 w4 w5) := noted_raiseAs s _ _ _ _

theorem noted_finish (r : Nat) (c : CmdEntry) (status reason r0 r1 : Nat) :
    Noted s (s.finish r c status reason r0 r1) := by
  unfold State.finish
  dsimp only
  exact ((noted_count s _ _).trans (.ite (fun _ => noted_count _ _ _) fun _ => .refl _)).trans (noted_raiseAs ..)

end Sys2Proof.Machine
end

section
/-! SUPPORT. The store port and the level in force: what the kick of the port, the end of its commands and a change of
the shed level make of the state (R311, R312, R321, R322). -/

namespace Sys2Proof

open Machine

variable {s t u : State} {bytes : Nat → Bool}

theorem Frame.widen {l l' : List Nat} (h : Frame s t (theseRegs l) bytes) (hsub : l ⊆ l') :
    Frame s t (theseRegs l') bytes :=
  h.mono (fun _ ha => theseRegs_true.2 (hsub (theseRegs_true.1 ha))) fun _ => id

/-- Only registers and the history store differ. -/
def Ported (s t : State) : Prop := t = { s with regs := t.regs, hst := t.hst }

theorem Ported.trans (h : Ported s t) (k : Ported t u) : Ported s u := by
  unfold Ported at h k ⊢
  rw [k, h]

theorem Ported.hst (h : Ported s t) (x : HstSt) : Ported s { t with hst := x } := by
  unfold Ported at h ⊢
  rw [h]

/-- Registers that a change of the level reaches. -/
abbrev levelRegs : List Nat := [Reg.nrgStat, Reg.nrgCntLevel, Reg.hstStat]

/-- A field of NRG_STAT below the level in force. -/
def LevelFree (f : Fld) : Prop := f.reg = Reg.nrgStat ∧ f.hi < 29

/-- The level follows the demands: NRG_STAT shows it, a rise is counted, a change is told, and while the store is shut
off the store port stays. -/
structure Releveled (s t : State) : Prop where
  frame  : Frame s t (theseRegs levelRegs) noBytes
  level  : t.fget F.nrgStat_level = s.levelWanted
  fields : ∀ f, LevelFree f → t.fget f = s.fget f
  count  : t.rd Reg.nrgCntLevel =
    s.rd Reg.nrgCntLevel + if s.fget F.nrgStat_level < s.levelWanted then 1 else 0
  told   : Told s t (decide (s.levelWanted ≠ s.fget F.nrgStat_level)) Ev.nrgLevel [0, 0, s.levelWanted]
  rest   : t = { s with regs := t.regs, evt := t.evt, hst := t.hst, hif := t.hif }
  shut   : s.flag F.nrgStat_pfail = true → Noted s t ∧ t.rd Reg.hstStat = s.rd Reg.hstStat

/-- The demands of the floor, the budget and the temperature stay. -/
theorem levelWanted_congr (hreg : ∀ a ∈ [Reg.nrgCfg, Reg.nrgFloor], t.rd a = s.rd a)
    (hfields : ∀ f, LevelFree f → t.fget f = s.fget f) : t.levelWanted = s.levelWanted := by
  have hfget : ∀ f : Fld, f.reg = Reg.nrgCfg ∨ f.reg = Reg.nrgFloor → t.fget f = s.fget f := fun f hf => by
    rw [State.fget, State.fget, hreg f.reg (by simpa using hf)]
  unfold State.levelWanted State.floorLevel State.flag
  rw [hfields F.nrgStat_floor ⟨rfl, by decide⟩, hfields F.nrgStat_budgetLvl ⟨rfl, by decide⟩,
    hfields F.nrgStat_thermLvl ⟨rfl, by decide⟩, hfget F.nrgFloor_level (.inr rfl), hfget F.nrgCfg_en (.inl rfl)]

theorem Releveled.wanted (h : Releveled s t) : t.levelWanted = s.levelWanted :=
  levelWanted_congr (fun a ha => h.frame.reg a (by revert a; decide) (by revert a; decide)) h.fields

end Sys2Proof

namespace Sys2Proof.Machine

variable (s : State)

/-! ### The port begins what there is to do (R311) -/

theorem ported_wr (a : Nat) (v : W32) : Ported s (s.wr a v) := rfl

theorem ported_setHstHead (n : Nat) : Ported s (s.setHstHead n) := by
  unfold State.setHstHead
  dsimp only
  exact (((ported_wr s _ _).trans (ported_wr _ _ _)).trans (ported_wr _ _ _)).trans (ported_wr _ _ _)

theorem ported_toStore (st : Nat) : Ported s (s.toStore st) := (ported_wr s _ _).hst _

theorem frame_hst (x : HstSt) : Frame s { s with hst := x } (theseRegs [Reg.hstStat]) noBytes :=
  .of_hidden ⟨rfl, rfl, rfl, rfl, rfl⟩ rfl

theorem frame_toStore (st : Nat) : Frame s (s.toStore st) (theseRegs [Reg.hstStat]) noBytes :=
  (frame_fset s F.hstStat_state st (.inl (by decide))).trans (frame_hst _ _)

/-- The kick leaves the port, or begins one of its tasks. -/
theorem storeKick_cases : s.storeKick = s ∨ s.storeKick = s.beginPower ∨ s.storeKick = s.beginErase ∨
    s.storeKick = s.beginFlush := by
  unfold State.storeKick
  split_ifs <;> simp only [true_or, or_true]

theorem ported_storeKick : Ported s s.storeKick := by
  rcases storeKick_cases s with h | h | h | h <;> rw [h]
  · rfl
  · exact (ported_toStore s hsPowering).hst _
  · exact ((ported_toStore s hsErasing).trans (ported_setHstHead _ 0)).hst _
  · exact (ported_toStore s hsFlushing).hst _

theorem frame_storeKick : Frame s s.storeKick (theseRegs [Reg.hstStat]) noBytes := by
  rcases storeKick_cases s with h | h | h | h <;> rw [h]
  · exact .refl _ _ _
  · exact (frame_toStore s hsPowering).trans (frame_hst _ _)
  · exact ((frame_toStore s hsErasing).trans (frame_setHstHead _ 0)).trans (frame_hst _ _)
  · exact (frame_toStore s hsFlushing).trans (frame_hst _ _)

/-- During a power failure the port does not act (R321). -/
theorem storeKick_of_pfail (h : s.flag F.nrgStat_pfail = true) : s.storeKick = s := by
  unfold State.storeKick State.storeAllowed
  rw [h, Bool.not_true, Bool.and_false, Bool.false_and]
  rfl

/-! ### The level in force (R322) -/

theorem levelWanted_lt : s.levelWanted < 8 := by
  have hbudget : s.fget F.nrgStat_budgetLvl < 8 := bits_lt ..
  have htherm : s.fget F.nrgStat_thermLvl < 8 := bits_lt ..
  unfold State.levelWanted State.floorLevel
  split_ifs <;> omega

/-- NRG_STAT shows the level `n`, and a rise to it is counted. -/
def State.levelSet (s : State) (n : Nat) : State :=
  if s.fget F.nrgStat_level < n then (s.fset F.nrgStat_level n).count Reg.nrgCntLevel else s.fset F.nrgStat_level n

theorem relevel_eq : s.relevel = if s.levelWanted = s.fget F.nrgStat_level then s else
    ((s.levelSet s.levelWanted).raise Ev.nrgLevel 0 0 s.levelWanted).storeKick := by
  unfold State.relevel State.levelSet
  rfl

theorem fget_fset_level {n : Nat} (h : n < 8) : (s.fset F.nrgStat_level n).fget F.nrgStat_level = n := by
  have hwidth : 2 ^ (F.nrgStat_level.hi + 1 - F.nrgStat_level.lo) = 8 := by decide
  rw [fget_fset_self s n ⟨by decide, by decide⟩, hwidth, Nat.mod_eq_of_lt h]

theorem fget_fset_level_free (n : Nat) {f : Fld} (hf : LevelFree f) : (s.fset F.nrgStat_level n).fget f = s.fget f :=
  fget_fset_apart s n ⟨by decide, by decide⟩ (.inr hf.2)

theorem rd_fset_level (n : Nat) : (s.fset F.nrgStat_level n).rd Reg.nrgCntLevel = s.rd Reg.nrgCntLevel :=
  rd_fset_ne s _ _ (by decide)

theorem frame_fset_level (n : Nat) :
    Frame s (s.fset F.nrgStat_level n) (theseRegs [Reg.nrgStat, Reg.nrgCntLevel]) noBytes :=
  frame_fset s _ _ (.inl (by decide))

theorem noted_fset (f : Fld) (n : Nat) : Noted s (s.fset f n) := noted_wr s _ _

theorem levelSet_shows {n : Nat} (h : n < 8) :
    Frame s (s.levelSet n) (theseRegs [Reg.nrgStat, Reg.nrgCntLevel]) noBytes ∧ Noted s (s.levelSet n) ∧
    (s.levelSet n).fget F.nrgStat_level = n ∧ (∀ f, LevelFree f → (s.levelSet n).fget f = s.fget f) ∧
    (s.levelSet n).rd Reg.nrgCntLevel =
      s.rd Reg.nrgCntLevel + (if s.fget F.nrgStat_level < n then 1 else 0) ∧
    (s.levelSet n).evt = s.evt := by
  have hself := fget_fset_level s h
  have hother := fun f => fget_fset_level_free (f := f) s n
  have hcnt := rd_fset_level s n
  have hframe := frame_fset_level s n
  have hnoted := noted_fset s F.nrgStat_level n
  have hevt := State.fset_evt s F.nrgStat_level n
  unfold State.levelSet
  generalize s.fset F.nrgStat_level n = u at *
  by_cases hrise : s.fget F.nrgStat_level < n
  · rw [if_pos hrise, if_pos hrise]
    refine ⟨hframe.trans (frame_count u _ 1 (.inl (by decide))), hnoted.trans (noted_count u _ 1), ?_, fun f hf => ?_,
      ?_, (State.count_evt u _ 1).trans hevt⟩
    · exact (fget_wr_ne u _ (by decide)).trans hself
    · exact (fget_wr_ne u _ (by rw [hf.1]; decide)).trans (hother f hf)
    · rw [rd_count_self, hcnt]
      rfl
  · rw [if_neg hrise, if_neg hrise]
    exact ⟨hframe, hnoted, hself, hother, hcnt.trans (BitVec.add_zero _).symm, hevt⟩

theorem releveled_relevel : Releveled s s.relevel := by
  rw [relevel_eq]
  by_cases hsame : s.levelWanted = s.fget F.nrgStat_level
  · rw [if_pos hsame]
    refine ⟨.refl _ _ _, hsame.symm, fun _ _ => rfl, ?_, fun _ => ?_, rfl, fun _ => ⟨.refl s, rfl⟩⟩
    · rw [if_neg (by omega)]
      exact (BitVec.add_zero _).symm
    · rw [decide_eq_false (not_not_intro hsame), Bool.false_and]
      exact (List.append_nil _).symm
  rw [if_neg hsame]
  obtain ⟨hset, hnoted, hlevel, hfields, hcount, hevt⟩ := levelSet_shows s (levelWanted_lt s)
  generalize s.levelSet s.levelWanted = u at hset hnoted hlevel hfields hcount hevt ⊢
  have hraise : Frame u (u.raise Ev.nrgLevel 0 0 s.levelWanted) (theseRegs []) noBytes :=
    frame_raise u _ _ _ _ _ _
  have hnote := hnoted.trans (noted_raise u Ev.nrgLevel 0 0 s.levelWanted 0 0)
  have hroom := staged_raise u (e := Ev.nrgLevel) (w1 := 0) (w2 := 0) (w3 := s.levelWanted) (w4 := 0) (w5 := 0)
  generalize u.raise Ev.nrgLevel 0 0 s.levelWanted = v at hraise hnote hroom ⊢
  have hkick : Frame u v.storeKick (theseRegs [Reg.hstStat]) noBytes :=
    (hraise.mono (fun _ h => by cases h) fun _ => id).trans (frame_storeKick v)
  have hall : Frame s v.storeKick (theseRegs levelRegs) noBytes :=
    (hset.widen (by simp)).trans (hkick.widen (by simp))
  have hkept : ∀ a ∈ [Reg.nrgStat, Reg.nrgCntLevel], v.storeKick.rd a = u.rd a := fun a ha =>
    hkick.reg a (by revert a; decide) (by revert a; decide)
  have hstat : ∀ f : Fld, f.reg = Reg.nrgStat → v.storeKick.fget f = u.fget f := fun f hf => by
    rw [State.fget, State.fget, hf, hkept _ (by simp)]
  refine ⟨hall, (hstat _ rfl).trans hlevel, fun f hf => (hstat f hf.1).trans (hfields f hf),
    (hkept _ (by simp)).trans hcount, fun h => ?_, ?_, fun hpfail => ?_⟩
  · obtain ⟨hdelivers, hevent⟩ := hset.eventOf (e := Ev.nrgLevel) (by decide) [0, 0, s.levelWanted]
    have hu : u.eventRoom = true := by rw [State.eventRoom, hevt]; exact h
    have hstaged : v.storeKick.evt = v.evt := by rw [ported_storeKick v]
    rw [hstaged, hroom hu, hevt, hdelivers, decide_eq_true hsame, Bool.true_and, ← hevent]
    rfl
  · rw [ported_storeKick v, hnote.rest]
  · have hv : v.flag F.nrgStat_pfail = true := by
      rw [← hpfail, State.flag, State.flag, ← hfields _ ⟨rfl, by decide⟩, hraise.fget (by decide) (by decide)]
    have hstore : v.rd Reg.hstStat = s.rd Reg.hstStat :=
      (hraise.reg _ rfl (by decide)).trans (hset.reg _ (by decide) (by decide))
    rw [storeKick_of_pfail v hv]
    exact ⟨hnote, hstore⟩

end Sys2Proof.Machine
end

section
/-! SUPPORT. A power failure at the store port: what waits for the store ends, and the port is switched off unless it
is off already or may end a flush (R312, R313, R321). -/

namespace Sys2Proof

open Machine

variable {s t u : State}

/-- The port stays as a power failure finds it: it is not on, or it may end a flush (R321). -/
def Machine.State.portStays (s : State) : Prop := s.store = hsFailed ∨ s.store = hsOff ∨
  s.flag F.nrgFloor_finishFlush = true ∧ (s.store = hsFlushing ∨ s.store = hsShutdown)


/-- The commands that wait for the store have ended. -/
structure StoreEnded (s t : State) : Prop where
  frame : Frame s t (theseRegs [Reg.hifCntCmd]) noBytes
  rest  : t = { s with regs := t.regs, evt := t.evt, hst := t.hst, hif := t.hif }
  pins  : t.hst.pwrEn = s.hst.pwrEn ∧ t.hst.perstN = s.hst.perstN
  busy  : t.hif.busy = s.elsewhere

end Sys2Proof

namespace Sys2Proof.Machine

variable (s : State)

/-- The state with only those commands left that wait for something other than the store. -/
def State.storeReleased (s : State) : State := { s with hif := { s.hif with busy := s.elsewhere } }

theorem storeFree_storeReleased : s.storeReleased.storeFree := by
  unfold State.storeFree State.elsewhere
  exact (List.filter_filter ..).trans (congrArg (fun p => List.filter p s.hif.busy) (funext fun q => Bool.and_self _))

theorem noted_finishAll (f : Waiting → Nat × Nat × Nat × Nat) :
    Noted s.storeReleased (s.finishAll Waiting.onStore f) := by
  unfold State.finishAll
  exact .foldl (fun u q => noted_finish u _ _ _ _ _ _) _ _

/-- How a command that waits for the store ends when there is none: with the number of its record, if it has one. -/
def noStoreReply : Waiting → Nat × Nat × Nat × Nat
  | .storeMark (some n) => (csNoStore, 0, n % 2 ^ 32, n / 2 ^ 32)
  | _ => (csNoStore, 0, 0, 0)

theorem noStoreReply_status (w : Waiting) : (noStoreReply w).1 ≠ csDmaError := by
  have hstatus : (noStoreReply w).1 = csNoStore := by
    unfold noStoreReply
    split <;> rfl
  rw [hstatus]
  decide

/-- No read of the store is due any more. -/
def State.readDropped (s : State) : State := { s with hst := { s.hst with readDue := false } }

theorem noStore_eq : s.noStore = s.readDropped.finishAll Waiting.onStore noStoreReply := by
  unfold State.noStore State.readDropped
  refine congrArg₂ (State.finishAll _) (funext fun w => ?_) (funext fun w => ?_)
  · cases w <;> rfl
  · cases w <;> rfl

theorem frame_readDropped : Frame s s.readDropped (theseRegs [Reg.hifCntCmd]) noBytes :=
  .of_hidden ⟨rfl, rfl, rfl, rfl, rfl⟩ rfl

theorem storeEnded_finishAll {f : Waiting → Nat × Nat × Nat × Nat} (hf : ∀ w, (f w).1 ≠ csDmaError) :
    StoreEnded s (s.finishAll Waiting.onStore f) := by
  have hnoted := noted_finishAll s f
  have hframe : Frame s (s.finishAll Waiting.onStore f) (theseRegs [Reg.hifCntCmd]) noBytes :=
    (aside_finishAll s Waiting.onStore f (by decide) hf).frame
  generalize s.finishAll Waiting.onStore f = t at hnoted hframe
  exact ⟨hframe, hnoted.rest, hnoted.pins, hnoted.busy_of_free (storeFree_storeReleased s)⟩

theorem storeEnded_noStore : StoreEnded s s.noStore := by
  rw [noStore_eq]
  have hended := storeEnded_finishAll s.readDropped noStoreReply_status
  generalize s.readDropped.finishAll Waiting.onStore noStoreReply = t at hended
  exact ⟨(frame_readDropped s).trans hended.frame, hended.rest, hended.pins, hended.busy⟩

/-! ### The port is switched off -/

theorem ported_cutPower : Ported s s.cutPower := (ported_wr s _ _).hst _

theorem frame_cutPower : Frame s s.cutPower (theseRegs [Reg.hstStat]) noBytes :=
  (frame_fset s F.hstStat_linkRate 0 (.inl (by decide))).trans (frame_hst _ _)

theorem store_hst (x : HstSt) : { s with hst := x }.store = s.store := rfl

theorem store_toStore {st : Nat} (h : st < 8) : (s.toStore st).store = st := by
  have hwidth : 2 ^ (F.hstStat_state.hi + 1 - F.hstStat_state.lo) = 8 := by decide
  have hself := fget_fset_self s (f := F.hstStat_state) st ⟨by decide, by decide⟩
  rw [hwidth, Nat.mod_eq_of_lt h] at hself
  exact (store_hst (s.fset F.hstStat_state st) _).trans hself

theorem pins_cutPower : s.cutPower.hst.pwrEn = false ∧ s.cutPower.hst.perstN = false := ⟨rfl, rfl⟩

theorem store_cutPower : s.cutPower.store = s.store :=
  (store_hst (s.fset F.hstStat_linkRate 0) _).trans <|
    fget_fset_apart s (f := F.hstStat_linkRate) (g := F.hstStat_state) 0 ⟨by decide, by decide⟩ (.inl (by decide))

/-- What a power failure makes of the store port. -/
structure StoreCut (s t : State) : Prop where
  frame : Frame s t (theseRegs [Reg.hstStat, Reg.hifCntCmd]) noBytes
  rest  : t = { s with regs := t.regs, evt := t.evt, hst := t.hst, hif := t.hif }
  busy  : t.hif.busy = s.elsewhere
  stays : s.portStays → t.store = s.store ∧ t.hst.pwrEn = s.hst.pwrEn
  cut   : ¬ s.portStays → t.store = hsOff ∧ t.hst.pwrEn = false ∧ t.hst.perstN = false

theorem store_of_ended {t : State} (h : StoreEnded s t) : t.store = s.store :=
  h.frame.fget (f := F.hstStat_state) (by decide) (by decide)

theorem storePfail_eq [Decidable s.portStays] :
    s.storePfail = if s.portStays then s.noStore else (s.toStore hsOff).cutPower.noStore := by
  unfold State.storePfail State.storeOff
  by_cases hoff : s.store = hsFailed ∨ s.store = hsOff
  · rw [if_pos (by simpa using hoff), if_pos (hoff.elim .inl fun h => .inr (.inl h))]
  · rw [if_neg (by simpa using hoff)]
    by_cases hends : s.flag F.nrgFloor_finishFlush = true ∧ (s.store = hsFlushing ∨ s.store = hsShutdown)
    · rw [if_pos (by simpa using hends), if_pos (.inr (.inr hends))]
    · rw [if_neg (by simpa using hends), if_neg (by unfold State.portStays; tauto)]

theorem storeCut_of_stays {t : State} (h : s.portStays) (hended : StoreEnded s t) : StoreCut s t :=
  ⟨hended.frame.widen (by simp), hended.rest, hended.busy, fun _ => ⟨store_of_ended s hended, hended.pins.1⟩,
    fun hn => absurd h hn⟩

theorem storeCut_of_off {u t : State} (h : ¬ s.portStays) (hport : Ported s u)
    (hframe : Frame s u (theseRegs [Reg.hstStat]) noBytes) (hoff : u.store = hsOff)
    (hpins : u.hst.pwrEn = false ∧ u.hst.perstN = false) (hended : StoreEnded u t) : StoreCut s t where
  frame := (hframe.widen (by simp)).trans (hended.frame.widen (by simp))
  rest := by rw [hended.rest, hport]
  busy := hended.busy.trans (by rw [hport]; rfl)
  stays hs := absurd hs h
  cut _ := ⟨(store_of_ended u hended).trans hoff, hended.pins.1.trans hpins.1, hended.pins.2.trans hpins.2⟩

theorem storeCut_storePfail : StoreCut s s.storePfail := by
  classical
  rw [storePfail_eq]
  by_cases hstays : s.portStays
  · rw [if_pos hstays]
    exact storeCut_of_stays s hstays (storeEnded_noStore s)
  · rw [if_neg hstays]
    exact storeCut_of_off s hstays ((ported_toStore s hsOff).trans (ported_cutPower _))
      ((frame_toStore s hsOff).trans (frame_cutPower _)) ((store_cutPower _).trans (store_toStore s (by decide)))
      (pins_cutPower _) (storeEnded_noStore _)

end Sys2Proof.Machine
end

section
/-! SUPPORT. The effects of PFAIL_N, of the end of the floor's hold and of the budget's restore on the level in force
(R320, R321, R322). -/

namespace Sys2Proof

open Machine

variable {s t u : State}

/-- Registers that the power commands reach. -/
abbrev powerRegs : List Nat := [Reg.nrgStat, Reg.nrgCntLevel, Reg.nrgCntPfail, Reg.hstStat, Reg.hifCntCmd]

/-- The level in force is what the demands ask for, and a rise of it is counted. -/
structure FollowsDemand (s t : State) : Prop where
  level : t.fget F.nrgStat_level = t.levelWanted
  frame : Frame s t (theseRegs powerRegs) noBytes
  count : t.rd Reg.nrgCntLevel =
    s.rd Reg.nrgCntLevel + if s.fget F.nrgStat_level < t.levelWanted then 1 else 0

/-- The level follows what a command has made of the demands. -/
theorem Releveled.follows (h : Releveled u t) (hframe : Frame s u (theseRegs powerRegs) noBytes)
    (hlevel : u.fget F.nrgStat_level = s.fget F.nrgStat_level) (hcount : u.rd Reg.nrgCntLevel = s.rd Reg.nrgCntLevel) :
    FollowsDemand s t where
  level := h.level.trans h.wanted.symm
  frame := hframe.trans (h.frame.widen (by simp))
  count := by rw [h.count, hcount, hlevel, h.wanted]

/-- The change of the level is told. -/
theorem Releveled.toldFrom (h : Releveled u t) (hframe : Frame s u (theseRegs powerRegs) noBytes)
    (hlevel : u.fget F.nrgStat_level = s.fget F.nrgStat_level) (hevt : u.evt = s.evt) :
    Told s t (decide (t.levelWanted ≠ s.fget F.nrgStat_level)) Ev.nrgLevel [0, 0, t.levelWanted] := by
  obtain ⟨hdelivers, hevent⟩ := hframe.eventOf (e := Ev.nrgLevel) (by decide) [0, 0, t.levelWanted]
  intro hroom
  have hroom' : u.eventRoom = true := by rw [State.eventRoom, hevt]; exact hroom
  have htold := h.told hroom'
  rw [← h.wanted, hlevel, hdelivers, hevent, hevt] at htold
  exact htold

end Sys2Proof

namespace Sys2Proof.Machine

variable (s : State)

/-! ### PFAIL_N falls -/

/-- What shows and is counted when PFAIL_N falls. -/
def State.pfailCounted (s : State) : State :=
  ((s.fbit F.nrgStat_pfail true).fbit F.nrgStat_floor true).count Reg.nrgCntPfail

/-- PFAIL_N has fallen: it shows, is counted and told, and no hold would end the floor. -/
def State.pfailNoted (s : State) : State :=
  { s.pfailCounted.raise Ev.nrgPfail with nrg := { s.pfailCounted.nrg with holding := false } }

theorem pfailFall_eq (h : s.flag F.nrgStat_pfail = false) : s.pfailFall = s.pfailNoted.storePfail.relevel := by
  unfold State.pfailFall State.pfailNoted State.pfailCounted
  rw [h, if_neg Bool.false_ne_true]

/-- A fall of PFAIL_N shows and is counted. -/
structure PfailShown (s t : State) : Prop where
  frame : Frame s t (theseRegs [Reg.nrgStat, Reg.nrgCntPfail]) noBytes
  noted : Noted s t
  pfail : t.flag F.nrgStat_pfail = true
  floor : t.flag F.nrgStat_floor = true
  level : t.fget F.nrgStat_level = s.fget F.nrgStat_level
  count : t.rd Reg.nrgCntPfail = s.rd Reg.nrgCntPfail + 1

theorem pfailShown_raise {t : State} (h : PfailShown s t) : PfailShown s (t.raise Ev.nrgPfail) := by
  have hframe : Frame t (t.raise Ev.nrgPfail) (theseRegs []) noBytes := frame_raise t _ _ _ _ _ _
  have hnoted := noted_raise t Ev.nrgPfail 0 0 0 0 0
  generalize t.raise Ev.nrgPfail = v at hframe hnoted
  exact ⟨h.frame.trans (hframe.widen (by simp)), h.noted.trans hnoted,
    (hframe.flag (by decide) (by decide)).trans h.pfail, (hframe.flag (by decide) (by decide)).trans h.floor,
    (hframe.fget (by decide) (by decide)).trans h.level, (hframe.reg _ rfl (by decide)).trans h.count⟩

theorem pfailShown_pfailCounted : PfailShown s s.pfailCounted := by
  have hone : ∀ u : State, (u.fbit F.nrgStat_pfail true).flag F.nrgStat_pfail = true := fun u =>
    flag_fbit_self u true ⟨by decide, by decide⟩ rfl
  have hkeeps : ∀ u : State, (u.fbit F.nrgStat_floor true).flag F.nrgStat_pfail = u.flag F.nrgStat_pfail := fun u =>
    flag_fbit_apart u true ⟨by decide, by decide⟩ (.inl (by decide))
  have hfloor : ∀ u : State, (u.fbit F.nrgStat_floor true).flag F.nrgStat_floor = true := fun u =>
    flag_fbit_self u true ⟨by decide, by decide⟩ rfl
  have hcount : ∀ (u : State) f, f.reg = Reg.nrgStat → (u.count Reg.nrgCntPfail).fget f = u.fget f := fun u f hf =>
    fget_wr_ne u _ (by rw [hf]; decide)
  have hflag : ∀ (u : State) f, f.reg = Reg.nrgStat → (u.count Reg.nrgCntPfail).flag f = u.flag f := fun u f hf =>
    congrArg (fun n => decide (n = 1)) (hcount u f hf)
  refine ⟨?_, ?_, ?_, ?_, ?_, ?_⟩
  · exact ((frame_fbit s _ true (.inl (by decide))).trans (frame_fbit _ _ true (.inl (by decide)))).trans
      (frame_count _ _ 1 (.inl (by decide)))
  · exact ((noted_fset s _ _).trans (noted_fset _ _ _)).trans (noted_count _ _ _)
  · exact (hflag _ _ rfl).trans ((hkeeps _).trans (hone s))
  · exact (hflag _ _ rfl).trans (hfloor _)
  · refine (hcount _ _ rfl).trans ((fget_fbit_apart _ _ ⟨by decide, by decide⟩ (.inl (by decide))).trans ?_)
    exact fget_fbit_apart _ _ ⟨by decide, by decide⟩ (.inl (by decide))
  · refine (rd_count_self _ _ 1).trans (congrArg (· + (1 : W32)) ?_)
    exact (rd_fbit_ne _ _ _ (by decide)).trans (rd_fbit_ne _ _ _ (by decide))

/-- The registers, the history and the commands in progress of a state whose energy part alone has been set. -/
theorem pfailNoted_shows : ∃ u, PfailShown s u ∧ s.pfailNoted = { u with nrg := { s.nrg with holding := false } } :=
  ⟨_, pfailShown_raise s (pfailShown_pfailCounted s), by
    rw [State.pfailNoted, (pfailShown_pfailCounted s).noted.nrg]⟩

/-- What a fall of PFAIL_N makes of the state. -/
structure PfailFallen (s t : State) : Prop where
  pfail   : t.flag F.nrgStat_pfail = true
  floor   : t.flag F.nrgStat_floor = true
  power   : t.power = s.power
  nrg     : t.nrg = { s.nrg with holding := false }
  count   : t.rd Reg.nrgCntPfail = s.rd Reg.nrgCntPfail + 1
  follows : FollowsDemand s t
  busy    : t.hif.busy = s.elsewhere
  stays   : s.portStays → t.store = s.store ∧ t.hst.pwrEn = s.hst.pwrEn
  cut     : ¬ s.portStays → t.store = hsOff ∧ t.hst.pwrEn = false ∧ t.hst.perstN = false

/-- A fall that is noted and at which the store port is cut, before the level follows. -/
structure PfailCut (s w : State) : Prop where
  frame : Frame s w (theseRegs [Reg.nrgStat, Reg.nrgCntPfail, Reg.hstStat, Reg.hifCntCmd]) noBytes
  pfail : w.flag F.nrgStat_pfail = true
  floor : w.flag F.nrgStat_floor = true
  level : w.fget F.nrgStat_level = s.fget F.nrgStat_level
  count : w.rd Reg.nrgCntPfail = s.rd Reg.nrgCntPfail + 1
  power : w.power = s.power
  nrg   : w.nrg = { s.nrg with holding := false }
  busy  : w.hif.busy = s.elsewhere
  stays : s.portStays → w.store = s.store ∧ w.hst.pwrEn = s.hst.pwrEn
  cut   : ¬ s.portStays → w.store = hsOff ∧ w.hst.pwrEn = false ∧ w.hst.perstN = false

theorem portStays_congr {t : State} (hstore : t.store = s.store)
    (hflag : t.flag F.nrgFloor_finishFlush = s.flag F.nrgFloor_finishFlush) : t.portStays ↔ s.portStays := by
  rw [State.portStays, State.portStays, hstore, hflag]

theorem PfailShown.cut {s u w : State} {n : NrgSt} (h : PfailShown s u) (hn : n = { s.nrg with holding := false })
    (k : StoreCut { u with nrg := n } w) : PfailCut s w := by
  have hframe : Frame s { u with nrg := n } (theseRegs [Reg.nrgStat, Reg.nrgCntPfail]) noBytes :=
    h.frame.trans (.of_hidden ⟨rfl, rfl, rfl, rfl, rfl⟩ rfl)
  have hstore : State.store { u with nrg := n } = s.store :=
    hframe.fget (f := F.hstStat_state) (by decide) (by decide)
  have hports := portStays_congr s hstore (hframe.flag (by decide) (by decide))
  have hpins : ({ u with nrg := n } : State).hst.pwrEn = s.hst.pwrEn := h.noted.pins.1
  refine ⟨(hframe.widen (by simp)).trans (k.frame.widen (by simp)), ?_, ?_, ?_, ?_, ?_, ?_, ?_, fun hs => ?_,
    fun hs => k.cut fun hv => hs (hports.1 hv)⟩
  · exact (k.frame.flag (by decide) (by decide)).trans h.pfail
  · exact (k.frame.flag (by decide) (by decide)).trans h.floor
  · exact (k.frame.fget (by decide) (by decide)).trans h.level
  · exact (k.frame.reg _ (by decide) (by decide)).trans h.count
  · rw [k.rest]
    exact h.noted.power
  · rw [k.rest]
    exact hn
  · exact k.busy.trans h.noted.elsewhere
  · obtain ⟨hkeep, hpower⟩ := k.stays (hports.2 hs)
    exact ⟨hkeep.trans hstore, hpower.trans hpins⟩

theorem PfailCut.fallen {s w t : State} (h : PfailCut s w) (k : Releveled w t) : PfailFallen s t := by
  obtain ⟨hnoted, hport⟩ := k.shut h.pfail
  have hfree : w.storeFree := by
    unfold State.storeFree State.elsewhere
    rw [h.busy]
    exact storeFree_storeReleased s
  have hstore : t.store = w.store := congrArg (bits · _ _) hport
  have hflag : ∀ f, LevelFree f → t.flag f = w.flag f := fun f hf => congrArg (fun n => decide (n = 1)) (k.fields f hf)
  refine ⟨(hflag _ ⟨rfl, by decide⟩).trans h.pfail, (hflag _ ⟨rfl, by decide⟩).trans h.floor,
    hnoted.power.trans h.power, hnoted.nrg.trans h.nrg, (k.frame.reg _ (by decide) (by decide)).trans h.count,
    k.follows (h.frame.widen (by simp)) h.level (h.frame.reg _ (by decide) (by decide)),
    (hnoted.busy_of_free hfree).trans h.busy, fun hs => ?_, fun hs => ?_⟩
  · obtain ⟨hkeep, hpower⟩ := h.stays hs
    exact ⟨hstore.trans hkeep, hnoted.pins.1.trans hpower⟩
  · obtain ⟨hoff, hpower, hreset⟩ := h.cut hs
    exact ⟨hstore.trans hoff, hnoted.pins.1.trans hpower, hnoted.pins.2.trans hreset⟩

theorem pfailFallen_pfailFall (h : s.flag F.nrgStat_pfail = false) : PfailFallen s s.pfailFall := by
  obtain ⟨u, hu, hnoted⟩ := pfailNoted_shows s
  rw [pfailFall_eq s h, hnoted]
  exact (hu.cut rfl (storeCut_storePfail _)).fallen (releveled_relevel _)

/-! ### PFAIL_N rises, and the hold of the floor -/

/-- The hold of the floor begins. -/
def State.held (s : State) : State := { s with nrg := { s.nrg with holding := true, holdFrom := s.clock.frames } }

theorem pfailRise_eq (h : s.flag F.nrgStat_pfail = true) :
    s.pfailRise = (s.fbit F.nrgStat_pfail false).held.storeKick := by
  unfold State.pfailRise State.held
  rw [h, Bool.not_true, if_neg Bool.false_ne_true]

/-- A state whose energy part alone is set shows what it showed. -/
theorem frame_nrg (n : NrgSt) : Frame s { s with nrg := n } (theseRegs []) noBytes :=
  .of_hidden ⟨rfl, rfl, rfl, rfl, rfl⟩ rfl

theorem noted_fbit (f : Fld) (b : Bool) : Noted s (s.fbit f b) := noted_wr s _ _

/-- What a rise of PFAIL_N makes of the state. -/
structure PfailRisen (s t : State) : Prop where
  frame : Frame s t (theseRegs [Reg.nrgStat, Reg.hstStat]) noBytes
  pfail : t.flag F.nrgStat_pfail = false
  floor : t.flag F.nrgStat_floor = s.flag F.nrgStat_floor
  level : t.fget F.nrgStat_level = s.fget F.nrgStat_level
  power : t.power = s.power
  nrg   : t.nrg = { s.nrg with holding := true, holdFrom := s.clock.frames }

theorem PfailRisen.kick {s u : State} (h : PfailRisen s u) : PfailRisen s u.storeKick := by
  have hkick := frame_storeKick u
  have hport := ported_storeKick u
  generalize u.storeKick = t at hkick hport
  refine ⟨h.frame.trans (hkick.widen (by simp)), ?_, ?_, ?_, ?_, ?_⟩
  · exact (hkick.flag (by decide) (by decide)).trans h.pfail
  · exact (hkick.flag (by decide) (by decide)).trans h.floor
  · exact (hkick.fget (by decide) (by decide)).trans h.level
  · rw [hport]
    exact h.power
  · rw [hport]
    exact h.nrg

theorem pfailRisen_held {s v : State} (hframe : Frame s v (theseRegs [Reg.nrgStat]) noBytes) (hnoted : Noted s v)
    (hpfail : v.flag F.nrgStat_pfail = false) (hfloor : v.flag F.nrgStat_floor = s.flag F.nrgStat_floor)
    (hlevel : v.fget F.nrgStat_level = s.fget F.nrgStat_level) : PfailRisen s v.held := by
  have hheld : Frame v v.held (theseRegs []) noBytes := frame_nrg v _
  refine ⟨(hframe.trans (hheld.widen (by simp))).widen (by simp), (hheld.flag (by decide) (by decide)).trans hpfail,
    (hheld.flag (by decide) (by decide)).trans hfloor, (hheld.fget (by decide) (by decide)).trans hlevel,
    hnoted.power, ?_⟩
  rw [← hnoted.nrg, ← hframe.clock]
  rfl

theorem pfailRisen_pfailRise (h : s.flag F.nrgStat_pfail = true) : PfailRisen s s.pfailRise := by
  rw [pfailRise_eq s h]
  exact (pfailRisen_held (frame_fbit s F.nrgStat_pfail false (.inl (by decide))) (noted_fbit s F.nrgStat_pfail false)
    (flag_fbit_self s (f := F.nrgStat_pfail) false ⟨by decide, by decide⟩ rfl)
    (flag_fbit_apart s (f := F.nrgStat_pfail) false ⟨by decide, by decide⟩ (.inr (by decide)))
    (fget_fbit_apart s (f := F.nrgStat_pfail) false ⟨by decide, by decide⟩ (.inl (by decide)))).kick

/-- A command sets a demand, and the level follows it (R322). -/
theorem demandSet_relevel {u t : State} {f : Fld} {v : Nat} {n : NrgSt} (hf : LevelFree f) (hw : f.Within)
    (hu : u = { s.fset f v with nrg := n }) (ht : Releveled u t) :
    FollowsDemand s t ∧ t.nrg = n ∧ t.fget f = v % 2 ^ (f.hi + 1 - f.lo) ∧
    Told s t (decide (t.levelWanted ≠ s.fget F.nrgStat_level)) Ev.nrgLevel [0, 0, t.levelWanted] := by
  have hset : Frame s (s.fset f v) (theseRegs [Reg.nrgStat]) noBytes :=
    frame_fset s f v (.inl (by rw [hf.1]; decide))
  have hself := fget_fset_self s v hw
  have hlevel := fget_fset_apart s (g := F.nrgStat_level) v hw (.inl hf.2)
  have hevt := State.fset_evt s f v
  generalize s.fset f v = x at hu hset hself hlevel hevt
  have hhidden : Frame x u (theseRegs []) noBytes := hu ▸ frame_nrg x n
  have hframe := hset.trans (hhidden.widen (by simp))
  have hstat : ∀ g : Fld, g.reg = Reg.nrgStat → u.fget g = x.fget g := fun g hg =>
    hhidden.fget rfl (by rw [hg]; decide)
  have hsame := (hstat F.nrgStat_level rfl).trans hlevel
  refine ⟨ht.follows (hframe.widen (by simp)) hsame (hframe.reg _ (by decide) (by decide)), ?_,
    (ht.fields f hf).trans ((hstat f hf.1).trans hself),
    ht.toldFrom (hframe.widen (by simp)) hsame (by rw [hu]; exact hevt)⟩
  rw [ht.rest, hu]

end Sys2Proof.Machine
end

section
/-! SUPPORT. Sleep states: the state of a bank and of an island that a resource enters and leaves (R326, R327). -/

namespace Sys2Proof.Machine

variable (s : State)

/-! ### The state of a bank -/

theorem rd_setBankState_self (b v : Nat) : (s.setBankState b v).rd (Reg.memBstate (b / 16)) =
    setBits (s.rd (Reg.memBstate (b / 16))) (2 * (b % 16) + 1) (2 * (b % 16)) v := by
  unfold State.setBankState
  exact rd_wr_self _ _ _

theorem rd_setBankState_ne {b a : Nat} (v : Nat) (h : Reg.memBstate (b / 16) ≠ a) :
    (s.setBankState b v).rd a = s.rd a := by
  unfold State.setBankState
  exact rd_wr_ne _ _ h

theorem bankState_setBankState_self {b v : Nat} (hv : v < 4) : (s.setBankState b v).bankState b = v := by
  rw [State.bankState, rd_setBankState_self, bits_setBits_self _ _ (by omega) (by omega),
    show 2 * (b % 16) + 1 + 1 - 2 * (b % 16) = 2 by omega]
  exact Nat.mod_eq_of_lt hv

theorem bankState_setBankState_ne {b c : Nat} (v : Nat) (h : c ≠ b) :
    (s.setBankState b v).bankState c = s.bankState c := by
  unfold State.bankState
  by_cases hreg : c / 16 = b / 16
  · rw [hreg, rd_setBankState_self]
    rcases Nat.lt_or_gt_of_ne (show c % 16 ≠ b % 16 by omega) with hlt | hlt
    · exact bits_setBits_below _ _ (by omega) (by omega) (by omega)
    · exact bits_setBits_above _ _ (by omega) (by omega) (by omega)
  · rw [rd_setBankState_ne s v (by simp only [Reg.memBstate]; omega)]

/-- One bank takes a state, and the others keep theirs. -/
theorem setBankState_shows (b : Fin 388) {v : Nat} (hv : v < 4) :
    (s.setBankState b.val v).bankState b.val = v ∧
    (∀ k : Fin 388, k ≠ b → (s.setBankState b.val v).bankState k.val = s.bankState k.val) ∧
    Frame s (s.setBankState b.val v) (regsOf 0x110000 0x118000) noBytes :=
  ⟨bankState_setBankState_self s hv, fun _ hk => bankState_setBankState_ne s v fun h => hk (Fin.ext h),
    (aside_setBankState s (by omega) v).frame⟩

/-! ### The sleep state of an island -/

theorem island_onIsland_self (i : Nat) (f : Island → Island) : (s.onIsland i f).island i = f (s.island i) :=
  Sparse.get_put_self ..

theorem island_onIsland_ne {i j : Nat} (f : Island → Island) (h : j ≠ i) : (s.onIsland i f).island j = s.island j :=
  Sparse.get_put_ne _ _ _ _ h.symm

theorem frame_onIsland (i : Nat) (f : Island → Island) {regs bytes : Nat → Bool} :
    Frame s (s.onIsland i f) regs bytes :=
  .of_hidden ⟨rfl, rfl, rfl, rfl, rfl⟩ rfl

/-- The island of an engine takes a sleep state, and the others keep theirs. -/
theorem setSleep_shows (i : Nat) (st : Option Sleep) :
    ((s.setSleep i st).island i).sleep = st ∧ (∀ j, j ≠ i → (s.setSleep i st).island j = s.island j) ∧
    (s.setSleep i st).regs = s.regs ∧ Frame s (s.setSleep i st) (theseRegs []) noBytes :=
  ⟨congrArg Island.sleep (island_onIsland_self s i _), fun _ hj => island_onIsland_ne s _ hj, rfl,
    frame_onIsland s i _⟩

/-! ### What fits -/

/-- A bank is put to sleep only into RETAIN, out of ACTIVE. -/
theorem bankActive_of_sleepFits {b : Fin 388} {st : Sleep} {gap : Nat} (h : s.sleepFits (.bank b) st gap = true) :
    st = .retain ∧ s.bankState b.val = bankActive := by
  have husable : s.sleepUsable (.bank b) st = true := by
    simp only [State.sleepFits, Bool.and_eq_true] at h
    exact h.1.1
  cases st with
  | retain => exact ⟨rfl, of_decide_eq_true husable⟩
  | clockGated => exact Bool.noConfusion husable
  | powerGated => exact Bool.noConfusion husable

/-- A deeper state of the resource fits as well (R328). -/
def State.deeperFits (s : State) (r : Resource) (st : Sleep) (gap : Nat) : Bool :=
  match r, st with
  | .engine _, .clockGated => s.sleepFits r .powerGated gap
  | _, _ => false

theorem plannerSleep_eq (r : Resource) (st : Sleep) (gap : Nat) : s.plannerSleep r st gap =
    if s.flag F.nrgCfg_en && s.sleepFits r st gap && !s.deeperFits r st gap then s.sleepTo r (some st) else s := by
  unfold State.plannerSleep State.deeperFits
  rfl

/-! ### The hold of the floor and the budget -/

theorem pfailFall_of_pfail (h : s.flag F.nrgStat_pfail = true) : s.pfailFall = s := if_pos h

theorem pfailRise_of_no_pfail (h : s.flag F.nrgStat_pfail = false) : s.pfailRise = s := by
  unfold State.pfailRise
  rw [h]
  exact if_pos rfl

/-- The hold after a power failure has run out (R321). -/
def State.holdOver (s : State) : Prop :=
  s.nrg.holding = true ∧ s.nrg.holdFrom + 8000 * min 3600 (s.fget F.nrgFloor_holdS) ≤ s.clock.frames

theorem floorHoldExpiry_eq (h : s.holdOver) : s.floorHoldExpiry =
    { s.fset F.nrgStat_floor 0 with nrg := { s.nrg with holding := false } }.relevel := by
  unfold State.floorHoldExpiry
  dsimp only
  rw [if_neg]
  · rfl
  · simpa [h.1] using h.2

theorem floorHoldExpiry_of_not (h : ¬ s.holdOver) : s.floorHoldExpiry = s := by
  unfold State.floorHoldExpiry
  dsimp only
  rw [if_pos]
  unfold State.holdOver at h
  cases hheld : s.nrg.holding
  · rfl
  · simpa [hheld] using h

/-- The evaluations of restore_s were at most at 90 % of a budget that demands a level (R320). -/
def State.restoreDue (s : State) : Prop :=
  s.flag F.nrgCfg_en = true ∧ s.fget F.nrgBudget_budget ≠ 0 ∧ 1 ≤ s.fget F.nrgStat_budgetLvl ∧
    1000 * clamp 1 3600 (s.fget F.nrgCfg_restoreS) ≤ s.nrg.lowRun

theorem budget?_isSome : s.budget?.isSome = decide (s.fget F.nrgBudget_budget ≠ 0) := by
  unfold State.budget?
  by_cases h : s.fget F.nrgBudget_budget = 0 <;> simp [h]

theorem budgetRestore_cond : (s.flag F.nrgCfg_en && s.budget?.isSome && decide (s.fget F.nrgStat_budgetLvl ≥ 1) &&
    decide (1000 * s.restoreSec ≤ s.nrg.lowRun)) = true ↔ s.restoreDue := by
  simp only [budget?_isSome, Bool.and_eq_true, decide_eq_true_eq, and_assoc]
  exact Iff.rfl

theorem fset_nrg (n : NrgSt) (f : Fld) (v : Nat) :
    State.fset { s with nrg := n } f v = { s.fset f v with nrg := n } := rfl

theorem budgetRestore_eq (h : s.restoreDue) : s.budgetRestore =
    { s.fset F.nrgStat_budgetLvl (s.fget F.nrgStat_budgetLvl - 1) with nrg := { s.nrg with lowRun := 0 } }.relevel := by
  unfold State.budgetRestore
  dsimp only
  rw [if_pos ((budgetRestore_cond s).2 h), fset_nrg]

theorem budgetRestore_of_not (h : ¬ s.restoreDue) : s.budgetRestore = s := by
  unfold State.budgetRestore
  dsimp only
  rw [if_neg fun hc => h ((budgetRestore_cond s).1 hc)]

theorem frame_setPfail (b : Bool) {regs bytes : Nat → Bool} : Frame s (s.setPfail b) regs bytes :=
  .of_hidden ⟨rfl, rfl, rfl, rfl, rfl⟩ rfl

theorem followsDemand_ofPower {s t : State} {b : Bool} (h : FollowsDemand (s.setPfail b) t) : FollowsDemand s t :=
  ⟨h.level, (frame_setPfail s b).trans h.frame, h.count⟩

theorem flag_of_fget {t : State} {f : Fld} {n : Nat} (h : t.fget f = n) : t.flag f = decide (n = 1) :=
  congrArg (fun n => decide (n = 1)) h

end Sys2Proof.Machine
end

section
/-! OBLIGATION O47. -/

namespace Sys2Proof

open Machine

/-- Settles O47: every change of a demand ends in `relevel`, and while PFAIL_N is low the store port stays where the
fall put it. -/
theorem powerAndShedding : Obligations.PowerAndShedding := by
  intro s hup wanted regs relevels toldLevel
  have hrelevels : ∀ t, FollowsDemand s t → relevels t := fun t h => ⟨h.level, h.frame, h.count⟩
  have hbusy : s.hif.busy.filter (fun q => match q.2.2 with
      | .storeRead => false
      | .storeMark _ => false
      | _ => true) = s.elsewhere := List.filter_congr fun q _ => by
    cases q.2.2 <;> rfl
  refine ⟨?_, ?_, ?_, ?_, ?_, ?_⟩
  · refine ⟨(s.setPfail true).pfailFall, whenUp_of_up _ hup, ?_⟩
    beta_reduce
    by_cases hpfail : s.flag F.nrgStat_pfail = true
    · rw [if_pos hpfail, pfailFall_of_pfail (s.setPfail true) hpfail]
      exact ⟨rfl, rfl⟩
    · have h := pfailFallen_pfailFall (s.setPfail true) (Bool.eq_false_iff.2 hpfail)
      generalize (s.setPfail true).pfailFall = t at h
      rw [if_neg hpfail]
      refine ⟨h.power, h.pfail, h.floor, h.nrg, h.count, hrelevels t (followsDemand_ofPower h.follows),
        h.busy.trans hbusy.symm, ?_⟩
      split
      · exact h.stays ‹_›
      · exact h.cut ‹_›
  · refine ⟨(s.setPfail false).pfailRise, whenUp_of_up _ hup, ?_⟩
    beta_reduce
    by_cases hpfail : s.flag F.nrgStat_pfail = true
    · have h := pfailRisen_pfailRise (s.setPfail false) hpfail
      generalize (s.setPfail false).pfailRise = t at h
      rw [if_pos hpfail]
      exact ⟨h.power, h.pfail, h.floor, h.level, h.nrg,
        (frame_setPfail s false).trans (h.frame.widen (by simp))⟩
    · rw [if_neg hpfail, pfailRise_of_no_pfail (s.setPfail false) (Bool.eq_false_iff.2 hpfail)]
      exact ⟨rfl, rfl⟩
  · refine completes_of_up hup (f := State.floorHoldExpiry) rfl ?_
    by_cases h : s.holdOver
    · obtain ⟨hfollows, hnrg, hfloor, htold⟩ := demandSet_relevel s (f := F.nrgStat_floor) (v := 0)
        ⟨rfl, by decide⟩ ⟨by decide, by decide⟩ rfl (releveled_relevel _)
      rw [← floorHoldExpiry_eq s h] at hfollows hnrg hfloor htold
      generalize s.floorHoldExpiry = t at hfollows hnrg hfloor htold
      exact (if_pos h).mpr ⟨flag_of_fget hfloor, hnrg, hrelevels t hfollows, htold⟩
    · exact (if_neg h).mpr (floorHoldExpiry_of_not s h)
  · refine completes_of_up hup (f := State.budgetRestore) rfl ?_
    by_cases h : s.restoreDue
    · obtain ⟨hfollows, hnrg, hlower, htold⟩ := demandSet_relevel s (f := F.nrgStat_budgetLvl)
        ⟨rfl, by decide⟩ ⟨by decide, by decide⟩ rfl (releveled_relevel _)
      rw [← budgetRestore_eq s h] at hfollows hnrg hlower htold
      generalize s.budgetRestore = t at hfollows hnrg hlower htold
      refine (if_pos h).mpr ⟨hlower.trans (Nat.mod_eq_of_lt ?_), hnrg, hrelevels t hfollows, htold⟩
      exact lt_of_le_of_lt (Nat.sub_le ..) (bits_lt ..)
    · exact (if_neg h).mpr (budgetRestore_of_not s h)
  · intro r st gap
    refine completes_of_up hup (f := fun s => s.plannerSleep r st gap) rfl ?_
    intro usable times fits deeper
    have hfits : ∀ x, fits x = s.sleepFits r x gap := fun x => by
      cases r <;> cases x <;> rfl
    have hdeeper : deeper = s.deeperFits r st gap := by
      cases r with
      | engine e => cases st with
        | clockGated => exact hfits .powerGated
        | powerGated => rfl
        | retain => rfl
      | termination => rfl
      | bank b => rfl
    rw [hfits, hdeeper, plannerSleep_eq]
    by_cases h : (s.flag F.nrgCfg_en && s.sleepFits r st gap && !s.deeperFits r st gap) = true
    · rw [if_pos h, if_pos h]
      have hfit : s.sleepFits r st gap = true := by
        simp only [Bool.and_eq_true] at h
        exact h.1.2
      cases r with
      | engine e => exact setSleep_shows s (engineIsland e) (some st)
      | termination => rfl
      | bank b =>
        have hactive := (bankActive_of_sleepFits s hfit).2
        have hsleep : s.sleepTo (.bank b) (some st) = s.setBankState b.val bankRetain :=
          if_pos (by rw [hactive]; decide)
        rw [hsleep]
        exact setBankState_shows s b (by decide)
    · rw [if_neg h, if_neg h]
  · intro r
    refine completes_of_up hup (f := fun s => s.sleepTo r none) rfl ?_
    cases r with
    | engine e => exact setSleep_shows s (engineIsland e) none
    | termination => rfl
    | bank b =>
      by_cases h : s.bankState b.val ≤ bankRetain
      · have hwake : s.sleepTo (.bank b) none = s.setBankState b.val bankActive := if_pos h
        rw [hwake]
        exact (if_pos h).mpr (setBankState_shows s b (by decide))
      · exact (if_neg h).mpr (if_neg h)

end Sys2Proof
end

section
/-! SUPPORT. A host write to the entry of a termination: the state that it acts on shows the entries, the paths and the
lanes as the state before it does, and so the checks of an enable come out alike (R85, R96, R218, R364). -/

namespace Sys2Proof

open Machine

variable {s t u : State}

/-- Beside what a host write leaves (`Unmoved`), the terminations and the AUs stay. -/
structure Sheltered (s t : State) : Prop where
  moved : Unmoved s t hostMemRegs
  terms : t.terms = s.terms
  aus   : t.aus = s.aus

theorem Sheltered.refl (s : State) : Sheltered s s := ⟨.refl _ _, rfl, rfl⟩

theorem Sheltered.trans (h : Sheltered s t) (k : Sheltered t u) : Sheltered s u :=
  ⟨h.moved.trans k.moved, k.terms.trans h.terms, k.aus.trans h.aus⟩

end Sys2Proof

namespace Sys2Proof.Machine

variable (s : State)

theorem sheltered_speed : Sheltered s (s.speed 96 4) where
  moved := unmoved_speed s 96 4 (by decide) (by decide)
  terms := addSpeed_keeps s State.terms (fun _ _ => rfl) (fun _ _ => rfl) (fun _ _ => rfl) 4
  aus   := addSpeed_keeps s State.aus (fun _ _ => rfl) (fun _ _ => rfl) (fun _ _ => rfl) 4

/-- The banks of the entries of the terminations lie in no region that can be OFF (R337, R344). -/
theorem regionOf_termBank {b : Nat} (h : 192 ≤ b) (h' : b < 224) : s.regionOf b = none := by
  have hbanks : ∀ r, b ∉ s.regionBanks r := by
    intro r
    unfold State.regionBanks
    split <;> rw [List.mem_range'_1]
    · split <;> omega
    · split <;> omega
    · omega
  unfold State.regionOf
  rw [List.find?_eq_none]
  intro r _
  simpa using hbanks r

theorem sheltered_wakeAt {a : Nat} (h : 0x1800000 ≤ a) (h' : a < 0x1C00000) : Sheltered s (s.wakeAt a) := by
  unfold State.wakeAt State.wakeBank
  rw [if_pos (by omega), regionOf_termBank s (by omega) (by omega)]
  dsimp only
  split
  · exact ⟨(unmoved_setBankState s (by omega) _).mono fun _ h => orAt_true.2 (.inl h), rfl, rfl⟩
  · exact .refl _

/-- The terminations and the AUs. -/
def State.entries (s : State) : Sparse TermSt × Sparse AuSt := (s.terms, s.aus)

theorem entries_wr (a : Nat) (v : W32) : (s.wr a v).entries = s.entries := rfl

theorem entries_mate (m : MateSt) : { s with mate := m }.entries = s.entries := rfl

theorem entries_startResync : s.startResync.entries = s.entries := by
  unfold State.startResync
  split
  · rfl
  · exact (entries_mate _ _).trans ((entries_wr _ _ _).trans (entries_wr _ _ _))

theorem entries_mendMirror : s.mendMirror.entries = s.entries := by
  unfold State.mendMirror
  split
  · exact entries_startResync s
  · rfl

theorem entries_queueRecord (kind : BitVec 4) (r : MirrorRec) : (s.queueRecord kind r).entries = s.entries := by
  unfold State.queueRecord
  split
  · exact (entries_mendMirror _).trans (entries_wr _ _ _)
  · rfl

theorem sheltered_queueRecord (kind : BitVec 4) (r : MirrorRec) : Sheltered s (s.queueRecord kind r) :=
  have h := entries_queueRecord s kind r
  ⟨unmoved_queueRecord s kind r, congrArg Prod.fst h, congrArg Prod.snd h⟩

/-- Mirrored state takes the write unless the device is a standby, and a record of it may be queued. -/
theorem sheltered_asHost {bar2 : Bool} (h : s.standsBy = false) (a : Nat) (be : BitVec 4) (v : W32)
    (f : State → State) : Sheltered (f s) (s.asHost bar2 a be v f) := by
  unfold State.asHost
  rw [h]
  split
  · exact .refl _
  · rw [if_neg Bool.false_ne_true]
    split
    · unfold State.mirrorWrite
      dsimp only
      split
      · exact .refl _
      · exact sheltered_queueRecord _ _ _
    · exact .refl _

/-- The effect of a host write to the entry of a termination acts on a state that shows what the state before it
shows. -/
theorem hostMem_termTaken (h : s.standsBy = false) {a : Nat} (ha : 0x1800000 ≤ a) (ha' : a < 0x1C00000) (be : BitVec 4)
    (v : W32) (f : State → State) : ∃ u, Sheltered s u ∧ Sheltered (f u) (s.hostMem a be v f) := by
  have hstands : (s.speed 96 4).standsBy = false := by
    rw [State.standsBy, State.mateState, State.fget, rd_speed_ne s 96 4 (by decide) (by decide)]
    exact h
  exact ⟨(s.speed 96 4).wakeAt a, (sheltered_speed s).trans (sheltered_wakeAt _ ha ha'),
    sheltered_asHost (s.speed 96 4) hstands a be v fun s => f (s.wakeAt a)⟩

end Sys2Proof.Machine

namespace Sys2Proof

open Machine

variable {s u : State}

/-! ### What an entry names, on a state that shows the same -/

theorem Sheltered.memWord (h : Sheltered s u) (a : Nat) : u.memWord a = s.memWord a := memWord_congr s h.moved.mem a

theorem Sheltered.lane (h : Sheltered s u) : u.lane = s.lane := funext h.moved.lane

theorem Sheltered.rate (h : Sheltered s u) : u.rate = s.rate := funext h.moved.rate

theorem Sheltered.isSdh (h : Sheltered s u) : u.isSdh = s.isSdh := funext h.moved.isSdh

theorem Sheltered.role (h : Sheltered s u) : u.role = s.role := funext fun l => by
  rw [State.role, State.role, h.lane]

theorem Sheltered.payCols (h : Sheltered s u) : u.payCols = s.payCols := funext fun l => by
  rw [State.payCols, State.payCols, h.role, h.rate]

theorem Sheltered.au (h : Sheltered s u) : u.au = s.au := funext fun l => funext fun n => by
  rw [State.au, State.au, h.aus]

theorem Sheltered.auCfg (h : Sheltered s u) : u.auCfg = s.auCfg := funext fun l => funext fun n => by
  rw [State.auCfg, State.auCfg, h.au]

theorem Sheltered.auType (h : Sheltered s u) : u.auType = s.auType := funext fun l => funext fun n => by
  rw [State.auType, State.auType, h.au, h.auCfg]

theorem Sheltered.au3 (h : Sheltered s u) {l : Nat} (hl : l < 64) : u.au3 l = s.au3 l := by
  have hreg : u.rd (Reg.ltmCfg l) = s.rd (Reg.ltmCfg l) := by
    have hbelow : Reg.ltmCfg l < 0xC0000 ∧ 0x20000 ≤ Reg.ltmCfg l := by
      simp only [Reg.ltmCfg]
      omega
    obtain ⟨haccount, hevent⟩ := hostAccount_below hbelow.1 hbelow.2
    refine h.moved.rd (Bool.eq_false_iff.2 fun hmem => ?_) hevent
    rcases orAt_true.1 hmem with hmem | hmem
    · have := regsOf_true.1 hmem
      omega
    · rw [haccount] at hmem
      exact Bool.noConfusion hmem
  rw [State.au3, State.au3, h.rate, State.flag, State.flag, State.fget, State.fget, hreg]

theorem Sheltered.looped (h : Sheltered s u) : u.looped = s.looped := funext fun v => by
  rw [State.looped, State.looped, h.moved.frame.fget (by decide) (by decide)]

theorem Sheltered.structural (h : Sheltered s u) : u.structural = s.structural := funext fun g => by
  rw [State.structural, State.structural, h.isSdh]

theorem Sheltered.auCols (h : Sheltered s u) {l : Nat} (hl : l < 64) (n : Nat) : u.auCols l n = s.auCols l n := by
  rw [State.auCols, State.auCols, h.rate, h.au3 hl, h.auType, h.auCfg]

theorem Sheltered.grains (h : Sheltered s u) {g : PathGeo} (hg : g.lane < 64) : u.grains g = s.grains g := by
  rw [State.grains, State.grains, h.structural, h.rate, h.auCols hg, h.auType, h.au3 hg]

theorem Sheltered.inRange (h : Sheltered s u) {g : PathGeo} (hg : g.lane < 64) : u.inRange g = s.inRange g := by
  have hmatch : u.auMatches g = s.auMatches g := by
    rw [State.auMatches, State.auMatches, h.auType, h.au3 hg, h.rate, h.auCfg]
  rw [State.inRange, State.inRange, hmatch, h.structural, h.grains hg, h.isSdh, h.role, h.payCols]

theorem ofWords_lane_lt (w0 w1 w2 : W32) : (PathGeo.ofWords w0 w1 w2).lane < 64 := bits_lt ..

theorem Sheltered.writtenGeo (h : Sheltered s u) (p : Nat) : u.writtenGeo p = s.writtenGeo p := by
  rw [State.writtenGeo, State.writtenGeo, h.moved.pathWord, h.moved.pathWord, h.moved.pathWord]
  rw [h.inRange (ofWords_lane_lt _ _ _)]

theorem writtenGeo_lane_lt {p : Nat} {g : PathGeo} (h : s.writtenGeo p = some g) : g.lane < 64 := by
  unfold State.writtenGeo at h
  dsimp only at h
  split at h
  · cases h
    exact ofWords_lane_lt _ _ _
  · cases h

theorem Sheltered.termPathOk (h : Sheltered s u) (p typ : Nat) (lane : Bool) :
    u.termPathOk p typ lane = s.termPathOk p typ lane := by
  rw [State.termPathOk, State.termPathOk, h.writtenGeo]
  cases hgeo : s.writtenGeo p with
  | none => rfl
  | some g =>
    dsimp only
    rw [h.grains (writtenGeo_lane_lt hgeo), h.looped]

theorem Sheltered.entryDlv (h : Sheltered s u) (w : W32) : u.entryDlv w = s.entryDlv w := by
  rw [State.entryDlv, State.entryDlv, h.writtenGeo]
  cases hgeo : s.writtenGeo (bits w 17 0) with
  | none => rfl
  | some g => exact h.grains (writtenGeo_lane_lt hgeo)

theorem Sheltered.entryEmit (h : Sheltered s u) (w : W32) : u.entryEmit w = s.entryEmit w := by
  rw [State.entryEmit, State.entryEmit, h.writtenGeo]
  cases hgeo : s.writtenGeo (bits w 17 0) with
  | none => rfl
  | some g => exact congrArg (List.map fun c => (g.lane, c)) (h.grains (writtenGeo_lane_lt hgeo))

theorem Sheltered.othersEnabled (h : Sheltered s u) (t : Nat) : u.othersEnabled t = s.othersEnabled t := by
  rw [State.othersEnabled, State.othersEnabled, State.termList, State.termList, h.terms]
  simp only [h.memWord]

theorem Sheltered.termCheck (h : Sheltered s u) (t : Nat) (w : Nat → W32) : u.termCheck t w = s.termCheck t w := by
  rw [State.termCheck, State.termCheck]
  simp only [h.termPathOk, h.othersEnabled, h.entryDlv, h.entryEmit, h.memWord]

end Sys2Proof
end

section
/-! SUPPORT. A write to the entry of a termination: what is refused, and what a stored word leaves (R85, R96). -/

namespace Sys2Proof.Machine

variable (s : State)

/-- Word `i` of the entry with the writable bits of the enabled bytes written. -/
def State.termMerged (s : State) (t i : Nat) (be : BitVec 4) (v : W32) : W32 :=
  (s.memWord (termCfgAddr t i) &&& ~~~(termRw i &&& beMask be)) ||| (v &&& (termRw i &&& beMask be))

/-- The entry as the write would leave it. -/
def State.termEntry (s : State) (t i : Nat) (be : BitVec 4) (v : W32) (k : Nat) : W32 :=
  if k = i then s.termMerged t i be v else s.memWord (termCfgAddr t k)

/-- Bits that an enabled entry locks: all but enable. -/
def termKeep (i : Nat) : W32 := if i = 0 then 0x7FFFFFFF else 0xFFFFFFFF

/-- The write is refused: the entry is enabled and more than enable would change, or an enable fails its check. -/
def termRefused (s : State) (t i : Nat) (be : BitVec 4) (v : W32) : Bool :=
  decide (i ≤ 5) &&
    (if bit (s.memWord (termCfgAddr t 0)) 31 then
      decide (s.termMerged t i be v &&& termKeep i ≠ s.memWord (termCfgAddr t i) &&& termKeep i)
     else decide (i = 0) && bit (s.termMerged t i be v) 31 && !s.termCheck t (s.termEntry t i be v))

/-- The word is stored, and the entry waits for the frame mark. -/
def State.termStored (s : State) (t i : Nat) (be : BitVec 4) (v : W32) : State :=
  ((s.mend (termCfgAddr t i) be).setWord (termCfgAddr t i) (s.termMerged t i be v)).onTerm t
    fun x => { x with dirty := true, since := [] }

theorem termWrite_eq (t i : Nat) (be : BitVec 4) (v : W32) : s.termWrite t i be v =
    if termRefused s t i be v then s.raise Ev.trbCfgReject t
    else if i ≤ 5 then s.termStored t i be v else s := by
  unfold State.termWrite termRefused
  dsimp only
  by_cases hi : i ≤ 5
  · rw [if_neg (by omega), if_pos hi]
    by_cases hon : bit (s.memWord (termCfgAddr t 0)) 31 = true
    · rw [if_pos hon, if_pos hon, decide_eq_true hi, Bool.true_and]
      simp only [decide_eq_true_eq]
      rfl
    · rw [if_neg hon, if_neg hon, decide_eq_true hi, Bool.true_and]
      by_cases henable : (decide (i = 0) && bit (s.termMerged t i be v) 31) = true
      · have hcond := henable
        rw [State.termMerged] at hcond
        rw [if_pos hcond, henable, Bool.true_and]
        obtain rfl : i = 0 := by
          simp only [Bool.and_eq_true, decide_eq_true_eq] at henable
          exact henable.1
        change (if s.termCheck t (s.termEntry t 0 be v) = true then s.termStored t 0 be v else
          s.raise Ev.trbCfgReject t) = _
        cases s.termCheck t (s.termEntry t 0 be v) <;> rfl
      · have hcond := henable
        rw [State.termMerged] at hcond
        rw [if_neg hcond, Bool.eq_false_iff.2 henable, Bool.false_and, if_neg Bool.false_ne_true]
        rfl
  · rw [if_pos (by omega), if_neg hi, decide_eq_false hi, Bool.false_and, if_neg Bool.false_ne_true]

theorem term_onTerm_self (t : Nat) (f : TermSt → TermSt) : (s.onTerm t f).term t = f (s.term t) :=
  Sparse.get_put_self ..

theorem termStored_shows (t i : Nat) (be : BitVec 4) (v : W32) :
    (s.termStored t i be v).memWord (termCfgAddr t i) = s.termMerged t i be v ∧
    ((s.termStored t i be v).term t).dirty = true ∧ (s.termStored t i be v).evt = s.evt ∧
    Frame s (s.termStored t i be v) (theseRegs []) (bytesAt (termCfgAddr t i) 4) := by
  have hmend : Frame s (s.mend (termCfgAddr t i) be) (theseRegs []) (bytesAt (termCfgAddr t i) 4) := by
    rw [mend_rest]
    exact .of_hidden ⟨rfl, rfl, rfl, rfl, rfl⟩ rfl
  have hevt : (s.mend (termCfgAddr t i) be).evt = s.evt := by rw [mend_rest]
  unfold State.termStored
  generalize s.mend (termCfgAddr t i) be = u at hmend hevt
  have hset : Frame u (u.setWord (termCfgAddr t i) (s.termMerged t i be v)) (theseRegs [])
      (bytesAt (termCfgAddr t i) 4) := frame_setWord u _ _ fun k hk => by simp [bytesAt, hk]
  have hword := memWord_setWord_self u (termCfgAddr t i) (s.termMerged t i be v)
  have hbeside := (putWord_beside u (termCfgAddr t i) 0xF (s.termMerged t i be v)).2.1
  rw [← State.setWord] at hbeside
  generalize u.setWord (termCfgAddr t i) (s.termMerged t i be v) = x at hset hword hbeside
  exact ⟨hword, congrArg TermSt.dirty (term_onTerm_self x t _), hbeside.trans hevt,
    (hmend.trans hset).trans (.of_hidden ⟨rfl, rfl, rfl, rfl, rfl⟩ rfl)⟩

end Sys2Proof.Machine

namespace Sys2Proof

open Machine

/-- What a write makes of the entry of a termination, and the registers that it reaches. -/
structure EntryWritten (s y : State) (regs : Nat → Bool) (t i : Nat) (be : BitVec 4) (v : W32) : Prop where
  word  : y.memWord (termCfgAddr t i) =
    if i ≤ 5 ∧ termRefused s t i be v = false then s.termMerged t i be v else s.memWord (termCfgAddr t i)
  dirty : i ≤ 5 → termRefused s t i be v = false → (y.term t).dirty = true
  told  : Told s y (termRefused s t i be v) Ev.trbCfgReject [t]
  frame : Frame s y regs (bytesAt (termCfgAddr t i) 4)

theorem told_of_evt {s y : State} (h : y.evt = s.evt) (e : EvName) (ps : List Nat) : Told s y false e ps := fun _ => by
  rw [h, Bool.false_and]
  exact (List.append_nil _).symm

theorem entryWritten_termWrite (s : State) (t i : Nat) (be : BitVec 4) (v : W32) :
    EntryWritten s (s.termWrite t i be v) (theseRegs []) t i be v := by
  rw [termWrite_eq]
  cases hrefused : termRefused s t i be v with
  | true =>
    rw [if_pos rfl]
    refine ⟨?_, fun _ h => absurd hrefused (by rw [h]; exact Bool.false_ne_true), ?_, frame_raise s _ _ _ _ _ _⟩
    · rw [if_neg fun h => absurd hrefused (by rw [h.2]; exact Bool.false_ne_true)]
      exact memWord_congr s (congrArg Works.mem (works_raise s _ _ _ _ _ _)) _
    · rw [hrefused]
      intro hroom
      exact staged_raise s hroom Ev.trbCfgReject t 0 0 0 0
  | false =>
    rw [if_neg Bool.false_ne_true]
    by_cases hi : i ≤ 5
    · rw [if_pos hi]
      obtain ⟨hword, hdirty, hevt, hframe⟩ := termStored_shows s t i be v
      exact ⟨by rw [if_pos ⟨hi, hrefused⟩]; exact hword, fun _ _ => hdirty,
        by rw [hrefused]; exact told_of_evt hevt _ _, hframe⟩
    · rw [if_neg hi]
      exact ⟨by rw [if_neg fun h => hi h.1], fun h => absurd h hi, by rw [hrefused]; exact told_of_evt rfl _ _,
        .refl _ _ _⟩

variable {s u : State}

theorem Sheltered.termMerged (h : Sheltered s u) (t i : Nat) (be : BitVec 4) (v : W32) :
    u.termMerged t i be v = s.termMerged t i be v := by
  rw [State.termMerged, State.termMerged, h.memWord]

theorem Sheltered.termEntry (h : Sheltered s u) (t i : Nat) (be : BitVec 4) (v : W32) :
    u.termEntry t i be v = s.termEntry t i be v := funext fun k => by
  rw [State.termEntry, State.termEntry, h.termMerged, h.memWord]

theorem Sheltered.termRefused (h : Sheltered s u) (t i : Nat) (be : BitVec 4) (v : W32) :
    Machine.termRefused u t i be v = Machine.termRefused s t i be v := by
  rw [Machine.termRefused, Machine.termRefused, h.termMerged, h.termEntry, h.memWord, h.memWord, h.termCheck]

/-- The registers that the refusal is formed from lie apart from those that a host write accounts for itself in. -/
theorem quiet_termRefusal : ∀ a ∈ [Reg.evtCfg, Reg.evtMask Ev.trbCfgReject.block, Reg.pmnStat, Reg.pmnTai],
    hostMemRegs a = false ∧ eventReg a = false := by
  unfold hostMemRegs memRegs
  decide

/-- What the write tells the state it acts on is told of the host's write. -/
theorem Sheltered.told {x y t : State} {on : Bool} {ps : List Nat} (hx : Sheltered s x)
    (hy : Told x y on Ev.trbCfgReject ps) (ht : Sheltered y t) : Told s t on Ev.trbCfgReject ps := by
  obtain ⟨hdelivers, hevent⟩ := hx.moved.frame.eventOf quiet_termRefusal ps
  intro hroom
  have hroom' : x.eventRoom = true := by rw [State.eventRoom, hx.moved.evt]; exact hroom
  rw [ht.moved.evt, hy hroom', hx.moved.evt, hdelivers, hevent]

/-- A host write of a word of an entry, as the state after it shows it. -/
theorem entryWritten_hostMem {t i : Nat} (hs : s.standsBy = false) (ht : t < 8192) (hi : i < 8) (be : BitVec 4)
    (v : W32) :
    EntryWritten s (s.hostMem (termCfgAddr t i) be v fun s => s.termWrite t i be v) hostMemRegs t i be v := by
  obtain ⟨x, hx, hy⟩ := hostMem_termTaken s hs (a := termCfgAddr t i) (by simp only [termCfgAddr]; omega)
    (by simp only [termCfgAddr]; omega) be v fun s => s.termWrite t i be v
  have h := entryWritten_termWrite x t i be v
  generalize x.termWrite t i be v = z at h hy
  generalize s.hostMem (termCfgAddr t i) be v (fun s => s.termWrite t i be v) = y at hy
  refine ⟨?_, fun hle hok => ?_, ?_, frame_of_unmoved hx.moved h.frame hy.moved⟩
  · rw [hy.memWord, h.word, hx.termRefused, hx.termMerged, hx.memWord]
  · rw [State.term, hy.terms]
    exact h.dirty hle (by rw [hx.termRefused]; exact hok)
  · exact hx.termRefused t i be v ▸ hx.told h.told hy

end Sys2Proof
end

section
/-! OBLIGATION O8. -/

namespace Sys2Proof

open Machine

/-- A path that an entry may name, over the geometry of the path as it is written. -/
theorem termPathOk_eq (s : State) (p typ : Nat) (lane : Bool) : s.termPathOk p typ lane =
    (s.writtenGeo p).any fun g => g.typ = typ &&
      (if lane then 48 ≤ g.lane && !s.looped (g.lane - 48) else (s.grains g).all fun x => !s.looped (addrV x)) := by
  unfold State.termPathOk
  cases s.writtenGeo p <;> rfl

/-- Settles O8: the write acts on a state that shows the entries, the paths and the lanes as the host found them, and
neither the wake of the bank nor the mirror changes what was written. -/
theorem terminationEntryWrites : Obligations.TerminationEntryWrites := by
  intro n w be v s htakes
  simp only [State.takesHost, Bool.and_eq_true, Bool.not_eq_true'] at htakes
  obtain ⟨⟨hup, -⟩, hstands⟩ := htakes
  refine completes_of_up (f := fun s => s.hostMem (termCfgAddr n.toNat w.val) be v fun s =>
    s.termWrite n.toNat w.val be v) hup rfl ?_
  have h := entryWritten_hostMem hstands n.isLt w.isLt be v
  generalize s.hostMem (termCfgAddr n.toNat w.val) be v (fun s => s.termWrite n.toNat w.val be v) = t at h
  intro a old m new on keep entry col oct named apart sound refused stored
  have hsound : sound = s.termCheck n.toNat entry := by
    simp only [State.termCheck, termPathOk_eq]
    rfl
  have hrefused : refused = termRefused s n.toNat w.val be v := by
    simp only [refused, hsound]
    rfl
  have hstored : stored = true ↔ w.val ≤ 5 ∧ termRefused s n.toNat w.val be v = false := by
    simp only [stored, hrefused, Bool.and_eq_true, decide_eq_true_eq, Bool.not_eq_true']
  refine ⟨h.word.trans (if_congr hstored.symm rfl rfl), fun hst => ?_, ?_, h.frame⟩
  · exact h.dirty (hstored.1 hst).1 (hstored.1 hst).2
  · rw [hrefused]
    exact h.told

end Sys2Proof
end

section
/-! SUPPORT. What the operations on an E1/T1 termination leave of it: the entry in force, the flags of status word 0,
the fill and the counts (R89-R91, R96). -/

namespace Sys2Proof

open Machine

variable {s t u : State} {n : Nat} {fs gs : List Nat}

/-- The status words of termination `n`, and words 3 and 4 of paths. -/
def termBytes (n : Nat) : Nat → Bool := orAt pathStatus (bytesAt (termStatAddr n 0) 32)

/-- An operation on termination `n` that changes, of its flags, at most those of `fs`. -/
structure TermKeeps (n : Nat) (fs : List Nat) (s t : State) : Prop where
  frame : Frame s t trbSummary (termBytes n)
  cfg   : (t.term n).cfg = (s.term n).cfg
  flags : ∀ b, 21 ≤ b → b < 32 → b ∉ fs → t.termFlag n b = s.termFlag n b

/-- One that leaves the fill, the frame fed last, the slip counts and the V5 errors as well. -/
structure FeedKeeps (n : Nat) (fs : List Nat) (s t : State) : Prop extends TermKeeps n fs s t where
  fill  : (t.term n).fill = (s.term n).fill
  fedAt : (t.term n).fedAt = (s.term n).fedAt
  slips : t.termStat n 1 = s.termStat n 1
  errs  : t.termStat n 5 = s.termStat n 5

/-- A flag of termination `n` is set, and no more of it changes than is noted for the frame mark. -/
structure FlagSet (n b : Nat) (on : Bool) (s t : State) : Prop extends FeedKeeps n [b] s t where
  self : t.termFlag n b = on
  term : ∃ l, t.term n = { s.term n with since := l }

theorem TermKeeps.refl (s : State) : TermKeeps n fs s s := ⟨.refl _ _ _, rfl, fun _ _ _ _ => rfl⟩

theorem TermKeeps.trans (h : TermKeeps n fs s t) (k : TermKeeps n fs t u) : TermKeeps n fs s u :=
  ⟨h.frame.trans k.frame, k.cfg.trans h.cfg,
    fun b h21 h32 hb => (k.flags b h21 h32 hb).trans (h.flags b h21 h32 hb)⟩

theorem TermKeeps.widen (h : TermKeeps n fs s t) (hsub : fs ⊆ gs) : TermKeeps n gs s t :=
  ⟨h.frame, h.cfg, fun b h21 h32 hb => h.flags b h21 h32 fun hmem => hb (hsub hmem)⟩

theorem FeedKeeps.refl (s : State) : FeedKeeps n fs s s := ⟨.refl s, rfl, rfl, rfl, rfl⟩

theorem FeedKeeps.trans (h : FeedKeeps n fs s t) (k : FeedKeeps n fs t u) : FeedKeeps n fs s u :=
  ⟨h.toTermKeeps.trans k.toTermKeeps, k.fill.trans h.fill, k.fedAt.trans h.fedAt, k.slips.trans h.slips,
    k.errs.trans h.errs⟩

theorem FeedKeeps.widen (h : FeedKeeps n fs s t) (hsub : fs ⊆ gs) : FeedKeeps n gs s t :=
  ⟨h.toTermKeeps.widen hsub, h.fill, h.fedAt, h.slips, h.errs⟩

theorem FeedKeeps.ite {c : Prop} [Decidable c] {x y : State} (hx : c → FeedKeeps n fs s x)
    (hy : ¬ c → FeedKeeps n fs s y) : FeedKeeps n fs s (if c then x else y) := by
  split
  · exact hx (by assumption)
  · exact hy (by assumption)

/-! ### What follows from the entry in force -/

theorem termW_of_cfg (h : (t.term n).cfg = (s.term n).cfg) (i : Nat) : t.termW n i = s.termW n i := by
  rw [State.termW, State.termW, h]

theorem termPath_of_cfg (h : (t.term n).cfg = (s.term n).cfg) (i : Nat) : t.termPath n i = s.termPath n i := by
  rw [State.termPath, State.termPath, termW_of_cfg h]

theorem termOn_of_cfg (h : (t.term n).cfg = (s.term n).cfg) : t.termOn n = s.termOn n := by
  rw [State.termOn, State.termOn, h]

theorem termT1_of_cfg (h : (t.term n).cfg = (s.term n).cfg) : t.termT1 n = s.termT1 n := by
  rw [State.termT1, State.termT1, termW_of_cfg h]

theorem frameBits_of_cfg (h : (t.term n).cfg = (s.term n).cfg) : t.frameBits n = s.frameBits n := by
  rw [State.frameBits, State.frameBits, termT1_of_cfg h]

/-- term_fail follows the flags, the entry and the centring (R90). -/
theorem TermKeeps.termFailNow (h : TermKeeps n fs s t) (hc : (t.term n).centred = (s.term n).centred)
    (hfs : fs ⊆ [stTermFail]) : t.termFailNow n = s.termFailNow n := by
  have hflag : ∀ b ∈ [stFeedCon, stTuFail, stAis, stOof, stMfLoss, stCrc4Off], t.termFlag n b = s.termFlag n b :=
    fun b hb => h.flags b (by revert b; decide) (by revert b; decide) fun hmem => by
      have heq := List.mem_singleton.1 (hfs hmem)
      clear hmem
      revert b
      decide
  rw [State.termFailNow, State.termFailNow, termT1_of_cfg h.cfg, termW_of_cfg h.cfg, hc, hflag _ (by simp),
    hflag _ (by simp), hflag _ (by simp), hflag _ (by simp), hflag _ (by simp), hflag _ (by simp)]

/-! ### Status words -/

theorem memWord_of_bytes {a : Nat} (h : ∀ k, k < 4 → t.byte (a + k) = s.byte (a + k)) : t.memWord a = s.memWord a := by
  have h0 := h 0 (by decide)
  rw [State.memWord, State.memWord, h 3 (by decide), h 2 (by decide), h 1 (by decide), ← Nat.add_zero a, h0]

/-- The status words lie behind the path table. -/
theorem pathStatus_termStat (n w k : Nat) : pathStatus (termStatAddr n w + k) = false := by
  simp only [pathStatus, Bool.and_eq_false_iff, decide_eq_false_iff_not]
  unfold termStatAddr
  omega

theorem termStat_of_marked (h : PathsMarked s t) (n w : Nat) : t.termStat n w = s.termStat n w :=
  memWord_of_bytes fun k _ => h.byte _ (pathStatus_termStat n w k)

theorem FeedKeeps.of_terms (hframe : Frame s t trbSummary (termBytes n)) (hterms : t.terms = s.terms)
    (hstat : ∀ w, t.termStat n w = s.termStat n w) : FeedKeeps n fs s t where
  frame := hframe
  cfg := by rw [State.term, State.term, hterms]
  flags := fun b _ _ _ => by rw [State.termFlag, State.termFlag, hstat]
  fill := by rw [State.term, State.term, hterms]
  fedAt := by rw [State.term, State.term, hterms]
  slips := hstat 1
  errs := hstat 5

theorem FeedKeeps.of_noted (hframe : Frame s t trbSummary (termBytes n)) (h : Noted s t) : FeedKeeps n fs s t :=
  .of_terms hframe h.terms fun _ => memWord_congr s h.mem _

end Sys2Proof

namespace Sys2Proof.Machine

variable (s : State) (n : Nat) {fs : List Nat}

/-! ### The status words (R96) -/

theorem termStat_setTermStat_self (w : Nat) (v : W32) : (s.setTermStat n w v).termStat n w = v :=
  memWord_setWord_self _ _ _

theorem termStat_setTermStat_ne {w j : Nat} (v : W32) (h : j ≠ w) :
    (s.setTermStat n w v).termStat n j = s.termStat n j := by
  have hout : (s.setTermStat n w v).termStat n j = (s.mend (termStatAddr n w) 0x1).memWord (termStatAddr n j) :=
    memWord_putWord_out _ _ _ (by simp only [termStatAddr]; omega)
  rw [hout]
  exact memWord_congr s (mend_mem s _ _) _

theorem terms_setTermStat (w : Nat) (v : W32) : (s.setTermStat n w v).terms = s.terms := by
  rw [State.setTermStat, setFields_rest]

theorem frame_setTermStat {w : Nat} (hw : w < 8) (v : W32) : Frame s (s.setTermStat n w v) trbSummary (termBytes n) :=
  (aside_setFields s _ v fun k hk => orAt_true.2 (.inr (by
    simp only [bytesAt, Bool.and_eq_true, decide_eq_true_eq]
    unfold termStatAddr
    omega))).frame

/-- A write of a status word other than word 0. -/
theorem termKeeps_setTermStat {w : Nat} (hw : w < 8) (h0 : w ≠ 0) (v : W32) :
    TermKeeps n fs s (s.setTermStat n w v) where
  frame := frame_setTermStat s n hw v
  cfg := by rw [State.term, State.term, terms_setTermStat]
  flags := fun b _ _ _ => by rw [State.termFlag, State.termFlag, termStat_setTermStat_ne s n v h0.symm]

/-- One that is neither the slip counts nor the V5 errors. -/
theorem feedKeeps_setTermStat {w : Nat} (hw : w < 8) (h0 : w ≠ 0) (h1 : w ≠ 1) (h5 : w ≠ 5) (v : W32) :
    FeedKeeps n fs s (s.setTermStat n w v) where
  toTermKeeps := termKeeps_setTermStat s n hw h0 v
  fill := by rw [State.term, State.term, terms_setTermStat]
  fedAt := by rw [State.term, State.term, terms_setTermStat]
  slips := termStat_setTermStat_ne s n v h1.symm
  errs := termStat_setTermStat_ne s n v h5.symm

theorem onTerm_keeps {f : TermSt → TermSt} (hcfg : ∀ x, (f x).cfg = x.cfg) : TermKeeps n fs s (s.onTerm n f) where
  frame := (aside_onTerm s n f).frame
  cfg := by rw [term_onTerm_self, hcfg]
  flags := fun _ _ _ _ => rfl

theorem onTerm_feedKeeps {f : TermSt → TermSt}
    (hf : ∀ x, (f x).cfg = x.cfg ∧ (f x).fill = x.fill ∧ (f x).fedAt = x.fedAt) : FeedKeeps n fs s (s.onTerm n f) where
  toTermKeeps := onTerm_keeps s n fun x => (hf x).1
  fill := by rw [term_onTerm_self, (hf _).2.1]
  fedAt := by rw [term_onTerm_self, (hf _).2.2]
  slips := rfl
  errs := rfl

/-- A flag of status word 0. -/
theorem termFlag_setBit {b : Nat} (hb : b < 32) (on : Bool) (c : Nat) :
    (s.setTermStat n 0 (setBits (s.termStat n 0) b b (b2n on))).termFlag n c =
      if c = b then on else s.termFlag n c := by
  rw [State.termFlag, State.termFlag, termStat_setTermStat_self]
  split
  · next h => rw [h, bit_setBits_self _ hb]
  · next h => rw [bit_setBits_ne _ hb h]

theorem feedKeeps_setBit {b : Nat} (hb : b < 32) (on : Bool) :
    FeedKeeps n [b] s (s.setTermStat n 0 (setBits (s.termStat n 0) b b (b2n on))) where
  frame := frame_setTermStat s n (by decide) _
  cfg := by rw [State.term, State.term, terms_setTermStat]
  flags := fun c _ _ hc => by rw [termFlag_setBit s n hb, if_neg (by simpa using hc)]
  fill := by rw [State.term, State.term, terms_setTermStat]
  fedAt := by rw [State.term, State.term, terms_setTermStat]
  slips := termStat_setTermStat_ne s n _ (by decide)
  errs := termStat_setTermStat_ne s n _ (by decide)

/-! ### A flag is set (R96) -/

theorem flagSet_setTermFlag {b : Nat} (hb : b < 32) (on : Bool) : FlagSet n b on s (s.setTermFlag n b on) := by
  have hkeeps := feedKeeps_setBit s n hb on
  have hself := termFlag_setBit s n hb on b
  have hterm : (s.setTermStat n 0 (setBits (s.termStat n 0) b b (b2n on))).term n = s.term n := by
    rw [State.term, State.term, terms_setTermStat]
  rw [if_pos rfl] at hself
  unfold State.setTermFlag
  generalize s.setTermStat n 0 (setBits (s.termStat n 0) b b (b2n on)) = u at hkeeps hself hterm
  dsimp only
  split
  · exact ⟨hkeeps.trans (onTerm_feedKeeps u n fun _ => ⟨rfl, rfl, rfl⟩), hself, _, by rw [term_onTerm_self, hterm]⟩
  · exact ⟨hkeeps, hself, (s.term n).since, hterm⟩

end Sys2Proof.Machine
end

section
/-! SUPPORT. term_fail, OOF, slips and the frames that a termination takes (R89-R91). -/

namespace Sys2Proof

open Machine

variable {s t u : State} {n b : Nat} {on : Bool} {fs : List Nat}

/-- term_fail of termination `n` is what its parts give, and nothing else of the termination changes. -/
structure Judged (n : Nat) (s t : State) : Prop extends FeedKeeps n [stTermFail] s t where
  self  : t.termFlag n stTermFail = s.termFailNow n
  terms : t.terms = s.terms

theorem Judged.term (h : Judged n s t) : t.term n = s.term n := by rw [State.term, State.term, h.terms]

theorem Judged.shown (h : Judged n s t) : t.termFlag n stTermFail = t.termFailNow n :=
  h.self.trans (h.termFailNow (by rw [h.term]) fun _ => id).symm

theorem Judged.flag (h : Judged n s t) (h21 : 21 ≤ b) (h31 : b < 31) : t.termFlag n b = s.termFlag n b :=
  h.flags b h21 (by omega) (by simp only [List.mem_singleton, stTermFail]; omega)

/-- A flag is set and term_fail is judged. -/
structure FlagJudged (n b : Nat) (on : Bool) (s t : State) : Prop where
  keeps : FeedKeeps n [b, stTermFail] s t
  self  : t.termFlag n b = on
  shown : t.termFlag n stTermFail = t.termFailNow n
  term  : ∃ l, t.term n = { s.term n with since := l }

theorem FlagSet.judged (h : FlagSet n b on s u) (k : Judged n u t) (h21 : 21 ≤ b) (h31 : b < 31) :
    FlagJudged n b on s t where
  keeps := (h.toFeedKeeps.widen (by simp)).trans (k.toFeedKeeps.widen (by simp))
  self := (k.flag h21 h31).trans h.self
  shown := k.shown
  term := by
    obtain ⟨l, hl⟩ := h.term
    exact ⟨l, k.term.trans hl⟩

end Sys2Proof

namespace Sys2Proof.Machine

variable (s : State) {n : Nat} {fs : List Nat}

/-! ### term_fail (R90) -/

theorem feedKeeps_summary {f : Fld} (h : trbSummary f.reg = true) (on : Bool) : FeedKeeps n fs s (s.fbit f on) :=
  .of_noted (frame_fbit s f on (.inl h)) (noted_fbit s f on)

theorem feedKeeps_raise (e : EvName) (w1 w2 w3 w4 w5 : Nat) : FeedKeeps n fs s (s.raise e w1 w2 w3 w4 w5) :=
  .of_noted (frame_raise ..) (noted_raise ..)

theorem terms_stickTerm : (s.stickTerm n).terms = s.terms := by
  unfold State.stickTerm
  exact ((noted_fbit s _ true).trans (noted_raise _ _ _ _ _ _ _)).terms

theorem feedKeeps_stickTerm (hn : n < 8192) : FeedKeeps n fs s (s.stickTerm n) := by
  unfold State.stickTerm
  exact (feedKeeps_summary s (trbSummary_stickySum hn) true).trans (feedKeeps_raise _ _ _ _ _ _ _)

theorem terms_setDefect {p : Nat} (hp : p < 262144) (b : Nat) (on : Bool) : (s.setDefect p b on).terms = s.terms := by
  rw [(pathsMarked_setDefect s hp b on).rest]

theorem feedKeeps_setDefect {p : Nat} (hp : p < 262144) (b : Nat) (on : Bool) :
    FeedKeeps n fs s (s.setDefect p b on) :=
  have h := pathsMarked_setDefect s hp b on
  .of_terms (h.frame.mono (fun _ h => by cases h) fun _ ha => orAt_true.2 (.inl ha)) (terms_setDefect s hp b on)
    (termStat_of_marked h n)

theorem terms_setTermFlag_fail (on : Bool) : (s.setTermFlag n stTermFail on).terms = s.terms := by
  unfold State.setTermFlag
  dsimp only
  rw [if_neg (by simp), terms_setTermStat]

theorem judged_judgeTerm (hn : n < 8192) (hon : s.termOn n = true) : Judged n s (s.judgeTerm n) := by
  have hset := flagSet_setTermFlag s n (b := stTermFail) (by decide) (s.termFailNow n)
  have hterms := terms_setTermFlag_fail s (n := n) (s.termFailNow n)
  have hp := termPath_lt s n 2
  unfold State.judgeTerm
  rw [hon, Bool.not_true, if_neg Bool.false_ne_true]
  dsimp only
  generalize s.setTermFlag n stTermFail (s.termFailNow n) = u at hset hterms
  have hdefect := feedKeeps_setDefect u (n := n) (fs := []) hp 22 (s.termFailNow n)
  have hterms' := (terms_setDefect u hp 22 (s.termFailNow n)).trans hterms
  generalize u.setDefect (s.termPath n 2) 22 (s.termFailNow n) = v at hdefect hterms'
  have hsum := feedKeeps_summary v (n := n) (fs := []) (trbSummary_failSum hn) (s.termFailNow n)
  have hterms'' := (noted_fbit v (summaryBit (Reg.trbFailSum 0) n) (s.termFailNow n)).terms.trans hterms'
  generalize v.fbit (summaryBit (Reg.trbFailSum 0) n) (s.termFailNow n) = w at hsum hterms''
  have hw := hdefect.trans hsum
  have hall : FeedKeeps n [stTermFail] s w := hset.toFeedKeeps.trans (hw.widen (by simp))
  have hself : w.termFlag n stTermFail = s.termFailNow n :=
    (hw.flags stTermFail (by decide) (by decide) (by simp)).trans hset.self
  split
  · have hstick := feedKeeps_stickTerm w (fs := []) hn
    exact ⟨hall.trans (hstick.widen (by simp)), (hstick.flags stTermFail (by decide) (by decide) (by simp)).trans hself,
      (terms_stickTerm w).trans hterms''⟩
  · exact ⟨hall, hself, hterms''⟩

theorem flagJudged_set (hn : n < 8192) (hon : s.termOn n = true) {b : Nat} (h21 : 21 ≤ b) (h31 : b < 31) (on : Bool) :
    FlagJudged n b on s ((s.setTermFlag n b on).judgeTerm n) := by
  have hset := flagSet_setTermFlag s n (b := b) (by omega) on
  exact hset.judged (judged_judgeTerm _ hn ((termOn_of_cfg hset.cfg).trans hon)) h21 h31

/-- A flag of a termination in use changes where it may. -/
theorem termSet_eq (b : Nat) (ok on : Bool) :
    s.termSet n b ok on = if s.termOn n && ok then (s.setTermFlag n b on).judgeTerm n else s := rfl

/-! ### OOF (R89, R90) -/

/-- The termination after OOF is declared: its buffer is off centre, and its multiframes are lost. -/
def oofTerm (was : Bool) (x : TermSt) : TermSt :=
  { x with
    centred := false
    rx := { x.rx with
      hunt := false, run := if was then x.rx.run else 0, fasBad := 0, ftBad := [], mfPos := none
      crcAcc := none, crcPrev := none, crcBits := [], casPos := none, casWait := 0 } }

theorem termOof_eq (hon : s.termOn n = true) : s.termOof n =
    ((s.setTermFlag n stOof true).onTerm n (oofTerm (s.termFlag n stOof))).judgeTerm n := by
  unfold State.termOof
  rw [hon, Bool.not_true, if_neg Bool.false_ne_true]
  rfl

/-- What the declaration of OOF makes of a termination. -/
structure OofSet (n : Nat) (s t : State) : Prop where
  keeps   : FeedKeeps n [stOof, stTermFail] s t
  self    : t.termFlag n stOof = true
  shown   : t.termFlag n stTermFail = t.termFailNow n
  centred : (t.term n).centred = false

theorem oofSet_termOof (hn : n < 8192) (hon : s.termOn n = true) : OofSet n s (s.termOof n) := by
  rw [termOof_eq s hon]
  have hset := flagSet_setTermFlag s n (b := stOof) (by decide) true
  generalize s.setTermFlag n stOof true = u at hset
  have hoof := onTerm_feedKeeps (fs := []) u n (f := oofTerm (s.termFlag n stOof)) fun _ => ⟨rfl, rfl, rfl⟩
  have hcentred : ((u.onTerm n (oofTerm (s.termFlag n stOof))).term n).centred = false := by rw [term_onTerm_self]; rfl
  generalize u.onTerm n (oofTerm (s.termFlag n stOof)) = v at hoof hcentred
  have hcfg := hoof.cfg.trans hset.cfg
  have hjudge := judged_judgeTerm v hn ((termOn_of_cfg hcfg).trans hon)
  refine ⟨((hset.toFeedKeeps.widen (by simp)).trans (hoof.widen (by simp))).trans
    (hjudge.toFeedKeeps.widen (by simp)), ?_, hjudge.shown, by rw [hjudge.term, hcentred]⟩
  exact ((hjudge.flag (by decide) (by decide)).trans
    (hoof.flags stOof (by decide) (by decide) (by simp))).trans hset.self

/-! ### Slips (R91) -/

theorem termKeeps_slip (hn : n < 8192) (delete : Bool) : TermKeeps n [] s (s.slip n delete) := by
  have hcount : TermKeeps n [] s (s.slipCount n (if delete then 15 else 31)) :=
    termKeeps_setTermStat s n (by decide) (by decide) _
  unfold State.slip
  exact (hcount.trans (feedKeeps_raise _ _ _ _ _ _ _).toTermKeeps).trans (feedKeeps_stickTerm _ hn).toTermKeeps

end Sys2Proof.Machine
end

section
/-! SUPPORT. The bits of a feed frame: the frames that they complete, the fill of the slip buffer and the frame that is
deleted from it (R89, R91). -/

namespace Sys2Proof.Machine

variable (s : State) {n : Nat}

/-! ### A deleted frame -/

/-- A slip counts once and keeps the termination and its V5 errors. -/
theorem slip_delete (s : State) (n : Nat) : (s.slip n true).term n = s.term n ∧
    (s.slip n true).termStat n 5 = s.termStat n 5 ∧
    bits ((s.slip n true).termStat n 1) 15 0 = (bits (s.termStat n 1) 15 0 + 1) % 65536 := by
  have hterms : (s.slipCount n 15).terms = s.terms := terms_setTermStat s n 1 _
  have herrs : (s.slipCount n 15).termStat n 5 = s.termStat n 5 := termStat_setTermStat_ne s n _ (by decide)
  have hcount : bits ((s.slipCount n 15).termStat n 1) 15 0 = (bits (s.termStat n 1) 15 0 + 1) % 65536 := by
    rw [State.slipCount, termStat_setTermStat_self, bits_setBits_self _ _ (by decide) (by decide)]
    rfl
  unfold State.slip
  rw [if_pos rfl]
  generalize s.slipCount n 15 = u at hterms herrs hcount
  have hnoted := (noted_raise u Ev.trbSlip (s.termPath n 2) n (b2n (!true)) 0 0).trans
    ((noted_fbit _ (summaryBit (Reg.trbStickySum 0) n) true).trans
      (noted_raise _ Ev.trbDefect (State.termPath (u.raise Ev.trbSlip (s.termPath n 2) n (b2n (!true))) n 2) n 0 0 0))
  unfold State.stickTerm
  generalize State.raise _ Ev.trbDefect _ n = v at hnoted ⊢
  have hstat : ∀ w, v.termStat n w = u.termStat n w := fun w => memWord_congr u hnoted.mem _
  exact ⟨by rw [State.term, State.term, hnoted.terms, hterms], by rw [hstat, herrs], by rw [hstat, hcount]⟩

/-- The fill is above its limit: a frame is deleted (R91). -/
def overfull (s : State) (n : Nat) : Bool :=
  !s.termFlag n stOof && decide (11 * s.frameBits n < 4 * (s.term n).fill)

/-- What the bits of a feed frame leave, with the fill and the slips that they end with. -/
structure Filled (n : Nat) (fs : List Nat) (s t : State) (fill slips : Nat) : Prop extends TermKeeps n fs s t where
  fedAt : (t.term n).fedAt = (s.term n).fedAt
  errs  : t.termStat n 5 = s.termStat n 5
  fill  : (t.term n).fill = fill
  slips : bits (t.termStat n 1) 15 0 = (bits (s.termStat n 1) 15 0 + slips) % 65536

theorem bits_halfWord_mod (v : W32) : bits v 15 0 = (bits v 15 0 + 0) % 65536 :=
  (Nat.mod_eq_of_lt (bits_lt v 15 0)).symm

theorem filled_deleteFrame (hn : n < 8192) : Filled n [] s (s.deleteFrame n)
    (if overfull s n then (s.term n).fill - s.frameBits n else (s.term n).fill) (if overfull s n then 1 else 0) := by
  have hslip := termKeeps_slip s hn true
  obtain ⟨hterm, herrs, hslips⟩ := slip_delete s n
  have hcond : (!s.termFlag n stOof && decide (4 * (s.term n).fill > 11 * s.frameBits n)) = overfull s n := rfl
  unfold State.deleteFrame
  dsimp only
  rw [hcond]
  generalize s.slip n true = u at hslip hterm herrs hslips
  cases overfull s n with
  | true =>
    rw [if_pos rfl, if_pos rfl, if_pos rfl]
    refine ⟨hslip.trans (onTerm_keeps u n fun _ => rfl), ?_, herrs, ?_, hslips⟩
    · rw [term_onTerm_self, hterm]
    · rw [term_onTerm_self, hterm]
  | false =>
    rw [if_neg Bool.false_ne_true, if_neg Bool.false_ne_true, if_neg Bool.false_ne_true]
    exact ⟨.refl s, rfl, rfl, rfl, bits_halfWord_mod _⟩

/-! ### The frames taken -/

/-- Flags that an alignment found ends. -/
abbrev newsFlags : List Nat := [stMfLoss, stCrc4Off, stCasLoss]

theorem feedKeeps_termCount {w : Nat} (hw : w < 8) (h0 : w ≠ 0) (h1 : w ≠ 1) (h5 : w ≠ 5) (k : Nat) {fs : List Nat} :
    FeedKeeps n fs s (s.termCount n w k) := feedKeeps_setTermStat s n hw h0 h1 h5 _

theorem feedKeeps_pmBlocks (p ne fe : Nat) {fs : List Nat} : FeedKeeps n fs s (s.pmBlocks p ne fe) :=
  .of_terms (.of_hidden ⟨rfl, rfl, rfl, rfl, rfl⟩ rfl) rfl fun _ => rfl

theorem feedKeeps_setTermFlag {b : Nat} (hb : b < 32) (on : Bool) {fs : List Nat} (hfs : b ∈ fs) :
    FeedKeeps n fs s (s.setTermFlag n b on) :=
  (flagSet_setTermFlag s n hb on).toFeedKeeps.widen (by simpa using hfs)

theorem feedKeeps_frameNews (f : FrameNews) : FeedKeeps n newsFlags s (s.frameNews n f) := by
  unfold State.frameNews
  dsimp only
  refine FeedKeeps.trans (FeedKeeps.trans (FeedKeeps.trans (FeedKeeps.trans (.ite (fun _ => ?fas) fun _ => .refl _)
    (.ite (fun _ => ?crc) fun _ => .refl _)) (.ite (fun _ => ?eBit) fun _ => .refl _))
    (.ite (fun _ => ?mfas) fun _ => .refl _)) (.ite (fun _ => ?cas) fun _ => .refl _)
  case fas => exact feedKeeps_termCount s (by decide) (by decide) (by decide) (by decide) 1
  case crc =>
    exact ((feedKeeps_termCount _ (by decide) (by decide) (by decide) (by decide) 1).trans
      (feedKeeps_pmBlocks _ _ _ _)).trans (onTerm_feedKeeps _ n fun _ => ⟨rfl, rfl, rfl⟩)
  case eBit =>
    exact (feedKeeps_termCount _ (by decide) (by decide) (by decide) (by decide) 1).trans (feedKeeps_pmBlocks _ _ _ _)
  case mfas =>
    exact (feedKeeps_setTermFlag _ (by decide) false (by simp)).trans
      (feedKeeps_setTermFlag _ (by decide) false (by simp))
  case cas => exact feedKeeps_setTermFlag _ (by decide) false (by simp)

/-- The termination with `k` bits taken from its framer. -/
def bitsTaken (k : Nat) (x : TermSt) : TermSt := { x with rx := { x.rx with bits := x.rx.bits.drop k } }

theorem feedKeeps_takeFrame : FeedKeeps n newsFlags s (s.takeFrame n) := by
  have htaken := onTerm_feedKeeps (fs := newsFlags) s n (f := bitsTaken (s.frameBits n)) fun _ => ⟨rfl, rfl, rfl⟩
  unfold State.takeFrame
  refine htaken.trans (.ite (fun _ => ?_) fun _ => ?_)
  · refine onTerm_feedKeeps _ n ?_
    exact fun _ => ⟨rfl, rfl, rfl⟩
  · refine FeedKeeps.trans ?_ (feedKeeps_frameNews _ _)
    refine onTerm_feedKeeps _ n ?_
    exact fun _ => ⟨rfl, rfl, rfl⟩

theorem feedKeeps_takeFrames : ∀ (k : Nat) (s : State), FeedKeeps n newsFlags s (s.takeFrames n k)
  | 0, s => .refl s
  | k + 1, s => (feedKeeps_takeFrame s).trans (feedKeeps_takeFrames k _)

/-! ### The bits of a feed frame -/

/-- The fill after the bits of a feed frame have come in, before a frame is deleted. -/
def State.fullWith (s : State) (n k : Nat) : Nat :=
  if s.termFlag n stOof then (s.term n).fill else (s.term n).fill + k

/-- The fill is then above its limit. -/
def slipsWith (s : State) (n k : Nat) : Bool :=
  !s.termFlag n stOof && decide (11 * s.frameBits n < 4 * s.fullWith n k)

/-- The termination with the bits of a feed frame in its framer and its fill. -/
def bitsTerm (bits cap : Nat) (oof loss : Bool) (l : List Bool) (x : TermSt) : TermSt :=
  { x with
    fill := if oof then x.fill else x.fill + l.length
    rx := RxSt.aisCount (2 * bits) { x.rx with
      hist := lastOf cap (x.rx.hist ++ l), bits := x.rx.bits ++ l, run := x.rx.run + 1, aligned := x.rx.aligned + 1
      lossRun := if loss then x.rx.lossRun + 1 else 0 } l }

/-- The bits of a feed frame have gone to the framer and into the fill. -/
def State.bitsIn (s : State) (n : Nat) (l : List Bool) : State :=
  s.onTerm n
    (bitsTerm (s.frameBits n) (s.huntLen n * s.frameBits n) (s.termFlag n stOof) (s.termFlag n stMfLoss) l)

theorem feedBits_eq (l : List Bool) : s.feedBits n l =
    ((s.bitsIn n l).takeFrames n (((s.bitsIn n l).term n).rx.bits.length / s.frameBits n)).deleteFrame n := rfl

theorem filled_feedBits (hn : n < 8192) (l : List Bool) : Filled n newsFlags s (s.feedBits n l)
    (if slipsWith s n l.length then s.fullWith n l.length - s.frameBits n else s.fullWith n l.length)
    (if slipsWith s n l.length then 1 else 0) := by
  rw [feedBits_eq]
  have hbits : TermKeeps n newsFlags s (s.bitsIn n l) := onTerm_keeps s n fun _ => rfl
  have hterm : (s.bitsIn n l).term n = _ := term_onTerm_self s n _
  have hstat : ∀ w, (s.bitsIn n l).termStat n w = s.termStat n w := fun _ => rfl
  generalize s.bitsIn n l = u at hbits hterm hstat
  have htake := feedKeeps_takeFrames (n := n) ((u.term n).rx.bits.length / s.frameBits n) u
  generalize u.takeFrames n ((u.term n).rx.bits.length / s.frameBits n) = v at htake
  have hkeeps := hbits.trans htake.toTermKeeps
  have hoof : v.termFlag n stOof = s.termFlag n stOof := hkeeps.flags stOof (by decide) (by decide) (by decide)
  have hfill : (v.term n).fill = s.fullWith n l.length := by rw [htake.fill, hterm]; rfl
  have hover : overfull v n = slipsWith s n l.length := by
    rw [overfull, slipsWith, hoof, hfill, frameBits_of_cfg hkeeps.cfg]
  have hdelete := filled_deleteFrame v hn
  rw [hover, hfill, frameBits_of_cfg hkeeps.cfg] at hdelete
  generalize v.deleteFrame n = t at hdelete
  exact ⟨hkeeps.trans (hdelete.toTermKeeps.widen (by simp)),
    by rw [hdelete.fedAt, htake.fedAt, hterm]; rfl, by rw [hdelete.errs, htake.errs, hstat], hdelete.fill,
    by rw [hdelete.slips, htake.slips, hstat]⟩

end Sys2Proof.Machine
end

section
/-! SUPPORT. A feed frame of a termination, byte-synchronous or of a TU (R87, R88). -/

namespace Sys2Proof

open Machine

variable {s t u : State} {n : Nat}

/-- Flags that the bits of a feed frame may change beside feed_con. -/
abbrev feedFlags : List Nat := [stOof, stTermFail, stMfLoss, stCrc4Off, stCasLoss]

/-- In frame, a fill of `full` bits is above its limit of 2.75 frames (R91). -/
def slipsAt (out : Bool) (frame full : Nat) : Bool := !out && decide (11 * frame < 4 * full)

/-- What a feed frame leaves of termination `n`: out of frame or not, V5 errors, and the fill that comes of `full`. -/
structure FeedTaken (n : Nat) (s t : State) (out : Bool) (errs full : Nat) : Prop extends
    TermKeeps n feedFlags s t where
  fedAt : (t.term n).fedAt = (s.term n).fedAt
  oof   : t.termFlag n stOof = out
  errs  : t.termStat n 5 = s.termStat n 5 + BitVec.ofNat 32 errs
  fill  : (t.term n).fill = if out then (s.term n).fill else
    if slipsAt out (s.frameBits n) full then full - s.frameBits n else full
  slips : bits (t.termStat n 1) 15 0 =
    (bits (s.termStat n 1) 15 0 + if slipsAt out (s.frameBits n) full then 1 else 0) % 65536

/-- What has come of a feed frame before its bits go to the framer. -/
structure FeedReady (n : Nat) (s u : State) (out : Bool) (errs : Nat) : Prop extends
    TermKeeps n feedFlags s u where
  fedAt : (u.term n).fedAt = (s.term n).fedAt
  oof   : u.termFlag n stOof = out
  errs  : u.termStat n 5 = s.termStat n 5 + BitVec.ofNat 32 errs
  fill  : (u.term n).fill = (s.term n).fill
  slips : u.termStat n 1 = s.termStat n 1

theorem FeedReady.taken {out : Bool} {errs : Nat} (h : FeedReady n s u out errs) (hn : n < 8192) (l : List Bool) :
    FeedTaken n s (u.feedBits n l) out errs ((s.term n).fill + l.length) := by
  have hfilled := filled_feedBits u hn l
  have hslips : slipsWith u n l.length = slipsAt out (s.frameBits n) ((s.term n).fill + l.length) := by
    rw [slipsWith, slipsAt, State.fullWith, h.oof, h.fill, frameBits_of_cfg h.cfg]
    cases out <;> rfl
  rw [hslips, frameBits_of_cfg h.cfg] at hfilled
  generalize u.feedBits n l = t at hfilled
  refine ⟨h.toTermKeeps.trans (hfilled.toTermKeeps.widen (by simp)), hfilled.fedAt.trans h.fedAt, ?_,
    hfilled.errs.trans h.errs, ?_, hfilled.slips.trans (by rw [h.slips])⟩
  · exact (hfilled.flags stOof (by decide) (by decide) (by decide)).trans h.oof
  · rw [hfilled.fill, State.fullWith, h.oof, h.fill]
    cases out <;> rfl

theorem FeedTaken.judged {out : Bool} {errs full : Nat} (h : FeedTaken n s u out errs full) (k : Judged n u t) :
    FeedTaken n s t out errs full where
  toTermKeeps := h.toTermKeeps.trans (k.toTermKeeps.widen (by simp))
  fedAt := k.fedAt.trans h.fedAt
  oof := (k.flag (by decide) (by decide)).trans h.oof
  errs := k.errs.trans h.errs
  fill := k.fill.trans h.fill
  slips := by rw [k.slips, h.slips]

end Sys2Proof

namespace Sys2Proof.Machine

variable (s : State) {n : Nat}

/-! ### A byte-synchronous feed (R87) -/

/-- Octets of the signal in a byte-synchronous feed frame. -/
def State.syncLen (s : State) (n : Nat) : Nat := if s.termT1 n then 24 else 32

/-- The bits of the signal in a byte-synchronous feed frame. -/
def State.syncBits (s : State) (n : Nat) (os : List Octet) : List Bool :=
  (if s.termT1 n then [(os.getD (s.syncLen n) 0).getLsbD 0] else []) ++ octBits (os.take (s.syncLen n))

theorem length_octBits (os : List Octet) : (octBits os).length = 8 * os.length := by
  induction os with
  | nil => rfl
  | cons o os ih =>
    have hcons : octBits (o :: os) = (List.range 8).map (fun i => o.getLsbD (7 - i)) ++ octBits os := rfl
    rw [hcons, List.length_append, ih, List.length_map, List.length_range, List.length_cons]
    omega

theorem length_syncBits {os : List Octet} (h : os.length = s.feedLen n) : (s.syncBits n os).length = s.frameBits n := by
  unfold State.syncBits State.syncLen State.frameBits
  rw [State.feedLen, State.tuCols] at h
  rw [List.length_append, length_octBits, List.length_take]
  split <;> rename_i ht <;> simp only [ht, if_true, if_false, Bool.false_eq_true] at h ⊢ <;> simp [h]

/-- The termination with the in-frame flag of its sender (R87). -/
def flagTerm (on : Bool) (x : TermSt) : TermSt := { x with rx := { x.rx with inFlag := on } }

theorem feedSync_eq (os : List Octet) : s.feedSync n os =
    (if (os.getD (s.syncLen n) 0).getLsbD 7 then s.onTerm n (flagTerm ((os.getD (s.syncLen n) 0).getLsbD 7))
      else (s.onTerm n (flagTerm ((os.getD (s.syncLen n) 0).getLsbD 7))).termOof n).feedBits n (s.syncBits n os) := rfl

theorem FeedReady.of_keeps {s u : State} {out : Bool} (h : FeedKeeps n feedFlags s u)
    (hoof : u.termFlag n stOof = out) :
    FeedReady n s u out 0 :=
  ⟨h.toTermKeeps, h.fedAt, hoof, by rw [h.errs]; exact (BitVec.add_zero _).symm, h.fill, h.slips⟩

/-- A feed frame whose sender is not in frame declares OOF. -/
theorem feedTaken_feedSync (hn : n < 8192) (hon : s.termOn n = true) {os : List Octet} (h : os.length = s.feedLen n) :
    FeedTaken n s (s.feedSync n os) (s.termFlag n stOof || !(os.getD (s.syncLen n) 0).getLsbD 7) 0
      ((s.term n).fill + s.frameBits n) := by
  rw [feedSync_eq, ← length_syncBits s h]
  have hflag := onTerm_feedKeeps (fs := feedFlags) s n (f := flagTerm ((os.getD (s.syncLen n) 0).getLsbD 7))
    fun _ => ⟨rfl, rfl, rfl⟩
  have hoof : (s.onTerm n (flagTerm ((os.getD (s.syncLen n) 0).getLsbD 7))).termFlag n stOof = s.termFlag n stOof := rfl
  generalize s.onTerm n (flagTerm ((os.getD (s.syncLen n) 0).getLsbD 7)) = u at hflag hoof
  cases (os.getD (s.syncLen n) 0).getLsbD 7 with
  | true =>
    rw [if_pos rfl, Bool.not_true, Bool.or_false]
    exact (FeedReady.of_keeps hflag hoof).taken hn _
  | false =>
    rw [if_neg Bool.false_ne_true, Bool.not_false, Bool.or_true]
    have hset := oofSet_termOof u hn ((termOn_of_cfg hflag.cfg).trans hon)
    exact (FeedReady.of_keeps (hflag.trans (hset.keeps.widen (by simp))) hset.self).taken hn _

/-! ### A feed of a TU (R88) -/

/-- The VC octets of a feed frame, and what they give. -/
def State.tuFrame (s : State) (n : Nat) (os : List Octet) : VcStep :=
  (s.term n).tu.frame (s.termT1 n) (s.tuLive n) (s.tuLen n) (s.feedV n) os

/-- The termination with the TU after a feed frame, and its V5 errors to be reported. -/
def tuTaken (q : VcStep) (x : TermSt) : TermSt := { x with tu := q.tu, reiDue := x.reiDue + b2n (q.errs > 0) }

theorem feedAsync_eq (os : List Octet) : s.feedAsync n os =
    ((s.onTerm n (tuTaken (s.tuFrame n os))).termCount n 5 (s.tuFrame n os).errs).feedBits n
      (s.tuFrame n os).data := rfl

theorem feedTaken_feedAsync (hn : n < 8192) (os : List Octet) :
    FeedTaken n s (s.feedAsync n os) (s.termFlag n stOof) (s.tuFrame n os).errs
      ((s.term n).fill + (s.tuFrame n os).data.length) := by
  rw [feedAsync_eq]
  generalize s.tuFrame n os = q
  have htu := onTerm_feedKeeps (fs := []) s n (f := tuTaken q) fun _ => ⟨rfl, rfl, rfl⟩
  generalize s.onTerm n (tuTaken q) = u at htu
  have hcount : TermKeeps n feedFlags u (u.termCount n 5 q.errs) := termKeeps_setTermStat u n (by decide) (by decide) _
  have herrs : (u.termCount n 5 q.errs).termStat n 5 = u.termStat n 5 + BitVec.ofNat 32 q.errs :=
    termStat_setTermStat_self ..
  have hslips : (u.termCount n 5 q.errs).termStat n 1 = u.termStat n 1 :=
    termStat_setTermStat_ne u n _ (by decide)
  have hterms : (u.termCount n 5 q.errs).terms = u.terms := terms_setTermStat ..
  have hoof : (u.termCount n 5 q.errs).termFlag n stOof = s.termFlag n stOof := by
    have h0 : (u.termCount n 5 q.errs).termStat n 0 = u.termStat n 0 := termStat_setTermStat_ne u n _ (by decide)
    rw [State.termFlag, h0]
    exact htu.flags stOof (by decide) (by decide) (by simp)
  generalize u.termCount n 5 q.errs = v at hcount herrs hslips hterms hoof
  have hterm : v.term n = u.term n := by rw [State.term, State.term, hterms]
  exact FeedReady.taken ⟨(htu.toTermKeeps.widen (by simp)).trans hcount, by rw [hterm, htu.fedAt], hoof,
    by rw [herrs, htu.errs],
    by rw [hterm, htu.fill], by rw [hslips, htu.slips]⟩ hn _

/-! ### The feed frame as a whole -/

/-- A flag set in a termination that has been changed beside its entry leaves registers, lanes and marks. -/
theorem setTermFlag_rest (b : Nat) (on : Bool) : s.setTermFlag n b on =
    { s with
      mem := (s.setTermFlag n b on).mem, sram := (s.setTermFlag n b on).sram,
      terms := (s.setTermFlag n b on).terms } := by
  unfold State.setTermFlag
  dsimp only
  rw [show s.setTermStat n 0 (setBits (s.termStat n 0) b b (b2n on)) = _ from setFields_rest s _ _]
  split <;> rfl

theorem tuFrame_of_rest {u : State} (hrest : u = { s with mem := u.mem, sram := u.sram, terms := u.terms })
    (hcfg : (u.term n).cfg = (s.term n).cfg) (htu : (u.term n).tu = (s.term n).tu) (os : List Octet) :
    u.tuFrame n os = s.tuFrame n os := by
  have hlen : u.tuLen n = s.tuLen n := by
    rw [State.tuLen, State.tuLen, State.feedLen, State.feedLen, State.tuCols, State.tuCols, termT1_of_cfg hcfg]
  have hlive : u.tuLive n = s.tuLive n := by
    rw [State.tuLive, State.tuLive, termW_of_cfg hcfg, hrest]
    rfl
  have hv : u.feedV n = s.feedV n := by
    rw [State.feedV, State.feedV, State.feedShift, State.feedShift, termW_of_cfg hcfg, hrest]
    rfl
  rw [State.tuFrame, State.tuFrame, htu, termT1_of_cfg hcfg, hlive, hlen, hv]

theorem termLooped_onTerm {f : TermSt → TermSt} (hcfg : ∀ x, (f x).cfg = x.cfg) :
    (s.onTerm n f).termLooped n = s.termLooped n := by
  have hpath : (s.onTerm n f).termPath n = s.termPath n :=
    funext fun i => termPath_of_cfg (by rw [term_onTerm_self, hcfg]) i
  rw [State.termLooped, State.termLooped, hpath]
  rfl

end Sys2Proof.Machine
end

section
/-! SUPPORT. The commands that receive a feed frame, take an alignment and change a flag of a termination (R88-R91). -/

namespace Sys2Proof

open Machine

variable {s t u e : State} {n : Nat}

/-- A feed frame begins to be received: its frame is noted and feed_con judged (R90). -/
structure FeedBegun (n : Nat) (con : Bool) (s e : State) : Prop extends TermKeeps n [stFeedCon] s e where
  con   : e.termFlag n stFeedCon = con
  fedAt : (e.term n).fedAt = s.clock.frames
  fill  : (e.term n).fill = (s.term n).fill
  tu    : (e.term n).tu = (s.term n).tu
  slips : e.termStat n 1 = s.termStat n 1
  errs  : e.termStat n 5 = s.termStat n 5

/-- A feed frame has been received and term_fail judged. -/
structure FrameFed (n : Nat) (con out : Bool) (errs full : Nat) (s t : State) : Prop where
  frame : Frame s t trbSummary (termBytes n)
  con   : t.termFlag n stFeedCon = con
  shown : t.termFlag n stTermFail = t.termFailNow n
  fedAt : (t.term n).fedAt = s.clock.frames
  oof   : t.termFlag n stOof = out
  errs  : t.termStat n 5 = s.termStat n 5 + BitVec.ofNat 32 errs
  fill  : (t.term n).fill = if out then (s.term n).fill else
    if slipsAt out (s.frameBits n) full then full - s.frameBits n else full
  slips : bits (t.termStat n 1) 15 0 =
    (bits (s.termStat n 1) 15 0 + if slipsAt out (s.frameBits n) full then 1 else 0) % 65536

theorem FeedBegun.fed {con out : Bool} {errs full : Nat} (h : FeedBegun n con s e)
    (k : FeedTaken n e u out errs full) (hn : n < 8192) (hon : s.termOn n = true) :
    FrameFed n con out errs full s (u.judgeTerm n) := by
  have hjudge := judged_judgeTerm u hn ((termOn_of_cfg (k.cfg.trans h.cfg)).trans hon)
  have hall := k.judged hjudge
  have hbits := frameBits_of_cfg h.cfg
  refine ⟨h.frame.trans hall.frame, (hall.flags stFeedCon (by decide) (by decide) (by decide)).trans h.con,
    hjudge.shown, hall.fedAt.trans h.fedAt, hall.oof, hall.errs.trans (by rw [h.errs]), ?_, ?_⟩
  · rw [hall.fill, h.fill, hbits]
  · rw [hall.slips, h.slips, hbits]

end Sys2Proof

namespace Sys2Proof.Machine

variable (s : State) {n : Nat}

/-! ### A feed frame (R87, R88, R90) -/

/-- The termination with the frame noted in which it was fed. -/
def fedTerm (frames : Nat) (x : TermSt) : TermSt := { x with fedAt := frames }

/-- A feed frame begins to be received. -/
def State.feedBegun (s : State) (n : Nat) : State :=
  (s.onTerm n (fedTerm s.clock.frames)).setTermFlag n stFeedCon ((s.feedOctets n).any (·.2) || s.termLooped n)

theorem feedFrame_eq (hdue : (s.termOn n && (!s.termShed n && s.feedReady n)) = true) : s.feedFrame n =
    (if bit ((s.feedBegun n).termW n 0) 29 then (s.feedBegun n).feedSync n ((s.feedOctets n).map (·.1))
      else (s.feedBegun n).feedAsync n ((s.feedOctets n).map (·.1))).judgeTerm n := by
  simp only [Bool.and_eq_true, Bool.not_eq_true'] at hdue
  obtain ⟨hon, hshed, hready⟩ := hdue
  unfold State.feedFrame State.feedBegun
  rw [hon, hshed, hready, if_neg (by decide), ← termLooped_onTerm s (f := fedTerm s.clock.frames) fun _ => rfl]
  rfl

theorem feedFrame_of_not (hdue : ¬ (s.termOn n && (!s.termShed n && s.feedReady n)) = true) : s.feedFrame n = s := by
  unfold State.feedFrame
  rw [if_pos]
  revert hdue
  cases s.termOn n <;> cases s.termShed n <;> cases s.feedReady n <;> decide

theorem feedBegun_shows : FeedBegun n ((s.feedOctets n).any (·.2) || s.termLooped n) s (s.feedBegun n) := by
  unfold State.feedBegun
  have hfed := onTerm_keeps (fs := [stFeedCon]) s n (f := fedTerm s.clock.frames) fun _ => rfl
  have hterm := term_onTerm_self s n (fedTerm s.clock.frames)
  have hstat : ∀ w, (s.onTerm n (fedTerm s.clock.frames)).termStat n w = s.termStat n w := fun _ => rfl
  generalize s.onTerm n (fedTerm s.clock.frames) = u at hfed hterm hstat
  have hset := flagSet_setTermFlag u n (b := stFeedCon) (by decide) ((s.feedOctets n).any (·.2) || s.termLooped n)
  generalize u.setTermFlag n stFeedCon ((s.feedOctets n).any (·.2) || s.termLooped n) = e at hset
  obtain ⟨l, hl⟩ := hset.term
  exact ⟨hfed.trans hset.toTermKeeps, hset.self, by rw [hl, hterm]; rfl, by rw [hl, hterm]; rfl,
    by rw [hl, hterm]; rfl, hset.slips.trans (hstat 1), hset.errs.trans (hstat 5)⟩

theorem feedBegun_rest : s.feedBegun n = { s with
    mem := (s.feedBegun n).mem, sram := (s.feedBegun n).sram, terms := (s.feedBegun n).terms } := by
  unfold State.feedBegun
  exact setTermFlag_rest (s.onTerm n (fedTerm s.clock.frames)) _ _

/-- The octets of the feed frame received. -/
def State.fedOctets (s : State) (n : Nat) : List Octet := (s.feedOctets n).map (·.1)

theorem length_fedOctets : (s.fedOctets n).length = s.feedLen n := by
  rw [State.fedOctets, List.length_map, State.feedOctets, List.length_map, List.length_range]

/-- The sender of a byte-synchronous feed shows that it is not in frame (R87). -/
def outShown (s : State) (n : Nat) : Bool :=
  bit (s.termW n 0) 29 && !((s.fedOctets n).getD (s.syncLen n) 0).getLsbD 7

theorem frameFed_feedFrame (hn : n < 8192) (hdue : (s.termOn n && (!s.termShed n && s.feedReady n)) = true) :
    FrameFed n ((s.feedOctets n).any (·.2) || s.termLooped n) (s.termFlag n stOof || outShown s n)
      (if bit (s.termW n 0) 29 then 0 else (s.tuFrame n (s.fedOctets n)).errs)
      ((s.term n).fill + if bit (s.termW n 0) 29 then s.frameBits n else (s.tuFrame n (s.fedOctets n)).data.length)
      s (s.feedFrame n) := by
  have hon : s.termOn n = true := (Bool.and_eq_true _ _ ▸ hdue).1
  have hbegun := feedBegun_shows s (n := n)
  have htu := tuFrame_of_rest s (feedBegun_rest s) hbegun.cfg hbegun.tu (s.fedOctets n)
  have hlen : (s.fedOctets n).length = (s.feedBegun n).feedLen n := by
    rw [length_fedOctets, State.feedLen, State.feedLen, State.tuCols, State.tuCols, termT1_of_cfg hbegun.cfg]
  have hoof : (s.feedBegun n).termFlag n stOof = s.termFlag n stOof :=
    hbegun.flags stOof (by decide) (by decide) (by decide)
  have hsync : (s.feedBegun n).syncLen n = s.syncLen n := by
    rw [State.syncLen, State.syncLen, termT1_of_cfg hbegun.cfg]
  rw [feedFrame_eq s hdue, termW_of_cfg hbegun.cfg, outShown]
  cases hsyncs : bit (s.termW n 0) 29 with
  | true =>
    rw [if_pos rfl, if_pos rfl, if_pos rfl, Bool.true_and, ← hsync, ← hoof, ← hbegun.fill,
      ← frameBits_of_cfg hbegun.cfg]
    exact hbegun.fed (feedTaken_feedSync _ hn ((termOn_of_cfg hbegun.cfg).trans hon) hlen) hn hon
  | false =>
    rw [if_neg Bool.false_ne_true, if_neg Bool.false_ne_true, if_neg Bool.false_ne_true, Bool.false_and,
      Bool.or_false, ← htu, ← hoof, ← hbegun.fill]
    exact hbegun.fed (feedTaken_feedAsync _ hn (s.fedOctets n)) hn hon

end Sys2Proof.Machine
end

section
/-! SUPPORT. Alignment, the losses of multiframes, accepted signalling and the TU pointer of a termination (R66, R89,
R91, R169). -/

namespace Sys2Proof.Machine

variable (s : State) {n : Nat}

theorem bit_setBits_above {v : W32} {hi lo b : Nat} (x : Nat) (h : lo ≤ hi) (h32 : hi < 32) (hb : hi < b) :
    bit (setBits v hi lo x) b = bit v b :=
  congrArg (fun k => decide (k = 1)) (bits_setBits_above v x h h32 hb)

/-! ### Alignment (R91) -/

/-- The fill that an alignment shows is one frame, whatever it makes of the framer and the buffer. -/
theorem aligned_showFill {f : TermSt → TermSt} {fill : Nat} (hf : ∀ x, (f x).cfg = x.cfg ∧ (f x).fill = fill) :
    let t := ((s.setTermFlag n stOof false).onTerm n f).showFill n (s.frameBits n)
    t.termFlag n stOof = false ∧ bits (t.termStat n 0) 20 12 = 256 ∧ (t.term n).fill = fill ∧
      Frame s t trbSummary (termBytes n) := by
  intro t
  have hset := flagSet_setTermFlag s n (b := stOof) (by decide) false
  have hkeeps := onTerm_keeps (fs := []) (s.setTermFlag n stOof false) n (f := f) fun x => (hf x).1
  have hfill : (((s.setTermFlag n stOof false).onTerm n f).term n).fill = fill := by
    rw [term_onTerm_self, (hf _).2]
  have hflag : ((s.setTermFlag n stOof false).onTerm n f).termFlag n stOof = false := hset.self
  have hcfg := hkeeps.cfg.trans hset.cfg
  have hframe := hset.frame.trans hkeeps.frame
  simp only [t]
  generalize (s.setTermFlag n stOof false).onTerm n f = u at hfill hflag hcfg hframe
  have hshown : s.frameBits n * 256 / u.frameBits n = 256 := by
    rw [frameBits_of_cfg hcfg]
    refine Nat.mul_div_cancel_left 256 ?_
    unfold State.frameBits
    split <;> decide
  unfold State.showFill
  rw [hshown]
  refine ⟨?_, ?_, ?_, hframe.trans (frame_setTermStat u n (by decide) _)⟩
  · rw [← hflag, State.termFlag, State.termFlag, termStat_setTermStat_self]
    exact bit_setBits_above 256 (by decide) (by decide) (by decide)
  · rw [termStat_setTermStat_self, bits_setBits_self _ _ (by decide) (by decide)]
    rfl
  · rw [State.term, terms_setTermStat]
    exact hfill

/-- The framer may take an alignment that it has found. -/
def alignmentDue (s : State) (n : Nat) : Bool := (s.framesFound n).isSome && s.termHunts n

theorem termInFrame_aligned (h : alignmentDue s n = true) :
    (s.termInFrame n).termFlag n stOof = false ∧ bits ((s.termInFrame n).termStat n 0) 20 12 = 256 ∧
      ((s.termInFrame n).term n).fill = (if (s.term n).fedAt = s.clock.frames then 2 else 1) * s.frameBits n ∧
      Frame s (s.termInFrame n) trbSummary (termBytes n) := by
  obtain ⟨hfound, hhunts⟩ := Bool.and_eq_true_iff.1 h
  obtain ⟨⟨o, m⟩, hq⟩ := Option.isSome_iff_exists.1 hfound
  unfold State.termInFrame
  rw [hq]
  dsimp only
  rw [hhunts, Bool.not_true, if_neg Bool.false_ne_true]
  refine aligned_showFill s fun x => ⟨rfl, ?_⟩
  dsimp only
  split
  · rfl
  · exact (Nat.one_mul _).symm

theorem termInFrame_of_not (h : ¬ alignmentDue s n = true) : s.termInFrame n = s := by
  unfold State.termInFrame
  cases hq : s.framesFound n with
  | none => rfl
  | some q =>
    obtain ⟨o, m⟩ := q
    rw [alignmentDue, hq] at h
    dsimp only
    rw [if_pos]
    simpa using h

/-! ### A flag of a termination in use -/

/-- A change of the framer beside the entry, the centring and the flags keeps what was judged. -/
theorem flagJudged_onTerm {b : Nat} {on : Bool} {s t : State} (h : FlagJudged n b on s t) {f : TermSt → TermSt}
    (hf : ∀ x, (f x).cfg = x.cfg ∧ (f x).centred = x.centred) :
    (t.onTerm n f).termFlag n b = on ∧ (t.onTerm n f).termFlag n stTermFail = (t.onTerm n f).termFailNow n ∧
      Frame s (t.onTerm n f) trbSummary (termBytes n) := by
  have hkeeps := onTerm_keeps (fs := []) t n (f := f) fun x => (hf x).1
  refine ⟨h.self, ?_, h.keeps.frame.trans hkeeps.frame⟩
  rw [hkeeps.termFailNow (by rw [term_onTerm_self, (hf _).2]) (by simp)]
  exact h.shown

/-- The framer searches for an alignment. -/
def huntTerm (x : TermSt) : TermSt := { x with rx := { x.rx with hunt := true } }

/-- The CAS multiframe is searched for anew. -/
def casTerm (x : TermSt) : TermSt :=
  { x with rx := { x.rx with casPos := none, casWait := 0, casBad := 0, zeroTs16 := 0 } }

/-- The CRC-4 multiframe is lost (R89). -/
def mfLossDue (s : State) (n : Nat) : Bool :=
  s.termCrc4 n && (s.mfasMissed n || decide (915 ≤ (s.term n).rx.errored))

theorem mfLoss_eq : s.mfLoss n =
    if (s.termSet n stMfLoss (mfLossDue s n) true).termOn n && (s.termSet n stMfLoss (mfLossDue s n) true).termCrc4 n &&
      s.mfasMissed n then (s.termSet n stMfLoss (mfLossDue s n) true).onTerm n huntTerm
    else s.termSet n stMfLoss (mfLossDue s n) true := rfl

theorem mfLoss_of_not (h : ¬ (s.termOn n && mfLossDue s n) = true) : s.mfLoss n = s := by
  have hset : s.termSet n stMfLoss (mfLossDue s n) true = s := if_neg h
  rw [mfLoss_eq, hset, if_neg]
  intro hc
  simp only [Bool.and_eq_true] at hc
  obtain ⟨⟨hon, hcrc⟩, hmissed⟩ := hc
  exact h (by rw [hon, mfLossDue, hcrc, hmissed]; rfl)

theorem mfLoss_shows (hn : n < 8192) (h : (s.termOn n && mfLossDue s n) = true) :
    (s.mfLoss n).termFlag n stMfLoss = true ∧ (s.mfLoss n).termFlag n stTermFail = (s.mfLoss n).termFailNow n ∧
      Frame s (s.mfLoss n) trbSummary (termBytes n) ∧
      ((s.mfLoss n).term n).rx.hunt = (s.mfasMissed n || (s.term n).rx.hunt) := by
  obtain ⟨hon, hdue⟩ := Bool.and_eq_true_iff.1 h
  obtain ⟨hcrc, -⟩ := Bool.and_eq_true_iff.1 hdue
  have hset : s.termSet n stMfLoss (mfLossDue s n) true = (s.setTermFlag n stMfLoss true).judgeTerm n := if_pos h
  have hjudged := flagJudged_set s hn hon (b := stMfLoss) (by decide) (by decide) true
  rw [mfLoss_eq, hset]
  generalize (s.setTermFlag n stMfLoss true).judgeTerm n = u at hjudged
  obtain ⟨l, hl⟩ := hjudged.term
  have hcrc' : u.termCrc4 n = true := by
    rw [State.termCrc4, termT1_of_cfg hjudged.keeps.cfg, termW_of_cfg hjudged.keeps.cfg]
    exact hcrc
  rw [termOn_of_cfg hjudged.keeps.cfg, hon, hcrc', Bool.true_and, Bool.true_and]
  cases s.mfasMissed n with
  | true =>
    rw [if_pos rfl]
    obtain ⟨hflag, hshown, hframe⟩ := flagJudged_onTerm hjudged (f := huntTerm) fun _ => ⟨rfl, rfl⟩
    exact ⟨hflag, hshown, hframe, congrArg (·.rx.hunt) (term_onTerm_self u n huntTerm)⟩
  | false =>
    rw [if_neg Bool.false_ne_true]
    exact ⟨hjudged.self, hjudged.shown, hjudged.keeps.frame, by rw [hl]; rfl⟩

theorem casLoss_shows (hn : n < 8192)
    (h : (s.termOn n && (!s.termT1 n && s.termSig n && s.casLost n)) = true) :
    (s.casLoss n).termFlag n stCasLoss = true ∧ (s.casLoss n).termFlag n stTermFail = (s.casLoss n).termFailNow n ∧
      Frame s (s.casLoss n) trbSummary (termBytes n) ∧ ((s.casLoss n).term n).rx.casPos = none := by
  obtain ⟨hon, hdue⟩ := Bool.and_eq_true_iff.1 h
  have hset : s.termSet n stCasLoss true true = (s.setTermFlag n stCasLoss true).judgeTerm n := by
    rw [termSet_eq, hon]
    exact if_pos rfl
  have hloss : s.casLoss n = ((s.setTermFlag n stCasLoss true).judgeTerm n).onTerm n casTerm := by
    unfold State.casLoss
    rw [if_pos hdue, hset]
    rfl
  have hjudged := flagJudged_set s hn hon (b := stCasLoss) (by decide) (by decide) true
  rw [hloss]
  generalize (s.setTermFlag n stCasLoss true).judgeTerm n = u at hjudged
  obtain ⟨hflag, hshown, hframe⟩ := flagJudged_onTerm hjudged (f := casTerm) fun _ => ⟨rfl, rfl⟩
  exact ⟨hflag, hshown, hframe, congrArg (·.rx.casPos) (term_onTerm_self u n casTerm)⟩

theorem casLoss_of_not (h : ¬ (s.termOn n && (!s.termT1 n && s.termSig n && s.casLost n)) = true) :
    s.casLoss n = s := by
  unfold State.casLoss
  rw [if_neg]
  intro hc
  refine h ?_
  have hsig : s.termSig n = true := by
    simp only [Bool.and_eq_true] at hc
    exact hc.1.2
  have hon : s.termOn n = true := (Bool.and_eq_true_iff.1 hsig).1
  rw [hon, hc]
  rfl

/-! ### The TU pointer (R66, R88) -/

/-- The termination with its TU interpreter in state `st`. -/
def tuState (st : BitVec 2) (x : TermSt) : TermSt :=
  { x with tu := { x.tu with
    state := st, offset := if st.toNat = 0 then ptrOffset x.tu.ptr.last else x.tu.offset, just := 0 } }

theorem refreshTerm_shows (hn : n < 8192) (hon : s.termOn n = true) :
    (s.refreshTerm n).termFlag n stTuFail = s.tuFailNow n ∧
      (s.refreshTerm n).termFlag n stTermFail = (s.refreshTerm n).termFailNow n ∧
      Frame s (s.refreshTerm n) trbSummary (termBytes n) ∧ ((s.refreshTerm n).term n).tu = (s.term n).tu := by
  have hset := flagSet_setTermFlag s n (b := stTuFail) (by decide) (s.tuFailNow n)
  unfold State.refreshTerm
  rw [hon, Bool.not_true, if_neg Bool.false_ne_true]
  dsimp only
  generalize s.setTermFlag n stTuFail (s.tuFailNow n) = u at hset
  have hcon := flagSet_setTermFlag u n (b := stFeedCon) (by decide) true
  have hlooped : ∃ v, (if u.termLooped n then u.setTermFlag n stFeedCon true else u) = v ∧
      FeedKeeps n [stFeedCon] u v ∧ (v.term n).tu = (u.term n).tu := by
    refine ⟨_, rfl, ?_⟩
    split
    · obtain ⟨l, hl⟩ := hcon.term
      exact ⟨hcon.toFeedKeeps, by rw [hl]⟩
    · exact ⟨.refl u, rfl⟩
  obtain ⟨v, heq, hkeeps, htu⟩ := hlooped
  rw [heq]
  have hjudge := judged_judgeTerm v hn ((termOn_of_cfg (hkeeps.cfg.trans hset.cfg)).trans hon)
  obtain ⟨l, hl⟩ := hset.term
  refine ⟨?_, hjudge.shown, (hset.frame.trans hkeeps.frame).trans hjudge.frame, by rw [hjudge.term, htu, hl]⟩
  exact ((hjudge.flag (by decide) (by decide)).trans
    (hkeeps.flags stTuFail (by decide) (by decide) (by decide))).trans hset.self

/-- While the interpreter of a TU runs, tu_fail is its state. -/
theorem tuFailNow_of_live (hbsync : bit (s.termW n 0) 29 = false) (hlive : s.tuLive n = true) (st : BitVec 2) :
    (s.onTerm n (tuState st)).tuFailNow n = decide (st.toNat ≠ 0) := by
  simp only [State.tuLive, Bool.and_eq_true, Bool.not_eq_true', decide_eq_true_eq] at hlive
  obtain ⟨⟨⟨hlane, hsdh⟩, -⟩, hptr⟩ := hlive
  have hw : (s.onTerm n (tuState st)).termW n 0 = s.termW n 0 := termW_of_cfg (by rw [term_onTerm_self]; rfl) 0
  have hstate : ((s.onTerm n (tuState st)).term n).tu.state = st := by rw [term_onTerm_self]; rfl
  have hsdh' : (s.onTerm n (tuState st)).isSdh (bits (s.termW n 0) 25 20) = true := hsdh
  have hptr' : (s.onTerm n (tuState st)).ptrState (bits (s.termW n 0) 25 20) (bits (s.termW n 0) 19 14) = 0 := hptr
  unfold State.tuFailNow
  dsimp only
  rw [hw, hbsync, hstate, hsdh', hptr']
  have hzero : st = 0 ↔ st.toNat = 0 := by
    rw [← BitVec.toNat_inj]
    rfl
  simpa [Nat.not_le.2 hlane] using hzero

/-- The counts of the interpreter of a running TU say that it enters state `st`. -/
def tuPtrDue (s : State) (n : Nat) (st : BitVec 2) : Bool :=
  !bit (s.termW n 0) 29 && decide (st.toNat ≤ 2) && s.tuLive n && s.tuDue n st.toNat

theorem tuTerm_eq (st : BitVec 2) : s.tuTerm n st.toNat =
    if s.termOn n && tuPtrDue s n st then (s.onTerm n (tuState st)).refreshTerm n else s := by
  have hstate : BitVec.ofNat 2 st.toNat = st :=
    BitVec.eq_of_toNat_eq (by rw [BitVec.toNat_ofNat]; exact Nat.mod_eq_of_lt st.isLt)
  unfold State.tuTerm tuPtrDue tuState
  rw [hstate, Bool.and_assoc, Bool.and_assoc, Bool.and_assoc, Bool.and_assoc, Bool.and_assoc]

theorem tuTerm_shows {st : BitVec 2} (hn : n < 8192) (h : (s.termOn n && tuPtrDue s n st) = true) :
    (s.tuTerm n st.toNat).termFlag n stTuFail = decide (st.toNat ≠ 0) ∧
      (s.tuTerm n st.toNat).termFlag n stTermFail = (s.tuTerm n st.toNat).termFailNow n ∧
      Frame s (s.tuTerm n st.toNat) trbSummary (termBytes n) ∧ ((s.tuTerm n st.toNat).term n).tu.state = st := by
  rw [tuTerm_eq, if_pos h]
  simp only [tuPtrDue, Bool.and_eq_true, Bool.not_eq_true'] at h
  obtain ⟨hon, ⟨⟨hbsync, -⟩, hlive⟩, -⟩ := h
  have hkeeps := onTerm_keeps (fs := []) s n (f := tuState st) fun _ => rfl
  have hfail := tuFailNow_of_live s hbsync hlive st
  have hstate : ((s.onTerm n (tuState st)).term n).tu.state = st := by rw [term_onTerm_self]; rfl
  obtain ⟨hflag, hshown, hframe, htu⟩ := refreshTerm_shows _ hn ((termOn_of_cfg hkeeps.cfg).trans hon)
  exact ⟨hflag.trans hfail, hshown, hkeeps.frame.trans hframe, by rw [htu, hstate]⟩

theorem tuTerm_of_not {st : BitVec 2} (h : ¬ (s.termOn n && tuPtrDue s n st) = true) : s.tuTerm n st.toNat = s := by
  rw [tuTerm_eq, if_neg h]

/-! ### OOF declared by the counts -/

theorem oof_shows (hn : n < 8192) (h : (s.termOn n && (!s.termFlag n stOof && s.oofDue n)) = true) :
    let t := if !s.termFlag n stOof && s.oofDue n then s.termOof n else s
    t.termFlag n stOof = true ∧ t.termFlag n stTermFail = t.termFailNow n ∧ Frame s t trbSummary (termBytes n) ∧
      (t.term n).centred = false := by
  obtain ⟨hon, hcount⟩ := Bool.and_eq_true_iff.1 h
  have hset := oofSet_termOof s hn hon
  rw [if_pos hcount]
  exact ⟨hset.self, hset.shown, hset.keeps.frame, hset.centred⟩

theorem oof_of_not (h : ¬ (s.termOn n && (!s.termFlag n stOof && s.oofDue n)) = true) :
    (if !s.termFlag n stOof && s.oofDue n then s.termOof n else s) = s := by
  split
  · next hcount =>
    rw [hcount, Bool.and_true, Bool.not_eq_true] at h
    unfold State.termOof
    rw [h]
    rfl
  · rfl

/-! ### Accepted signalling (R169) -/

/-- A value received in two multiframes may be accepted. -/
def casDue (s : State) (n c : Nat) : Bool :=
  s.termSig n && s.sigChannel n c && !s.termFlag n stTermFail && (s.termT1 n || !s.termFlag n stCasLoss) &&
    decide ((s.term n).rx.sigNow.get 0 c ≠ 0) &&
    decide ((s.term n).rx.sigPrev.get 0 c = (s.term n).rx.sigNow.get 0 c)

/-- The termination with a value accepted on channel `c`. -/
def casTaken (c v : Nat) (x : TermSt) : TermSt := { x with cas := x.cas.put 0 c v }

theorem casAccept_eq (c : Nat) : s.casAccept n c =
    if casDue s n c then s.onTerm n (casTaken c ((s.term n).rx.sigNow.get 0 c)) else s := by
  unfold State.casAccept casDue
  rw [Bool.not_and, Bool.not_not]
  rfl

theorem casAccept_shows {c : Nat} (h : casDue s n c = true) :
    ((s.casAccept n c).term n).cas.get 0 c = (s.term n).rx.sigNow.get 0 c ∧
      (∀ d, d ≠ c → ((s.casAccept n c).term n).cas.get 0 d = (s.term n).cas.get 0 d) ∧
      Frame s (s.casAccept n c) (theseRegs []) noBytes := by
  rw [casAccept_eq, if_pos h, term_onTerm_self]
  exact ⟨Sparse.get_put_self .., fun d hd => Sparse.get_put_ne _ _ _ _ hd.symm, (aside_onTerm s n _).frame⟩

theorem casAccept_of_not {c : Nat} (h : ¬ casDue s n c = true) : s.casAccept n c = s := by
  rw [casAccept_eq, if_neg h]

/-- The conditions of an alignment, in the order of the statement. -/
theorem found_eq_alignmentDue (s : State) (n : Nat) : (s.termOn n && (s.framesFound n).isSome &&
    (s.termFlag n stOof || (s.term n).rx.hunt) && !s.termShed n &&
    (!bit (s.termW n 0) 29 || (s.term n).rx.inFlag)) = alignmentDue s n := by
  rw [alignmentDue, State.termHunts, Bool.eq_iff_iff]
  simp only [Bool.and_eq_true]
  tauto

end Sys2Proof.Machine
end

section
/-! OBLIGATION O9. -/

namespace Sys2Proof

open Machine

/-- A command that sets a flag of a termination in use where its counts call for it. -/
theorem flags_termSet (s : State) {n : Nat} (hn : n < 8192) {b : Nat} (h21 : 21 ≤ b) (h31 : b < 31) (due on : Bool) :
    if s.termOn n && due then (s.termSet n b due on).termFlag n b = on ∧
      (s.termSet n b due on).termFlag n stTermFail = (s.termSet n b due on).termFailNow n ∧
      Frame s (s.termSet n b due on) trbSummary (termBytes n) ∧ True
    else s.termSet n b due on = s := by
  rw [termSet_eq]
  by_cases hdue : (s.termOn n && due) = true
  · rw [if_pos hdue, if_pos hdue]
    have h := flagJudged_set s hn (Bool.and_eq_true_iff.1 hdue).1 h21 h31 on
    exact ⟨h.self, h.shown, h.keeps.frame, trivial⟩
  · rw [if_neg hdue, if_neg hdue]

/-- Settles O9: every command ends in `judgeTerm`, which keeps what was set before it, and the bits of a feed frame
change the fill by their number and by the frame that is deleted. -/
theorem terminationFraming : Obligations.TerminationFraming := by
  intro u s hup n x oof t1 frame flags plain found missed
  have hn : n < 8192 := u.isLt
  refine ⟨?oof, ?inFrame, fun present => ?lof, ?mfLoss, ?crc4Off, ?casLoss, fun present => ?ais, fun present => ?rai,
    fun present => ?mrai, fun c => ?cas, fun st => ?tuPtr, ?feed⟩
  case oof =>
    refine completes_of_up hup (f := fun s => if !s.termFlag n stOof && s.oofDue n then s.termOof n else s) rfl ?_
    by_cases hdue : (s.termOn n && (!s.termFlag n stOof && s.oofDue n)) = true
    · exact (if_pos hdue).mpr (oof_shows s hn hdue)
    · exact (if_neg hdue).mpr (oof_of_not s hdue)
  case inFrame =>
    refine completes_of_up hup (f := fun s => s.termInFrame n) rfl ?_
    have hfound : found = alignmentDue s n := found_eq_alignmentDue s n
    rw [hfound]
    by_cases hdue : alignmentDue s n = true
    · exact (if_pos hdue).mpr (termInFrame_aligned s hdue)
    · exact (if_neg hdue).mpr (termInFrame_of_not s hdue)
  case lof => exact completes_of_up hup rfl (flags_termSet s hn (by decide) (by decide) _ present)
  case mfLoss =>
    refine completes_of_up hup (f := fun s => s.mfLoss n) rfl ?_
    by_cases hdue : (s.termOn n && mfLossDue s n) = true
    · exact (if_pos hdue).mpr (mfLoss_shows s hn hdue)
    · exact (if_neg hdue).mpr (mfLoss_of_not s hdue)
  case crc4Off => exact completes_of_up hup rfl (flags_termSet s hn (by decide) (by decide) _ true)
  case casLoss =>
    refine completes_of_up hup (f := fun s => s.casLoss n) rfl ?_
    by_cases hdue : (s.termOn n && (!s.termT1 n && s.termSig n && s.casLost n)) = true
    · exact (if_pos hdue).mpr (casLoss_shows s hn hdue)
    · exact (if_neg hdue).mpr (casLoss_of_not s hdue)
  case ais => exact completes_of_up hup rfl (flags_termSet s hn (by decide) (by decide) _ present)
  case rai => exact completes_of_up hup rfl (flags_termSet s hn (by decide) (by decide) _ present)
  case mrai => exact completes_of_up hup rfl (flags_termSet s hn (by decide) (by decide) _ present)
  case cas =>
    refine completes_of_up hup (f := fun s => s.casAccept n c.toNat) rfl ?_
    by_cases hdue : casDue s n c.toNat = true
    · exact (if_pos hdue).mpr (casAccept_shows s hdue)
    · exact (if_neg hdue).mpr (casAccept_of_not s hdue)
  case tuPtr =>
    refine completes_of_up hup (f := fun s => s.tuTerm n st.toNat) rfl ?_
    by_cases hdue : (s.termOn n && tuPtrDue s n st) = true
    · exact (if_pos hdue).mpr (tuTerm_shows s hn hdue)
    · exact (if_neg hdue).mpr (tuTerm_of_not s hdue)
  case feed =>
    refine completes_of_up hup (f := fun s => s.feedFrame n) rfl ?_
    by_cases hdue : (s.termOn n && (!s.termShed n && s.feedReady n)) = true
    · have h := frameFed_feedFrame s hn hdue
      exact (if_pos hdue).mpr ⟨h.con, h.shown, h.frame, h.fedAt, h.oof,
        h.errs.trans (congrArg (s.termStat n 5 + ·) (apply_ite (BitVec.ofNat 32) ..)), h.fill, h.slips⟩
    · exact (if_neg hdue).mpr (feedFrame_of_not s hdue)

end Sys2Proof
end

section
/-! OBLIGATION O58. -/

namespace Sys2Proof

open Machine

/-- The offset that START_A would have of a column destination 6592, which the part does not have: NRG_CFG (R411). -/
theorem engStart_nrgCfg : engStart false 6592 false = Reg.nrgCfg := rfl

/-- Refutes O58: the statement takes START_A and START_B of every number to be idle, not only of the 56 column and 16
octet destinations, and the offset of destination 6592 is that of NRG_CFG, whose bit 31, en, resets to 1. -/
theorem not_resetState : ¬ Obligations.ResetState := by
  intro h
  obtain ⟨-, -, -, -, -, -, hidle, -⟩ := h
  have hclear : bit (State.reset.rd Reg.nrgCfg) 31 = false := engStart_nrgCfg ▸ hidle false false 6592
  have hset : bit (State.reset.rd Reg.nrgCfg) 31 = true := by decide
  exact Bool.false_ne_true (hclear.symm.trans hset)

end Sys2Proof
end

section
/-! OBLIGATION O29. -/

namespace Sys2Proof

open Machine

/-- A flip of the column plane to bank B is ARMED, while COL_BANK.shadow_wr is 0. -/
def armedUnmarked : State :=
  ((State.reset.setFlip fun x => { x with req := 3 }).fset F.flpStat_state flpArmed).fbit F.colBank_shadowWr false

/-- Byte 3 of START_B of column destination 0 written as 0 by the host. -/
def startWritten : State :=
  armedUnmarked.byMaster .host false (engStart false 0 true) 8 0 fun s => s.startWrite .host false 0 true 8 0

theorem exec_startWrite_armedUnmarked :
    exec (.startWrite .host (.col 0) true 8 0) armedUnmarked = .next startWritten :=
  whenUp_of_up (s := armedUnmarked) (fun s => s.byMaster .host false (engStart false 0 true) 8 0
    fun s => s.startWrite .host false 0 true 8 0) (by decide)

/-- The write cancels the flip, whose abort sets shadow_wr (R105, R175). -/
theorem colBank_startWritten : startWritten.rd Reg.colBank ≠ armedUnmarked.rd Reg.colBank := by decide

/-- Refutes O29: a write to the shadow bank cancels a flip of its plane that has not committed, and the abort sets
shadow_wr in COL_BANK, which the statement's frame does not name. Where that bit was 0 with the flip only ARMED, the
register changes. -/
theorem not_programMemoryWrites : ¬ Obligations.ProgramMemoryWrites := by
  intro h
  obtain ⟨-, start⟩ := h .host true 8 0 armedUnmarked (by decide) (by decide) (by decide)
  obtain ⟨t, hexec, hshadow, -⟩ := start (.col 0)
  rw [exec_startWrite_armedUnmarked, Host.Outcome.next.injEq] at hexec
  subst hexec
  obtain ⟨-, -, hframe⟩ := hshadow (by decide)
  exact colBank_startWritten (hframe.reg Reg.colBank (by decide) (by decide))

end Sys2Proof
end

section
/-! SUPPORT. What an operation that only counts and reports leaves as it was: everything but registers, events, the
history, ring commands that it renumbers, what is known of damaged words, and the windows of the speed counters. -/

namespace Sys2Proof.Machine

/-- The state without what counts and reports change. -/
def State.bare (s : State) : State :=
  { s with regs := [], evt := .init, hst := .init, hif := .init, sram := .init, pm := .init }

end Sys2Proof.Machine

namespace Sys2Proof

open Machine

variable {s t u : State} {l l' : List Nat} {regs bytes : Nat → Bool}

/-- From `s` to `t` only counts and reports changed, and of the registers those of `l` and the account of events. -/
structure Recorded (s t : State) (l : List Nat) : Prop where
  bare  : t.bare = s.bare
  frame : Frame s t (theseRegs l) noBytes

theorem Recorded.refl (s : State) (l : List Nat) : Recorded s s l := ⟨rfl, .refl _ _ _⟩

theorem Recorded.trans (h : Recorded s t l) (k : Recorded t u l) : Recorded s u l :=
  ⟨k.bare.trans h.bare, h.frame.trans k.frame⟩

theorem Recorded.mono (h : Recorded s t l) (hl : l ⊆ l') : Recorded s t l' :=
  ⟨h.bare, h.frame.mono (fun _ ha => theseRegs_true.2 (hl (theseRegs_true.1 ha))) fun _ => id⟩

theorem Recorded.ite {c : Prop} [Decidable c] {x y : State} (hx : c → Recorded s x l) (hy : ¬ c → Recorded s y l) :
    Recorded s (if c then x else y) l := by
  split
  · exact hx (by assumption)
  · exact hy (by assumption)

theorem Recorded.foldl {α : Type} {f : State → α → State} (hf : ∀ s x, Recorded s (f s x) l) :
    ∀ (xs : List α) (s : State), Recorded s (xs.foldl f s) l
  | [], s => .refl s l
  | x :: xs, s => (hf s x).trans (Recorded.foldl hf xs (f s x))

theorem Recorded.of_noted (h : Noted s t) (hf : Frame s t (theseRegs l) noBytes) : Recorded s t l :=
  ⟨by rw [h.rest]; rfl, hf⟩

/-- A register that is not listed reads as before. -/
theorem Recorded.rd (h : Recorded s t l) {a : Nat} (ha : a ∉ l) (he : eventReg a = false) : t.rd a = s.rd a :=
  h.frame.reg a (Bool.eq_false_iff.2 fun hm => ha (theseRegs_true.1 hm)) he

theorem Recorded.within (h : Recorded s t l) (hr : ∀ a ∈ l, regs a = true) : Frame s t regs noBytes :=
  h.frame.mono (fun a ha => hr a (theseRegs_true.1 ha)) fun _ => id

end Sys2Proof

namespace Sys2Proof.Machine

variable (s : State)

theorem recorded_wr (a : Nat) (v : W32) : Recorded s (s.wr a v) [a] :=
  ⟨rfl, frame_wr s a v (.inl (theseRegs_true.2 (by simp)))⟩

theorem recorded_count (a n : Nat) : Recorded s (s.count a n) [a] := recorded_wr s a _

theorem recorded_raise (e : EvName) (w1 w2 w3 w4 w5 : Nat) (l : List Nat) :
    Recorded s (s.raise e w1 w2 w3 w4 w5) l := .of_noted (noted_raise s e ..) (frame_raise s e ..)

theorem recorded_report (e : EvName) (w1 w2 w3 w4 w5 : Nat) (l : List Nat) :
    Recorded s (s.report e w1 w2 w3 w4 w5) l :=
  .of_noted (((noted_raise s e ..).trans (noted_wr ..)).trans (noted_fbit ..)) (frame_report s e ..)

/-! ### Uncorrectable words (R339) -/

/-- Registers that tell of an uncorrectable word. -/
def ueRegs : List Nat := [Reg.memUeAddr, Reg.memCntUe]

theorem recorded_sayUe (bank word : Nat) : Recorded s (s.sayUe bank word) ueRegs :=
  (((recorded_wr s _ _).mono (by simp [ueRegs])).trans ((recorded_count _ _ _).mono (by simp [ueRegs]))).trans
    (recorded_report _ _ _ _ _ _ _ _)

theorem recorded_foundUe (bank word : Nat) : Recorded s (s.foundUe bank word) ueRegs := by
  unfold State.foundUe
  split
  case h_1 d _ =>
    have hknown : Recorded s { s with sram := { s.sram with
        damage := s.sram.damage.insert (damageKey bank word) ⟨true, true⟩ } } ueRegs :=
      ⟨rfl, .of_hidden ⟨rfl, rfl, rfl, rfl, rfl⟩ rfl⟩
    exact .ite (fun _ => hknown.trans (recorded_sayUe _ bank word)) fun _ => .refl s _
  case h_2 => exact .refl s _

theorem recorded_foundUeAt (a : Nat) : Recorded s (s.foundUeAt a) ueRegs := recorded_foundUe s _ _

theorem recorded_foundOct : ∀ (as : List Nat) (s : State), Recorded s (s.foundOct as) ueRegs
  | [], s => .refl s _
  | _ :: as, s => (recorded_foundUeAt s _).trans (recorded_foundOct as _)

theorem recorded_sayFound (ks : List Nat) : Recorded s (s.sayFound ks) ueRegs :=
  .foldl (fun s _ => recorded_foundUe s _ _) ks s

theorem recorded_speedCost (i n : Nat) : Recorded s (s.speedCost i n) [Reg.cntLo i, Reg.cntHi i] where
  bare  := addSpeed_keeps s State.bare (fun _ _ => rfl) (fun _ _ => rfl) (fun _ _ => rfl) n
  frame := (frame_addSpeed s i n (theseRegs_true.2 (by simp)) (theseRegs_true.2 (by simp))).trans
    (.of_hidden ⟨rfl, rfl, rfl, rfl, rfl⟩ rfl)

end Sys2Proof.Machine
end

section
/-! SUPPORT. The registers of an engine, what it counts, and the comparison of its digest (R112, R121-R124). -/

namespace Sys2Proof

open Machine

variable {o : Bool} {d x : Nat} {xs ys : List Nat} {s t u : State}

/-! ### The registers of an engine (R124) -/

/-- The speed counter of engine `d` of a plane (R297). -/
def costCounter (o : Bool) (d : Nat) : Nat := (if o then 158 else 102) + d

/-- Registers that engine `d` reaches beside its own block when it counts and reports. -/
def farRegs (o : Bool) (d : Nat) : List Nat :=
  [Reg.memUeAddr, Reg.memCntUe, Reg.cntLo (costCounter o d), Reg.cntHi (costCounter o d)]

/-- These, and those of the block of engine `d` at the offsets `xs`. -/
def engRegs (o : Bool) (d : Nat) (xs : List Nat) : List Nat := xs.map (engReg o d) ++ farRegs o d

/-- Registers that the work of engine `d` of a plane reaches: its block, those beside it, and the pattern channels. -/
def ownRegs (o : Bool) (d : Nat) : Nat → Bool := fun a =>
  regsOf (engReg o d 0) (engReg o d 0x40) a || theseRegs (farRegs o d) a ||
    regsOf (Reg.prbsStat 0) (Reg.prbsStat 1024) a

theorem engRegs_subset (h : xs ⊆ ys) : engRegs o d xs ⊆ engRegs o d ys :=
  List.append_subset.2 ⟨List.subset_append_of_subset_left _ (List.map_subset _ h), List.subset_append_right _ _⟩

theorem mem_engRegs (h : x ∈ xs) : engReg o d x ∈ engRegs o d xs :=
  List.mem_append_left _ (List.mem_map_of_mem h)

theorem ueRegs_subset (xs : List Nat) : ueRegs ⊆ engRegs o d xs :=
  List.subset_append_of_subset_right _ (by simp [ueRegs, farRegs])

theorem ownRegs_engRegs (hxs : ∀ x ∈ xs, x < 0x40) : ∀ a ∈ engRegs o d xs, ownRegs o d a = true := by
  intro a ha
  rcases List.mem_append.1 ha with ha | ha
  · obtain ⟨x, hx, rfl⟩ := List.mem_map.1 ha
    simp [ownRegs, regsOf, engReg, hxs x hx]
  · simp [ownRegs, theseRegs_true.2 ha]

/-- The blocks of the engines hold no register of the memory block, no speed counter and no account of events. -/
theorem engReg_range (hd : d < 56) (hx : x < 0x40) : 0xA1000 ≤ engReg o d x ∧ engReg o d x < 0xB2000 := by
  unfold engReg
  split <;> omega

theorem farRegs_range {a : Nat} (h : a ∈ farRegs o d) : 0xF8000 ≤ a := by
  simp only [farRegs, List.mem_cons, List.not_mem_nil, or_false] at h
  rcases h with rfl | rfl | rfl | rfl <;> simp only [Reg.memUeAddr, Reg.memCntUe, Reg.cntLo, Reg.cntHi] <;> omega

theorem eventReg_range {a : Nat} (h : eventReg a = true) : a < 0xA0000 ∨ 0xC0000 ≤ a := by
  simp only [eventReg, List.contains_iff_mem, List.mem_cons, List.not_mem_nil, or_false] at h
  rcases h with rfl | rfl | rfl | rfl | rfl | rfl | rfl | rfl <;> decide

theorem eventReg_engReg (hd : d < 56) (hx : x < 0x40) : eventReg (engReg o d x) = false := by
  have hrange := engReg_range (o := o) hd hx
  refine Bool.eq_false_iff.2 fun h => ?_
  have := eventReg_range h
  omega

/-- A register of the block whose offset is not listed reads as before. -/
theorem Recorded.eng (h : Recorded s t (engRegs o d xs)) (hd : d < 56) (hx : x < 0x40) (hn : x ∉ xs) :
    t.rd (engReg o d x) = s.rd (engReg o d x) := by
  refine h.rd (fun hm => ?_) (eventReg_engReg hd hx)
  rcases List.mem_append.1 hm with hm | hm
  · obtain ⟨y, hy, hxy⟩ := List.mem_map.1 hm
    have : y = x := by simpa [engReg] using hxy
    exact hn (this ▸ hy)
  · have := (engReg_range (o := o) hd hx).2
    have := farRegs_range hm
    omega

/-- A register before the blocks of the engines, or between them and the memory block, reads as before. -/
theorem Recorded.beside (h : Recorded s t (engRegs o d xs)) (hd : d < 56) (hxs : ∀ x ∈ xs, x < 0x40) {a : Nat}
    (ha : a < 0xA1000 ∨ 0xB2000 ≤ a ∧ a < 0xF8000) (he : eventReg a = false) : t.rd a = s.rd a := by
  refine h.rd (fun hm => ?_) he
  rcases List.mem_append.1 hm with hm | hm
  · obtain ⟨x, hx, rfl⟩ := List.mem_map.1 hm
    have := engReg_range (o := o) hd (hxs x hx)
    omega
  · have := farRegs_range hm
    omega

theorem Recorded.widen (h : Recorded s t (engRegs o d xs)) (hs : xs ⊆ ys) : Recorded s t (engRegs o d ys) :=
  h.mono (engRegs_subset hs)

/-! ### What the work of one engine leaves -/

/-- From `s` to `t` only registers of engine `d` of a plane change, and the other engines stay. -/
structure EngineFrame (o : Bool) (d : Nat) (s t : State) : Prop where
  frame : Frame s t (ownRegs o d) noBytes
  cols  : ∀ e, o = true ∨ e ≠ d → t.colEngine e = s.colEngine e
  octs  : ∀ e, o = false ∨ e ≠ d → t.octEngine e = s.octEngine e

theorem EngineFrame.refl (s : State) : EngineFrame o d s s := ⟨.refl _ _ _, fun _ _ => rfl, fun _ _ => rfl⟩

theorem EngineFrame.trans (h : EngineFrame o d s t) (k : EngineFrame o d t u) : EngineFrame o d s u :=
  ⟨h.frame.trans k.frame, fun e he => (k.cols e he).trans (h.cols e he),
    fun e he => (k.octs e he).trans (h.octs e he)⟩

theorem EngineFrame.ite {c : Prop} [Decidable c] {x y : State} (hx : c → EngineFrame o d s x)
    (hy : ¬ c → EngineFrame o d s y) : EngineFrame o d s (if c then x else y) := by
  split
  · exact hx (by assumption)
  · exact hy (by assumption)

/-- An operation on state that neither a register nor an engine shows. -/
theorem EngineFrame.of_hidden (h : Still s t) (hr : t.regs = s.regs) (hc : t.colEng = s.colEng)
    (ho : t.octEng = s.octEng) : EngineFrame o d s t where
  frame := .of_hidden h hr
  cols  := fun e _ => congrArg (Sparse.get ColEng.init · e) hc
  octs  := fun e _ => congrArg (Sparse.get OctEng.init · e) ho

theorem Recorded.colEngine {l : List Nat} (h : Recorded s t l) (e : Nat) : t.colEngine e = s.colEngine e :=
  (congrArg (State.colEngine · e) h.bare :)

theorem Recorded.octEngine {l : List Nat} (h : Recorded s t l) (e : Nat) : t.octEngine e = s.octEngine e :=
  (congrArg (State.octEngine · e) h.bare :)

theorem Recorded.engine (h : Recorded s t (engRegs o d xs)) (hxs : ∀ x ∈ xs, x < 0x40) : EngineFrame o d s t where
  frame := h.within (ownRegs_engRegs hxs)
  cols  := fun e _ => h.colEngine e
  octs  := fun e _ => h.octEngine e

end Sys2Proof

namespace Sys2Proof.Machine

variable (s : State) {o : Bool} {d : Nat}

theorem engineFrame_onCol (f : ColEng → ColEng) : EngineFrame false d s (s.onCol d f) where
  frame := .of_hidden ⟨rfl, rfl, rfl, rfl, rfl⟩ rfl
  cols  := fun _ he => Sparse.get_put_ne _ _ _ _ (Ne.symm (he.resolve_left Bool.false_ne_true))
  octs  := fun _ _ => rfl

theorem engineFrame_onOct (f : OctEng → OctEng) : EngineFrame true d s (s.onOct d f) where
  frame := .of_hidden ⟨rfl, rfl, rfl, rfl, rfl⟩ rfl
  cols  := fun _ _ => rfl
  octs  := fun _ he => Sparse.get_put_ne _ _ _ _ (Ne.symm (he.resolve_left nofun))

@[simp] theorem colEngine_onCol_self (f : ColEng → ColEng) : (s.onCol d f).colEngine d = f (s.colEngine d) :=
  Sparse.get_put_self ..

@[simp] theorem octEngine_onOct_self (f : OctEng → OctEng) : (s.onOct d f).octEngine d = f (s.octEngine d) :=
  Sparse.get_put_self ..

/-! ### What a row or frame counts -/

/-- A count of the engine at an offset of its block. -/
theorem recorded_engCount (x : Nat) (n : Nat) : Recorded s (s.count (engReg o d x) n) (engRegs o d [x]) :=
  (recorded_count s _ n).mono (List.cons_subset.2 ⟨mem_engRegs (by simp), List.nil_subset _⟩)

theorem recorded_cost (n : Nat) : Recorded s (s.speedCost (costCounter o d) n) (engRegs o d []) :=
  (recorded_speedCost s _ n).mono (List.subset_append_of_subset_right _ (by simp [farRegs]))

theorem recorded_setStat (b : Nat) (on : Bool) : Recorded s (s.setStat o d b on) (engRegs o d [0x38]) :=
  (recorded_wr s _ _).mono (List.cons_subset.2 ⟨mem_engRegs (by simp), List.nil_subset _⟩)

theorem bit_setStat {b : Nat} (hb : b < 32) (on : Bool) : bit ((s.setStat o d b on).rd (engStat o d)) b = on := by
  rw [State.setStat, rd_wr_self]
  exact bit_setBits_self _ hb on

theorem bit_setStat_ne {b c : Nat} (hb : b < 32) (hc : c ≠ b) (on : Bool) :
    bit ((s.setStat o d b on).rd (engStat o d)) c = bit (s.rd (engStat o d)) c := by
  rw [State.setStat, rd_wr_self]
  exact bit_setBits_ne _ hb hc _

/-- PROG_UNWRITTEN counts where there is something to count. -/
theorem noteUnwritten_shows (hd : d < 56) (n : Nat) (said : Bool) :
    Recorded s (s.noteUnwritten o d n said) (engRegs o d [0x24]) ∧
      (s.noteUnwritten o d n said).rd (engUnwr o d) = s.rd (engUnwr o d) + if n = 0 then 0 else 1 := by
  have hraise : Recorded (s.count (engUnwr o d)) (if said then s.count (engUnwr o d) else
      (s.count (engUnwr o d)).raise (Ev.progUnwritten o) (destWord o d) 0 0 n) (engRegs o d []) :=
    .ite (fun _ => .refl _ _) fun _ => recorded_raise _ _ _ _ _ _ _ _
  unfold State.noteUnwritten
  split
  · exact ⟨.refl s _, (BitVec.add_zero _).symm⟩
  · exact ⟨(recorded_engCount s 0x24 1).trans (hraise.widen (List.nil_subset _)),
      (hraise.eng hd (by decide) List.not_mem_nil).trans (rd_count_self s _ 1)⟩

/-- PROG_ECC counts. -/
theorem noteEcc_shows (hd : d < 56) (b : Bool) (w : Nat) (said : List Nat) :
    Recorded s (s.noteEcc o d b w said) (engRegs o d [0x34]) ∧
      (s.noteEcc o d b w said).rd (engEcc o d) = s.rd (engEcc o d) + 1 := by
  have hreport : Recorded (s.count (engEcc o d)) (if said.contains w then s.count (engEcc o d) else
      (s.count (engEcc o d)).report (Ev.progEcc o) (destWord o d) w (b2n b)) (engRegs o d []) :=
    .ite (fun _ => .refl _ _) fun _ => recorded_report _ _ _ _ _ _ _ _
  have hue : ∀ (t : State) (a : Nat), Recorded t (t.foundUeAt a) (engRegs o d []) := fun t a =>
    (recorded_foundUeAt t a).mono (ueRegs_subset _)
  have hafter := (hreport.trans (hue _ (bankAddr o b w))).trans (hue _ (bankAddr o b w + 4))
  exact ⟨(recorded_engCount s 0x34 1).trans (hafter.widen (List.nil_subset _)),
    (hafter.eng hd (by decide) List.not_mem_nil).trans (rd_count_self s _ 1)⟩

end Sys2Proof.Machine
end

section
/-! SUPPORT. The comparison of a digest with the recorded one of its bank (R121, R122, R385). -/

namespace Sys2Proof

open Machine

variable {o bank : Bool} {d : Nat} {v : W32} {xs : List Nat} {s t u : State}

/-- A digest as it is judged, its verdict and its count. -/
structure DigestShown (o : Bool) (d : Nat) (s t : State) (bank bad : Bool) (v : W32) : Prop where
  live  : t.rd (engLive o d) = s.judgedDigest o d bank v
  flag  : bit (t.rd (engStat o d)) statDigBad = bad
  count : t.rd (engDigCnt o d) = s.rd (engDigCnt o d) + if bad then 1 else 0

/-- The verdict on a digest. -/
def Machine.State.digestBad (s : State) (o : Bool) (d : Nat) (bank differ : Bool) (v : W32) : Bool :=
  differ || s.judgedDigest o d bank v ≠ s.rd (engDig o d bank)

/-- An injected digest fault acts once. -/
def Machine.State.digestTaken (s : State) (o : Bool) (d : Nat) : State :=
  s.onIsland (engIsland o d) fun x => { x with digestDue := false }

/-- The offset of the recorded digest of a bank (R124). -/
theorem engDig_eq : engDig o d bank = engReg o d (if bank then 0x14 else 0x10) := by cases bank <;> rfl

theorem Recorded.dig (h : Recorded s t (engRegs o d xs)) (hd : d < 56) (hxs : 0x10 ∉ xs ∧ 0x14 ∉ xs) :
    t.rd (engDig o d bank) = s.rd (engDig o d bank) := by
  rw [engDig_eq]
  cases bank
  · exact h.eng hd (by decide) hxs.1
  · exact h.eng hd (by decide) hxs.2

theorem Recorded.judgedDigest (h : Recorded s t (engRegs o d xs)) (hd : d < 56) (hxs : 0x10 ∉ xs ∧ 0x14 ∉ xs) :
    t.judgedDigest o d bank v = s.judgedDigest o d bank v := by
  have hisland : t.island = s.island := (congrArg State.island h.bare :)
  rw [State.judgedDigest, State.judgedDigest, hisland, h.dig hd hxs]

theorem Recorded.digestBad (h : Recorded s t (engRegs o d xs)) (hd : d < 56) (hxs : 0x10 ∉ xs ∧ 0x14 ∉ xs)
    (differ : Bool) : t.digestBad o d bank differ v = s.digestBad o d bank differ v := by
  rw [State.digestBad, State.digestBad, h.judgedDigest hd hxs, h.dig hd hxs]

/-- What counts and reports before the comparison does not matter to what it shows. -/
theorem DigestShown.after (k : DigestShown o d u t bank bad v) (h : Recorded s u (engRegs o d xs)) (hd : d < 56)
    (hxs : 0x10 ∉ xs ∧ 0x14 ∉ xs) (hcnt : 0x30 ∉ xs) : DigestShown o d s t bank bad v :=
  ⟨k.live.trans (h.judgedDigest hd hxs), k.flag, k.count.trans (congrArg (· + _) (h.eng hd (by decide) hcnt))⟩

/-- Nor does what counts and reports behind it. -/
theorem DigestShown.before (k : DigestShown o d s t bank bad v) (h : Recorded t u (engRegs o d xs)) (hd : d < 56)
    (hxs : 0x20 ∉ xs ∧ 0x30 ∉ xs ∧ 0x38 ∉ xs) : DigestShown o d s u bank bad v := by
  obtain ⟨hlive, hcnt, hstat⟩ := hxs
  have hst : u.rd (engStat o d) = t.rd (engStat o d) := h.eng hd (by decide) hstat
  exact ⟨(h.eng hd (by decide) hlive).trans k.live, hst ▸ k.flag, (h.eng hd (by decide) hcnt).trans k.count⟩

end Sys2Proof

namespace Sys2Proof.Machine

variable (s : State) {o : Bool} {d : Nat}

theorem snd_compareDigest (bank differ : Bool) (v : W32) :
    (s.compareDigest o d bank differ v).2 = s.digestBad o d bank differ v := rfl

/-- The comparison, with the verdict named. -/
theorem fst_compareDigest (bank differ : Bool) (v : W32) : ∃ said : Bool,
    (s.compareDigest o d bank differ v).1 =
      let t := ((s.digestTaken o d).wr (engLive o d) (s.judgedDigest o d bank v)).setStat o d statDigBad
        (s.digestBad o d bank differ v)
      let t := if s.digestBad o d bank differ v then t.count (engDigCnt o d) else t
      if said then t.report (Ev.engineDigest o) (destWord o d) else t := ⟨_, rfl⟩

/-- Offsets of the registers that a comparison reaches. -/
def digestOffs : List Nat := [0x20, 0x30, 0x38]

theorem compareDigest_shows (hd : d < 56) (bank differ : Bool) (v : W32) :
    let t := (s.compareDigest o d bank differ v).1
    Recorded (s.digestTaken o d) t (engRegs o d digestOffs) ∧
      DigestShown o d s t bank (s.digestBad o d bank differ v) v ∧
      bit (t.rd (engStat o d)) statEccSub = bit (s.rd (engStat o d)) statEccSub := by
  obtain ⟨said, h⟩ := fst_compareDigest s (o := o) (d := d) bank differ v
  generalize s.digestBad o d bank differ v = bad at h ⊢
  rw [h]
  have hlive : Recorded (s.digestTaken o d) ((s.digestTaken o d).wr (engLive o d) (s.judgedDigest o d bank v))
      (engRegs o d [0x20]) :=
    (recorded_wr _ _ _).mono (List.cons_subset.2 ⟨mem_engRegs (by simp), List.nil_subset _⟩)
  have hliveRd : ((s.digestTaken o d).wr (engLive o d) (s.judgedDigest o d bank v)).rd (engLive o d) =
      s.judgedDigest o d bank v := rd_wr_self ..
  generalize (s.digestTaken o d).wr (engLive o d) (s.judgedDigest o d bank v) = w at hlive hliveRd ⊢
  have hstat := recorded_setStat w (o := o) (d := d) statDigBad bad
  have hflag := bit_setStat w (o := o) (d := d) (b := statDigBad) (by decide) bad
  have hecc := bit_setStat_ne w (o := o) (d := d) (b := statDigBad) (c := statEccSub) (by decide) (by decide) bad
  generalize w.setStat o d statDigBad bad = x at hstat hflag hecc ⊢
  have hcount : Recorded x (if bad then x.count (engDigCnt o d) else x) (engRegs o d [0x30]) :=
    .ite (fun _ => recorded_engCount x 0x30 1) fun _ => .refl _ _
  have hcountRd : (if bad then x.count (engDigCnt o d) else x).rd (engDigCnt o d) =
      x.rd (engDigCnt o d) + if bad then 1 else 0 := by
    cases bad
    · exact (BitVec.add_zero _).symm
    · exact rd_count_self _ _ 1
  dsimp only
  generalize (if bad then x.count (engDigCnt o d) else x) = y at hcount hcountRd ⊢
  have hreport : Recorded y (if said then y.report (Ev.engineDigest o) (destWord o d) else y) (engRegs o d []) :=
    .ite (fun _ => recorded_report _ _ _ _ _ _ _ _) fun _ => .refl _ _
  generalize (if said then y.report (Ev.engineDigest o) (destWord o d) else y) = z at hreport ⊢
  have hstatRd : z.rd (engStat o d) = x.rd (engStat o d) :=
    (hreport.eng hd (by decide) (by decide)).trans (hcount.eng hd (by decide) (by decide))
  refine ⟨?recorded, ⟨?live, ?flag, ?count⟩, ?ecc⟩
  case recorded =>
    exact (((hlive.widen (by decide)).trans (hstat.widen (by decide))).trans (hcount.widen (by decide))).trans
      (hreport.widen (by decide))
  case live =>
    exact (((hreport.eng hd (by decide) (by decide)).trans (hcount.eng hd (by decide) (by decide))).trans
      (hstat.eng hd (by decide) (by decide))).trans hliveRd
  case flag => rw [hstatRd, hflag]
  case count =>
    have hx : x.rd (engDigCnt o d) = s.rd (engDigCnt o d) :=
      (hstat.eng hd (by decide) (by decide)).trans (hlive.eng hd (by decide) (by decide))
    exact ((hreport.eng hd (by decide) (by decide)).trans hcountRd).trans (congrArg (· + _) hx)
  case ecc =>
    have hw : w.rd (engStat o d) = s.rd (engStat o d) := hlive.eng hd (by decide) (by decide)
    rw [hstatRd, hecc, hw]

theorem engineFrame_compareDigest (hd : d < 56) (bank differ : Bool) (v : W32) :
    EngineFrame o d s (s.compareDigest o d bank differ v).1 :=
  (EngineFrame.of_hidden (s := s) (t := s.digestTaken o d) ⟨rfl, rfl, rfl, rfl, rfl⟩ rfl rfl rfl).trans
    ((compareDigest_shows s hd bank differ v).1.engine (by decide))

end Sys2Proof.Machine
end

section
/-! SUPPORT. The positions of paths and terminations rest on the lanes, the AUs, the entries and LTM_CFG alone. -/

namespace Sys2Proof

open Machine

variable {s t : State}

/-- From `s` to `t` nothing changes on which the positions of paths and terminations rest. -/
structure SameGeo (s t : State) : Prop where
  bare : t.bare = s.bare
  ltm  : ∀ l, l < 64 → t.rd (Reg.ltmCfg l) = s.rd (Reg.ltmCfg l)

theorem SameGeo.of_recorded {o : Bool} {d : Nat} {xs : List Nat} (h : Recorded s t (engRegs o d xs)) (hd : d < 56)
    (hxs : ∀ x ∈ xs, x < 0x40) : SameGeo s t where
  bare := h.bare
  ltm  := fun l hl => by
    have hrange : Reg.ltmCfg l < 0x80000 ∧ 0x20000 ≤ Reg.ltmCfg l := by
      simp only [Reg.ltmCfg]
      omega
    exact h.beside hd hxs (by omega) (hostAccount_below (by omega) hrange.2).2

theorem SameGeo.au3 (h : SameGeo s t) {l : Nat} (hl : l < 64) : t.au3 l = s.au3 l := by
  have hrate : t.rate l = s.rate l := (congrArg (State.rate · l) h.bare :)
  rw [State.au3, State.au3, hrate, State.flag, State.flag, State.fget, State.fget, h.ltm l hl]

theorem SameGeo.auCols (h : SameGeo s t) {l : Nat} (hl : l < 64) (n : Nat) : t.auCols l n = s.auCols l n := by
  have hrate : t.rate = s.rate := (congrArg State.rate h.bare :)
  have htype : t.auType = s.auType := (congrArg State.auType h.bare :)
  have hcfg : t.auCfg = s.auCfg := (congrArg State.auCfg h.bare :)
  rw [State.auCols, State.auCols, hrate, h.au3 hl, htype, hcfg]

theorem SameGeo.grains (h : SameGeo s t) {g : PathGeo} (hg : g.lane < 64) : t.grains g = s.grains g := by
  have hstruct : t.structural g = s.structural g := (congrArg (State.structural · g) h.bare :)
  have hrate : t.rate = s.rate := (congrArg State.rate h.bare :)
  have htype : t.auType = s.auType := (congrArg State.auType h.bare :)
  rw [State.grains, State.grains, hstruct, hrate, h.auCols hg, htype, h.au3 hg]

theorem SameGeo.pathGrains (h : SameGeo s t) : t.pathGrains = s.pathGrains := funext fun p => by
  have hpath : t.path p = s.path p := (congrArg (State.path · p) h.bare :)
  unfold State.pathGrains
  rw [hpath]
  split
  · exact h.grains (ofWords_lane_lt _ _ _)
  · rfl

/-- The positions of a program row that nothing writes. -/
theorem SameGeo.openCols (h : SameGeo s t) (d : Nat) (c : RowCtx) : t.openCols d c = s.openCols d c := by
  have hrow : t.clock = s.clock := (congrArg State.clock h.bare :)
  have hpay : t.payCols d = s.payCols d := (congrArg (State.payCols · d) h.bare :)
  have hon : t.termsOn = s.termsOn := (congrArg State.termsOn h.bare :)
  have hpath : t.termPath = s.termPath := (congrArg State.termPath h.bare :)
  simp only [State.openCols, State.dlvIn, State.dlvAddrs, hrow, hpay, hon, hpath, h.pathGrains]

/-- The positions of an execution frame that nothing writes. -/
theorem SameGeo.openOcts (h : SameGeo s t) (d w : Nat) (c : FrameCtx) : t.openOcts d w c = s.openOcts d w c := by
  have hon : t.termsOn = s.termsOn := (congrArg State.termsOn h.bare :)
  have hpath : t.termPath = s.termPath := (congrArg State.termPath h.bare :)
  have hlane : t.pathLane = s.pathLane := (congrArg State.pathLane h.bare :)
  have hcols : t.tuCols = s.tuCols := (congrArg State.tuCols h.bare :)
  have hrow : t.txRow = s.txRow := (congrArg State.txRow h.bare :)
  have hterm : t.term = s.term := (congrArg State.term h.bare :)
  simp only [State.openOcts, State.emitAddrs, State.emitters, State.emitRow, hon, hpath, hlane, hcols, hrow, hterm,
    h.pathGrains]

end Sys2Proof
end

section
/-! SUPPORT. The end of a program row of a column engine, and run-ahead (R106, R107, R112, R121, R123). -/

namespace Sys2Proof.Machine

variable (s : State) {d : Nat} {xs : List Nat}

/-! ### The end of a row -/

/-- The row's cost is counted, and STAT says whether it was substituted. -/
def State.rowCounted (s : State) (d : Nat) (c : RowCtx) : State :=
  (s.speedCost (102 + d) (c.cycles + if (s.colEngine d).restart then 64 else 0)).setStat false d statEccSub c.subst

/-- The row as it is closed, before the verdict on its digest. -/
def State.rowClosing (s : State) (c : RowCtx) : RowCtx :=
  { c with checked := true, mask := c.mask || s.maskedOff }

/-- A row that an uncorrectable word cut short. -/
def State.rowSubstituted (s : State) (d : Nat) (c : RowCtx) : State :=
  (s.noteEcc false d c.bank c.pc (s.colEngine d).eccSaid).onCol d fun x =>
    { x with eccSaid := setMember x.eccSaid c.pc true, restart := false }

/-- A row whose digest is compared, with the positions that nothing wrote. -/
def State.rowJudged (s : State) (d : Nat) (c : RowCtx) : State :=
  let n := s.openCols d c
  ((s.compareDigest false d c.bank false c.digest).1.noteUnwritten false d n (s.colEngine d).unwrSaid).onCol d fun x =>
    { x with unwrSaid := x.unwrSaid || n > 0, restart := false }

/-- The end of a row whose cost is counted. -/
def State.rowEnd (s : State) (d : Nat) (c : RowCtx) : State × RowCtx :=
  if c.lost then (s, s.rowClosing c)
  else if c.subst then (s.rowSubstituted d c, s.rowClosing c)
  else (s.rowJudged d c,
    { s.rowClosing c with mask := (s.rowClosing c).mask || s.digestBad false d c.bank false c.digest })

theorem rowCounted_shows (c : RowCtx) : Recorded s (s.rowCounted d c) (engRegs false d [0x38]) ∧
    bit ((s.rowCounted d c).rd (engStat false d)) statEccSub = c.subst :=
  ⟨((recorded_cost s (o := false) _).widen (List.nil_subset _)).trans (recorded_setStat _ _ _),
    bit_setStat _ (by decide) _⟩

theorem closeRow_eq (c : RowCtx) : s.closeRow d c = (s.rowCounted d c).rowEnd d c := by
  have hcol := (rowCounted_shows s (d := d) c).1.colEngine d
  unfold State.rowEnd State.rowSubstituted State.rowJudged
  rw [hcol]
  rfl

theorem maskedOff_of_recorded {t : State} {o : Bool} {xs : List Nat} (h : Recorded s t (engRegs o d xs)) (hd : d < 56)
    (hxs : ∀ x ∈ xs, x < 0x40) : t.maskedOff = s.maskedOff := by
  have hpower : t.power = s.power := (congrArg State.power h.bare :)
  have hmate : t.rd Reg.matStat = s.rd Reg.matStat := h.beside hd hxs (.inr ⟨by decide, by decide⟩) rfl
  unfold State.maskedOff State.flag State.fget
  rw [hpower, hmate]

/-- What the end of a row makes of the state, and of the row with context `c`; the count of its SEQ mismatches
is `seq`. -/
structure RowClosed (d : Nat) (s : State) (c : RowCtx) (t : State) (c' : RowCtx) (seq : W32) : Prop where
  engine  : EngineFrame false d s t
  checked : c'.checked = true
  buf     : c'.buf = c.buf
  seq     : t.rd (engSeq false d) = seq
  subst   : bit (t.rd (engStat false d)) statEccSub = c.subst
  ecc     : c.lost = false → c.subst = true → t.rd (engEcc false d) = s.rd (engEcc false d) + 1
  judged  : c.lost = false → c.subst = false →
    DigestShown false d s t c.bank (s.digestBad false d c.bank false c.digest) c.digest ∧
      t.rd (engUnwr false d) = s.rd (engUnwr false d) + (if s.openCols d c = 0 then 0 else 1) ∧
      c'.mask = (c.mask || s.maskedOff || s.digestBad false d c.bank false c.digest)

/-- What counts and reports before does not matter to what the end of a row makes. -/
theorem RowClosed.after {s u t : State} {c c' : RowCtx} {seq : W32} (h : RowClosed d u c t c' seq)
    (k : Recorded s u (engRegs false d xs)) (hd : d < 56) (hxs : ∀ x ∈ xs, x < 0x40)
    (hno : ∀ x ∈ [0x10, 0x14, 0x24, 0x30, 0x34], x ∉ xs) : RowClosed d s c t c' seq := by
  simp only [List.forall_mem_cons] at hno
  obtain ⟨hdigA, hdigB, hunwr, hcnt, hecc, -⟩ := hno
  have hbad := k.digestBad hd ⟨hdigA, hdigB⟩ (bank := c.bank) (v := c.digest) false
  have hopen := (SameGeo.of_recorded k hd hxs).openCols d c
  have hmask := maskedOff_of_recorded s k hd hxs
  refine ⟨(k.engine hxs).trans h.engine, h.checked, h.buf, h.seq, h.subst,
    fun hl hs => (h.ecc hl hs).trans (congrArg (· + 1) (k.eng hd (by decide) hecc)), fun hl hs => ?_⟩
  obtain ⟨hshown, hcounted, hm⟩ := h.judged hl hs
  rw [hbad] at hshown hm
  rw [hopen] at hcounted
  rw [hmask] at hm
  exact ⟨hshown.after k hd ⟨hdigA, hdigB⟩ hcnt, hcounted.trans (congrArg (· + _) (k.eng hd (by decide) hunwr)), hm⟩

/-- A row that an uncorrectable word cut short. -/
theorem rowClosed_substituted (hd : d < 56) (c : RowCtx) (hs : c.subst = true)
    (hstat : bit (s.rd (engStat false d)) statEccSub = c.subst) :
    RowClosed d s c (s.rowSubstituted d c) (s.rowClosing c) (s.rd (engSeq false d)) := by
  obtain ⟨hecc, heccRd⟩ := noteEcc_shows s (o := false) hd c.bank c.pc (s.colEngine d).eccSaid
  have hstatRd := hecc.eng hd (x := 0x38) (by decide) (by decide)
  unfold State.rowSubstituted
  exact ⟨(hecc.engine (by decide)).trans (engineFrame_onCol _ _), rfl, rfl, hecc.eng hd (by decide) (by decide),
    (congrArg (bit · statEccSub) hstatRd).trans hstat, fun _ _ => heccRd, fun _ h => absurd (hs.symm.trans h) nofun⟩

/-- A row that ran whole. -/
theorem rowClosed_judged (hd : d < 56) (c : RowCtx) (hs : c.subst = false)
    (hstat : bit (s.rd (engStat false d)) statEccSub = c.subst) :
    RowClosed d s c (s.rowJudged d c) { s.rowClosing c with
      mask := (s.rowClosing c).mask || s.digestBad false d c.bank false c.digest } (s.rd (engSeq false d)) := by
  obtain ⟨hcompare, hshown, hkept⟩ := compareDigest_shows s (o := false) hd c.bank false c.digest
  have hengine := engineFrame_compareDigest s (o := false) hd c.bank false c.digest
  unfold State.rowJudged
  generalize (s.compareDigest false d c.bank false c.digest).1 = u at hcompare hengine hshown hkept ⊢
  obtain ⟨hnote, hnoteRd⟩ := noteUnwritten_shows u (o := false) hd (s.openCols d c) (s.colEngine d).unwrSaid
  have hstatRd := hnote.eng hd (x := 0x38) (by decide) (by decide)
  have hunwr : u.rd (engUnwr false d) = s.rd (engUnwr false d) := hcompare.eng hd (by decide) (by decide)
  have hend := hshown.before hnote hd (by decide)
  refine ⟨(hengine.trans (hnote.engine (by decide))).trans (engineFrame_onCol _ _), rfl, rfl, ?seq, ?subst,
    fun _ h => absurd (hs.symm.trans h) nofun, fun _ _ => ⟨⟨hend.live, hend.flag, hend.count⟩, ?unwr, rfl⟩⟩
  case seq => exact (hnote.eng hd (by decide) (by decide)).trans (hcompare.eng hd (by decide) (by decide))
  case subst => exact (congrArg (bit · statEccSub) hstatRd).trans (hkept.trans hstat)
  case unwr => exact hnoteRd.trans (congrArg (· + _) hunwr)

theorem rowClosed_closeRow (hd : d < 56) (c : RowCtx) :
    RowClosed d s c (s.closeRow d c).1 (s.closeRow d c).2 (s.rd (engSeq false d)) := by
  obtain ⟨hcounted, hstat⟩ := rowCounted_shows s (d := d) c
  have hseq : (s.rowCounted d c).rd (engSeq false d) = s.rd (engSeq false d) := hcounted.eng hd (by decide) (by decide)
  refine RowClosed.after ?_ hcounted hd (by decide) (by decide)
  rw [closeRow_eq, State.rowEnd, ← hseq]
  clear hseq hcounted
  generalize s.rowCounted d c = u at hstat ⊢
  cases hlost : c.lost
  case true =>
    exact ⟨.refl u, rfl, rfl, rfl, hstat, fun h => absurd (hlost.symm.trans h) nofun,
      fun h => absurd (hlost.symm.trans h) nofun⟩
  case false =>
    cases hsubst : c.subst
    case true => exact rowClosed_substituted u hd c hsubst hstat
    case false => exact rowClosed_judged u hd c hsubst hstat

end Sys2Proof.Machine
end

section
/-! SUPPORT. PROGRAM_ROW_END, RUN_AHEAD and RUN_AHEAD_V_READ of one column engine (R106, R107, R121, R123). -/

namespace Sys2Proof.Machine

variable (s : State) {d : Nat} {c : RowCtx} {i : ColIns}

/-- What a row has counted and reported while its program ran, for `n` SEQ mismatches and the uncorrectable words `ks`
that it found. -/
def State.rowSaid (s : State) (d n : Nat) (ks : List Nat) : State := (s.count (engSeq false d) n).sayFound ks

theorem rowSaid_shows (hd : d < 56) (n : Nat) (ks : List Nat) :
    Recorded s (s.rowSaid d n ks) (engRegs false d [0x2C]) ∧
      (s.rowSaid d n ks).rd (engSeq false d) = s.rd (engSeq false d) + BitVec.ofNat 32 n := by
  have hfound : Recorded (s.count (engSeq false d) n) (s.rowSaid d n ks) (engRegs false d []) :=
    (recorded_sayFound _ ks).mono (ueRegs_subset _)
  exact ⟨(recorded_engCount s 0x2C n).trans (hfound.widen (List.nil_subset _)),
    (hfound.eng hd (by decide) List.not_mem_nil).trans (rd_count_self s _ n)⟩

/-! ### The end of the row under way -/

theorem programRowEnd_of_fetch (hf : (s.colEngine d).fetch = some c) (hc : c.checked = false) :
    s.programRowEnd d =
      let r := s.runCol d s.clock.row (fun _ _ => true) bankWords (c, 0)
      let q := (s.rowSaid d r.2 r.1.found).closeRow d { r.1 with found := [] }
      q.1.onCol d fun x => { x with fetch := some q.2 } := by
  unfold State.programRowEnd
  rw [hf]
  dsimp only
  rw [if_neg (by simp [hc])]
  rfl

theorem programRowEnd_of_closed (h : (s.colEngine d).fetch.any (fun c => !c.checked) = false) :
    s.programRowEnd d = s := by
  unfold State.programRowEnd
  cases hf : (s.colEngine d).fetch with
  | none => rfl
  | some c => exact if_pos (by simpa [hf] using h)

/-- The row under way runs to the end of its program and is closed. -/
theorem rowClosed_programRowEnd (hd : d < 56) (hf : (s.colEngine d).fetch = some c) (hc : c.checked = false) :
    let r := s.runCol d s.clock.row (fun _ _ => true) bankWords (c, 0)
    RowClosed d s r.1 (s.programRowEnd d) ((s.programRowEnd d).rowOf d)
      (s.rd (engSeq false d) + BitVec.ofNat 32 r.2) := by
  rw [programRowEnd_of_fetch s hf hc]
  dsimp only
  generalize s.runCol d s.clock.row (fun _ _ => true) bankWords (c, 0) = r
  obtain ⟨hsaid, hseq⟩ := rowSaid_shows s hd r.2 r.1.found
  have hclosed := rowClosed_closeRow (s.rowSaid d r.2 r.1.found) hd { r.1 with found := [] }
  rw [hseq] at hclosed
  obtain ⟨hengine, hchecked, hbuf, hsum, hsubst, hecc, hjudged⟩ := hclosed.after hsaid hd (by decide) (by decide)
  generalize (s.rowSaid d r.2 r.1.found).closeRow d { r.1 with found := [] } = q at *
  rw [State.rowOf, colEngine_onCol_self]
  refine ⟨hengine.trans (engineFrame_onCol _ _), hchecked, hbuf, hsum, hsubst, hecc, fun hl hs => ?_⟩
  obtain ⟨hshown, hunwr, hmask⟩ := hjudged hl hs
  exact ⟨⟨hshown.live, hshown.flag, hshown.count⟩, hunwr, hmask⟩

theorem rowOf_of_fetch (hf : (s.colEngine d).fetch = some c) : s.rowOf d = c := by
  rw [State.rowOf, hf, Option.getD_some]

theorem checked_programRowEnd (hd : d < 56) (hf : (s.colEngine d).fetch = some c) :
    ((s.programRowEnd d).rowOf d).checked = true ∧ EngineFrame false d s (s.programRowEnd d) := by
  cases hc : c.checked with
  | false =>
    have h := rowClosed_programRowEnd s hd hf hc
    exact ⟨h.checked, h.engine⟩
  | true =>
    rw [programRowEnd_of_closed s (by simp [hf, hc]), rowOf_of_fetch s hf]
    exact ⟨hc, .refl s⟩

/-! ### Run-ahead -/

theorem period_issueCol (row : Nat) : (s.issueCol d row i c).1.period = c.period := by cases i <;> rfl

/-- The program of a row leaves the period that the row belongs to. -/
theorem period_runCol (row : Nat) (go : RowCtx → ColIns → Bool) :
    ∀ (n : Nat) (x : RowCtx × Nat), (s.runCol d row go n x).1.period = x.1.period
  | 0, _ => rfl
  | n + 1, (c, k) => by
    unfold State.runCol
    split
    · rfl
    · split
      · rfl
      · rfl
      · split
        · exact (period_runCol row go n _).trans (period_issueCol s row)
        · rfl

theorem runAhead_of_due (hf : (s.colEngine d).fetch = some c) (hrun : (!c.idle && !c.lost) = true)
    (ha : (s.colEngine d).ahead = none) :
    s.runAhead d =
      let u := s.programRowEnd d
      let r := u.runCol d ((u.clock.row + 1) % 9) (fun _ i => u.mayRunAhead i) bankWords
        (u.openRow d (c.period + 1), 0)
      u.onCol d fun x => { x with ahead := some r.1, waiting := !r.1.ended } := by
  unfold State.runAhead
  rw [hf]
  dsimp only
  rw [if_neg (by simpa [ha] using hrun)]

theorem runAhead_of_not_due
    (h : ¬ ((s.colEngine d).fetch.any (fun c => !c.idle && !c.lost) = true ∧ (s.colEngine d).ahead = none)) :
    s.runAhead d = s := by
  unfold State.runAhead
  cases hf : (s.colEngine d).fetch with
  | none => rfl
  | some c =>
    refine if_pos ?_
    rw [hf] at h
    cases ha : (s.colEngine d).ahead
    case none => simpa [ha, or_iff_not_imp_left] using h
    case some => simp

/-! ### One instruction issued -/

theorem issueCol_charged (row : Nat) : let r := (s.issueCol d row i c).1
    r.pc = c.pc + colWords i ∧ r.cycles = c.cycles + colCost i ∧
      r.digest = foldCol (s.factor c.bank (colSrc i)) (s.factor c.bank d) c.cycles i c.digest ∧
      r.ended = (c.ended || i = .endI) := by
  cases i <;> exact ⟨rfl, rfl, rfl, rfl⟩

theorem rowOpen_of_fetch (hf : (s.colEngine d).fetch = some c) :
    s.rowOpen d = (!c.ended && !c.checked && !c.lost) := by
  rw [State.rowOpen, hf, Option.any_some]

theorem issueOpen_of_closed (h : s.rowOpen d = false) : s.issueOpen d i = s := by
  unfold State.issueOpen
  cases hf : (s.colEngine d).fetch with
  | none => rfl
  | some c =>
    rw [rowOpen_of_fetch s hf, ← Bool.not_or, ← Bool.not_or, Bool.not_eq_false'] at h
    exact if_pos h

theorem issueOpen_shows (hd : d < 56) (h : s.rowOpen d = true) :
    ColIssued s (s.issueOpen d i) d i ∧ EngineFrame false d s (s.issueOpen d i) := by
  cases hf : (s.colEngine d).fetch with
  | none => simp [State.rowOpen, hf] at h
  | some c =>
    rw [rowOpen_of_fetch s hf] at h
    simp only [Bool.and_eq_true, Bool.not_eq_true'] at h
    obtain ⟨⟨hended, hchecked⟩, hlost⟩ := h
    have heq : s.issueOpen d i =
        let r := s.issueCol d s.clock.row i c
        (s.rowSaid d r.2 r.1.found).onCol d fun x => { x with fetch := some { r.1 with found := [] } } := by
      unfold State.issueOpen
      rw [hf]
      dsimp only
      rw [if_neg (by simp [hended, hchecked, hlost])]
      rfl
    obtain ⟨hpc, hcycles, hdigest, hend⟩ := issueCol_charged s (d := d) (i := i) (c := c) s.clock.row
    rw [heq]
    dsimp only
    generalize s.issueCol d s.clock.row i c = r at *
    have hframe := ((rowSaid_shows s hd r.2 r.1.found).1.engine (by decide)).trans
      (engineFrame_onCol (s.rowSaid d r.2 r.1.found) fun x => { x with fetch := some { r.1 with found := [] } })
    refine ⟨⟨?_, ?_, ?_, ?_, ?_, fun e he => hframe.cols e.val (.inr he)⟩, hframe⟩
    all_goals simp only [State.rowOf, colEngine_onCol_self, hf, Option.getD_some]
    case refine_1 => rfl
    case refine_2 => exact hpc
    case refine_3 => exact hcycles
    case refine_4 => exact hdigest
    case refine_5 => simpa [hended] using hend

theorem runAheadVRead_eq (hfetch : s.fetchCol (s.rowOf d).bank (s.rowOf d).pc = .ins i) :
    s.runAheadVRead d = if (s.colEngine d).ahead = none ∧ readsV i = true then s.issueOpen d i else s := by
  unfold State.runAheadVRead
  dsimp only
  cases ha : (s.colEngine d).ahead with
  | some a => rw [if_neg (by simp)]
  | none =>
    cases hf : (s.colEngine d).fetch with
    | none => simp [State.issueOpen, hf]
    | some c =>
      rw [rowOf_of_fetch s hf] at hfetch
      dsimp only
      rw [hfetch]
      simp only [true_and]

end Sys2Proof.Machine
end

section
/-! SUPPORT. What the program of an execution frame changes beside its frame (R110, R123, R131, R155, R163, R202). -/

namespace Sys2Proof

open Machine

variable {o : Bool} {d : Nat} {s : State}

theorem EngineFrame.foldl {α : Type} {f : State → α → State} (hf : ∀ s x, EngineFrame o d s (f s x)) :
    ∀ (xs : List α) (s : State), EngineFrame o d s (xs.foldl f s)
  | [], s => .refl s
  | x :: xs, s => (hf s x).trans (EngineFrame.foldl hf xs (f s x))

end Sys2Proof

namespace Sys2Proof.Machine

variable (s : State) {d ch : Nat} {i : OctIns} {c : FrameCtx}

theorem engineFrame_wr {o : Bool} {a : Nat} (v : W32) (ha : ownRegs o d a = true) : EngineFrame o d s (s.wr a v) :=
  ⟨frame_wr s a v (.inl ha), fun _ _ => rfl, fun _ _ => rfl⟩

theorem engineFrame_foundOct (as : List Nat) : EngineFrame true d s (s.foundOct as) :=
  ((recorded_foundOct as s).mono (ueRegs_subset [])).engine (by decide)

theorem engineFrame_onPath (p : Nat) (f : PathSt → PathSt) : EngineFrame true d s (s.onPath p f) :=
  .of_hidden ⟨rfl, rfl, rfl, rfl, rfl⟩ rfl rfl rfl

theorem engineFrame_notePathBad (p : Nat) : EngineFrame true d s (s.notePathBad true p) :=
  .ite (fun _ => .refl s) fun _ =>
    ((recorded_raise s _ _ _ _ _ _ (engRegs true d [])).engine (by decide)).trans (engineFrame_onPath _ p _)

theorem engineFrame_noteWindow (p : Nat) (con : Bool) : EngineFrame true d s (s.noteWindow p con) :=
  .ite (fun _ => engineFrame_onPath s p _) fun _ => .refl s

theorem engineFrame_noteClip (clip : Bool) : EngineFrame true d s (s.noteClip d clip) :=
  .ite (fun _ => (recorded_engCount s (o := true) 0x3C 1).engine (by decide)) fun _ => .refl s

/-! ### A pattern channel (R167, R168, R171) -/

theorem prbsReg_own {o : Bool} (h : ch < 1024) {a : Nat} (ha : Reg.prbsStat ch ≤ a ∧ a < Reg.prbsStat ch + 0x10) :
    ownRegs o d a = true := by
  have : Reg.prbsStat 0 ≤ a ∧ a < Reg.prbsStat 1024 := by
    simp only [Reg.prbsStat] at ha ⊢
    omega
  simp [ownRegs, regsOf, this]

theorem engineFrame_setPrbs (x : PrbsSt) : EngineFrame true d s (s.setPrbs ch x) :=
  .of_hidden ⟨rfl, rfl, rfl, rfl, rfl⟩ rfl rfl rfl

theorem engineFrame_prbsStat (h : ch < 1024) {hi lo : Nat} (b : Bool) :
    EngineFrame true d s (s.fbit ⟨Reg.prbsStat ch, hi, lo⟩ b) :=
  engineFrame_wr s _ (prbsReg_own h ⟨Nat.le_refl _, Nat.lt_add_of_pos_right (by decide)⟩)

theorem engineFrame_prbsBit (h : ch < 1024) (err : Bool) : EngineFrame true d s (s.prbsBit ch err) := by
  have hlo : ownRegs true d (Reg.prbsBitsLo ch) = true :=
    prbsReg_own h (by simp only [Reg.prbsStat, Reg.prbsBitsLo]; omega)
  have hhi : ownRegs true d (Reg.prbsBitsHi ch) = true :=
    prbsReg_own h (by simp only [Reg.prbsStat, Reg.prbsBitsHi]; omega)
  have herr : ownRegs true d (Reg.prbsErr ch) = true := prbsReg_own h (by simp only [Reg.prbsStat, Reg.prbsErr]; omega)
  unfold State.prbsBit
  refine ((engineFrame_wr s (BitVec.ofNat 32 ((s.rd (Reg.prbsBitsLo ch)).toNat + 1)) hlo).trans ?_).trans
    (.ite (fun _ => engineFrame_wr _ _ herr) fun _ => .refl _)
  exact .ite (fun _ => .refl _) fun _ => engineFrame_wr _ _ hhi

theorem engineFrame_prbsCheckBit (h : ch < 1024) (poly : BitVec 2) (b : Bool) :
    EngineFrame true d s (s.prbsCheckBit ch poly b) := by
  have hbit := fun err => engineFrame_prbsBit (d := d) s h err
  unfold State.prbsCheckBit
  refine .ite (fun _ => (hbit (decide ((prbsNext poly (s.prbsCh ch).reg).1 ≠ b))).trans ?_) fun _ =>
    .ite (fun _ => engineFrame_setPrbs s _) fun _ => ?_
  · refine .ite (fun _ => .ite (fun _ => ?_) fun _ => engineFrame_setPrbs _ _) fun _ => engineFrame_setPrbs _ _
    exact ((engineFrame_setPrbs _ _).trans (engineFrame_prbsStat _ h _)).trans (engineFrame_prbsStat _ h _)
  · dsimp only
    refine .ite (fun _ => .ite (fun _ => ?_) fun _ => engineFrame_setPrbs s _) fun _ => engineFrame_setPrbs s _
    exact (engineFrame_setPrbs s _).trans (engineFrame_prbsStat _ h _)

theorem engineFrame_prbsCheckOctets (h : ch < 1024) (poly : BitVec 2) :
    ∀ (xs : List (Octet × Bool)) (s : State), EngineFrame true d s (s.prbsCheckOctets ch poly xs)
  | [], s => .refl s
  | (_, _) :: xs, s => by
    refine EngineFrame.trans (.ite (fun _ => .refl s) fun _ => ?_) (engineFrame_prbsCheckOctets h poly xs _)
    exact .foldl (fun s _ => engineFrame_prbsCheckBit s h poly _) _ s

/-! ### The instructions -/

theorem engineFrame_doTone (f : ToneF) : EngineFrame true d s (s.doTone d f c).1 := by
  unfold State.doTone
  dsimp only
  split
  · exact .refl s
  · exact .foldl (fun s _ => ((recorded_foundUe s _ _).mono (ueRegs_subset [])).engine (by decide)) _ s

theorem engineFrame_doPrbs (check : Bool) (f : PrbsF) : EngineFrame true d s (s.doPrbs d check f c).1 := by
  unfold State.doPrbs
  cases check
  case false => exact engineFrame_setPrbs s _
  case true => exact (engineFrame_foundOct s _).trans (engineFrame_prbsCheckOctets f.chan.isLt f.poly _ _)

theorem engineFrame_doOct : EngineFrame true d s (s.doOct d i c).1 := by
  cases i with
  | movo f => exact engineFrame_foundOct s _
  | movos f => exact engineFrame_foundOct s _
  | selo f =>
    exact ((engineFrame_notePathBad s _).trans (engineFrame_foundOct _ _)).trans (engineFrame_noteWindow _ _ _)
  | mix f => exact (engineFrame_foundOct s _).trans (engineFrame_noteClip _ _)
  | mixp f => exact (engineFrame_foundOct s _).trans (engineFrame_noteClip _ _)
  | gain f => exact (engineFrame_foundOct s _).trans (engineFrame_noteClip _ _)
  | tone f => exact engineFrame_doTone s f
  | prbs check f => exact engineFrame_doPrbs s check f
  | casi f => exact .ite (fun _ => engineFrame_foundOct s _) fun _ => .refl s
  | filo f => exact .refl s
  | casx f => exact .refl s
  | endI => exact .refl s
  | nop => exact .refl s
  | mark n => exact .refl s

theorem engineFrame_issueOct : EngineFrame true d s (s.issueOct d i c).1 := by
  unfold State.issueOct
  dsimp only
  split
  · exact .refl s
  · exact engineFrame_doOct s

theorem engineFrame_runOct (hd : d < 56) (w : Nat) (lim : Option Nat) :
    ∀ (n : Nat) (s : State) (c : FrameCtx), EngineFrame true d s (s.runOct d w lim n c).1
  | 0, s, _ => .refl s
  | n + 1, s, c => by
    unfold State.runOct
    split
    · exact .refl s
    · split
      · exact .refl s
      · split
        · dsimp only
          exact ((noteEcc_shows s hd _ _ _).1.engine (by decide)).trans (engineFrame_onOct _ _)
        · exact .refl s
      · split
        · exact (engineFrame_issueOct s).trans (engineFrame_runOct hd w lim n _ _)
        · exact .refl s

end Sys2Proof.Machine
end

section
/-! SUPPORT. The end of an execution frame (R112, R121-R123, R385). -/

namespace Sys2Proof.Machine

variable (s : State) {d : Nat}

/-- The frame's cost is counted, and STAT says whether it was substituted. -/
def State.frameCounted (s : State) (d : Nat) (c : FrameCtx) : State :=
  (s.speedCost (158 + d) (c.spent + c.cycles)).setStat true d statEccSub c.subst.isSome

/-- The positions that nothing wrote are counted. -/
def State.frameFilled (s : State) (d : Nat) (c : FrameCtx) : State :=
  let n := s.openOcts d c.openRows c
  (s.noteUnwritten true d n (s.octEngine d).unwrSaid).onOct d fun x => { x with unwrSaid := x.unwrSaid || n > 0 }

/-- The digest is compared, and the next frame masked by the verdict. -/
def State.frameJudged (s : State) (d : Nat) (differ : Bool) (c : FrameCtx) : State :=
  let r := s.compareDigest true d c.bank differ c.digest
  r.1.onOct d fun x => { x with maskNext := r.2 }

/-- The end of a frame whose cost is counted. -/
def State.frameEnd (s : State) (d : Nat) (differ : Bool) (c : FrameCtx) : State :=
  if c.lost then s
  else if c.subst.isSome && !differ then s.frameFilled d c
  else (s.frameFilled d c).frameJudged d differ c

theorem frameCounted_shows (c : FrameCtx) : Recorded s (s.frameCounted d c) (engRegs true d [0x38]) ∧
    bit ((s.frameCounted d c).rd (engStat true d)) statEccSub = c.subst.isSome :=
  ⟨((recorded_cost s (o := true) _).widen (List.nil_subset _)).trans (recorded_setStat _ _ _),
    bit_setStat _ (by decide) _⟩

theorem closeFrame_eq (differ : Bool) (c : FrameCtx) :
    s.closeFrame d differ c = ((s.frameCounted d c).frameEnd d differ c, { c with checked := true }) := by
  have hoct := (frameCounted_shows s (d := d) c).1.octEngine d
  unfold State.frameEnd State.frameFilled
  rw [hoct]
  unfold State.closeFrame
  dsimp only
  split
  · rfl
  · split <;> rfl

/-- What the end of a frame with context `c` makes of the state. -/
structure FrameClosed (d : Nat) (s : State) (differ : Bool) (c : FrameCtx) (t : State) : Prop where
  engine : EngineFrame true d s t
  subst  : bit (t.rd (engStat true d)) statEccSub = c.subst.isSome
  judged : c.lost = false → (c.subst = none ∨ differ = true) →
    DigestShown true d s t c.bank (s.digestBad true d c.bank differ c.digest) c.digest ∧
      t.rd (engUnwr true d) = s.rd (engUnwr true d) + (if s.openOcts d c.openRows c = 0 then 0 else 1) ∧
      (t.octEngine d).maskNext = s.digestBad true d c.bank differ c.digest

/-- What counts and reports before does not matter to what the end of a frame makes. -/
theorem FrameClosed.after {s u t : State} {xs : List Nat} {differ : Bool} {c : FrameCtx}
    (h : FrameClosed d u differ c t) (k : Recorded s u (engRegs true d xs)) (hd : d < 56) (hxs : ∀ x ∈ xs, x < 0x40)
    (hno : ∀ x ∈ [0x10, 0x14, 0x24, 0x30], x ∉ xs) : FrameClosed d s differ c t := by
  simp only [List.forall_mem_cons] at hno
  obtain ⟨hdigA, hdigB, hunwr, hcnt, -⟩ := hno
  have hbad := k.digestBad hd ⟨hdigA, hdigB⟩ (bank := c.bank) (v := c.digest) differ
  have hopen := (SameGeo.of_recorded k hd hxs).openOcts d c.openRows c
  refine ⟨(k.engine hxs).trans h.engine, h.subst, fun hl hs => ?_⟩
  obtain ⟨hshown, hcounted, hm⟩ := h.judged hl hs
  rw [hbad] at hshown hm
  rw [hopen] at hcounted
  exact ⟨hshown.after k hd ⟨hdigA, hdigB⟩ hcnt, hcounted.trans (congrArg (· + _) (k.eng hd (by decide) hunwr)), hm⟩

/-- The positions that nothing wrote are counted, and what the comparison rests on stays. -/
theorem frameFilled_shows (hd : d < 56) (c : FrameCtx) :
    ∃ u f, s.frameFilled d c = u.onOct d f ∧ Recorded s u (engRegs true d [0x24]) ∧
      u.rd (engUnwr true d) = s.rd (engUnwr true d) + if s.openOcts d c.openRows c = 0 then 0 else 1 := by
  have hnote := noteUnwritten_shows s (o := true) hd (s.openOcts d c.openRows c) (s.octEngine d).unwrSaid
  unfold State.frameFilled
  generalize s.openOcts d c.openRows c = n at hnote ⊢
  exact ⟨_, _, rfl, hnote⟩

/-- A frame that is judged. -/
theorem frameClosed_judged (hd : d < 56) (differ : Bool) (c : FrameCtx)
    (hstat : bit (s.rd (engStat true d)) statEccSub = c.subst.isSome) :
    FrameClosed d s differ c ((s.frameFilled d c).frameJudged d differ c) := by
  obtain ⟨u, f, hfilled, hnote, hunwr⟩ := frameFilled_shows s hd c
  rw [hfilled]
  obtain ⟨hcompare, hshown, hkept⟩ := compareDigest_shows (u.onOct d f) (o := true) hd c.bank differ c.digest
  have hengine := engineFrame_compareDigest (u.onOct d f) (o := true) hd c.bank differ c.digest
  have hverdict : (u.onOct d f).digestBad true d c.bank differ c.digest = s.digestBad true d c.bank differ c.digest :=
    hnote.digestBad hd (by decide) differ
  have hstatRd : u.rd (engStat true d) = s.rd (engStat true d) := hnote.eng hd (by decide) (by decide)
  have hkeptUnwr : ((u.onOct d f).compareDigest true d c.bank differ c.digest).1.rd (engUnwr true d) =
    u.rd (engUnwr true d) := hcompare.eng hd (by decide) (by decide)
  have hbase : DigestShown true d u ((u.onOct d f).compareDigest true d c.bank differ c.digest).1 c.bank
      (s.digestBad true d c.bank differ c.digest) c.digest :=
    hverdict ▸ ⟨hshown.live, hshown.flag, hshown.count⟩
  have hfrom := hbase.after hnote hd (by decide) (by decide)
  unfold State.frameJudged
  refine ⟨?engine, hkept.trans ((congrArg (bit · statEccSub) hstatRd).trans hstat), fun _ _ =>
    ⟨⟨hfrom.live, hfrom.flag, hfrom.count⟩, hkeptUnwr.trans hunwr, ?mask⟩⟩
  case engine =>
    exact (((hnote.engine (by decide)).trans (engineFrame_onOct u f)).trans hengine).trans (engineFrame_onOct _ _)
  case mask =>
    dsimp only
    rw [octEngine_onOct_self, snd_compareDigest, hverdict]

theorem frameClosed_closeFrame (hd : d < 56) (differ : Bool) (c : FrameCtx) :
    FrameClosed d s differ c (s.closeFrame d differ c).1 := by
  obtain ⟨hcounted, hstat⟩ := frameCounted_shows s (d := d) c
  refine FrameClosed.after ?_ hcounted hd (by decide) (by decide)
  rw [closeFrame_eq, State.frameEnd]
  clear hcounted
  generalize s.frameCounted d c = u at hstat ⊢
  split
  case isTrue hlost => exact ⟨.refl u, hstat, fun h => absurd (hlost.symm.trans h) nofun⟩
  case isFalse =>
    split
    case isTrue hsubst =>
      obtain ⟨v, f, hfilled, hnote, -⟩ := frameFilled_shows u hd c
      have hstatRd : v.rd (engStat true d) = u.rd (engStat true d) := hnote.eng hd (by decide) (by decide)
      rw [hfilled]
      refine ⟨(hnote.engine (by decide)).trans (engineFrame_onOct v f),
        (congrArg (bit · statEccSub) hstatRd).trans hstat, fun _ h => ?_⟩
      rcases h with h | h <;> simp [h] at hsubst
    case isFalse => exact frameClosed_judged u hd differ c hstat

/-! ### OCTET_DIGEST_CHECK -/

theorem octetDigestCheck_of_closed {differ : Bool}
    (h : ¬ (s.inLastRow = true ∧ (s.octEngine d).run.any (fun c => !c.checked) = true)) :
    s.octetDigestCheck d differ = s := by
  unfold State.octetDigestCheck
  split
  case isFalse => rfl
  case isTrue hrow =>
    unfold State.endProgram
    cases hr : (s.octEngine d).run with
    | none => rfl
    | some c => exact if_pos (by simpa [hrow, hr] using h)

theorem octetDigestCheck_of_run {differ : Bool} {c : FrameCtx} (hrow : s.inLastRow = true)
    (hr : (s.octEngine d).run = some c) (hc : c.checked = false) :
    s.octetDigestCheck d differ =
      let r := s.runOct d 8 none bankWords c
      (r.1.closeFrame d differ r.2).1.onOct d fun x => { x with run := some { r.2 with checked := true } } := by
  unfold State.octetDigestCheck State.endProgram
  rw [if_pos hrow, hr]
  dsimp only
  rw [if_neg (by simp [hc]), closeFrame_eq]

end Sys2Proof.Machine
end

section
/-! OBLIGATION O21. -/

namespace Sys2Proof

open Machine

/-- The judgement of a row or frame, as its obligation writes it. -/
theorem DigestShown.judged {o bank bad : Bool} {d n : Nat} {v : W32} {s t : State}
    (h : DigestShown o d s t bank bad v) (hunwr : t.rd (engUnwr o d) = s.rd (engUnwr o d) + if n = 0 then 0 else 1) :
    t.rd (engLive o d) = s.judgedDigest o d bank v ∧ bit (t.rd (engStat o d)) statDigBad = bad ∧
      t.rd (engDigCnt o d) = s.rd (engDigCnt o d) + (if bad then 1 else 0) ∧
      t.rd (engUnwr o d) = s.rd (engUnwr o d) + (if n = 0 then 0 else 1) :=
  ⟨h.live, h.flag, h.count, hunwr⟩

theorem EngineFrame.otherCols {d : Fin 56} {s t : State} (h : EngineFrame false d.val s t) (e : Fin 56) (he : e ≠ d) :
    t.colEngine e.val = s.colEngine e.val := h.cols e.val (.inr (Fin.val_ne_of_ne he))

theorem EngineFrame.otherOcts {d : Fin 16} {s t : State} (h : EngineFrame true d.val s t) (e : Fin 16) (he : e ≠ d) :
    t.octEngine e.val = s.octEngine e.val := h.octs e.val (.inr (Fin.val_ne_of_ne he))

/-- Settles O21: each command is a run of the engine's program, which only counts and reports beside its row or frame,
then its end, whose digest is judged in a state that shows the same digests and positions. -/
theorem programEnds : Obligations.ProgramEnds := by
  intro s hup own judged
  refine ⟨fun d => completes_of_up (f := fun s => s.programRowEnd d.val) hup rfl ?row,
    fun d differ => completes_of_up (f := fun s => s.octetDigestCheck d.val differ) hup rfl ?frame,
    fun d => completes_of_up (f := fun s => s.runAhead d.val) hup rfl ?ahead,
    fun d i hfetch => completes_of_up (f := fun s => s.runAheadVRead d.val) hup rfl ?read⟩
  case row =>
    split
    case isFalse h => exact programRowEnd_of_closed s (Bool.eq_false_iff.2 h)
    case isTrue h =>
      obtain ⟨c, hf, hc⟩ := (Option.any_eq_true _ _).1 h
      have hclosed := rowClosed_programRowEnd s d.isLt hf (by simpa using hc)
      rw [rowOf_of_fetch s hf]
      dsimp only at hclosed ⊢
      refine ⟨hclosed.checked, hclosed.buf, hclosed.seq, hclosed.subst, hclosed.ecc, fun hl hs => ?_,
        hclosed.engine.otherCols, hclosed.engine.frame⟩
      obtain ⟨hshown, hunwr, hmask⟩ := hclosed.judged hl hs
      exact ⟨hshown.judged hunwr, hmask⟩
  case frame =>
    split
    case isFalse h => exact octetDigestCheck_of_closed s h
    case isTrue h =>
      obtain ⟨hrow, hopen⟩ := h
      obtain ⟨c, hr, hc⟩ := (Option.any_eq_true _ _).1 hopen
      have hrun := engineFrame_runOct (d := d.val) (by omega) 8 none bankWords s c
      rw [octetDigestCheck_of_run s hrow hr (by simpa using hc),
        show s.frameOf d.val = c by rw [State.frameOf, hr, Option.getD_some]]
      dsimp only
      generalize s.runOct d.val 8 none bankWords c = r at hrun ⊢
      have hclosed := frameClosed_closeFrame r.1 (d := d.val) (by omega) differ r.2
      have hengine := (hrun.trans hclosed.engine).trans
        (engineFrame_onOct (r.1.closeFrame d.val differ r.2).1 fun x =>
          { x with run := some { r.2 with checked := true } })
      rw [State.frameOf, octEngine_onOct_self]
      refine ⟨rfl, rfl, hclosed.subst, fun hl hs => ?_, hengine.otherOcts, hengine.frame⟩
      obtain ⟨hshown, hunwr, hmask⟩ := hclosed.judged hl hs
      exact ⟨hshown.judged hunwr, hmask⟩
  case ahead =>
    split
    case isFalse h => exact runAhead_of_not_due s h
    case isTrue h =>
      obtain ⟨hrun, ha⟩ := h
      obtain ⟨c, hf, hc⟩ := (Option.any_eq_true _ _).1 hrun
      obtain ⟨hchecked, hengine⟩ := checked_programRowEnd s d.isLt hf
      rw [runAhead_of_due s hf hc ha, rowOf_of_fetch s hf]
      dsimp only
      have hperiod := period_runCol (s.programRowEnd d.val) (d := d.val) (((s.programRowEnd d.val).clock.row + 1) % 9)
        (fun _ i => (s.programRowEnd d.val).mayRunAhead i) bankWords
        ((s.programRowEnd d.val).openRow d.val (c.period + 1), 0)
      generalize s.programRowEnd d.val = u at *
      generalize u.runCol d.val _ _ _ _ = r at *
      have hframe := hengine.trans (engineFrame_onCol u fun x => { x with ahead := some r.1, waiting := !r.1.ended })
      simp only [State.rowOf, colEngine_onCol_self]
      exact ⟨hchecked, congrArg some hperiod, rfl, hframe.otherCols, hframe.frame⟩
  case read =>
    rw [runAheadVRead_eq s hfetch]
    by_cases hreads : (s.colEngine d.val).ahead = none ∧ readsV i = true
    case neg => rw [if_neg hreads, if_neg fun h => hreads h.2]
    case pos =>
      rw [if_pos hreads]
      cases hopen : s.rowOpen d.val with
      | false => rw [if_neg (by simp), issueOpen_of_closed s hopen]
      | true =>
        rw [if_pos ⟨rfl, hreads⟩]
        obtain ⟨hissued, hengine⟩ := issueOpen_shows s (i := i) d.isLt hopen
        exact ⟨hissued, hengine.frame⟩

end Sys2Proof
end

section
/-! SUPPORT. The fields of the words that encode an instruction, as the decoder takes them apart (R125, R126, R148). -/

namespace Sys2Proof.Machine

/-! ### Fields of a word -/

/-- Bits of the low part of a word of two parts. Here and below `Nat.reduceAdd` is off: the widths of the parts stay the
sums that the concatenation is typed with. -/
theorem extractLsb'_append_low {n m lo k : Nat} (x : BitVec n) (y : BitVec m) (hlo : lo ≤ m) (hk : k ≤ m - lo) :
    BitVec.extractLsb' lo k (x ++ y) = BitVec.extractLsb' lo k y :=
  BitVec.extractLsb'_append_eq_of_add_le (by omega)

/-! ### MIX and MIXP (R126, R148) -/

variable {f : MixF} (op : BitVec 6) (u v : W64)

/-- The three words that MIX or MIXP has at most. -/
def mixWord0 (op : BitVec 6) (f : MixF) : W64 :=
  op ++ BitVec.ofNat 3 (f.sources.length - 1) ++ b1 f.law ++ f.sc ++ mixSrc f 0 ++ 0#10 ++ f.anchor

def mixWord1 (f : MixF) : W64 := mixSrc f 1 ++ mixSrc f 2 ++ mixSrc f 3 ++ mixSrc f 4

def mixWord2 (f : MixF) : W64 := mixSrc f 5 ++ mixSrc f 6 ++ mixSrc f 7 ++ 0#16

theorem encodeMix_eq : encodeMix op f =
    if f.sources.length ≤ 1 then [mixWord0 op f]
    else if f.sources.length ≤ 5 then [mixWord0 op f, mixWord1 f]
    else [mixWord0 op f, mixWord1 f, mixWord2 f] := rfl

/-- The source fields of three words, in order. -/
def mixFields (w0 w1 w2 : W64) : List (BitVec 16) :=
  [wbits w0 32 16, wbits w1 48 16, wbits w1 32 16, wbits w1 16 16, wbits w1 0 16, wbits w2 48 16, wbits w2 32 16,
    wbits w2 16 16]

/-- The source fields in the words that `k` sources take. -/
def mixPlaces (k : Nat) : Nat := if k ≤ 1 then 1 else if k ≤ 5 then 5 else 8

theorem decodeMix_eq (w0 w1 w2 : W64) :
    let k := (wbits w0 55 3).toNat + 1
    decodeMix w0 w1 w2 =
      if zeroBits w0 22 10 && (((mixFields w0 w1 w2).take (mixPlaces k)).drop k).all (· = 0) &&
          (k ≤ 5 || zeroBits w2 0 16) then
        some ⟨w0.getLsbD 54, wbits w0 48 6, (mixFields w0 w1 w2).take k, wbits w0 0 22⟩
      else none := rfl

theorem mixWord0_fields : let w := mixWord0 op f
    wbits w 58 6 = op ∧ wbits w 55 3 = BitVec.ofNat 3 (f.sources.length - 1) ∧ w.getLsbD 54 = f.law ∧
      wbits w 48 6 = f.sc ∧ wbits w 32 16 = mixSrc f 0 ∧ wbits w 22 10 = 0 ∧ wbits w 0 22 = f.anchor := by
  simp only [mixWord0, wbits, b1, BitVec.extractLsb'_append_eq_of_le, extractLsb'_append_low, BitVec.getLsbD_append,
    BitVec.extractLsb'_eq_self, Nat.reduceLeDiff, Nat.reduceSub, Nat.reduceLT, reduceIte, -Nat.reduceAdd]
  simp

theorem mixWord1_fields : let w := mixWord1 f
    [wbits w 48 16, wbits w 32 16, wbits w 16 16, wbits w 0 16] = [mixSrc f 1, mixSrc f 2, mixSrc f 3, mixSrc f 4] := by
  simp only [mixWord1, wbits, BitVec.extractLsb'_append_eq_of_le, extractLsb'_append_low, BitVec.extractLsb'_eq_self,
    Nat.reduceLeDiff, Nat.reduceSub, -Nat.reduceAdd]

theorem mixWord2_fields : let w := mixWord2 f
    [wbits w 48 16, wbits w 32 16, wbits w 16 16, wbits w 0 16] = [mixSrc f 5, mixSrc f 6, mixSrc f 7, 0] := by
  simp only [mixWord2, wbits, BitVec.extractLsb'_append_eq_of_le, extractLsb'_append_low, BitVec.extractLsb'_eq_self,
    Nat.reduceLeDiff, Nat.reduceSub, -Nat.reduceAdd]
  rfl

/-- Fields 0 to `n`, behind the last source 0, start with the sources. -/
theorem map_mixSrc {n : Nat} (h : f.sources.length ≤ n) :
    (List.range n).map (mixSrc f) = f.sources ++ List.replicate (n - f.sources.length) 0 := by
  refine List.ext_getElem (by simp; omega) fun i hi _ => ?_
  simp only [List.getElem_map, List.getElem_range, mixSrc, List.getElem_append, List.getElem_replicate]
  split
  case isTrue hlt => exact (List.getElem_eq_getD 0).symm
  case isFalse hge => exact List.getD_eq_default _ _ (by omega)

/-- The words of `f` hold its sources and then zeros, whatever words follow. -/
theorem mixFields_encodeMix (h8 : f.sources.length ≤ 8) :
    let ws := encodeMix op f ++ [u, v]
    ws.getD 0 0 = mixWord0 op f ∧
      (mixFields (ws.getD 0 0) (ws.getD 1 0) (ws.getD 2 0)).take (mixPlaces f.sources.length) =
        (List.range (mixPlaces f.sources.length)).map (mixSrc f) ∧
      (f.sources.length ≤ 5 ∨ zeroBits (ws.getD 2 0) 0 16 = true) := by
  obtain ⟨-, -, -, -, h0, -, -⟩ := mixWord0_fields op (f := f)
  have h1 := mixWord1_fields (f := f)
  have h2 := mixWord2_fields (f := f)
  simp only [List.cons.injEq, and_true] at h1 h2
  obtain ⟨h11, h12, h13, h14⟩ := h1
  obtain ⟨h21, h22, h23, h24⟩ := h2
  rw [encodeMix_eq, mixPlaces]
  split
  case isTrue h => exact ⟨rfl, by simp [mixFields, h0], .inl (by omega)⟩
  case isFalse =>
    split
    case isTrue h => exact ⟨rfl, by simp [mixFields, List.range_succ, h0, h11, h12, h13, h14], .inl h⟩
    case isFalse =>
      exact ⟨rfl, by simp [mixFields, List.range_succ, h0, h11, h12, h13, h14, h21, h22, h23],
        .inr (by simp [zeroBits, h24])⟩

theorem decodeMix_encodeMix (hne : f.sources ≠ []) (h8 : f.sources.length ≤ 8) :
    let ws := encodeMix op f ++ [u, v]
    wbits (ws.getD 0 0) 58 6 = op ∧ decodeMix (ws.getD 0 0) (ws.getD 1 0) (ws.getD 2 0) = some f := by
  obtain ⟨hw0, hfields, hlast⟩ := mixFields_encodeMix op u v h8
  have hpos := List.length_pos_iff.2 hne
  have hplaces : f.sources.length ≤ mixPlaces f.sources.length := by
    unfold mixPlaces
    split
    · omega
    · split <;> omega
  dsimp only at hfields hlast hw0 ⊢
  generalize encodeMix op f ++ [u, v] = ws at *
  rw [decodeMix_eq, hw0]
  obtain ⟨hop, hk, hlaw, hsc, -, hzero, hanchor⟩ := mixWord0_fields op (f := f)
  rw [hw0] at hfields
  generalize mixWord0 op f = w0 at *
  have hlen : (wbits w0 55 3).toNat + 1 = f.sources.length := by
    rw [hk, BitVec.toNat_ofNat]
    omega
  rw [map_mixSrc hplaces] at hfields
  have htake : (mixFields w0 (ws.getD 1 0) (ws.getD 2 0)).take f.sources.length = f.sources := by
    have := congrArg (List.take f.sources.length) hfields
    rwa [List.take_take, Nat.min_eq_left hplaces, List.take_left] at this
  refine ⟨hop, ?_⟩
  rw [hlen, htake, hfields, List.drop_left, hlaw, hsc, hanchor, if_pos]
  simp only [Bool.and_eq_true, Bool.or_eq_true, decide_eq_true_eq]
  exact ⟨⟨decide_eq_true hzero, by simp⟩, hlast⟩

/-- MIX and MIXP by their opcodes. -/
theorem decodeOct_of_mix {w0 w1 w2 : W64} (hdec : decodeMix w0 w1 w2 = some f)
    (hall : f.sources.all mixSrcOk = true) :
    (wbits w0 58 6 = 0x14 → f.sc = 0 → decodeOct w0 w1 w2 = some (.mix f)) ∧
      (wbits w0 58 6 = 0x15 → decodeOct w0 w1 w2 = some (.mixp f)) := by
  constructor
  · intro hop hsc
    simp [decodeOct, hop, hdec, hall, hsc]
  · intro hop
    simp [decodeOct, hop, hdec, hall]

/-- What well-formed sources give. -/
theorem mixOk_iff : mixOk f = true ↔
    f.sources ≠ [] ∧ f.sources.length ≤ 8 ∧ f.sources.all mixSrcOk = true := by
  simp only [mixOk, Bool.and_eq_true, decide_eq_true_eq, and_assoc, Nat.one_le_iff_ne_zero, ne_eq,
    List.length_eq_zero_iff]

/-! ### END, NOP and MARK (R158) -/

theorem encEnd_fields : wbits encEnd 58 6 = 0x30 ∧ decodeControl encEnd = some (0, 0) := by decide

theorem encNop_fields : wbits encNop 58 6 = 0x31 ∧ decodeControl encNop = some (1, 0) := by decide

theorem encMark_fields (t : BitVec 16) : wbits (encMark t) 58 6 = 0x32 ∧ decodeControl (encMark t) = some (2, t) := by
  simp only [decodeControl, encMark, wbits, zeroBits, BitVec.extractLsb'_append_eq_of_le, extractLsb'_append_low,
    BitVec.extractLsb'_eq_self, Nat.reduceLeDiff, Nat.reduceSub, -Nat.reduceAdd]
  exact ⟨rfl, rfl⟩

/-! ### Programs -/

theorem decodeCol_encodeCol (i : ColIns) (h : ∀ f, i = .movcs f → f.smode ≠ 3) :
    let ws := encodeCol i ++ [u, v]
    decodeCol (ws.getD 0 0) (ws.getD 1 0) = some i := by
  cases i
  case endI => simp [encodeCol, decodeCol, encEnd_fields]
  case nop => simp [encodeCol, decodeCol, encNop_fields]
  case mark => simp [encodeCol, decodeCol, encMark_fields]
  all_goals
    simp only [encodeCol, List.cons_append, List.nil_append, List.getD_cons_zero, List.getD_cons_succ, decodeCol,
      wbits, zeroBits, b1, BitVec.extractLsb'_append_eq_of_le, extractLsb'_append_low, BitVec.getLsbD_append,
      BitVec.extractLsb'_eq_self, Nat.reduceLeDiff, Nat.reduceSub, Nat.reduceLT, reduceIte, -Nat.reduceAdd]
  case movcs f => simpa using h f rfl
  all_goals simp

theorem decodeOct_encodeOct (i : OctIns) (hmix : ∀ f, i = .mix f → f.sc = 0 ∧ mixOk f = true)
    (hmixp : ∀ f, i = .mixp f → mixOk f = true) (hgain : ∀ f, i = .gain f → gainOk f.gain.toNat = true) :
    let ws := encodeOct i ++ [u, v]
    decodeOct (ws.getD 0 0) (ws.getD 1 0) (ws.getD 2 0) = some i := by
  cases i
  case endI => simp [encodeOct, decodeOct, encEnd_fields]
  case nop => simp [encodeOct, decodeOct, encNop_fields]
  case mark => simp [encodeOct, decodeOct, encMark_fields]
  case mix f =>
    obtain ⟨hsc, hok⟩ := hmix f rfl
    obtain ⟨hne, h8, hall⟩ := mixOk_iff.1 hok
    obtain ⟨hop, hdec⟩ := decodeMix_encodeMix 0x14 u v hne h8
    have hf : { f with sc := 0 } = f := by rw [← hsc]
    rw [encodeOct, hf]
    exact (decodeOct_of_mix hdec hall).1 hop hsc
  case mixp f =>
    obtain ⟨hne, h8, hall⟩ := mixOk_iff.1 (hmixp f rfl)
    obtain ⟨hop, hdec⟩ := decodeMix_encodeMix 0x15 u v hne h8
    exact (decodeOct_of_mix hdec hall).2 hop
  all_goals
    simp only [encodeOct, List.cons_append, List.nil_append, List.getD_cons_zero, List.getD_cons_succ, decodeOct,
      wbits, zeroBits, b1, BitVec.extractLsb'_append_eq_of_le, extractLsb'_append_low, BitVec.getLsbD_append,
      BitVec.extractLsb'_eq_self, Nat.reduceLeDiff, Nat.reduceSub, Nat.reduceLT, reduceIte, -Nat.reduceAdd]
  case gain f => simpa using hgain f rfl
  all_goals simp

end Sys2Proof.Machine
end

section
/-! OBLIGATION O60. -/

namespace Sys2Proof

open Machine

/-- Settles O60: by the cases of an instruction, each field that the decoder takes is the part of the concatenation that
the encoder put there. -/
theorem programRoundTrip : Obligations.ProgramRoundTrip :=
  ⟨fun i u v h => decodeCol_encodeCol u v i h,
    fun i u v hmix hmixp hgain => decodeOct_encodeOct u v i hmix hmixp hgain⟩

end Sys2Proof
end

section
/-! OBLIGATIONS O15 and O16. A program row that holds a found word tells of it at its next instruction, whatever that is. -/

namespace Sys2Proof

open Machine

/-- A running device whose column destination 0 has an open program row that has found word 5 of memory bank 3
uncorrectable and has not told of it: so `State.beginRow` leaves a row whose run-ahead work read such a word (R107,
R339). -/
def rowWithFound : State :=
  let s := State.reset.onCol 0 fun x => { x with fetch := some { RowCtx.init with
    idle := false, ended := false, checked := false, found := [damageKey 3 5] } }
  { s with sram := { s.sram with damage := [(damageKey 3 5, ⟨true, false⟩)] } }

theorem rowWithFound_open : rowWithFound.up = true ∧ rowWithFound.rowOpen 0 = true ∧ rowWithFound.rd Reg.memCntUe = 0 := by
  decide

/-- The word counts at the next instruction, against a frame that lists no register. -/
theorem not_colCompletes_rowWithFound {k : Instr} {i : ColIns} {P : State → Prop}
    (hexec : exec k rowWithFound = whenUp rowWithFound fun s => s.issueOpen 0 i)
    (hcount : (rowWithFound.issueOpen 0 i).rd Reg.memCntUe = 1) : ¬ ColCompletes k i 0 rowWithFound [] P := by
  rintro ⟨t, ht, hissued⟩
  obtain ⟨hup, hopen, hnone⟩ := rowWithFound_open
  rw [hexec, whenUp_of_up _ hup, Host.Outcome.next.injEq] at ht
  rw [if_pos hopen, ← ht] at hissued
  have hkept := hissued.2.1.reg Reg.memCntUe rfl rfl
  rw [hcount, hnone] at hkept
  exact absurd hkept (by decide)

/-- Refutes O15: its frame of FILC lists no register, but a row that already holds an uncorrectable word that it found
counts that word in MEM_CNT_UE when FILC is issued. -/
theorem not_columnInstructions : ¬ Obligations.ColumnInstructions := by
  intro h
  obtain ⟨-, -, hfilc, -⟩ := h 0 rowWithFound rowWithFound_open.1
  exact not_colCompletes_rowWithFound rfl (by decide) (hfilc ⟨0, 0, 0⟩)

/-- Refutes O16: NOP on a row that already holds an uncorrectable word that it found counts that word in
MEM_CNT_UE. -/
theorem not_controlInstructions : ¬ Obligations.ControlInstructions := by
  intro h
  obtain ⟨-, hnop, -⟩ := (h rowWithFound rowWithFound_open.1).1 0
  exact not_colCompletes_rowWithFound rfl (by decide) hnop

end Sys2Proof
end

section
/-! SUPPORT. What stands at a position of a sparse array after a run of octets is written (R98, R141). -/

namespace Sys2Proof.Sparse

variable {α : Type}

/-- What is listed at a key. -/
def listed (m : Sparse α) (k : Nat) : Option α := (m.find? (·.1 = k)).map (·.2)

theorem listed_cons (q : Nat × α) (r : Sparse α) (j : Nat) :
    listed (q :: r) j = if q.1 = j then some q.2 else listed r j := by
  by_cases h : q.1 = j <;> simp [listed, h]

theorem listed_insert (m : Sparse α) (k : Nat) (v : α) (j : Nat) :
    (insert k v m).listed j = if k = j then some v else m.listed j := by
  induction m with
  | nil => exact listed_cons (k, v) [] j
  | cons q r ih =>
    unfold insert
    split
    case isTrue => exact listed_cons (k, v) (q :: r) j
    case isFalse =>
      split
      case isTrue hk =>
        simp only [listed_cons, ← hk]
        split <;> rfl
      case isFalse hk =>
        simp only [listed_cons, ih]
        by_cases hq : q.1 = j
        · rw [if_pos hq, if_pos hq, if_neg fun e => hk (e.trans hq.symm)]
        · rw [if_neg hq, if_neg hq]

end Sys2Proof.Sparse

namespace Sys2Proof

open Machine

/-- What a frame leaves keeps the SEQ of the execution frame. -/
theorem Frame.octSeq {s t : State} {regs bytes : Nat → Bool} (h : Frame s t regs bytes) : t.octSeq = s.octSeq := by
  rw [State.octSeq, State.octSeq, h.clock]

end Sys2Proof

namespace Sys2Proof.Machine

variable (s : State) {d step : Nat}

theorem octAt_eq (c : FrameCtx) (a : Nat) : c.octAt a = c.out.listed a := rfl

/-- The cell that the octet plane writes for an octet with its CON (R44, R141). -/
def State.octCellOf (s : State) (x : Octet × Bool) : Cell := ⟨x.1, x.2, s.octSeq⟩

theorem putOcts_cons (a : Nat) (x : Octet × Bool) (xs : List (Octet × Bool)) (m : Sparse Cell) :
    s.putOcts d step a (x :: xs) m =
      s.putOcts d step (a + step) xs (if inHalf d a then m.insert a (s.octCellOf x) else m) := rfl

/-- A run is written with the SEQ of the frame alone. -/
theorem putRun_congr {t : State} (h : t.octSeq = s.octSeq) (a : Nat) (xs : List (Octet × Bool)) (c : FrameCtx) :
    t.putRun d a xs c = s.putRun d a xs c := by
  have hput : ∀ (xs : List (Octet × Bool)) (a : Nat) (m : Sparse Cell),
      t.putOcts d 1 a xs m = s.putOcts d 1 a xs m := by
    intro xs
    induction xs with
    | nil => exact fun _ _ => rfl
    | cons x xs ih =>
      intro a m
      rw [putOcts_cons, putOcts_cons, ih, State.octCellOf, State.octCellOf, h]
  rw [State.putRun, State.putRun, hput]

/-- A position that the run does not reach, or that lies outside the engine's half, stays. -/
theorem listed_putOcts_of_miss {p : Nat} : ∀ (xs : List (Octet × Bool)) (a : Nat) (m : Sparse Cell),
    (inHalf d p = true → ∀ k, k < xs.length → p ≠ a + k * step) → (s.putOcts d step a xs m).listed p = m.listed p
  | [], _, _, _ => rfl
  | x :: xs, a, m, h => by
    rw [putOcts_cons, listed_putOcts_of_miss xs]
    · split
      case isTrue hin =>
        rw [Sparse.listed_insert, if_neg]
        rintro rfl
        exact h hin 0 (by simp) (by simp)
      case isFalse => rfl
    · intro hin k hk
      have := h hin (k + 1) (by simpa using hk)
      rwa [Nat.add_mul, Nat.one_mul, Nat.add_comm (k * step), ← Nat.add_assoc] at this

/-- A position of the run in the engine's half holds its octet. -/
theorem listed_putOcts_of_hit (hstep : 0 < step) : ∀ (xs : List (Octet × Bool)) (a : Nat) (m : Sparse Cell) (k : Nat)
    (hk : k < xs.length), inHalf d (a + k * step) = true →
    (s.putOcts d step a xs m).listed (a + k * step) = some (s.octCellOf xs[k])
  | x :: xs, a, m, 0, _, hin => by
    rw [Nat.zero_mul, Nat.add_zero] at hin ⊢
    rw [putOcts_cons, listed_putOcts_of_miss, if_pos hin, Sparse.listed_insert, if_pos rfl]
    · rfl
    · intro _ k _
      have := Nat.le_add_right (a + step) (k * step)
      omega
  | x :: xs, a, m, k + 1, hk, hin => by
    have hplace : a + (k + 1) * step = a + step + k * step := by rw [Nat.add_mul, Nat.one_mul]; omega
    rw [hplace] at hin ⊢
    exact listed_putOcts_of_hit hstep xs (a + step) _ k (by simpa using hk) hin

/-- A run of octets next to each other. -/
theorem octAt_putRun (a n : Nat) (g : Nat → Octet × Bool) (c : FrameCtx) (p : Nat) :
    (s.putRun d a ((List.range (n + 1)).map g) c).octAt p =
      if a ≤ p ∧ p ≤ a + n ∧ inHalf d p = true then some (s.octCellOf (g (p - a))) else c.octAt p := by
  simp only [octAt_eq, State.putRun]
  split
  case isTrue h =>
    obtain ⟨hlo, hhi, hin⟩ := h
    have hplace : p = a + (p - a) * 1 := by omega
    rw [hplace] at hin
    have hk : p - a < ((List.range (n + 1)).map g).length := by simp; omega
    have hhit := listed_putOcts_of_hit s Nat.one_pos _ a c.out (p - a) hk hin
    rwa [← hplace, List.getElem_map, List.getElem_range] at hhit
  case isFalse h =>
    refine listed_putOcts_of_miss s _ a c.out fun hin k hk hp => ?_
    simp only [List.length_map, List.length_range] at hk
    exact h ⟨by omega, by omega, hin⟩

/-- One octet. -/
theorem octAt_putRun_one (a : Nat) (x : Octet × Bool) (c : FrameCtx) (p : Nat) :
    (s.putRun d a [x] c).octAt p = if p = a ∧ inHalf d p = true then some (s.octCellOf x) else c.octAt p := by
  refine (octAt_putRun s a 0 (fun _ => x) c p).trans (if_congr ?_ rfl rfl)
  rw [← and_assoc]
  exact and_congr_left' (by omega)

end Sys2Proof.Machine
end

section
/-! SUPPORT. An instruction issued in an execution frame: what it is charged, what a suppressed one writes, and what is
left to show of each instruction (R110, R111, R116, R120, R324). -/

namespace Sys2Proof.Machine

variable (s : State) {d : Nat} {i : OctIns} {c : FrameCtx}

/-- The state with the frame under way of engine `d` replaced. -/
def State.withFrame (s : State) (d : Nat) (c : FrameCtx) : State := s.onOct d fun x => { x with run := some c }

@[simp] theorem frameOf_withFrame : (s.withFrame d c).frameOf d = c := by
  rw [State.withFrame, State.frameOf, octEngine_onOct_self, Option.getD_some]

@[simp] theorem path_withFrame (p : Nat) : (s.withFrame d c).path p = s.path p := rfl

theorem run_withFrame : ((s.withFrame d c).octEngine d).run = some c := by
  rw [State.withFrame, octEngine_onOct_self]

theorem issueFrame_of_issues (h : s.issues d i = true) :
    s.issueFrame d i = (s.issueOct d i (s.frameOf d)).1.withFrame d (s.issueOct d i (s.frameOf d)).2 := by
  obtain ⟨hopen, hnow⟩ := (Bool.and_eq_true _ _).mp h
  obtain ⟨c, hr, hc⟩ := (Option.any_eq_true _ _).1 hopen
  have hframe : s.frameOf d = c := by rw [State.frameOf, hr, Option.getD_some]
  rw [hframe] at hnow ⊢
  simp only [Bool.and_eq_true, Bool.not_eq_true'] at hc
  obtain ⟨⟨hended, hchecked⟩, hlost⟩ := hc
  unfold State.issueFrame
  rw [hr]
  dsimp only
  rw [if_neg (by simp [hended, hchecked, hlost, hnow])]
  rfl

theorem issueFrame_of_not_issues (h : s.issues d i = false) : s.issueFrame d i = s := by
  unfold State.issueFrame
  cases hr : (s.octEngine d).run with
  | none => rfl
  | some c =>
    refine if_pos ?_
    rw [State.issues, State.frameOpen, State.frameOf, hr, Option.any_some, Option.getD_some] at h
    revert h
    cases c.ended <;> cases c.checked <;> cases c.lost <;> simp

/-! ### The charge (R115, R116, R120) -/

/-- What an instruction is charged: its words, its cost in its row, its digest. -/
structure Charged (s : State) (i : OctIns) (c r : FrameCtx) : Prop where
  pc     : r.pc = c.pc + octWords i
  row    : r.row = octRow i c
  cycles : r.cycles = (if octRow i c = c.row then c.cycles else 0) + octCost i
  digest : r.digest = foldOct (s.bankT1 c.bank) (if octRow i c = c.row then c.cycles else 0) i c.digest
  ended  : r.ended = (c.ended || i = .endI)

theorem charged_chargeOct : Charged s i c (s.chargeOct i c) := by
  unfold State.chargeOct FrameCtx.toRow
  split
  case isTrue h => exact ⟨rfl, h.symm, by rw [if_pos h], by rw [if_pos h], rfl⟩
  case isFalse h => exact ⟨rfl, rfl, by rw [if_neg h], by rw [if_neg h], rfl⟩

/-- What an instruction is charged does not touch what the frame has written. -/
theorem chargeOct_keeps : (s.chargeOct i c).out = c.out ∧ (s.chargeOct i c).scratch = c.scratch ∧
    (s.chargeOct i c).sels = c.sels := by
  unfold State.chargeOct FrameCtx.toRow
  split <;> exact ⟨rfl, rfl, rfl⟩

/-- The effect of an instruction leaves its charge. -/
theorem Charged.doOct {c₀ : FrameCtx} (h : Charged s i c₀ c) : Charged s i c₀ (s.doOct d i c).2 := by
  obtain ⟨hpc, hrow, hcycles, hdigest, hended⟩ := h
  cases i with
  | tone f =>
    simp only [State.doOct, State.doTone]
    split <;> exact ⟨hpc, hrow, hcycles, hdigest, hended⟩
  | prbs check f => cases check <;> exact ⟨hpc, hrow, hcycles, hdigest, hended⟩
  | _ => exact ⟨hpc, hrow, hcycles, hdigest, hended⟩

theorem octIssued_of_charged {t : State} {r : FrameCtx} (hopen : s.frameOpen d = true)
    (h : Charged s i (s.frameOf d) r) (ht : EngineFrame true d s t) : OctIssued s (t.withFrame d r) d i := by
  obtain ⟨c, hr, hc⟩ := (Option.any_eq_true _ _).1 hopen
  have hended : (s.frameOf d).ended = false := by
    rw [State.frameOf, hr, Option.getD_some]
    simp only [Bool.and_eq_true, Bool.not_eq_true'] at hc
    exact hc.1.1
  have hframe := ht.trans (engineFrame_onOct t fun x => { x with run := some r })
  have hrun : ((t.withFrame d r).frameOf d) = r := frameOf_withFrame t
  refine ⟨by rw [run_withFrame, Option.isSome_some], ?_, ?_, ?_, ?_, ?_, fun e he => hframe.octs e.val (.inr he)⟩
  all_goals rw [hrun]
  case refine_1 => exact h.pc
  case refine_2 => exact h.row
  case refine_3 => exact h.cycles
  case refine_4 => exact h.digest
  case refine_5 => simpa [hended] using h.ended

/-! ### A suppressed instruction (R324) -/

theorem listed_fillFold (as : List Nat) (m : Sparse Cell) (p : Nat) :
    (as.foldl (fun m a => s.putOcts d 1 a [s.octFillAt 0 a] m) m).listed p =
      if p ∈ as ∧ inHalf d p = true then some (s.octCellOf (s.octFillAt 0 p)) else m.listed p := by
  induction as generalizing m with
  | nil => simp
  | cons a as ih =>
    have hone := octAt_putRun_one s (d := d) a (s.octFillAt 0 a) { FrameCtx.init with out := m } p
    simp only [octAt_eq, State.putRun] at hone
    rw [List.foldl_cons, ih, hone]
    by_cases hp : p = a
    · subst hp
      by_cases hin : inHalf d p = true <;> simp [hin]
    · simp [hp]

theorem shedFill_issueOct (h : s.suppressed i = true) :
    ShedFill s ((s.issueOct d i (s.frameOf d)).1.withFrame d (s.issueOct d i (s.frameOf d)).2) d i := by
  intro a
  obtain ⟨hout, -, -⟩ := chargeOct_keeps s (i := i) (c := s.frameOf d)
  rw [frameOf_withFrame, State.issueOct, if_pos h, octAt_eq, octAt_eq]
  dsimp only
  rw [listed_fillFold, hout]
  rfl

end Sys2Proof.Machine

namespace Sys2Proof

open Machine

/-- What is left to show of an instruction: the registers that its effect reaches, and what it does where it is not
suppressed, on a frame `c` that shows what the frame under way shows. -/
theorem octCompletes {k : Instr} {i : OctIns} {d : Nat} {s : State} {regs : List Nat} {P : State → Prop}
    (hup : s.up = true) (hexec : exec k s = whenUp s fun s => s.issueFrame d i)
    (hframe : ∀ c, Frame s (s.doOct d i c).1 (theseRegs regs) noBytes)
    (heffect : ∀ c : FrameCtx, c.out = (s.frameOf d).out → c.scratch = (s.frameOf d).scratch →
      c.sels = (s.frameOf d).sels → P ((s.doOct d i c).1.withFrame d (s.doOct d i c).2)) :
    OctCompletes k i d s regs P := by
  refine completes_of_up hup hexec ?_
  cases h : s.issues d i with
  | false =>
    rw [if_neg Bool.false_ne_true]
    exact issueFrame_of_not_issues s h
  | true =>
    have hopen : s.frameOpen d = true := ((Bool.and_eq_true _ _).mp h).1
    have hcharged := charged_chargeOct s (i := i) (c := s.frameOf d)
    obtain ⟨hout, hscratch, hsels⟩ := chargeOct_keeps s (i := i) (c := s.frameOf d)
    rw [if_pos rfl, issueFrame_of_issues s h]
    cases hs : s.suppressed i with
    | true =>
      have heq : s.issueOct d i (s.frameOf d) = (s, (s.issueOct d i (s.frameOf d)).2) := by
        rw [State.issueOct, if_pos hs]
      have hcharge : Charged s i (s.frameOf d) (s.issueOct d i (s.frameOf d)).2 := by
        rw [State.issueOct, if_pos hs]
        exact ⟨hcharged.pc, hcharged.row, hcharged.cycles, hcharged.digest, hcharged.ended⟩
      rw [if_pos rfl]
      refine ⟨?_, ?_, shedFill_issueOct s hs⟩
      · rw [heq]
        exact octIssued_of_charged s hopen hcharge (.refl s)
      · rw [heq]
        exact .of_hidden ⟨rfl, rfl, rfl, rfl, rfl⟩ rfl
    | false =>
      have heq : s.issueOct d i (s.frameOf d) = s.doOct d i (s.chargeOct i (s.frameOf d)) := by
        rw [State.issueOct, if_neg (by simp [hs])]
      rw [heq, if_neg Bool.false_ne_true]
      exact ⟨octIssued_of_charged s hopen hcharged.doOct (engineFrame_doOct s),
        (hframe _).trans (.of_hidden ⟨rfl, rfl, rfl, rfl, rfl⟩ rfl), heffect _ hout hscratch hsels⟩

end Sys2Proof
end

section
/-! SUPPORT. What the reads and the selections of octet instructions reach (R131, R192, R202, R339). -/

namespace Sys2Proof.Machine

variable (s : State) {d : Nat}

theorem frame_foundOct (as : List Nat) : Frame s (s.foundOct as) (theseRegs ueRegs) noBytes :=
  (recorded_foundOct as s).frame

theorem readRun_one (a n : Nat) : s.readRun a n 1 = (List.range n).map fun k => s.readOct (a + k) := by
  simp only [State.readRun, Nat.mul_one]

/-! ### Selectors (R131, R202) -/

/-- What the selector of path `p` is read by stays. -/
structure SelectorKept (p : Nat) (s t : State) : Prop where
  entry   : (t.path p).entry = (s.path p).entry
  window  : (t.path p).sel.window = (s.path p).sel.window
  winCon  : (t.path p).sel.winCon = (s.path p).sel.winCon
  mem     : t.mem = s.mem
  heldOct : t.heldOct = s.heldOct

theorem SelectorKept.trans {p : Nat} {t u : State} (h : SelectorKept p s t) (k : SelectorKept p t u) :
    SelectorKept p s u :=
  ⟨k.entry.trans h.entry, k.window.trans h.window, k.winCon.trans h.winCon, k.mem.trans h.mem,
    k.heldOct.trans h.heldOct⟩

theorem SelectorKept.of_recorded {p : Nat} {t : State} {l : List Nat} (h : Recorded s t l) : SelectorKept p s t := by
  have hpath : t.path p = s.path p := (congrArg (State.path · p) h.bare :)
  exact ⟨by rw [hpath], by rw [hpath], by rw [hpath], (congrArg State.mem h.bare :), (congrArg State.heldOct h.bare :)⟩

theorem selectorKept_notePathBad (octet : Bool) (p : Nat) : SelectorKept p s (s.notePathBad octet p) := by
  unfold State.notePathBad
  split
  · exact ⟨rfl, rfl, rfl, rfl, rfl⟩
  · refine (SelectorKept.of_recorded s (recorded_raise s (Ev.selPathBad octet) p 0 0 0 0 [])).trans s ?_
    exact ⟨by rw [path_onPath_self], by rw [path_onPath_self], by rw [path_onPath_self], rfl, rfl⟩

theorem frame_notePathBad (octet : Bool) (p : Nat) (regs : Nat → Bool) :
    Frame s (s.notePathBad octet p) regs noBytes :=
  .ite (fun _ => .refl s _ _) fun _ => (frame_raise s _ _ _ _ _ _).trans (.of_hidden ⟨rfl, rfl, rfl, rfl, rfl⟩ rfl)

theorem frame_noteWindow (p : Nat) (con : Bool) (regs : Nat → Bool) : Frame s (s.noteWindow p con) regs noBytes :=
  .ite (fun _ => .of_hidden ⟨rfl, rfl, rfl, rfl, rfl⟩ rfl) fun _ => .refl s _ _

theorem winCon_noteWindow (p : Nat) (con : Bool) : ((s.noteWindow p con).path p).sel.winCon =
    ((s.path p).sel.winCon || (decide (0 < (s.path p).sel.window) && con)) := by
  unfold State.noteWindow
  split
  case isTrue h =>
    simp only [Bool.and_eq_true, decide_eq_true_eq] at h
    rw [path_onPath_self]
    simp [h]
  case isFalse h =>
    simp only [Bool.and_eq_true, decide_eq_true_eq] at h
    cases con <;> simp_all

/-- The octet that a selection writes: within an open window one with CON gives way to the octet held (R202). -/
theorem holdOct_eq (on : Bool) (held : Sparse Octet) (a : Nat) (x : Octet × Bool) :
    holdOct on held a x =
      let h := if on then held.listed a else none
      if x.2 ∧ h.isSome then (h.getD 0, false) else x := by
  unfold holdOct
  cases on
  case false => simp
  case true =>
    cases hx : x.2
    case false => simp
    case true =>
      unfold Sparse.listed
      cases held.find? (·.1 = a) <;> simp

/-- Octet `k` of the side that a SELO commits. -/
def State.seloPick (s : State) (f : SeloF) (k : Nat) : Octet × Bool :=
  if s.committedSide f.path.toNat then s.readOct (f.pSrc.toNat + k) else s.readOct (f.wSrc.toNat + k)

/-- The state in which a SELO commits its side: what it read is told. -/
def State.seloRead (s : State) (f : SeloF) : State :=
  (s.notePathBad true f.path.toNat).foundOct
    (runAddrs f.wSrc.toNat (f.lenM1.toNat + 1) 1 ++ runAddrs f.pSrc.toNat (f.lenM1.toNat + 1) 1)

theorem selectorKept_seloRead (f : SeloF) : SelectorKept f.path.toNat s (s.seloRead f) :=
  (selectorKept_notePathBad s true _).trans s (.of_recorded _ (recorded_foundOct _ _))

theorem frame_seloRead (f : SeloF) : Frame s (s.seloRead f) (theseRegs ueRegs) noBytes :=
  (frame_notePathBad s _ _ _).trans (frame_foundOct _ _)

theorem SelectorKept.committedSide {p : Nat} {t : State} (h : SelectorKept p s t) :
    t.committedSide p = s.committedSide p ∧ t.holds p = s.holds p := by
  have hword : ∀ i, t.pathWord p i = s.pathWord p i := fun i => by
    simp only [State.pathWord, State.memWord, State.byte, h.mem]
  constructor
  · rw [State.committedSide, State.committedSide, State.sideOf, State.sideOf, h.entry, hword]
  · rw [State.holds, State.holds, h.window, hword]

/-- What a SELO does, with the side that it commits named. -/
theorem doSelo_shows (f : SeloF) (c : FrameCtx) :
    let n := f.lenM1.toNat + 1
    (s.doSelo d f c).1 = (s.seloRead f).noteWindow f.path.toNat ((List.range n).any fun k => (s.seloPick f k).2) ∧
      (s.doSelo d f c).2.out = (s.putRun d f.dst.toNat ((List.range n).map fun k =>
        holdOct (s.holds f.path.toNat) s.heldOct (f.dst.toNat + k) (s.seloPick f k)) c).out ∧
      (s.doSelo d f c).2.sels =
        addSel f.path ((List.range n).filter fun k => (s.readOct (f.wSrc.toNat + k)).2).length n
          ((List.range n).filter fun k => (s.readOct (f.pSrc.toNat + k)).2).length c.sels := by
  intro n
  have hkept := selectorKept_seloRead s f
  obtain ⟨hside, hholds⟩ := hkept.committedSide
  have hpick : (if (s.seloRead f).committedSide f.path.toNat then s.readRun f.pSrc.toNat n 1
      else s.readRun f.wSrc.toNat n 1) = (List.range n).map (s.seloPick f) := by
    rw [hside, readRun_one, readRun_one]
    unfold State.seloPick
    split <;> rfl
  have hsels : ∀ a, ((s.readRun a n 1).filter (·.2)).length =
      ((List.range n).filter fun k => (s.readOct (a + k)).2).length := fun a => by
    rw [readRun_one, List.filter_map, List.length_map]
    rfl
  have hstate : (s.doSelo d f c).1 =
      (s.seloRead f).noteWindow f.path.toNat ((List.range n).any fun k => (s.seloPick f k).2) := by
    change (s.seloRead f).noteWindow _ (((if (s.seloRead f).committedSide f.path.toNat then
      s.readRun f.pSrc.toNat n 1 else s.readRun f.wSrc.toNat n 1).take n).any (·.2)) = _
    rw [hpick, List.take_of_length_le (by simp), List.any_map]
    rfl
  have hseq : (s.doSelo d f c).1.octSeq = s.octSeq := by
    rw [hstate]
    exact ((frame_seloRead s f).trans (frame_noteWindow _ f.path.toNat _ _)).octSeq
  refine ⟨hstate, ?out, ?sels⟩
  case out =>
    change ((s.doSelo d f c).1.putRun d _ ((List.range n).map fun k => holdOct ((s.seloRead f).holds f.path.toNat)
      (s.seloRead f).heldOct (f.dst.toNat + k) ((if (s.seloRead f).committedSide f.path.toNat then s.readRun f.pSrc.toNat n 1
        else s.readRun f.wSrc.toNat n 1).getD k (0xFF, true))) c).out = _
    rw [hpick, hholds, hkept.heldOct, putRun_congr s hseq]
    congr 2
    refine List.map_congr_left fun k hk => ?_
    rw [List.getD_eq_getElem _ _ (by simpa using hk), List.getElem_map, List.getElem_range]
  case sels =>
    rw [← hsels, ← hsels]
    rfl

end Sys2Proof.Machine
end

section
/-! OBLIGATION O17. -/

namespace Sys2Proof

open Machine

/-- Settles O17: the rule `octCompletes` leaves the run that each instruction puts, and SELO's selection of each octet
to show. -/
theorem octetCopies : Obligations.OctetCopies := by
  intro d s hup c at' ue cell
  refine ⟨fun f => octCompletes hup rfl (fun _ => ?movoFrame) ?movo,
    fun f => octCompletes hup rfl (fun _ => ?movosFrame) ?movos,
    fun f => octCompletes hup rfl (fun _ => .refl s _ _) ?filo,
    fun f => octCompletes hup rfl ?seloFrame ?selo⟩
  case movoFrame => exact frame_foundOct s _
  case movosFrame => exact frame_foundOct s _
  case movo =>
    intro c hout _ _ a
    simp only [at', frameOf_withFrame, State.doOct, State.doMovo, readRun_one, List.map_map]
    rw [octAt_putRun, octAt_eq, octAt_eq, hout]
    rfl
  case movos =>
    intro c hout _ _
    simp only [at', frameOf_withFrame, State.doOct, State.doMovos, octAt_eq]
    have hlen : (s.readRun f.src.toNat (f.countM1.toNat + 1) (f.sstrideM1.toNat + 1)).length = f.countM1.toNat + 1 := by
      simp [State.readRun]
    constructor
    · intro k hk hin
      refine (listed_putOcts_of_hit s (Nat.succ_pos _) _ _ c.out k (by omega) hin).trans ?_
      simp only [State.readRun, List.getElem_map, List.getElem_range]
      rfl
    · intro a ha
      rw [listed_putOcts_of_miss, hout]
      rintro hin k hk rfl
      rw [hlen] at hk
      have hmul := Nat.mul_le_mul_right (f.dstrideM1.toNat + 1) (Nat.le_of_lt_succ hk)
      rcases ha with h | h | h | h
      · exact absurd (hin.symm.trans h) nofun
      · omega
      · omega
      · simp at h
  case filo =>
    intro c hout _ _ a
    simp only [at', frameOf_withFrame, State.doOct, State.doFilo, State.fillRun]
    rw [octAt_putRun, octAt_eq, octAt_eq, hout]
    refine if_ctx_congr .rfl (fun h => ?_) fun _ => rfl
    rw [Nat.add_sub_cancel' h.1]
    rfl
  case seloFrame =>
    intro c
    exact ((doSelo_shows s f c).1 ▸ (frame_seloRead s f).trans (frame_noteWindow _ _ _ _) :)
  case selo =>
    intro c hout _ hsels
    have hkept := selectorKept_seloRead s f
    obtain ⟨hstate, hwritten, hcounted⟩ := doSelo_shows s (d := d.val) f c
    have hwinCon := congrArg (fun t : State => (t.path f.path.toNat).sel.winCon) hstate
    simp only [winCon_noteWindow, hkept.window, hkept.winCon] at hwinCon
    simp only [at', frameOf_withFrame, path_withFrame, State.doOct]
    refine ⟨fun a => ?_, hwinCon, hcounted.trans (by rw [hsels])⟩
    rw [octAt_eq, hwritten, ← octAt_eq, octAt_putRun, octAt_eq, hout]
    refine if_ctx_congr .rfl (fun h => ?_) fun _ => rfl
    rw [holdOct_eq, Nat.add_sub_cancel' h.1]
    rfl

end Sys2Proof
end

section
/-! SUPPORT. The sum of MIX and MIXP and what they and GAIN count (R149-R152, R163). -/

namespace Sys2Proof.Machine

variable (s : State) {d : Nat}

/-- Adds a live source to a sum, limited by sat18; whether sat18 has limited one so far (R151, R163). -/
def addLive (value : BitVec 16 → Int × Bool) (r : Int × Bool) (x : BitVec 16) : Int × Bool :=
  let v := r.1 + applyGain (x.extractLsb' 0 8).toNat (value x).1
  (sat18 v, r.2 || decide (sat18 v ≠ v))

/-- The sum of R151 runs over the live sources and counts them. -/
theorem mixSum_eq (law : Bool) (anchor : Nat) (c : FrameCtx) :
    ∀ (xs : List (BitVec 16)) (acc : Int) (n : Nat) (clip : Bool),
    let value := s.mixValue law anchor c
    let live := xs.filter fun x => !(value x).2
    let sum := live.foldl (addLive value) (acc, clip)
    s.mixSum law anchor c xs (acc, n, clip) = (sum.1, n + live.length, sum.2)
  | [], _, _, _ => rfl
  | x :: xs, acc, n, clip => by
    have ih := mixSum_eq law anchor c xs
    simp only at ih ⊢
    unfold State.mixSum
    cases hx : (s.mixValue law anchor c x).2 with
    | true => simp [hx, ih]
    | false =>
      simp only [hx, Bool.false_eq_true, if_false, ih, Bool.not_false, List.filter_cons_of_pos, List.foldl_cons,
        List.length_cons]
      rw [Nat.add_assoc, Nat.add_comm 1]
      rfl

/-- A source of MIX or MIXP, on a frame with the same scratch words. -/
theorem mixValue_eq (law : Bool) (anchor : Nat) (c : FrameCtx) (x : BitVec 16) :
    s.mixValue law anchor c x =
      if x.getLsbD 15 then c.scratch.get (0, true) (x.extractLsb' 8 6).toNat
      else
        let a := (anchor : Int) + (x.extractLsb' 8 7).toInt
        if a < 0 then (0, true) else (expand law (s.readOct a.toNat).1, (s.readOct a.toNat).2) := by
  unfold State.mixValue mixSource
  cases x.getLsbD 15 <;> rfl

/-- Registers that an instruction that may clip reaches. -/
def clipRegs (d : Nat) : List Nat := [Reg.memUeAddr, Reg.memCntUe, engClip d]

/-- Reads, then an execution that may have clipped (R163, R339). -/
theorem clip_shows (hd : d < 16) (as : List Nat) (clip : Bool) :
    Frame s ((s.foundOct as).noteClip d clip) (theseRegs (clipRegs d)) noBytes ∧
      ((s.foundOct as).noteClip d clip).rd (engClip d) = s.rd (engClip d) + if clip then 1 else 0 := by
  have hfound := recorded_foundOct as s
  have hclip : engClip d ∉ ueRegs := by
    have hrange := (engReg_range (o := true) (d := d) (x := 0x3C) (by omega) (by decide)).2
    simp only [ueRegs, engClip, Reg.memUeAddr, Reg.memCntUe, List.mem_cons, List.not_mem_nil, or_false]
    omega
  have hkept : (s.foundOct as).rd (engClip d) = s.rd (engClip d) :=
    hfound.rd hclip (eventReg_engReg (by omega) (by decide))
  refine ⟨(hfound.mono (by simp [ueRegs, clipRegs])).frame.trans
    (.ite (fun _ => frame_count _ _ _ (.inl (by simp [theseRegs, clipRegs]))) fun _ => .refl _ _ _), ?_⟩
  cases clip
  · exact hkept.trans (BitVec.add_zero _).symm
  · exact (rd_count_self _ _ 1).trans (congrArg (· + 1) hkept)

end Sys2Proof.Machine
end

section
/-! OBLIGATION O18. -/

namespace Sys2Proof

open Machine

/-- Settles O18: the sum of the live sources is a fold of `addLive`, whose flag says whether sat18 limited. -/
theorem octetArithmetic : Obligations.OctetArithmetic := by
  intro d s hup c at' regs value live sum clips
  have hvalue : ∀ (f : MixF) (c' : FrameCtx), c'.scratch = c.scratch →
      s.mixValue f.law f.anchor.toNat c' = value f := fun f c' hc => by
    funext x
    rw [mixValue_eq, hc]
  have hsum : ∀ (f : MixF) (c' : FrameCtx), c'.scratch = c.scratch →
      s.mixSum f.law f.anchor.toNat c' f.sources (0, 0, false) = ((sum f).1, (live f).length, (sum f).2) := fun f c' hc => by
    rw [mixSum_eq, hvalue f c' hc, Nat.zero_add]
    rfl
  have hempty : ∀ f, decide ((live f).length = 0) = (live f).isEmpty := fun f => by
    cases live f <;> rfl
  refine ⟨fun f => octCompletes hup rfl (fun _ => (clip_shows s d.isLt _ _).1) ?mix,
    fun f => octCompletes hup rfl (fun _ => (clip_shows s d.isLt _ _).1) ?mixp,
    fun f => octCompletes hup rfl (fun _ => (clip_shows s d.isLt _ _).1) ?gain⟩
  case mix =>
    intro c' hout hscratch _
    simp only [at', clips, frameOf_withFrame, State.doOct, State.doMix, hsum f c' hscratch]
    refine ⟨fun a => ?_, hscratch, (clip_shows s d.isLt _ _).2⟩
    rw [putRun_congr s (clip_shows s d.isLt _ _).1.octSeq, octAt_putRun_one, octAt_eq, octAt_eq, hout, hempty]
    dsimp only [State.octCellOf]
  case mixp =>
    intro c' hout hscratch _
    simp only [clips, frameOf_withFrame, State.doOct, State.doMixp, hsum f c' hscratch]
    refine ⟨fun k => ?_, hout, (clip_shows s d.isLt _ _).2⟩
    rw [Sparse.get_insert, hscratch, hempty]
    exact if_congr eq_comm rfl rfl
  case gain =>
    intro c' hout _ _ lin
    simp only [at', clips, frameOf_withFrame, State.doOct, State.doGain, readRun_one, List.map_map]
    refine ⟨fun a => ?_, ?_⟩
    · rw [putRun_congr s (clip_shows s d.isLt _ _).1.octSeq, octAt_putRun, octAt_eq, octAt_eq, hout]
      dsimp only [State.octCellOf, Function.comp_apply, gainValue]
    · refine (clip_shows s d.isLt _ _).2.trans ?_
      rw [List.any_map]
      rfl

end Sys2Proof
end

section
/-! SUPPORT. A word that is found uncorrectable stays so, and a read of octets that tells of it reads as before (R141,
R339). -/

namespace Sys2Proof

theorem Noted.sram {s t : Machine.State} (h : Noted s t) : t.sram = s.sram := by rw [h.rest]

end Sys2Proof

namespace Sys2Proof.Machine

variable (s : State)

theorem noted_sayUe (bank word : Nat) : Noted s (s.sayUe bank word) := by
  unfold State.sayUe State.report
  exact ((noted_wr ..).trans (noted_wr ..)).trans (((noted_raise ..).trans (noted_wr ..)).trans (noted_fbit ..))

theorem ueKey_eq (k : Nat) : s.ueKey k = (s.sram.damage.listed k).any (·.double) := by
  unfold State.ueKey Sparse.listed
  cases (s.sram.damage.find? (·.1 = k)).map (·.2) <;> rfl

theorem ueKey_foundUe (bank word k : Nat) : (s.foundUe bank word).ueKey k = s.ueKey k := by
  unfold State.foundUe
  split
  case h_1 d hfind =>
    split
    case isTrue h =>
      have hlisted : s.sram.damage.listed (damageKey bank word) = some d := by rw [Sparse.listed, hfind]; rfl
      rw [ueKey_eq, ueKey_eq, (noted_sayUe ..).sram, Sparse.listed_insert]
      split
      case isTrue hk =>
        rw [← hk, hlisted]
        exact ((Bool.and_eq_true _ _).mp h).1.symm
      case isFalse => rfl
    case isFalse => rfl
  case h_2 => rfl

theorem ueKey_foundOct : ∀ (as : List Nat) (s : State) (k : Nat), (s.foundOct as).ueKey k = s.ueKey k
  | [], _, _ => rfl
  | _ :: as, _, k => (ueKey_foundOct as _ k).trans (ueKey_foundUe _ _ _ k)

theorem looped_foundOct (as : List Nat) : (s.foundOct as).looped = s.looped := by
  have hreg : (s.foundOct as).rd Reg.fabLoop = s.rd Reg.fabLoop := (recorded_foundOct as s).rd (by decide) rfl
  funext v
  rw [State.looped, State.looped, State.fget, State.fget, hreg]

theorem cond_foundOct (as : List Nat) : (s.foundOct as).cond = s.cond := by
  have hbare := (recorded_foundOct as s).bare
  have hpath : (s.foundOct as).path = s.path := (congrArg State.path hbare :)
  have hword : (s.foundOct as).pathWord = s.pathWord := (congrArg State.pathWord hbare :)
  funext p
  simp only [State.cond, State.entryBad, State.ueAt, ueKey_foundOct, hpath, hword]

theorem octetCond_foundOct (as : List Nat) (a : Nat) : (s.foundOct as).octetCond a = s.octetCond a := by
  have hgeo : SameGeo s (s.foundOct as) := .of_recorded (o := true) (d := 0) (xs := [])
    ((recorded_foundOct as s).mono (ueRegs_subset [])) (by decide) (by decide)
  have hlist : (s.foundOct as).pathList = s.pathList := (congrArg State.pathList hgeo.bare :)
  unfold State.octetCond
  rw [hlist, cond_foundOct]
  congr 1
  funext q
  split
  · rw [State.owns, State.owns, hgeo.grains (ofWords_lane_lt _ _ _)]
  · rfl

theorem readOct_foundOct (as : List Nat) (a : Nat) : (s.foundOct as).readOct a = s.readOct a := by
  have hbare := (recorded_foundOct as s).bare
  have hclock : (s.foundOct as).clock = s.clock := (congrArg State.clock hbare :)
  have hcaptures : (s.foundOct as).captures = s.captures := (congrArg State.captures hbare :)
  have hfab : (s.foundOct as).fab = s.fab := (congrArg State.fab hbare :)
  have hbyte : (s.foundOct as).byte = s.byte := (congrArg State.byte hbare :)
  unfold State.readOct State.ueAt
  rw [hclock, hcaptures, hfab, hbyte, looped_foundOct, octetCond_foundOct]
  simp only [ueKey_foundOct]

theorem casiOctet_foundOct (as : List Nat) (f : CasiF) : (s.foundOct as).casiOctet f = s.casiOctet f := by
  have hbare := (recorded_foundOct as s).bare
  have hterm : (s.foundOct as).term = s.term := (congrArg State.term hbare :)
  have hsig : (s.foundOct as).termSig = s.termSig := (congrArg State.termSig hbare :)
  have ht1 : (s.foundOct as).termT1 = s.termT1 := (congrArg State.termT1 hbare :)
  have hword : (s.foundOct as).termW = s.termW := (congrArg State.termW hbare :)
  have hfill : (s.foundOct as).octFillAt = s.octFillAt := (congrArg State.octFillAt hbare :)
  simp only [State.casiOctet, readOct_foundOct, hterm, hsig, ht1, hword, hfill]

end Sys2Proof.Machine
end

section
/-! OBLIGATION O20. -/

namespace Sys2Proof.Machine

variable (s : State) {d : Nat}

/-- Of the octets of a T1 frame `m` the signalling bit that it carries replaces bit 0 (R157). -/
theorem sigBit_eq (esf : Bool) (m : Nat) (x : Octet) :
    sigBit esf m x =
      (if m = 5 then some 3 else if m = 11 then some 2 else if esf ∧ m = 17 then some 1
        else if esf ∧ m = 23 then some 0 else none).map x.getLsbD := by
  unfold sigBit
  simp only [Bool.and_eq_true, decide_eq_true_eq]
  split
  · rfl
  · split
    · rfl
    · split
      · rfl
      · split <;> rfl

/-- The octet that CASX writes, with its CON (R156, R169). -/
theorem casxOctet_eq (f : CasxF) :
    let n := f.term.toNat
    let held := (s.term n).casNow.get 0 f.chan.toNat
    let fails := decide (held < 16) || s.termFlag n stTermFail
    s.casxOctet f =
      if s.termSig n = false then s.octFillAt 1 f.dst.toNat
      else if s.termT1 n = false then (BitVec.ofNat 8 (held % 16), fails || s.termFlag n stCasLoss)
      else (BitVec.ofNat 8 (if bit (s.termW n 0) 28 then held % 16 else held % 16 / 4 * 5), fails) := by
  intro n held fails
  unfold State.casxOctet
  cases hsig : s.termSig n
  case false => simp [n, hsig]
  case true =>
    cases ht1 : s.termT1 n
    case false => simp [n, held, fails, hsig, ht1]
    case true =>
      have hab : held % 16 / 4 * 4 + held % 16 / 4 = held % 16 / 4 * 5 := by omega
      cases hesf : bit (s.termW n 0) 28 <;> simp [n, held, fails, hsig, ht1, hesf, hab]

/-- The octet that CASI writes, with its CON (R157, R170). -/
theorem casiOctet_eq (f : CasiF) :
    let n := f.term.toNat
    let m := (s.term n).txPos
    let v := s.readOct f.src.toNat
    let x := s.readOct (f.src.toNat + 32)
    let carried := if m = 5 then some 3 else if m = 11 then some 2
      else if bit (s.termW n 0) 28 ∧ m = 17 then some 1 else if bit (s.termW n 0) 28 ∧ m = 23 then some 0 else none
    s.casiOctet f =
      if s.termSig n = false then s.octFillAt 1 f.dst.toNat
      else if s.termT1 n = false then
        if m = 0 then (0, false)
        else ((s.readOct (f.src.toNat + m)).1 <<< 4 ||| (s.readOct (f.src.toNat + m + 16)).1 &&& 0xF,
          (s.readOct (f.src.toNat + m)).2 || (s.readOct (f.src.toNat + m + 16)).2)
      else
        (if carried = none then v.1 else v.1 &&& 0xFE ||| (if x.1.getLsbD (carried.getD 0) then 1 else 0),
          v.2 || x.2) := by
  intro n m v x carried
  unfold State.casiOctet
  cases hsig : s.termSig n
  case false => simp [n, hsig]
  case true =>
    cases ht1 : s.termT1 n
    case false => simp [n, m, hsig, ht1]
    case true =>
      simp only [n, hsig, ht1, sigBit_eq]
      change (match carried.map x.1.getLsbD with
        | some b => v.1 &&& 0xFE ||| if b then 1 else 0
        | none => v.1, v.2 || x.2) = (if carried = none then _ else _, v.2 || x.2)
      cases carried <;> rfl

theorem frame_doCasi (f : CasiF) (c : FrameCtx) :
    Frame s (s.doCasi d f c).1 (theseRegs ueRegs) noBytes :=
  .ite (fun _ => frame_foundOct s _) fun _ => .refl s _ _

theorem doCasi_eq (f : CasiF) (c : FrameCtx) :
    s.doCasi d f c = ((s.doCasi d f c).1, s.putRun d f.dst.toNat [s.casiOctet f] c) := by
  have hseq := (frame_doCasi s (d := d) f c).octSeq
  have hoctet : (s.doCasi d f c).1.casiOctet f = s.casiOctet f := by
    simp only [State.doCasi]
    split
    · exact casiOctet_foundOct s _ f
    · rfl
  rw [← hoctet, ← putRun_congr s hseq]
  rfl

end Sys2Proof.Machine

namespace Sys2Proof

open Machine

/-- Settles O20: each is one octet put at the destination, and what `casxOctet` and `casiOctet` make is split by the
termination's signalling and rate. -/
theorem signallingInstructions : Obligations.SignallingInstructions := by
  intro d s hup c wrote ue fill
  have hwrote : ∀ {t : State} {c' : FrameCtx} {a : Nat} {x : Octet × Bool} {o : Octet} {con : Bool},
      c'.out = c.out →
      x = (o, con) → wrote (t.withFrame d.val (s.putRun d.val a [x] c')) a o con := by
    intro t c' a x o con hout hx p
    rw [frameOf_withFrame, octAt_putRun_one, octAt_eq, hout, hx]
    rfl
  refine ⟨fun f => octCompletes hup rfl (fun _ => .refl s _ _) ?casx,
    fun f => octCompletes hup rfl (fun c => frame_doCasi s f c) ?casi⟩
  case casx =>
    intro c' hout _ _
    have hdone : s.doOct d.val (.casx f) c' = (s, s.putRun d.val f.dst.toNat [s.casxOctet f] c') := rfl
    have hoctet := casxOctet_eq s f
    rw [hdone]
    dsimp only at hoctet ⊢
    generalize s.casxOctet f = x at hoctet ⊢
    split at hoctet
    case isTrue hsig => exact (if_pos hsig).mpr (hwrote hout hoctet)
    case isFalse hsig =>
      rw [if_neg hsig]
      split at hoctet
      case isTrue ht1 => exact (if_pos ht1).mpr (hwrote hout hoctet)
      case isFalse ht1 => exact (if_neg ht1).mpr (hwrote hout hoctet)
  case casi =>
    intro c' hout _ _
    have hdone : s.doOct d.val (.casi f) c' = ((s.doCasi d.val f c').1,
        s.putRun d.val f.dst.toNat [s.casiOctet f] c') :=
      doCasi_eq s f c'
    have hoctet := casiOctet_eq s f
    rw [hdone]
    dsimp only at hoctet ⊢
    generalize s.casiOctet f = x at hoctet ⊢
    generalize (s.doCasi d.val f c').1 = t
    split at hoctet
    case isTrue hsig => exact (if_pos hsig).mpr (hwrote hout hoctet)
    case isFalse hsig =>
      rw [if_neg hsig]
      split at hoctet
      case isTrue ht1 =>
        rw [if_pos ht1]
        split at hoctet
        case isTrue hm => exact (if_pos hm).mpr (hwrote hout hoctet)
        case isFalse hm => exact (if_neg hm).mpr (hwrote hout hoctet)
      case isFalse ht1 => exact (if_neg ht1).mpr (hwrote hout hoctet)

end Sys2Proof
end

section
/-! SUPPORT. The pattern channels: what an operation on one reaches, and that it acts alike on states that show the
channel alike (R167, R168, R171). -/

namespace Sys2Proof

open Machine

variable {ch : Nat} {s t u : State}

/-- The registers of a pattern channel. -/
def chanRegs (ch : Nat) : List Nat := [Reg.prbsStat ch, Reg.prbsBitsLo ch, Reg.prbsBitsHi ch, Reg.prbsErr ch]

/-- From `s` to `t` only channel `ch` and its registers change. -/
structure ChannelOnly (ch : Nat) (s t : State) : Prop where
  frame  : Frame s t (theseRegs (chanRegs ch)) noBytes
  others : ∀ e, e ≠ ch → t.prbsCh e = s.prbsCh e

theorem ChannelOnly.refl (s : State) : ChannelOnly ch s s := ⟨.refl s _ _, fun _ _ => rfl⟩

theorem ChannelOnly.trans (h : ChannelOnly ch s t) (k : ChannelOnly ch t u) : ChannelOnly ch s u :=
  ⟨h.frame.trans k.frame, fun e he => (k.others e he).trans (h.others e he)⟩

theorem ChannelOnly.ite {c : Prop} [Decidable c] {x y : State} (hx : ChannelOnly ch s x) (hy : ChannelOnly ch s y) :
    ChannelOnly ch s (if c then x else y) := by
  split
  · exact hx
  · exact hy

theorem ChannelOnly.foldl {α : Type} {f : State → α → State} (hf : ∀ s x, ChannelOnly ch s (f s x)) :
    ∀ (xs : List α) (s : State), ChannelOnly ch s (xs.foldl f s)
  | [], s => .refl s
  | x :: xs, s => (hf s x).trans (ChannelOnly.foldl hf xs (f s x))

/-- The two states show channel `ch` alike. -/
structure ChannelAlike (ch : Nat) (s t : State) : Prop where
  chan : t.prbsCh ch = s.prbsCh ch
  reg  : ∀ a ∈ chanRegs ch, t.rd a = s.rd a

theorem ChannelAlike.ite {c : Prop} [Decidable c] {x y x' y' : State} (hx : ChannelAlike ch x x')
    (hy : ChannelAlike ch y y') : ChannelAlike ch (if c then x else y) (if c then x' else y') := by
  split
  · exact hx
  · exact hy

theorem ChannelAlike.wr (h : ChannelAlike ch s t) (a : Nat) (v : W32) : ChannelAlike ch (s.wr a v) (t.wr a v) where
  chan := h.chan
  reg  := fun b hb => by rw [rd_wr, rd_wr, h.reg b hb]

theorem ChannelAlike.fget (h : ChannelAlike ch s t) {f : Fld} (hf : f.reg ∈ chanRegs ch) : t.fget f = s.fget f := by
  rw [State.fget, State.fget, h.reg _ hf]

theorem ChannelAlike.fset (h : ChannelAlike ch s t) {f : Fld} (hf : f.reg ∈ chanRegs ch) (n : Nat) :
    ChannelAlike ch (s.fset f n) (t.fset f n) := by
  rw [State.fset, State.fset, h.reg _ hf]
  exact h.wr _ _

theorem ChannelAlike.count (h : ChannelAlike ch s t) {a : Nat} (ha : a ∈ chanRegs ch) :
    ChannelAlike ch (s.count a) (t.count a) := by
  rw [State.count, State.count, h.reg a ha]
  exact h.wr _ _

theorem ChannelAlike.setPrbs (h : ChannelAlike ch s t) (x : PrbsSt) :
    ChannelAlike ch (s.setPrbs ch x) (t.setPrbs ch x) where
  chan := (Sparse.get_put_self ..).trans (Sparse.get_put_self ..).symm
  reg  := h.reg

end Sys2Proof

namespace Sys2Proof.Machine

variable (s : State) {ch : Nat} (poly : BitVec 2) (b : Bool)

theorem mem_chanRegs : Reg.prbsStat ch ∈ chanRegs ch ∧ Reg.prbsBitsLo ch ∈ chanRegs ch ∧
    Reg.prbsBitsHi ch ∈ chanRegs ch ∧ Reg.prbsErr ch ∈ chanRegs ch := by simp [chanRegs]

theorem prbsCh_setPrbs_self (x : PrbsSt) : (s.setPrbs ch x).prbsCh ch = x := Sparse.get_put_self ..

theorem channelOnly_setPrbs (x : PrbsSt) : ChannelOnly ch s (s.setPrbs ch x) :=
  ⟨.of_hidden ⟨rfl, rfl, rfl, rfl, rfl⟩ rfl, fun _ he => Sparse.get_put_ne _ _ _ _ he.symm⟩

theorem channelOnly_wr {a : Nat} (v : W32) (ha : a ∈ chanRegs ch) : ChannelOnly ch s (s.wr a v) :=
  ⟨frame_wr s a v (.inl (theseRegs_true.2 ha)), fun _ _ => rfl⟩

theorem channelOnly_stat (hi lo : Nat) (b : Bool) : ChannelOnly ch s (s.fbit ⟨Reg.prbsStat ch, hi, lo⟩ b) :=
  channelOnly_wr s _ mem_chanRegs.1

/-! ### The count of bits (R171) -/

/-- The 48-bit count grows by one. -/
def State.prbsGrown (s : State) (ch : Nat) : State :=
  let n := (s.rd (Reg.prbsBitsLo ch)).toNat + 1
  let t := s.wr (Reg.prbsBitsLo ch) (BitVec.ofNat 32 n)
  if n < 2 ^ 32 then t else t.fset (F.prbsBitsHi_bitsHi ch) (t.fget (F.prbsBitsHi_bitsHi ch) + 1)

theorem prbsBit_eq (err : Bool) :
    s.prbsBit ch err = if err then (s.prbsGrown ch).count (Reg.prbsErr ch) else s.prbsGrown ch := rfl

theorem channelOnly_prbsBit (err : Bool) : ChannelOnly ch s (s.prbsBit ch err) := by
  obtain ⟨-, hlo, hhi, herr⟩ := mem_chanRegs (ch := ch)
  have hgrown : ChannelOnly ch s (s.prbsGrown ch) :=
    .ite (channelOnly_wr s _ hlo) ((channelOnly_wr s _ hlo).trans (channelOnly_wr _ _ hhi))
  rw [prbsBit_eq]
  exact .ite (hgrown.trans (channelOnly_wr _ _ herr)) hgrown

theorem channelAlike_prbsBit {t : State} (h : ChannelAlike ch s t) (err : Bool) :
    ChannelAlike ch (s.prbsBit ch err) (t.prbsBit ch err) := by
  obtain ⟨-, hlo, hhi, herr⟩ := mem_chanRegs (ch := ch)
  have hgrown : ChannelAlike ch (s.prbsGrown ch) (t.prbsGrown ch) := by
    unfold State.prbsGrown
    rw [h.reg _ hlo]
    have hw := h.wr (Reg.prbsBitsLo ch) (BitVec.ofNat 32 ((s.rd (Reg.prbsBitsLo ch)).toNat + 1))
    dsimp only
    rw [hw.fget (f := F.prbsBitsHi_bitsHi ch) hhi]
    exact .ite hw (hw.fset hhi _)
  rw [prbsBit_eq, prbsBit_eq]
  exact .ite (hgrown.count herr) hgrown

/-- A counted bit grows PRBS_BITS and, with an error, PRBS_ERR; the channel and PRBS_STAT stay. -/
theorem prbsBit_shows (err : Bool) : let t := s.prbsBit ch err
    t.rd (Reg.prbsBitsLo ch) = s.rd (Reg.prbsBitsLo ch) + 1 ∧
      t.rd (Reg.prbsErr ch) = s.rd (Reg.prbsErr ch) + (if err then 1 else 0) ∧
      t.rd (Reg.prbsStat ch) = s.rd (Reg.prbsStat ch) := by
  have hgrown : (s.prbsGrown ch).rd (Reg.prbsBitsLo ch) = s.rd (Reg.prbsBitsLo ch) + 1 ∧
      (s.prbsGrown ch).rd (Reg.prbsErr ch) = s.rd (Reg.prbsErr ch) ∧
      (s.prbsGrown ch).rd (Reg.prbsStat ch) = s.rd (Reg.prbsStat ch) := by
    have hlo : BitVec.ofNat 32 ((s.rd (Reg.prbsBitsLo ch)).toNat + 1) = s.rd (Reg.prbsBitsLo ch) + 1 := by
      apply BitVec.eq_of_toNat_eq
      simp
    unfold State.prbsGrown
    dsimp only
    rw [hlo]
    split
    · simp [rd_wr]
    · simp [rd_wr, State.fset]
  obtain ⟨hlo, herr, hstat⟩ := hgrown
  rw [prbsBit_eq]
  cases err
  · exact ⟨hlo, herr.trans (BitVec.add_zero _).symm, hstat⟩
  · refine ⟨?_, (rd_count_self _ _ 1).trans (congrArg (· + 1) herr), ?_⟩
    · exact (rd_count_ne _ 1 (by simp)).trans hlo
    · exact (rd_count_ne _ 1 (by simp)).trans hstat

/-! ### A received bit (R168) -/

theorem channelOnly_prbsCheckBit : ChannelOnly ch s (s.prbsCheckBit ch poly b) := by
  have hcounted := fun err => channelOnly_prbsBit s (ch := ch) err
  have hset := fun (t : State) x => channelOnly_setPrbs t (ch := ch) x
  unfold State.prbsCheckBit
  dsimp only
  refine .ite ((hcounted _).trans (.ite (.ite ?lost (hset _ _)) (hset _ _)))
    (.ite (hset _ _) (.ite (.ite ?found (hset _ _)) (hset _ _)))
  case lost => exact ((hset _ _).trans (channelOnly_stat _ _ _ _)).trans (channelOnly_stat _ _ _ _)
  case found => exact (hset _ _).trans (channelOnly_stat _ _ _ _)

theorem channelAlike_prbsCheckBit {t : State} (h : ChannelAlike ch s t) :
    ChannelAlike ch (s.prbsCheckBit ch poly b) (t.prbsCheckBit ch poly b) := by
  obtain ⟨hstat, -⟩ := mem_chanRegs (ch := ch)
  have hcounted := fun err => channelAlike_prbsBit s h err
  have hflag : t.flag (F.prbsStat_inSync ch) = s.flag (F.prbsStat_inSync ch) := by
    rw [State.flag, State.flag, h.fget hstat]
  unfold State.prbsCheckBit
  rw [hflag, h.chan]
  dsimp only
  refine .ite (.ite (.ite ?lost ((hcounted _).setPrbs _)) ((hcounted _).setPrbs _))
    (.ite (h.setPrbs _) (.ite (.ite ?found (h.setPrbs _)) (h.setPrbs _)))
  case lost => exact (((hcounted _).setPrbs _).fset hstat _).fset hstat _
  case found => exact (h.setPrbs _).fset hstat _

/-! ### Received octets (R155, R168) -/

/-- The bits that an octet gives, most significant first: none of one with CON. -/
def prbsBitsOf (x : Octet × Bool) : List Bool := if x.2 then [] else (List.range 8).map fun i => x.1.getLsbD (7 - i)

theorem prbsCheckOctets_eq : ∀ (xs : List (Octet × Bool)) (s : State),
    s.prbsCheckOctets ch poly xs = (xs.flatMap prbsBitsOf).foldl (fun u b => u.prbsCheckBit ch poly b) s
  | [], _ => rfl
  | (o, con) :: xs, s => by
    unfold State.prbsCheckOctets
    rw [prbsCheckOctets_eq xs, List.flatMap_cons, List.foldl_append]
    cases con
    · simp only [prbsBitsOf, Bool.false_eq_true, if_false, List.foldl_map]
    · rfl

theorem channelAlike_foldl : ∀ (bs : List Bool) {s t : State}, ChannelAlike ch s t →
    ChannelAlike ch (bs.foldl (fun u b => u.prbsCheckBit ch poly b) s)
      (bs.foldl (fun u b => u.prbsCheckBit ch poly b) t)
  | [], _, _, h => h
  | b :: bs, s, _, h => channelAlike_foldl bs (channelAlike_prbsCheckBit s poly b h)

end Sys2Proof.Machine
end

section
/-! SUPPORT. A received bit at a checker, case by case (R168). -/

namespace Sys2Proof.Machine

variable (s : State) {ch : Nat} {poly : BitVec 2} {b : Bool}

theorem flag_inSync_fbit (on : Bool) : (s.fbit (F.prbsStat_inSync ch) on).flag (F.prbsStat_inSync ch) = on :=
  flag_fbit_self s on ⟨Nat.le_refl 31, Nat.lt_succ_self 31⟩ rfl

/-- PRBS_STAT alone changes, of the registers of a channel. -/
theorem rd_fbit_prbsStat (hi lo : Nat) (on : Bool) :
    (s.fbit ⟨Reg.prbsStat ch, hi, lo⟩ on).rd (Reg.prbsBitsLo ch) = s.rd (Reg.prbsBitsLo ch) ∧
      (s.fbit ⟨Reg.prbsStat ch, hi, lo⟩ on).rd (Reg.prbsErr ch) = s.rd (Reg.prbsErr ch) := by
  constructor <;> exact rd_fbit_ne s _ on (by simp only [Reg.prbsStat, Reg.prbsBitsLo, Reg.prbsErr]; omega)

theorem prbsCh_fbit (f : Fld) (on : Bool) : (s.fbit f on).prbsCh ch = s.prbsCh ch := rfl

/-! ### Out of sync -/

section
variable (hsync : s.flag (F.prbsStat_inSync ch) = false)
include hsync

theorem prbsCheckBit_loads (hload : (s.prbsCh ch).loaded < (prbsTaps poly).1) :
    s.prbsCheckBit ch poly b = s.setPrbs ch
      { s.prbsCh ch with reg := prbsLoad (s.prbsCh ch).reg b, loaded := (s.prbsCh ch).loaded + 1, confirm := 0 } :=
  (if_neg (by simp [hsync])).trans (if_pos hload)

variable (hload : ¬ (s.prbsCh ch).loaded < (prbsTaps poly).1)
include hload

theorem prbsCheckBit_confirms (hb : (prbsNext poly (s.prbsCh ch).reg).1 = b) :
    s.prbsCheckBit ch poly b =
      let t := s.setPrbs ch { s.prbsCh ch with
        reg := (prbsNext poly (s.prbsCh ch).reg).2, confirm := (s.prbsCh ch).confirm + 1, blkBits := 0, blkErr := 0 }
      if (s.prbsCh ch).confirm + 1 = 64 then t.fbit (F.prbsStat_inSync ch) true else t :=
  (if_neg (by simp [hsync])).trans ((if_neg hload).trans (if_pos hb))

theorem prbsCheckBit_disagrees (hb : ¬ (prbsNext poly (s.prbsCh ch).reg).1 = b) :
    s.prbsCheckBit ch poly b = s.setPrbs ch { s.prbsCh ch with loaded := 0, confirm := 0 } :=
  (if_neg (by simp [hsync])).trans ((if_neg hload).trans (if_neg hb))

end

/-- What a bit out of sync makes of the channel and of the sync; nothing is counted. -/
theorem prbsCheckBit_out_of_sync (hsync : s.flag (F.prbsStat_inSync ch) = false) :
    let x := s.prbsCh ch
    let t := s.prbsCheckBit ch poly b
    let y := t.prbsCh ch
    let next := prbsNext poly x.reg
    let inSync := t.flag (F.prbsStat_inSync ch)
    (t.rd (Reg.prbsBitsLo ch) = s.rd (Reg.prbsBitsLo ch) ∧ t.rd (Reg.prbsErr ch) = s.rd (Reg.prbsErr ch)) ∧
      (if x.loaded < (prbsTaps poly).1 then y.reg = prbsLoad x.reg b ∧ y.loaded = x.loaded + 1 ∧ inSync = false
       else if next.1 = b then
        y.reg = next.2 ∧ y.confirm = x.confirm + 1 ∧ inSync = decide (x.confirm + 1 = 64)
       else y.loaded = 0 ∧ inSync = false) := by
  dsimp only
  split
  case isTrue hload =>
    rw [prbsCheckBit_loads s hsync hload, prbsCh_setPrbs_self]
    exact ⟨⟨rfl, rfl⟩, rfl, rfl, hsync⟩
  case isFalse hload =>
    split
    case isTrue hb =>
      rw [prbsCheckBit_confirms s hsync hload hb]
      dsimp only
      split
      case isTrue h64 =>
        rw [prbsCh_fbit, prbsCh_setPrbs_self]
        exact ⟨rd_fbit_prbsStat _ _ _ true, rfl, rfl, (flag_inSync_fbit _ true).trans (decide_eq_true h64).symm⟩
      case isFalse h64 =>
        rw [prbsCh_setPrbs_self]
        exact ⟨⟨rfl, rfl⟩, rfl, rfl, hsync.trans (decide_eq_false h64).symm⟩
    case isFalse hb =>
      rw [prbsCheckBit_disagrees s hsync hload hb, prbsCh_setPrbs_self]
      exact ⟨⟨rfl, rfl⟩, rfl, hsync⟩

/-! ### In sync -/

section
variable (hsync : s.flag (F.prbsStat_inSync ch) = true)
include hsync

/-- The bit is counted, then the block goes on, ends, or ends the sync. -/
theorem prbsCheckBit_counts :
    s.prbsCheckBit ch poly b =
      let x := s.prbsCh ch
      let next := prbsNext poly x.reg
      let errs := x.blkErr + b2n (decide (next.1 ≠ b))
      let t := s.prbsBit ch (decide (next.1 ≠ b))
      if x.blkBits + 1 = 64 then
        if errs ≥ 16 then
          ((t.setPrbs ch { x with loaded := 0, confirm := 0, blkBits := 0, blkErr := 0 }).fbit
            (F.prbsStat_inSync ch) false).fbit (F.prbsStat_syncLost ch) true
        else t.setPrbs ch { x with reg := next.2, blkBits := 0, blkErr := 0 }
      else t.setPrbs ch { x with reg := next.2, blkBits := x.blkBits + 1, blkErr := errs } := if_pos hsync

end

theorem prbsCheckBit_in_sync (hsync : s.flag (F.prbsStat_inSync ch) = true) :
    let x := s.prbsCh ch
    let t := s.prbsCheckBit ch poly b
    let y := t.prbsCh ch
    let next := prbsNext poly x.reg
    let errs := x.blkErr + (if next.1 = b then 0 else 1)
    t.rd (Reg.prbsBitsLo ch) = s.rd (Reg.prbsBitsLo ch) + 1 ∧
      t.rd (Reg.prbsErr ch) = s.rd (Reg.prbsErr ch) + (if next.1 = b then 0 else 1) ∧
      (if x.blkBits + 1 = 64 ∧ 16 ≤ errs then
         t.flag (F.prbsStat_inSync ch) = false ∧ t.flag (F.prbsStat_syncLost ch) = true ∧ y.loaded = 0
       else t.flag (F.prbsStat_inSync ch) = true ∧ y.reg = next.2 ∧
         (y.blkBits, y.blkErr) = (if x.blkBits + 1 = 64 then (0, 0) else (x.blkBits + 1, errs))) := by
  dsimp only
  obtain ⟨hlo, herr, hstat⟩ := prbsBit_shows s (ch := ch) (decide ((prbsNext poly (s.prbsCh ch).reg).1 ≠ b))
  have hone : (if decide ((prbsNext poly (s.prbsCh ch).reg).1 ≠ b) = true then (1 : W32) else 0) =
      if (prbsNext poly (s.prbsCh ch).reg).1 = b then 0 else 1 := by
    simp only [ne_eq, decide_not, Bool.not_eq_true', decide_eq_false_iff_not, ite_not]
  have herrs : b2n (decide ((prbsNext poly (s.prbsCh ch).reg).1 ≠ b)) =
      if (prbsNext poly (s.prbsCh ch).reg).1 = b then 0 else 1 := by
    split <;> simp_all [b2n]
  rw [hone] at herr
  rw [prbsCheckBit_counts s hsync]
  dsimp only
  rw [herrs]
  have hkept :
      (s.prbsBit ch (decide ((prbsNext poly (s.prbsCh ch).reg).1 ≠ b))).flag (F.prbsStat_inSync ch) = true := by
    rw [← hsync, State.flag, State.flag, State.fget, State.fget, hstat]
  generalize s.prbsBit ch _ = t at hlo herr hkept ⊢
  generalize (s.prbsCh ch).blkErr + _ = errs
  by_cases hend : (s.prbsCh ch).blkBits + 1 = 64
  case neg =>
    have hgoes : ¬ ((s.prbsCh ch).blkBits + 1 = 64 ∧ 16 ≤ errs) := fun h => hend h.1
    rw [if_neg hend, if_neg hgoes, if_neg hend, prbsCh_setPrbs_self]
    exact ⟨hlo, herr, hkept, rfl, rfl⟩
  case pos =>
    rw [if_pos hend, if_pos hend]
    by_cases hlost : 16 ≤ errs
    case neg =>
      have hgoes : ¬ ((s.prbsCh ch).blkBits + 1 = 64 ∧ 16 ≤ errs) := fun h => hlost h.2
      rw [if_neg hlost, if_neg hgoes, prbsCh_setPrbs_self]
      exact ⟨hlo, herr, hkept, rfl, rfl⟩
    case pos =>
      rw [if_pos hlost, if_pos (⟨hend, hlost⟩ : _ ∧ 16 ≤ errs), prbsCh_fbit, prbsCh_fbit, prbsCh_setPrbs_self]
      refine ⟨?_, ?_, ?_, ?_, rfl⟩
      · exact (rd_fbit_prbsStat _ 30 30 true).1.trans ((rd_fbit_prbsStat _ 31 31 false).1.trans hlo)
      · exact (rd_fbit_prbsStat _ 30 30 true).2.trans ((rd_fbit_prbsStat _ 31 31 false).2.trans herr)
      · exact (flag_fbit_apart _ _ ⟨Nat.le_refl 30, by simp⟩ (.inl (Nat.lt_succ_self 30))).trans
          (flag_inSync_fbit _ false)
      · exact flag_fbit_self _ true ⟨Nat.le_refl 30, by simp⟩ rfl

end Sys2Proof.Machine
end

section
/-! SUPPORT. Tones and patterns as runs of octets (R153-R155). -/

namespace Sys2Proof.Machine

variable (s : State) {d : Nat}

/-- What TONE writes at its position `k`: FILL[1] with CON for an entry of length 0, all-ones with CON where the tone
memory cannot be read, else the sample (R153, R339). -/
def State.toneOctet (s : State) (f : ToneF) (k : Nat) : Octet × Bool :=
  let e := s.latched.toneDir.get (0, 0) f.tone.toNat
  let j := (s.clock.frame.toNat + f.phase.toNat + k * f.pstep.toNat) % toneLen e.2
  if toneLen e.2 = 0 then s.octFillAt 1 (f.dst.toNat + k)
  else if s.toneBad ((bits e.1 19 0 + j) % 1048576) then (0xFF, true) else (s.toneSample e j, false)

theorem doTone_eq (f : ToneF) (c : FrameCtx) :
    (s.doTone d f c).2 = s.putRun d f.dst.toNat ((List.range (f.nM1.toNat + 1)).map (s.toneOctet f)) c := by
  unfold State.doTone
  dsimp only
  split
  case isTrue hlen =>
    have htone : s.toneOctet f = fun k => s.octFillAt 1 (f.dst.toNat + k) := funext fun k => if_pos hlen
    rw [htone]
    rfl
  case isFalse hlen =>
    have htone : s.toneOctet f = _ := funext fun k => if_neg hlen
    rw [htone, List.map_map]
    rfl

theorem frame_doTone (f : ToneF) (c : FrameCtx) : Frame s (s.doTone d f c).1 (theseRegs ueRegs) noBytes := by
  unfold State.doTone
  dsimp only
  split
  · exact .refl s _ _
  · exact (Recorded.foldl (fun t _ => recorded_foundUe t _ _) _ s).frame

theorem length_prbsOctets (poly : BitVec 2) : ∀ (n : Nat) (r : BitVec 20), (prbsOctets poly n r).1.length = n
  | 0, _ => rfl
  | n + 1, _ => congrArg Nat.succ (length_prbsOctets poly n _)

/-- A list is what its places show. -/
theorem map_eq_map_range {α β : Type} (xs : List α) (a : α) (f : α → β) :
    xs.map f = (List.range xs.length).map fun k => f (xs.getD k a) := by
  apply List.ext_getElem <;> simp +contextual

theorem doPrbs_generates (f : PrbsF) (c : FrameCtx) :
    (s.doPrbs d false f c).2 = s.putRun d f.addr.toNat ((List.range (f.nM1.toNat + 1)).map fun k =>
      ((prbsOctets f.poly (f.nM1.toNat + 1) (s.prbsCh f.chan.toNat).reg).1.getD k 0, false)) c := by
  refine (putRun_congr s ?_ _ _ c).trans ?_
  · rfl
  · rw [map_eq_map_range _ 0, length_prbsOctets]

theorem doPrbs_checks (f : PrbsF) (c : FrameCtx) :
    s.doPrbs d true f c =
      (((List.range (f.nM1.toNat + 1)).flatMap fun k => prbsBitsOf (s.readOct (f.addr.toNat + k))).foldl
        (fun u b => u.prbsCheckBit f.chan.toNat f.poly b)
        (s.foundOct (runAddrs f.addr.toNat (f.nM1.toNat + 1) 1)), c) := by
  rw [State.doPrbs, if_pos rfl]
  dsimp only
  rw [prbsCheckOctets_eq, readRun_one, List.flatMap_map]

theorem frame_doPrbs_check (f : PrbsF) (c : FrameCtx) :
    Frame s (s.doPrbs d true f c).1 (theseRegs (ueRegs ++ chanRegs f.chan.toNat)) noBytes := by
  rw [doPrbs_checks]
  have hbits := ChannelOnly.foldl (fun t b => channelOnly_prbsCheckBit t (ch := f.chan.toNat) f.poly b)
  refine ((frame_foundOct s _).mono ?_ fun _ => id).trans ((hbits _ _).frame.mono ?_ fun _ => id)
  · exact fun a ha => theseRegs_true.2 (List.mem_append_left _ (theseRegs_true.1 ha))
  · exact fun a ha => theseRegs_true.2 (List.mem_append_right _ (theseRegs_true.1 ha))

theorem chanRegs_range {ch a : Nat} (hch : ch < 1024) (ha : a ∈ chanRegs ch) : 0xb4000 ≤ a ∧ a < 0xb8000 := by
  simp only [chanRegs, Reg.prbsStat, Reg.prbsBitsLo, Reg.prbsBitsHi, Reg.prbsErr, List.mem_cons, List.not_mem_nil,
    or_false] at ha
  omega

theorem channelAlike_foundOct {ch : Nat} (hch : ch < 1024) (as : List Nat) : ChannelAlike ch s (s.foundOct as) where
  chan := (congrArg (fun t : State => t.prbsCh ch) (recorded_foundOct as s).bare :)
  reg  := fun a ha => by
    have hrange := chanRegs_range hch ha
    refine (recorded_foundOct as s).rd (fun hm => ?_) (Bool.eq_false_iff.2 fun he => ?_)
    · simp only [ueRegs, Reg.memUeAddr, Reg.memCntUe, List.mem_cons, List.not_mem_nil, or_false] at hm
      omega
    · have := eventReg_range he
      omega

end Sys2Proof.Machine
end

section
/-! OBLIGATION O19. -/

namespace Sys2Proof

open Machine

/-- Settles O19: a tone and a generated sequence are runs of octets, a checker takes the bits of its octets one by one,
and a bit is split by the sync, the load and the block. -/
theorem tonesAndPatterns : Obligations.TonesAndPatterns := by
  constructor
  case right =>
    intro n poly b s x t y next inSync counted
    refine ⟨fun hsync => ?_, prbsCheckBit_in_sync s⟩
    obtain ⟨⟨hlo, herr⟩, hbit⟩ := prbsCheckBit_out_of_sync s (poly := poly) (b := b) hsync
    exact ⟨Prod.ext hlo herr, hbit⟩
  case left =>
    intro d s hup c at' ue
    refine ⟨fun f => octCompletes hup rfl (fun c => frame_doTone s f c) ?tone,
      fun f => octCompletes hup rfl (fun c => .of_hidden ⟨rfl, rfl, rfl, rfl, rfl⟩ rfl) ?generate,
      fun f => octCompletes hup rfl (fun c => ?checkFrame) ?check⟩
    case tone =>
      intro c' hout _ _ e len a
      simp only [at', frameOf_withFrame, State.doOct, doTone_eq]
      rw [octAt_putRun, octAt_eq, octAt_eq, hout]
      refine if_ctx_congr .rfl (fun h => ?_) fun _ => rfl
      simp only [State.toneOctet, Nat.add_sub_cancel' h.1]
      rw [apply_ite s.octCellOf, apply_ite some, apply_ite s.octCellOf, apply_ite some]
      rfl
    case generate =>
      intro c' hout _ _
      refine ⟨fun a => ?_, prbsCh_setPrbs_self s _, fun ch hch => (channelOnly_setPrbs s _).others ch hch⟩
      simp only [at', frameOf_withFrame, State.doOct, doPrbs_generates]
      rw [octAt_putRun, octAt_eq, octAt_eq, hout]
      rfl
    case checkFrame => exact frame_doPrbs_check s (d := d.val) f c
    case check =>
      intro c' hout _ _
      have hfound := channelAlike_foundOct s f.chan.isLt (runAddrs f.addr.toNat (f.nM1.toNat + 1) 1)
      simp only [frameOf_withFrame, State.doOct, doPrbs_checks]
      have halike := channelAlike_foldl (poly := f.poly)
        ((List.range (f.nM1.toNat + 1)).flatMap fun k => prbsBitsOf (s.readOct (f.addr.toNat + k))) hfound
      have honly := ChannelOnly.foldl (fun t b => channelOnly_prbsCheckBit t (ch := f.chan.toNat) f.poly b)
      refine ⟨hout, halike.chan, halike.reg, fun ch hch => ?_⟩
      exact ((honly _ _).others ch hch).trans (congrArg (fun t : State => t.prbsCh ch) (recorded_foundOct _ s).bare :)

end Sys2Proof
end
